-- ==== Sys2Proof/Machine/Bits.lean ====
section
/-!
DEFINITION. Bit fields, sign extension, byte order and the small list operations the machine is built from (R4, R9).
-/
namespace Sys2Proof.Machine

/-- Bits [lo + n - 1 : lo] of a word, as a number (R4). -/
def fld {w : Nat} (x : BitVec w) (lo n : Nat) : Nat := x.toNat / 2 ^ lo % 2 ^ n
/-- One bit. -/
def bit {w : Nat} (x : BitVec w) (i : Nat) : Bool := x.getLsbD i
/-- x with bit i set to v. -/
def setBit {w : Nat} (x : BitVec w) (i : Nat) (v : Bool) : BitVec w :=
  if v then x ||| BitVec.ofNat w (2 ^ i) else x &&& ~~~(BitVec.ofNat w (2 ^ i))
/-- SX(v, n): sign-extends the low n bits to 64 (R9). -/
def sx (n : Nat) (v : Nat) : BitVec 64 := (BitVec.ofNat n v).signExtend 64
/-- A Bool as a 64-bit 0 or 1. -/
def b64 (b : Bool) : BitVec 64 := if b then 1 else 0
def w64 (n : Nat) : BitVec 64 := BitVec.ofNat 64 n
/-- All ones. -/
def ones64 : BitVec 64 := BitVec.allOnes 64
/-- The signed value of the low n bits. -/
def sint (n : Nat) (v : Nat) : Int := (BitVec.ofNat n v).toInt
/-- Whether all of a range of bits is zero. -/
def zeroBits {w : Nat} (x : BitVec w) (lo n : Nat) : Bool := fld x lo n == 0

/-- Little-endian bytes of a number (R4). -/
def toBytes : Nat → Nat → List (BitVec 8)
  | 0, _ => []
  | n + 1, v => BitVec.ofNat 8 v :: toBytes n (v / 256)
def ofBytes : List (BitVec 8) → Nat
  | [] => 0
  | b :: r => b.toNat + 256 * ofBytes r

/-- Association lists with rising keys. -/
def alGet {α : Type} : List (Nat × α) → Nat → Option α
  | [], _ => none
  | (k, v) :: r, i => if k = i then some v else alGet r i
def alSet {α : Type} : List (Nat × α) → Nat → α → List (Nat × α)
  | [], i, a => [(i, a)]
  | (k, v) :: r, i, a => if i = k then (i, a) :: r else if i < k then (i, a) :: (k, v) :: r else (k, v) :: alSet r i a
def alDel {α : Type} (l : List (Nat × α)) (i : Nat) : List (Nat × α) := l.filter fun e => e.1 != i

/-- Rising lists of numbers, as sets. -/
def nsAdd : List Nat → Nat → List Nat
  | [], i => [i]
  | k :: r, i => if i = k then k :: r else if i < k then i :: k :: r else k :: nsAdd r i
def nsDel (l : List Nat) (i : Nat) : List Nat := l.filter fun k => k != i

def vget {α : Type} {n : Nat} (v : Vector α n) (i : Nat) (d : α) : α := if h : i < n then v[i] else d
def vset {α : Type} {n : Nat} (v : Vector α n) (i : Nat) (a : α) : Vector α n := if h : i < n then v.set i a else v

/-- Inserts into a list of (due cycle, item), after the items due no later. -/
def insertDue {α : Type} : List (Nat × α) → Nat → α → List (Nat × α)
  | [], t, a => [(t, a)]
  | (k, b) :: r, t, a => if t < k then (t, a) :: (k, b) :: r else (k, b) :: insertDue r t a

/-- Numbers 0 to n - 1, rising. -/
def upTo : Nat → List Nat
  | 0 => []
  | n + 1 => upTo n ++ [n]
/-- Applies f to the state for 0 to n - 1 in order. -/
def iter {σ : Type} (f : Nat → σ → σ) : Nat → σ → σ
  | 0, s => s
  | n + 1, s => f n (iter f n s)

/-- The element with the least key, the earliest of equals. -/
def minBy {α : Type} (key : α → Nat) : List α → Option α
  | [] => none
  | a :: r =>
    match minBy key r with
    | none => some a
    | some b => if key b < key a then some b else some a

end Sys2Proof.Machine
end

