-- ==== Sys2Proof/Word.lean ====
section
/-!
DEFINITION. The machine's word types, and the plain records that travel between cores or arrive from outside
(barge packets, boot results, error sites, device register names). Records only: everything computed stands elsewhere.
-/
namespace Sys2Proof

/-- A general register or a CSR (R23). -/
abbrev Word := BitVec 64
/-- An f register, a vector lane, an accumulator element, an instruction word (R23, R38). -/
abbrev W32 := BitVec 32
abbrev Byte := BitVec 8
/-- One v register: one 128-byte sector; lane i is bits 32i+31 to 32i (R23, R104). -/
abbrev VReg := BitVec 1024
/-- One 1,024-byte line of the L1 or the cluster cache; byte k is bits 8k+7 to 8k (R174). -/
abbrev LineData := BitVec 8192
/-- One accumulator: element (i, j) is bits 32(32i+j)+31 to 32(32i+j) (R122). -/
abbrev AccData := BitVec 32768
/-- The tile data of one latch half, byte k at bits 8k+7 to 8k (R122). -/
abbrev HalfData := BitVec 131072
/-- The scale words of one latch half (R122). -/
abbrev HalfScales := BitVec 8192
/-- A decode table: the F19 value of code k is bits 19k+18 to 19k (R60). -/
abbrev DTab := BitVec 4864

/-- KIND of a barge packet (R144). -/
inductive BKind where
  | ordinary | pair | continuation
deriving DecidableEq, Repr

/-- The fields of a packet's header words that travel with a barge (R144). -/
structure Hdr where
  pfh  : W32
  lid  : BitVec 16
  asid : BitVec 8
  pri  : BitVec 2
  stl  : Bool
  kind : BKind
  cl   : Bool
deriving DecidableEq, Repr

/-- A barge packet (R144, R145). `norule` marks a pair barge whose pair has no valid rule entry (R225, R227): the pair
message's VALID = 0. `pend` marks a pair barge that has not docked yet, which PEND counts (R163). `nodes` are the nodes
of the pair that the barge rewrites (R230), as place bits. None of the three has a place among the 288 bytes. -/
structure Packet where
  hdr : Hdr
  pc  : Word
  p   : W32
  fr  : Word
  x   : Vector Word 24
  f   : Vector W32 16
  norule : Bool
  pend : Bool
  nodes : List Nat
deriving DecidableEq, Repr

/-- What a message brings, with the rank it comes from, whose messages keep their order to a rank that takes none (R266). -/
structure Sent (α : Type) where
  val : α
  src : Nat
deriving DecidableEq, Repr

/-- Where an error of R338 strikes. -/
inductive ErrUnit where
  | clm (rank off : Nat)           -- a CLM unit
  | mem (pa : Nat)                 -- a unit of an LLC slice
  | hbm (pa : Nat)                 -- a unit of HBM
  | basin (cl off : Nat)           -- a basin bank unit
  | l1 (rank asid va : Nat)        -- an L1 unit
  | icache (rank asid va : Nat)    -- an instruction-cache word
  | tlb (cl asid gran : Nat)       -- a translation unit entry
  | stair (cl slot : Nat)          -- a staircase store entry of a slot
  | acc (rank n row : Nat)         -- an accumulator element of a row
  | latch (rank half : Nat)        -- a B latch half
  | reg (rank berth : Nat)         -- a register file
  | pool (rank lid : Nat)          -- network interface pool state
  | state (rank : Nat)             -- a packet, frame record, queue control word or save area
  | rankEntry (rank : Nat)         -- a rank table entry
  | mesh (rank : Nat)              -- a flit that failed its CRC eight times
  | stack (n : Nat)                -- a whole HBM stack
  | package                        -- a thermal trip (R359)
deriving DecidableEq, Repr

/-- A flit of message number `idx` in flight fails its CRC for the `fails`-th time at a hop near `rank` (R338, R340). -/
structure FlitErr where
  idx : Nat
  fails : Nat
  rank : Nat
deriving DecidableEq, Repr

/-- A firmware slot as the boot ROM reads it from a drive (R354). -/
structure FwSlot where
  magic : W32
  ver   : W32
  len   : W32
  dig   : BitVec 256
  sig   : BitVec 512
  pub   : BitVec 512
  image : List Byte
deriving DecidableEq, Repr

/-- What the boot of R353 meets: the slots A and B of each drive that answers, the results of training and testing, and
the firmware configuration's PLIM and CORRMAX and the drive it names for dumps, where it sets them (R347, R350, R360). -/
structure BootInput where
  drive0 : Option (Option FwSlot × Option FwSlot)
  drive1 : Option (Option FwSlot × Option FwSlot)
  plim : Option Nat
  corrMax : Option Nat
  dumpDrive : Option Nat
  hbm    : BitVec 8
  links  : BitVec 16
  clusters : List Nat      -- logical clusters that pass their tests, in the order tested
  stairs   : List Nat      -- staircase engines that pass
  spares   : Nat
  dev      : BitVec 12     -- the device number given at link training (R281)
deriving DecidableEq, Repr

/-- Registers that have no step of their own in the table; REGISTER_WRITE names one of them. -/
inductive DevReg where
  | jqbase | jqsize | bar2off | tlbva | tlblen
  | atnonce (n : Nat) | ataddr
  | dbgctl (rank : Nat) | dbgsel (rank : Nat)
  | csr (rank berth num : Nat)
  | tlbinv
  | plim                           -- the firmware configuration's power limit (R360)
  | image (f : FwSlot)             -- a new firmware image for the lockhouse (R354)
deriving DecidableEq, Repr

end Sys2Proof
end

