-- ==== Sys2Proof/Config.lean ====
section
/-!
DEFINITION. What the spec leaves to the part or leaves open. Every constant here is opaque: nothing in Lean can
evaluate it, so no statement can rest on a value the spec does not give. The log entries named beside them say where
the spec leaves them open.
-/
namespace Sys2Proof.Config

/-- An undefined byte: what a SCRATCH bank holds after its switch (R172), a stale queue slot (R147), words 1 to 7 of a
free node slot (R236). The argument is a fresh counter or place (log 8). -/
opaque freeByte : Nat → Byte
/-- An undefined word (log 8). -/
opaque freeWord : Nat → Word
/-- Which of n lines a full L1 set, cluster-cache set or translation unit gives up: not promised (R174, R278) (log 9). -/
opaque victim : Nat → Nat → Nat
/-- The SM3 digest of a byte string (R354, R358): a published algorithm the spec names and does not define (log 10). -/
opaque sm3 : List Byte → BitVec 256
/-- Whether an SM2 signature over a byte string verifies under a public key (R354) (log 10). -/
opaque sm2Verify : List Byte → BitVec 512 → BitVec 512 → Bool
/-- The SM2 signature of the package's identity key over a report (R358) (log 10). -/
opaque sm2Sign : List Byte → BitVec 512
/-- The key digest and the minimum version fused in the package (R354), and the digest of the boot ROM (R358). -/
opaque fusedKey : BitVec 256
opaque fusedMinVer : Nat
opaque romDigest : BitVec 256
/-- The HBM stack that holds a physical address; the spec gives no interleaving (R342) (log 11). -/
opaque stackOf : Nat → Nat
/-- The die edges that a packet crosses between two ranks; the spec does not say where the dies lie (R153) (log 11). -/
opaque dieEdges : Nat → Nat → Nat
/-- Physical cluster numbers of the spares, by use (R350); the spec names none (log 11). -/
opaque spareCluster : Nat → Nat
/-- Whether a line is in the LLC when it is asked for in a cycle (R37, R278) (log 5). -/
opaque llcHit : Nat → Nat → Bool
/-- How many of a range's lines are dirty in the LLC when a CMO asks, by the cycle and the first line (R197) (log 5). -/
opaque llcDirty : Nat → Nat → Nat
/-- The set of a translation unit that takes a page of an ASID: not promised (R278) (log 9). -/
opaque tlbSet : Nat → Nat → Nat
/-- The devices of a launch's group, by its descriptor's address; the descriptor has no field for them (R284) (log 18). -/
opaque deviceGroup : Nat → List Nat
/-- The LID that the lockhouses of a group agree on, and the counts LIVE, PEND, SENT and RECV that the group's other devices
report for a launch in a cycle (R284) (log 18). -/
opaque groupLid : Nat → Nat
opaque groupCounts : Nat → Nat → Nat × Nat × Nat × Nat
/-- What a PCI Express configuration request reads beyond the retry status (R353) (log 12). -/
opaque configReply : Nat → Nat
end Sys2Proof.Config
end

