-- ==== Sys2Proof/Machine/Num.lean ====
section
/-!
DEFINITION. Number formats, rounding, flags and the exact arithmetic behind every floating operation (R54, R55, R63 to
R74, R85 to R91, R110, R111). A finite value is held exactly as (-1)^neg * m * 2^e, so every operation is one exact
step and one rounding.
-/
namespace Sys2Proof.Machine

/-- What the all-ones exponent means in a format (R54). -/
inductive Special where
  | ieee | oneNan | none
deriving DecidableEq, Repr

/-- A floating format: exponent width, mantissa width, bias, and its special values (R54). -/
structure Fmt where
  ew : Nat
  mw : Nat
  bias : Nat
  special : Special
deriving DecidableEq, Repr

def fp32 : Fmt := ⟨8, 23, 127, .ieee⟩
def fp16 : Fmt := ⟨5, 10, 15, .ieee⟩
def bf16 : Fmt := ⟨8, 7, 127, .ieee⟩
def e4m3 : Fmt := ⟨4, 3, 7, .oneNan⟩
def e5m2 : Fmt := ⟨5, 2, 15, .ieee⟩
def e2m1 : Fmt := ⟨2, 1, 1, .none⟩
def f19 : Fmt := ⟨8, 10, 127, .ieee⟩
def s20 : Fmt := ⟨8, 11, 127, .ieee⟩

/-- A value: a NaN (signalling or quiet), an infinity, or the number (-1)^neg * m * 2^e. -/
inductive FVal where
  | nan (sig : Bool)
  | inf (neg : Bool)
  | num (neg : Bool) (m : Nat) (e : Int)
deriving DecidableEq, Repr

/-- Rounding modes (R64). -/
inductive Rm where
  | rne | rtz | rdn | rup | sr
deriving DecidableEq, Repr

/-- Exception flags in FCSR's order: NV 4, DZ 3, OF 2, UF 1, NX 0 (R66, R293). -/
abbrev Flags := BitVec 5
def flNV : Flags := 16
def flDZ : Flags := 8
def flOF : Flags := 4
def flUF : Flags := 2
def flNX : Flags := 1
def flIf (c : Bool) (f : Flags) : Flags := if c then f else 0

/-- floor(log2 n), and 0 for 0. -/
def log2 (n : Nat) : Nat := Nat.log2 n

namespace Fmt

def width (f : Fmt) : Nat := 1 + f.ew + f.mw
/-- The canonical quiet NaN (R55). E2M1 has none; +0 stands there (R65). -/
def qnan (f : Fmt) : Nat :=
  match f.special with
  | .ieee => (2 ^ f.ew - 1) * 2 ^ f.mw + 2 ^ (f.mw - 1)
  | .oneNan => 2 ^ (f.ew + f.mw) - 1
  | .none => 0
/-- The bits of the largest finite magnitude (R54). -/
def maxBits (f : Fmt) : Nat :=
  match f.special with
  | .ieee => (2 ^ f.ew - 1) * 2 ^ f.mw - 1
  | .oneNan => 2 ^ (f.ew + f.mw) - 2
  | .none => 2 ^ (f.ew + f.mw) - 1
/-- The exponent of the spacing of the smallest binade. -/
def qmin (f : Fmt) : Int := 1 - f.bias - f.mw
/-- The exponent of the spacing of the binade with exponent field ef (1 or more). -/
def qOf (f : Fmt) (ef : Nat) : Int := (ef : Int) - f.bias - f.mw
/-- The largest binade's spacing. -/
def qmax (f : Fmt) : Int := f.qOf (f.maxBits / 2 ^ f.mw)
def sign (f : Fmt) (neg : Bool) : Nat := if neg then 2 ^ (f.ew + f.mw) else 0
/-- The infinity of R54 in a format that has one. -/
def infBits (f : Fmt) : Nat := (2 ^ f.ew - 1) * 2 ^ f.mw

/-- The value a bit pattern encodes (R54). -/
def decode (f : Fmt) (bits : Nat) : FVal :=
  let neg := bits / 2 ^ (f.ew + f.mw) % 2 == 1
  let ef := bits / 2 ^ f.mw % 2 ^ f.ew
  let m := bits % 2 ^ f.mw
  let finite : FVal := if ef = 0 then .num neg m f.qmin else .num neg (2 ^ f.mw + m) (f.qOf ef)
  match f.special with
  | .ieee =>
    if ef = 2 ^ f.ew - 1 then (if m = 0 then .inf neg else .nan (m < 2 ^ (f.mw - 1))) else finite
  | .oneNan => if ef = 2 ^ f.ew - 1 ∧ m = 2 ^ f.mw - 1 then .nan false else finite
  | .none => finite

/-- The bits of (-1)^neg * n * 2^q, where q is a spacing of the format and n has at most mw + 1 bits. -/
def encode (f : Fmt) (neg : Bool) (n : Nat) (q : Int) : Nat :=
  f.sign neg + (if n < 2 ^ f.mw then n else (q + f.bias + f.mw).toNat * 2 ^ f.mw + (n - 2 ^ f.mw))

end Fmt

/-- Whether rounding takes the next magnitude: n is the truncated one, rem of 2^k parts are left (R64, R68). -/
def roundUp (mode : Rm) (neg : Bool) (n rem k : Nat) (draw : Nat) : Bool :=
  match mode with
  | .rne => 2 ^ k < 2 * rem || (2 * rem == 2 ^ k && n % 2 == 1)
  | .rtz => false
  | .rdn => neg && rem != 0
  | .rup => !neg && rem != 0
  | .sr => 2 ^ (k + 32) ≤ rem * 2 ^ 32 + draw * 2 ^ k

/-- The result of a rounding that exceeds the range (R65). -/
def overflow (f : Fmt) (mode : Rm) (sat neg : Bool) : Nat :=
  let toMax := sat || (match mode with
    | .rne => false
    | .rtz => true
    | .rdn => !neg
    | .rup => neg
    | .sr => false)
  match f.special with
  | .ieee => f.sign neg + (if toMax then f.maxBits else f.infBits)
  | .oneNan => if toMax then f.sign neg + f.maxBits else f.qnan
  | .none => f.sign neg + f.maxBits

/-- One rounding of the exact (-1)^neg * m * 2^e, with its flags (R64 to R66, R68). An exact zero keeps its sign. -/
def roundTo (f : Fmt) (mode : Rm) (sat neg : Bool) (m : Nat) (e : Int) (draw : Nat := 0) : Nat × Flags :=
  if m = 0 then (f.sign neg, 0)
  else
    let q0 := max (e + log2 m - f.mw) f.qmin
    -- beyond the largest finite magnitude, SR keeps the largest binade's spacing (R65)
    let q := match mode with | .sr => min q0 f.qmax | _ => q0
    let k := (q - e).toNat
    let n0 := if q ≤ e then m * 2 ^ (e - q).toNat else m / 2 ^ k
    let rem := if q ≤ e then 0 else m % 2 ^ k
    let n := if rem ≠ 0 ∧ roundUp mode neg n0 rem k draw then n0 + 1 else n0
    let carry := n = 2 ^ (f.mw + 1)
    let n1 := if carry then 2 ^ f.mw else n
    let q1 := if carry then q + 1 else q
    if q1 > f.qmax ∨ (q1 = f.qmax ∧ n1 > 2 ^ f.mw + f.maxBits % 2 ^ f.mw) ∨ n1 > 2 ^ (f.mw + 1) then
      (overflow f mode sat neg, flOF ||| flNX)
    else
      (f.encode neg n1 q1, flIf (rem ≠ 0) flNX ||| flIf (rem ≠ 0 ∧ n1 ≠ 0 ∧ n1 < 2 ^ f.mw) flUF)

/-- A conversion of any value into a format (R65 to R67, R115, R116, R130). -/
def convert (f : Fmt) (mode : Rm) (sat : Bool) (v : FVal) (draw : Nat := 0) : Nat × Flags :=
  match v with
  | .nan sig => (f.qnan, flIf (sig || f.special == .none) flNV)
  | .inf neg =>
    match f.special with
    | .ieee => if sat then (f.sign neg + f.maxBits, flOF ||| flNX) else (f.sign neg + f.infBits, 0)
    | .oneNan => (if sat then f.sign neg + f.maxBits else f.qnan, flOF ||| flNX)
    | .none => (f.sign neg + f.maxBits, flNV ||| flOF ||| flNX)
  | .num neg m e =>
    let r := roundTo f mode sat neg m e draw
    (r.1, r.2 ||| flIf (f.special == .none && r.2 &&& flOF != 0) flNV)

/-- Exact widening to FP32: a NaN becomes the canonical one, with NV when it was signalling (R67). -/
def widen (f : Fmt) (bits : Nat) : Nat × Flags :=
  match f.decode bits with
  | .nan sig => (fp32.qnan, flIf sig flNV)
  | .inf neg => (fp32.sign neg + fp32.infBits, 0)
  | .num neg m e => ((roundTo fp32 .rne false neg m e).1, 0)

/-- How scalar and vector arithmetic round: FCSR's mode and SAT. -/
structure FpEnv where
  mode : Rm
  sat : Bool
deriving DecidableEq, Repr

/-- The matrix unit's and VDOTB's rounding: always RNE, never saturating (R64, R69). -/
def envRne : FpEnv := ⟨.rne, false⟩

def f32 (b : W32) : FVal := fp32.decode b.toNat
def w32 (r : Nat × Flags) : W32 × Flags := (BitVec.ofNat 32 r.1, r.2)
def qnan32 : W32 := 0x7FC00000
def inf32 (neg : Bool) : W32 := if neg then 0xFF800000 else 0x7F800000
def zero32 (neg : Bool) : W32 := if neg then 0x80000000 else 0
def FVal.isNan : FVal → Bool | .nan _ => true | _ => false
def FVal.isSig : FVal → Bool | .nan s => s | _ => false
def FVal.flip : FVal → FVal
  | .nan s => .nan s
  | .inf n => .inf (!n)
  | .num n m e => .num (!n) m e
def FVal.neg : FVal → Bool | .nan _ => false | .inf n => n | .num n _ _ => n
def FVal.isZero : FVal → Bool | .num _ 0 _ => true | _ => false

/-- (-1)^neg * m as an integer. -/
def sgn (neg : Bool) (m : Nat) : Int := if neg then -(m : Int) else m
/-- The exact sum of two dyadic numbers: signed integer and common exponent. -/
def addExact (na : Bool) (ma : Nat) (ea : Int) (nb : Bool) (mb : Nat) (eb : Int) : Int × Int :=
  let e := min ea eb
  (sgn na (ma * 2 ^ (ea - e).toNat) + sgn nb (mb * 2 ^ (eb - e).toNat), e)
/-- Rounds an exact sum; an exact zero takes the sign of R85. -/
def roundSum (env : FpEnv) (na : Bool) (ma : Nat) (ea : Int) (nb : Bool) (mb : Nat) (eb : Int) : W32 × Flags :=
  let s := addExact na ma ea nb mb eb
  if s.1 = 0 then (zero32 (if na == nb then na else env.mode == .rdn), 0)
  else w32 (roundTo fp32 env.mode env.sat (s.1 < 0) s.1.natAbs s.2)

/-- a + b on values (R85). -/
def addV (env : FpEnv) (a b : FVal) : W32 × Flags :=
  match a, b with
  | .nan x, y => (qnan32, flIf (x || y.isSig) flNV)
  | x, .nan y => (qnan32, flIf (x.isSig || y) flNV)
  | .inf x, .inf y => if x == y then (inf32 x, 0) else (qnan32, flNV)
  | .inf x, .num _ _ _ => (inf32 x, 0)
  | .num _ _ _, .inf y => (inf32 y, 0)
  | .num na ma ea, .num nb mb eb => roundSum env na ma ea nb mb eb

/-- The exact product, or the NaN of 0 times infinity (R66, R89); the Bool says whether the product is invalid. -/
def mulExact (a b : FVal) : FVal × Bool :=
  match a, b with
  | .nan x, y => (.nan (x || y.isSig), false)
  | x, .nan y => (.nan (x.isSig || y), false)
  | .inf x, y => if y.isZero then (.nan false, true) else (.inf (x != y.neg), false)
  | x, .inf y => if x.isZero then (.nan false, true) else (.inf (x.neg != y), false)
  | .num na ma ea, .num nb mb eb => (.num (na != nb) (ma * mb) (ea + eb), false)

/-- Rounds a value to FP32; an infinity stays (R85). -/
def roundV (env : FpEnv) (v : FVal) : W32 × Flags :=
  match v with
  | .nan s => (qnan32, flIf s flNV)
  | .inf n => (inf32 n, 0)
  | .num n m e => w32 (roundTo fp32 env.mode env.sat n m e)

def fAdd (env : FpEnv) (a b : W32) : W32 × Flags := addV env (f32 a) (f32 b)
def fSub (env : FpEnv) (a b : W32) : W32 × Flags := addV env (f32 a) (f32 b).flip
def fMul (env : FpEnv) (a b : W32) : W32 × Flags :=
  let p := mulExact (f32 a) (f32 b)
  let r := roundV env p.1
  (r.1, r.2 ||| flIf p.2 flNV)
/-- a * b + c, one rounding; 0 times infinity raises NV even when c is a quiet NaN (R89). -/
def fmaV (env : FpEnv) (a b c : FVal) : W32 × Flags :=
  let p := mulExact a b
  let r := addV env p.1 c
  (r.1, r.2 ||| flIf p.2 flNV)
def fFma (env : FpEnv) (a b c : W32) : W32 × Flags := fmaV env (f32 a) (f32 b) (f32 c)
def fFms (env : FpEnv) (a b c : W32) : W32 × Flags := fmaV env (f32 a) (f32 b) (f32 c).flip
def fFnma (env : FpEnv) (a b c : W32) : W32 × Flags := fmaV env (f32 a).flip (f32 b) (f32 c)

/-- Rounds the positive quotient num / den scaled by 2^e, (-1)^neg; the remainder enters as a low sticky bit. -/
def roundQuot (env : FpEnv) (neg : Bool) (num den : Nat) (e : Int) : W32 × Flags :=
  let k := 64 + log2 den
  let q := num * 2 ^ k / den
  let st := if num * 2 ^ k % den = 0 then 0 else 1
  w32 (roundTo fp32 env.mode env.sat neg (2 * q + st) (e - k - 1))

def fDivV (env : FpEnv) (a b : FVal) : W32 × Flags :=
  match a, b with
  | .nan x, y => (qnan32, flIf (x || y.isSig) flNV)
  | x, .nan y => (qnan32, flIf (x.isSig || y) flNV)
  | .inf _, .inf _ => (qnan32, flNV)
  | .inf x, .num nb _ _ => (inf32 (x != nb), 0)
  | .num na _ _, .inf y => (zero32 (na != y), 0)
  | .num na ma ea, .num nb mb eb =>
    if mb = 0 then (if ma = 0 then (qnan32, flNV) else (inf32 (na != nb), flDZ))
    else if ma = 0 then (zero32 (na != nb), 0)
    else roundQuot env (na != nb) ma mb (ea - eb)
def fDiv (env : FpEnv) (a b : W32) : W32 × Flags := fDivV env (f32 a) (f32 b)

/-- Integer square root by fuel: bit by bit from 2^k down. -/
def isqrtLoop (n : Nat) : Nat → Nat → Nat
  | 0, r => r
  | k + 1, r =>
    let c := r + 2 ^ k
    isqrtLoop n k (if c * c ≤ n then c else r)
def isqrt (n : Nat) : Nat := isqrtLoop n (log2 n / 2 + 1) 0

/-- The square root of num / den * 2^e, to 64 fraction bits past an integer with sticky. -/
def roundSqrt (env : FpEnv) (num den : Nat) (e : Int) : W32 × Flags :=
  let n := if e % 2 = 0 then num else 2 * num
  let e' := if e % 2 = 0 then e else e - 1
  let k := 64 + log2 den
  let q := n * 2 ^ (2 * k) / den
  let r := isqrt q
  let st := if r * r = q ∧ n * 2 ^ (2 * k) % den = 0 then 0 else 1
  w32 (roundTo fp32 env.mode env.sat false (2 * r + st) (e' / 2 - k - 1))

def fSqrt (env : FpEnv) (a : W32) : W32 × Flags :=
  match f32 a with
  | .nan s => (qnan32, flIf s flNV)
  | .inf neg => if neg then (qnan32, flNV) else (inf32 false, 0)
  | .num neg m e =>
    if m = 0 then (zero32 neg, 0)
    else if neg then (qnan32, flNV)
    else roundSqrt env m 1 e

/-- The order of values as numbers; for NaN operands, none. -/
def cmpV (a b : FVal) : Option Ordering :=
  match a, b with
  | .nan _, _ => none
  | _, .nan _ => none
  | .inf x, .inf y => if x == y then some .eq else if x then some .lt else some .gt
  | .inf x, .num _ _ _ => if x then some .lt else some .gt
  | .num _ _ _, .inf y => if y then some .gt else some .lt
  | .num na ma ea, .num nb mb eb => some (compare (addExact na ma ea (!nb) mb eb).1 0)

/-- FMIN and FMAX (R86): the lesser or the greater, -0 below +0. -/
def fMinMax (mx : Bool) (a b : W32) : W32 × Flags :=
  let va := f32 a
  let vb := f32 b
  let nv := flIf (va.isSig || vb.isSig) flNV
  if va.isNan && vb.isNan then (qnan32, nv)
  else if va.isNan then (b, nv)
  else if vb.isNan then (a, nv)
  else
    let less := match cmpV va vb with
      | some .lt => true
      | some .gt => false
      | _ => va.neg
    (if less != mx then a else b, nv)

/-- Sign injection (R87). -/
def fSgnj (sign : Bool → Bool → Bool) (a b : W32) : W32 × Flags :=
  let va := f32 a
  if va.isNan then (qnan32, flIf va.isSig flNV)
  else (BitVec.ofBool (sign (a.getLsbD 31) (b.getLsbD 31)) ++ a.extractLsb' 0 31, 0)

/-- FCLASS (R88): the bit number of the class. -/
def fClass (a : W32) : Nat :=
  match f32 a with
  | .nan s => if s then 8 else 9
  | .inf neg => if neg then 0 else 7
  | .num neg m _ =>
    if m = 0 then (if neg then 3 else 4)
    else if m < 2 ^ 23 then (if neg then 2 else 5)
    else (if neg then 1 else 6)

/-- FCMP conditions with their flags (R90). -/
def fCmpEq (a b : W32) : Bool × Flags :=
  (cmpV (f32 a) (f32 b) == some .eq, flIf ((f32 a).isSig || (f32 b).isSig) flNV)
def fCmpLt (a b : W32) : Bool × Flags :=
  (cmpV (f32 a) (f32 b) == some .lt, flIf ((f32 a).isNan || (f32 b).isNan) flNV)
def fCmpLe (a b : W32) : Bool × Flags :=
  let c := cmpV (f32 a) (f32 b)
  (c == some .lt || c == some .eq, flIf ((f32 a).isNan || (f32 b).isNan) flNV)
def fCmpUn (a b : W32) : Bool × Flags :=
  ((f32 a).isNan || (f32 b).isNan, flIf ((f32 a).isSig || (f32 b).isSig) flNV)

/-- A floating value to a signed integer of the given width (R67); the integer and the flags. -/
def toInt (width : Nat) (mode : Rm) (a : W32) : Int × Flags :=
  let lo : Int := -(2 ^ (width - 1) : Nat)
  let hi : Int := (2 ^ (width - 1) : Nat) - 1
  match f32 a with
  | .nan _ => (0, flNV)
  | .inf neg => (if neg then lo else hi, flNV)
  | .num neg m e =>
    let k := (-e).toNat
    let n0 := if 0 ≤ e then m * 2 ^ e.toNat else m / 2 ^ k
    let rem := if 0 ≤ e then 0 else m % 2 ^ k
    let n := if rem ≠ 0 ∧ roundUp mode neg n0 rem k 0 then n0 + 1 else n0
    let v := sgn neg n
    if v < lo then (lo, flNV) else if hi < v then (hi, flNV) else (v, flIf (rem ≠ 0) flNX)

/-- A signed integer to FP32 by one rounding (R67). -/
def ofInt (env : FpEnv) (v : Int) : W32 × Flags := w32 (roundTo fp32 env.mode env.sat (v < 0) v.natAbs 0)

/-- VABS (R110). -/
def fAbs (a : W32) : W32 × Flags :=
  let va := f32 a
  if va.isNan then (qnan32, flIf va.isSig flNV) else (a &&& 0x7FFFFFFF, 0)
def fRcp (env : FpEnv) (a : W32) : W32 × Flags := fDivV env (.num false 1 0) (f32 a)
/-- VRSQ (R111). -/
def fRsq (env : FpEnv) (a : W32) : W32 × Flags :=
  match f32 a with
  | .nan s => (qnan32, flIf s flNV)
  | .inf neg => if neg then (qnan32, flNV) else (zero32 false, 0)
  | .num neg m e =>
    if m = 0 then (inf32 neg, flDZ)
    else if neg then (qnan32, flNV)
    else roundSqrt env 1 m (-e)

/-- Fraction bits of the fixed-point series below. -/
def serP : Nat := 320
/-- floor(ln 2 * 2^320). -/
def ln2Fix : Nat := 0xb17217f7d1cf79abc9e3b39803f2f6af40f343267298b62d8a0d175b8baafa2be7b876206debac98
/-- exp of a fixed-point y below 1, by its Taylor series: `t` is y^k / k!. -/
def expLoop (y : Nat) : Nat → Nat → Nat → Nat → Nat
  | 0, _, _, acc => acc
  | n + 1, k, t, acc =>
    let t' := t * y / 2 ^ serP / k
    expLoop y n (k + 1) t' (acc + t')
def expFix (y : Nat) : Nat := expLoop y 80 1 (2 ^ serP) (2 ^ serP)
/-- Twice the inverse hyperbolic tangent of z below 1/2: `t` is z^(2k+1). -/
def athLoop (z2 : Nat) : Nat → Nat → Nat → Nat → Nat
  | 0, _, _, acc => acc
  | n + 1, k, t, acc => athLoop z2 n (k + 2) (t * z2 / 2 ^ serP) (acc + t / k)
/-- ln of num / den, between 1 and 2, in fixed point. -/
def lnFix (num den : Nat) : Nat :=
  let z := (num - den) * 2 ^ serP / (num + den)
  2 * athLoop (z * z / 2 ^ serP) 110 1 z 0

/-- VEXP2 (R110, R111): correctly rounded; an irrational power enters the rounding with a sticky bit. -/
def fExp2 (env : FpEnv) (a : W32) : W32 × Flags :=
  match f32 a with
  | .nan s => (qnan32, flIf s flNV)
  | .inf neg => if neg then (zero32 false, 0) else (inf32 false, 0)
  | .num neg m e =>
    let whole := 0 ≤ e ∨ m % 2 ^ (-e).toNat = 0
    let n := sgn neg (if 0 ≤ e then m * 2 ^ e.toNat else m / 2 ^ (-e).toNat)
    if n > 400 then w32 (roundTo fp32 env.mode env.sat false 1 400)
    else if n < -400 then w32 (roundTo fp32 env.mode env.sat false 3 (-402))
    else if whole then w32 (roundTo fp32 env.mode env.sat false 1 n)
    else
      -- 2^x = 2^fl * exp(frac * ln 2), with fl = floor x and frac = r / 2^k
      let k := (-e).toNat
      let fl := if neg then n - 1 else n
      let r := if neg then 2 ^ k - m % 2 ^ k else m % 2 ^ k
      let y := expFix (r * ln2Fix / 2 ^ k)
      w32 (roundTo fp32 env.mode env.sat false (2 * y + 1) (fl - serP - 1))

/-- The base-2 logarithm, natural logarithm of a positive number m * 2^e, as signed fixed point; `base2` chooses. -/
def logFix (base2 : Bool) (m : Nat) (e : Int) : Int :=
  let n := e + log2 m
  let l := lnFix m (2 ^ log2 m)
  if base2 then n * 2 ^ serP + (l * 2 ^ serP / ln2Fix : Nat) else n * (ln2Fix : Int) + (l : Int)
def fLog (base2 : Bool) (env : FpEnv) (a : W32) : W32 × Flags :=
  match f32 a with
  | .nan s => (qnan32, flIf s flNV)
  | .inf neg => if neg then (qnan32, flNV) else (inf32 false, 0)
  | .num neg m e =>
    if m = 0 then (inf32 true, flDZ)
    else if neg then (qnan32, flNV)
    else
      let n := e + log2 m
      if m = 2 ^ log2 m ∧ base2 then w32 (roundTo fp32 env.mode env.sat (n < 0) n.natAbs 0)
      else if m = 2 ^ log2 m ∧ n = 0 then (0, 0)
      else
        let v := logFix base2 m e
        -- truncated toward minus infinity and irrational: the sticky bit keeps the value strictly between neighbours
        let v2 := 2 * v + 1
        w32 (roundTo fp32 env.mode env.sat (v2 < 0) v2.natAbs (-serP - 1))
def fLog2 : FpEnv → W32 → W32 × Flags := fLog true
/-- The natural logarithm the samplers use (R331, R332). -/
def fLn : FpEnv → W32 → W32 × Flags := fLog false

/-- The exact sum of products of R69: infinite or NaN when some product is (R70), else a dyadic number whose zero
is -0 only when every product is -0. -/
def sumExact : List (FVal × FVal) → FVal × Bool
  | [] => (.num true 0 0, true)
  | (a, b) :: rest =>
    let p := (mulExact a b).1
    let r := sumExact rest
    let allNeg := r.2 && p.isZero && p.neg
    match p, r.1 with
    | .nan _, _ => (.nan false, false)
    | _, .nan _ => (.nan false, false)
    | .inf x, .inf y => if x == y then (.inf x, false) else (.nan false, false)
    | .inf x, .num _ _ _ => (.inf x, false)
    | .num _ _ _, .inf y => (.inf y, false)
    | .num na ma ea, .num nb mb eb =>
      let s := addExact na ma ea nb mb eb
      (.num (if s.1 = 0 then allNeg else s.1 < 0) s.1.natAbs s.2, allNeg)

/-- One block of products into an accumulator element, unscaled and scaled (R69, R70). -/
def blockT (ps : List (FVal × FVal)) : W32 := (roundV envRne (sumExact ps).1).1
def blockTS (ps : List (FVal × FVal)) (sa sb : FVal) : W32 :=
  let d := (sumExact ps).1
  let s := (roundV envRne (mulExact sa sb).1).1
  (roundV envRne (mulExact d (f32 s)).1).1
def accumulate (neg : Bool) (c t : W32) : W32 := if neg then (fSub envRne c t).1 else (fAdd envRne c t).1

/-- Philox-4x32-10 (R328). -/
def philoxLoop : Nat → W32 × W32 × W32 × W32 → W32 → W32 → W32 × W32 × W32 × W32
  | 0, c, _, _ => c
  | n + 1, (c0, c1, c2, c3), k0, k1 =>
    let a : Word := 0xD2511F53 * c0.setWidth 64
    let b : Word := 0xCD9E8D57 * c2.setWidth 64
    philoxLoop n (b.extractLsb' 32 32 ^^^ c1 ^^^ k0, b.extractLsb' 0 32, a.extractLsb' 32 32 ^^^ c3 ^^^ k1, a.extractLsb' 0 32)
      (k0 + 0x9E3779B9) (k1 + 0xBB67AE85)
def philox (seed : Word) (c0 c1 c2 c3 : W32) : W32 × W32 × W32 × W32 :=
  philoxLoop 10 (c0, c1, c2, c3) (seed.extractLsb' 0 32) (seed.extractLsb' 32 32)

/-- The SR draws of R68: for a memory destination at byte address a, and for lane j of vn. -/
def drawMem (seed : Word) (a : Word) (idx : Nat) : Nat :=
  (philox seed (a.extractLsb' 0 32) (a.extractLsb' 32 20 |>.setWidth 32) 0xFFF00000 (BitVec.ofNat 32 idx)).1.toNat
def drawLane (seed : Word) (n j : Nat) : Nat :=
  (philox seed (BitVec.ofNat 32 (n * 32 + j)) 0x00100000 0xFFF00000 0).1.toNat

/-- Entry c of a decode table, widened to an exact value (R60). -/
def dtabEntry (t : DTab) (c : Nat) : Nat := (t.extractLsb' (19 * c) 19).toNat
def dtabVal (t : DTab) (c : Nat) : FVal := f19.decode (dtabEntry t c)
/-- A table built from a function of the code. -/
def dtabBuild (f : Nat → Nat) : Nat → DTab
  | 0 => 0
  | n + 1 => dtabBuild f n ||| (BitVec.ofNat 4864 (f n % 2 ^ 19) <<< (19 * n))
/-- The exact F19 pattern of a narrower format's code; NaN codes give the canonical NaN (R60). -/
def toF19 (f : Fmt) (c : Nat) : Nat := (convert f19 .rne false (f.decode c)).1
/-- Reset contents: T0 holds E4M3, T1 holds E5M2 (R60). -/
def dtabT0 : DTab := dtabBuild (toF19 e4m3) 256
def dtabT1 : DTab := dtabBuild (toF19 e5m2) 256

/-- The distance of two non-NaN values: none when infinite (R63). -/
def distV (x y : FVal) : Option (Nat × Int) :=
  match x, y with
  | .inf a, .inf b => if a == b then some (0, 0) else none
  | .num na ma ea, .num nb mb eb =>
    let s := addExact na ma ea (!nb) mb eb
    some (s.1.natAbs, s.2)
  | _, _ => none
def distLt : Option (Nat × Int) → Option (Nat × Int) → Bool
  | none, _ => false
  | some _, none => true
  | some (a, ea), some (b, eb) => (addExact false a ea true b eb).1 < 0

/-- Scans codes 0 to 255 for the first that beats the best so far. -/
def scanCodes (ok : Nat → Bool) (better : Nat → Nat → Bool) : Nat → Option Nat
  | 0 => none
  | n + 1 =>
    match scanCodes ok better n with
    | none => if ok n then some n else none
    | some b => if ok n && better n b then some n else some b

/-- VENC through a table (R63). Two entries' distances are compared as numbers, and ties go to the lower code. A NaN, also a
signalling one, raises no flag where the table has an entry that is NaN, as R63's pseudocode and R116 have it, against R66's
table (DESIGN CHOICE, log 80). -/
def venc (t : DTab) (a : W32) : Nat × Flags :=
  let x := f32 a
  let nanCode := scanCodes (fun c => (dtabVal t c).isNan) (fun _ _ => false) 256
  let real := fun c => !(dtabVal t c).isNan
  if x.isNan then
    match nanCode with
    | some c => (c, 0)
    | none => ((scanCodes real (fun c b => cmpV (dtabVal t c) (dtabVal t b) == some .gt) 256).getD 0, flNV)
  else
    match scanCodes real (fun _ _ => false) 256 with
    | none => (nanCode.getD 0, flNV)
    | some _ =>
      let same := if x.isZero then scanCodes (fun c => (dtabVal t c).isZero && (dtabVal t c).neg == x.neg) (fun _ _ => false) 256
                  else none
      match same with
      | some c => (c, 0)
      | none =>
        let far : Bool := match x with | .inf _ => true | _ => false
        -- an infinity saturates to the extreme entry on its side (R63)
        let nearer : Nat → Nat → Bool := fun c b =>
          if far then cmpV (dtabVal t c) (dtabVal t b) == some (if x.neg then .lt else .gt)
          else distLt (distV (dtabVal t c) x) (distV (dtabVal t b) x)
        let c := (scanCodes real nearer 256).getD 0
        (c, flIf (cmpV (dtabVal t c) x != some .eq) flNX)

end Sys2Proof.Machine
end

