-- ==== Sys2Proof/Syntax.lean ====
section
/-!
DEFINITION. Instr: one constructor for every row of spec/opcode_table.json. The 283 encoded instructions have the table's
bit fields (R39, R43); the other 80 are the part's own indivisible steps, which carry what the step is about (a rank, a
berth, a cluster, a message). The messages that meanings send stand first: compiled code can build only the first 245
constructors of a type.
-/
namespace Sys2Proof

inductive Instr where
  /-- REPLY_ARRIVAL (R20). -/
  | replyArrival (r b : Nat)
  /-- BARGE_ARRIVAL (R148). -/
  | bargeArrival (r : Nat) (pk : Sent Packet)
  /-- FRAME_INCREMENT (R157). -/
  | frameIncrement (h : BitVec 32) (r b : Nat)
  /-- FRAME_DECREMENT (R157). -/
  | frameDecrement (h : Sent (BitVec 32))
  /-- RESUME_MESSAGE (R158). -/
  | resumeMessage (r : Nat) (slot : Nat) (lid : Sent Nat)
  /-- CHUNK_CLAIM (R160). -/
  | chunkClaim (h : BitVec 32) (r b : Nat) (target : BitVec 64)
  /-- PAIR_MESSAGE (R225). -/
  | pairMessage (r : Nat) (pk : Sent Packet)
  /-- FREE_SLOT_RETURN (R238). -/
  | freeSlotReturn (r slot : Nat) (lid : Sent Nat)
  /-- CHANNEL_ENTRY_ARRIVAL (R210). -/
  | channelEntryArrival (r b port fr fb fp lid : Nat) (v : BitVec 64)
  /-- CHANNEL_FREED_NOTICE (R211). -/
  | channelFreedNotice (r b port fr fb fp : Nat)
  /-- DEADLOCK_PROBE_RECEIVE (R212). -/
  | deadlockProbeReceive (r b : Nat) (ids : List (BitVec 32))
  /-- BARRIER_ARRIVAL (R215). -/
  | barrierArrival (cl id r b : Nat)
  /-- WALK_DONE (R279). -/
  | walkDone (cl : Nat) (asid : BitVec 8) (gran : Nat)
  /-- SHOOTDOWN_DONE (R277). -/
  | shootdownDone
  /-- ATTEST_REPORT_DONE (R358). -/
  | attestReportDone
  /-- DUMP_COPY_DONE (R349). -/
  | dumpCopyDone
  /-- ADD (R77). -/
  | add (d : BitVec 5) (a : BitVec 5) (b : BitVec 5)
  /-- SUB (R77). -/
  | sub (d : BitVec 5) (a : BitVec 5) (b : BitVec 5)
  /-- AND (R77). -/
  | and (d : BitVec 5) (a : BitVec 5) (b : BitVec 5)
  /-- OR (R77). -/
  | or (d : BitVec 5) (a : BitVec 5) (b : BitVec 5)
  /-- XOR (R77). -/
  | xor (d : BitVec 5) (a : BitVec 5) (b : BitVec 5)
  /-- ANDN (R77). -/
  | andn (d : BitVec 5) (a : BitVec 5) (b : BitVec 5)
  /-- ORN (R77). -/
  | orn (d : BitVec 5) (a : BitVec 5) (b : BitVec 5)
  /-- SLL (R77). -/
  | sll (d : BitVec 5) (a : BitVec 5) (b : BitVec 5)
  /-- SRL (R77). -/
  | srl (d : BitVec 5) (a : BitVec 5) (b : BitVec 5)
  /-- SRA (R77). -/
  | sra (d : BitVec 5) (a : BitVec 5) (b : BitVec 5)
  /-- ROR (R77). -/
  | ror (d : BitVec 5) (a : BitVec 5) (b : BitVec 5)
  /-- ADDW (R77). -/
  | addw (d : BitVec 5) (a : BitVec 5) (b : BitVec 5)
  /-- SUBW (R77). -/
  | subw (d : BitVec 5) (a : BitVec 5) (b : BitVec 5)
  /-- MUL (R77). -/
  | mul (d : BitVec 5) (a : BitVec 5) (b : BitVec 5)
  /-- MULH (R77). -/
  | mulh (d : BitVec 5) (a : BitVec 5) (b : BitVec 5)
  /-- MULHU (R77). -/
  | mulhu (d : BitVec 5) (a : BitVec 5) (b : BitVec 5)
  /-- MULHSU (R77). -/
  | mulhsu (d : BitVec 5) (a : BitVec 5) (b : BitVec 5)
  /-- DIV (R78). -/
  | div (d : BitVec 5) (a : BitVec 5) (b : BitVec 5)
  /-- DIVU (R78). -/
  | divu (d : BitVec 5) (a : BitVec 5) (b : BitVec 5)
  /-- REM (R78). -/
  | rem (d : BitVec 5) (a : BitVec 5) (b : BitVec 5)
  /-- REMU (R78). -/
  | remu (d : BitVec 5) (a : BitVec 5) (b : BitVec 5)
  /-- MIN (R77). -/
  | min (d : BitVec 5) (a : BitVec 5) (b : BitVec 5)
  /-- MAX (R77). -/
  | max (d : BitVec 5) (a : BitVec 5) (b : BitVec 5)
  /-- MINU (R77). -/
  | minu (d : BitVec 5) (a : BitVec 5) (b : BitVec 5)
  /-- MAXU (R77). -/
  | maxu (d : BitVec 5) (a : BitVec 5) (b : BitVec 5)
  /-- CLZ (R77). -/
  | clz (d : BitVec 5) (a : BitVec 5)
  /-- CTZ (R77). -/
  | ctz (d : BitVec 5) (a : BitVec 5)
  /-- POPC (R77). -/
  | popc (d : BitVec 5) (a : BitVec 5)
  /-- SEXTB (R77). -/
  | sextb (d : BitVec 5) (a : BitVec 5)
  /-- SEXTH (R77). -/
  | sexth (d : BitVec 5) (a : BitVec 5)
  /-- SEXTW (R77). -/
  | sextw (d : BitVec 5) (a : BitVec 5)
  /-- ZEXTW (R77). -/
  | zextw (d : BitVec 5) (a : BitVec 5)
  /-- ADDI (R79). -/
  | addi (d : BitVec 5) (a : BitVec 5) (im : BitVec 15)
  /-- ANDI (R79). -/
  | andi (d : BitVec 5) (a : BitVec 5) (im : BitVec 15)
  /-- ORI (R79). -/
  | ori (d : BitVec 5) (a : BitVec 5) (im : BitVec 15)
  /-- XORI (R79). -/
  | xori (d : BitVec 5) (a : BitVec 5) (im : BitVec 15)
  /-- SLLI (R80). -/
  | slli (d : BitVec 5) (a : BitVec 5) (n : BitVec 6)
  /-- SRLI (R80). -/
  | srli (d : BitVec 5) (a : BitVec 5) (n : BitVec 6)
  /-- SRAI (R80). -/
  | srai (d : BitVec 5) (a : BitVec 5) (n : BitVec 6)
  /-- RORI (R80). -/
  | rori (d : BitVec 5) (a : BitVec 5) (n : BitVec 6)
  /-- ADDIW (R79). -/
  | addiw (d : BitVec 5) (a : BitVec 5) (im : BitVec 15)
  /-- LUI (R79). -/
  | lui (d : BitVec 5) (im : BitVec 20)
  /-- AUIPC (R79). -/
  | auipc (d : BitVec 5) (im : BitVec 20)
  /-- CMP_EQ (R81). -/
  | cmpEq (p : BitVec 5) (a : BitVec 5) (b : BitVec 5)
  /-- CMP_NE (R81). -/
  | cmpNe (p : BitVec 5) (a : BitVec 5) (b : BitVec 5)
  /-- CMP_LT (R81). -/
  | cmpLt (p : BitVec 5) (a : BitVec 5) (b : BitVec 5)
  /-- CMP_LTU (R81). -/
  | cmpLtu (p : BitVec 5) (a : BitVec 5) (b : BitVec 5)
  /-- CMP_GE (R81). -/
  | cmpGe (p : BitVec 5) (a : BitVec 5) (b : BitVec 5)
  /-- CMP_GEU (R81). -/
  | cmpGeu (p : BitVec 5) (a : BitVec 5) (b : BitVec 5)
  /-- CMPI_EQ (R81). -/
  | cmpiEq (p : BitVec 5) (a : BitVec 5) (im : BitVec 15)
  /-- CMPI_NE (R81). -/
  | cmpiNe (p : BitVec 5) (a : BitVec 5) (im : BitVec 15)
  /-- CMPI_LT (R81). -/
  | cmpiLt (p : BitVec 5) (a : BitVec 5) (im : BitVec 15)
  /-- CMPI_LTU (R81). -/
  | cmpiLtu (p : BitVec 5) (a : BitVec 5) (im : BitVec 15)
  /-- CMPI_GE (R81). -/
  | cmpiGe (p : BitVec 5) (a : BitVec 5) (im : BitVec 15)
  /-- CMPI_GEU (R81). -/
  | cmpiGeu (p : BitVec 5) (a : BitVec 5) (im : BitVec 15)
  /-- PAND (R82). -/
  | pand (d : BitVec 5) (a : BitVec 5) (b : BitVec 5)
  /-- POR (R82). -/
  | por (d : BitVec 5) (a : BitVec 5) (b : BitVec 5)
  /-- PXOR (R82). -/
  | pxor (d : BitVec 5) (a : BitVec 5) (b : BitVec 5)
  /-- PANDN (R82). -/
  | pandn (d : BitVec 5) (a : BitVec 5) (b : BitVec 5)
  /-- PMOV (R82). -/
  | pmov (d : BitVec 5) (a : BitVec 5)
  /-- PSET (R82). -/
  | pset (d : BitVec 5) (a : BitVec 5)
  /-- PSET_P (R82). -/
  | psetP (a : BitVec 5)
  /-- SEL (R83). -/
  | sel (d : BitVec 5) (a : BitVec 5) (b : BitVec 5) (im : BitVec 5)
  /-- SEL_P (R83). -/
  | selP (d : BitVec 5)
  /-- BP_T (R84). -/
  | bpT (p : BitVec 5) (o : BitVec 19)
  /-- BP_F (R84). -/
  | bpF (p : BitVec 5) (o : BitVec 19)
  /-- J (R84). -/
  | j (o : BitVec 20)
  /-- JAL (R84). -/
  | jal (d : BitVec 5) (o : BitVec 20)
  /-- JALR (R84). -/
  | jalr (d : BitVec 5) (a : BitVec 5) (im : BitVec 15)
  /-- LDB (R187). -/
  | ldb (d : BitVec 5) (a : BitVec 5) (im : BitVec 15)
  /-- LDBU (R187). -/
  | ldbu (d : BitVec 5) (a : BitVec 5) (im : BitVec 15)
  /-- LDH (R187). -/
  | ldh (d : BitVec 5) (a : BitVec 5) (im : BitVec 15)
  /-- LDHU (R187). -/
  | ldhu (d : BitVec 5) (a : BitVec 5) (im : BitVec 15)
  /-- LDW (R187). -/
  | ldw (d : BitVec 5) (a : BitVec 5) (im : BitVec 15)
  /-- LDWU (R187). -/
  | ldwu (d : BitVec 5) (a : BitVec 5) (im : BitVec 15)
  /-- LDD (R187). -/
  | ldd (d : BitVec 5) (a : BitVec 5) (im : BitVec 15)
  /-- STB (R187). -/
  | stb (b : BitVec 5) (a : BitVec 5) (im : BitVec 15)
  /-- STH (R187). -/
  | sth (b : BitVec 5) (a : BitVec 5) (im : BitVec 15)
  /-- STW (R187). -/
  | stw (b : BitVec 5) (a : BitVec 5) (im : BitVec 15)
  /-- STD (R187). -/
  | std (b : BitVec 5) (a : BitVec 5) (im : BitVec 15)
  /-- LDF (R187). -/
  | ldf (d : BitVec 4) (a : BitVec 5) (im : BitVec 15)
  /-- STF (R187). -/
  | stf (b : BitVec 4) (a : BitVec 5) (im : BitVec 15)
  /-- LDSYNC (R190). -/
  | ldsync (d : BitVec 5) (a : BitVec 5) (im : BitVec 15)
  /-- STFULL (R190). -/
  | stfull (b : BitVec 5) (a : BitVec 5) (im : BitVec 15)
  /-- FECLR (R190). -/
  | feclr (a : BitVec 5) (im : BitVec 15)
  /-- FERD (R190). -/
  | ferd (d : BitVec 5) (a : BitVec 5) (im : BitVec 15)
  /-- RLD (R192). -/
  | rld (d : BitVec 5) (a : BitVec 5) (b : BitVec 5)
  /-- RST (R192). -/
  | rst (a : BitVec 5) (b : BitVec 5)
  /-- PFD (R193). -/
  | pfd (a : BitVec 5)
  /-- ICPF (R193). -/
  | icpf (a : BitVec 5)
  /-- AMO_ADD (R195). -/
  | amoAdd (d : BitVec 5) (a : BitVec 5) (b : BitVec 5) (w : BitVec 1) (q : BitVec 1) (r : BitVec 1)
  /-- AMO_AND (R195). -/
  | amoAnd (d : BitVec 5) (a : BitVec 5) (b : BitVec 5) (w : BitVec 1) (q : BitVec 1) (r : BitVec 1)
  /-- AMO_OR (R195). -/
  | amoOr (d : BitVec 5) (a : BitVec 5) (b : BitVec 5) (w : BitVec 1) (q : BitVec 1) (r : BitVec 1)
  /-- AMO_XOR (R195). -/
  | amoXor (d : BitVec 5) (a : BitVec 5) (b : BitVec 5) (w : BitVec 1) (q : BitVec 1) (r : BitVec 1)
  /-- AMO_MIN (R195). -/
  | amoMin (d : BitVec 5) (a : BitVec 5) (b : BitVec 5) (w : BitVec 1) (q : BitVec 1) (r : BitVec 1)
  /-- AMO_MAX (R195). -/
  | amoMax (d : BitVec 5) (a : BitVec 5) (b : BitVec 5) (w : BitVec 1) (q : BitVec 1) (r : BitVec 1)
  /-- AMO_MINU (R195). -/
  | amoMinu (d : BitVec 5) (a : BitVec 5) (b : BitVec 5) (w : BitVec 1) (q : BitVec 1) (r : BitVec 1)
  /-- AMO_MAXU (R195). -/
  | amoMaxu (d : BitVec 5) (a : BitVec 5) (b : BitVec 5) (w : BitVec 1) (q : BitVec 1) (r : BitVec 1)
  /-- AMO_SWAP (R195). -/
  | amoSwap (d : BitVec 5) (a : BitVec 5) (b : BitVec 5) (w : BitVec 1) (q : BitVec 1) (r : BitVec 1)
  /-- AMO_CAS (R195). -/
  | amoCas (d : BitVec 5) (a : BitVec 5) (b : BitVec 5) (w : BitVec 1) (q : BitVec 1) (r : BitVec 1)
  /-- AMO_FADD (R195). -/
  | amoFadd (d : BitVec 5) (a : BitVec 5) (b : BitVec 5) (q : BitVec 1) (r : BitVec 1)
  /-- CMO_CLEAN (R197). -/
  | cmoClean (a : BitVec 5) (b : BitVec 5) (l : BitVec 2)
  /-- CMO_INV (R197). -/
  | cmoInv (a : BitVec 5) (b : BitVec 5) (l : BitVec 2)
  /-- CMO_CLINV (R197). -/
  | cmoClinv (a : BitVec 5) (b : BitVec 5) (l : BitVec 2)
  /-- FADD (R85). -/
  | fadd (d : BitVec 4) (a : BitVec 4) (b : BitVec 4)
  /-- FSUB (R85). -/
  | fsub (d : BitVec 4) (a : BitVec 4) (b : BitVec 4)
  /-- FMUL (R85). -/
  | fmul (d : BitVec 4) (a : BitVec 4) (b : BitVec 4)
  /-- FDIV (R85). -/
  | fdiv (d : BitVec 4) (a : BitVec 4) (b : BitVec 4)
  /-- FSQRT (R85). -/
  | fsqrt (d : BitVec 4) (a : BitVec 4)
  /-- FMIN (R86). -/
  | fmin (d : BitVec 4) (a : BitVec 4) (b : BitVec 4)
  /-- FMAX (R86). -/
  | fmax (d : BitVec 4) (a : BitVec 4) (b : BitVec 4)
  /-- FSGNJ (R87). -/
  | fsgnj (d : BitVec 4) (a : BitVec 4) (b : BitVec 4)
  /-- FSGNJN (R87). -/
  | fsgnjn (d : BitVec 4) (a : BitVec 4) (b : BitVec 4)
  /-- FSGNJX (R87). -/
  | fsgnjx (d : BitVec 4) (a : BitVec 4) (b : BitVec 4)
  /-- FCLASS (R88). -/
  | fclass (d : BitVec 5) (a : BitVec 4)
  /-- FMA (R89). -/
  | fma (d : BitVec 4) (a : BitVec 4) (b : BitVec 4) (c : BitVec 4)
  /-- FMS (R89). -/
  | fms (d : BitVec 4) (a : BitVec 4) (b : BitVec 4) (c : BitVec 4)
  /-- FNMA (R89). -/
  | fnma (d : BitVec 4) (a : BitVec 4) (b : BitVec 4) (c : BitVec 4)
  /-- FCMP_EQ (R90). -/
  | fcmpEq (p : BitVec 5) (a : BitVec 4) (b : BitVec 4)
  /-- FCMP_LT (R90). -/
  | fcmpLt (p : BitVec 5) (a : BitVec 4) (b : BitVec 4)
  /-- FCMP_LE (R90). -/
  | fcmpLe (p : BitVec 5) (a : BitVec 4) (b : BitVec 4)
  /-- FCMP_UN (R90). -/
  | fcmpUn (p : BitVec 5) (a : BitVec 4) (b : BitVec 4)
  /-- FCVT_I32_F (R91). -/
  | fcvtI32F (d : BitVec 5) (a : BitVec 4)
  /-- FCVT_I64_F (R91). -/
  | fcvtI64F (d : BitVec 5) (a : BitVec 4)
  /-- FCVT_F_I32 (R91). -/
  | fcvtFI32 (d : BitVec 4) (a : BitVec 5)
  /-- FCVT_F_I64 (R91). -/
  | fcvtFI64 (d : BitVec 4) (a : BitVec 5)
  /-- FCVT_BF_F (R91). -/
  | fcvtBfF (d : BitVec 4) (a : BitVec 4)
  /-- FCVT_F_BF (R91). -/
  | fcvtFBf (d : BitVec 4) (a : BitVec 4)
  /-- FCVT_HF_F (R91). -/
  | fcvtHfF (d : BitVec 4) (a : BitVec 4)
  /-- FCVT_F_HF (R91). -/
  | fcvtFHf (d : BitVec 4) (a : BitVec 4)
  /-- FMVX (R92). -/
  | fmvx (d : BitVec 5) (a : BitVec 4)
  /-- FMVF (R92). -/
  | fmvf (d : BitVec 4) (a : BitVec 5)
  /-- VLD (R104). -/
  | vld (d : BitVec 4) (a : BitVec 5) (im : BitVec 15)
  /-- VST (R104). -/
  | vst (b : BitVec 4) (a : BitVec 5) (im : BitVec 15)
  /-- VLDS (R105). -/
  | vlds (d : BitVec 4) (a : BitVec 5) (b : BitVec 5) (m : BitVec 1)
  /-- VSTS (R105). -/
  | vsts (d : BitVec 4) (a : BitVec 5) (b : BitVec 5) (m : BitVec 1)
  /-- VLDX (R106). -/
  | vldx (d : BitVec 4) (a : BitVec 5) (b : BitVec 4) (m : BitVec 1)
  /-- VSTX (R106). -/
  | vstx (d : BitVec 4) (a : BitVec 5) (b : BitVec 4) (m : BitVec 1)
  /-- VBCAST (R109). -/
  | vbcast (d : BitVec 4) (a : BitVec 5)
  /-- VEXTR (R109). -/
  | vextr (d : BitVec 5) (a : BitVec 4) (n : BitVec 5)
  /-- VADD (R110). -/
  | vadd (d : BitVec 4) (a : BitVec 4) (b : BitVec 4) (m : BitVec 1)
  /-- VSUB (R110). -/
  | vsub (d : BitVec 4) (a : BitVec 4) (b : BitVec 4) (m : BitVec 1)
  /-- VMUL (R110). -/
  | vmul (d : BitVec 4) (a : BitVec 4) (b : BitVec 4) (m : BitVec 1)
  /-- VFMA (R110). -/
  | vfma (d : BitVec 4) (a : BitVec 4) (b : BitVec 4) (c : BitVec 4) (m : BitVec 1)
  /-- VFMS (R110). -/
  | vfms (d : BitVec 4) (a : BitVec 4) (b : BitVec 4) (c : BitVec 4) (m : BitVec 1)
  /-- VMIN (R110). -/
  | vmin (d : BitVec 4) (a : BitVec 4) (b : BitVec 4) (m : BitVec 1)
  /-- VMAX (R110). -/
  | vmax (d : BitVec 4) (a : BitVec 4) (b : BitVec 4) (m : BitVec 1)
  /-- VABS (R110). -/
  | vabs (d : BitVec 4) (a : BitVec 4) (m : BitVec 1)
  /-- VRCP (R111). -/
  | vrcp (d : BitVec 4) (a : BitVec 4) (m : BitVec 1)
  /-- VRSQ (R111). -/
  | vrsq (d : BitVec 4) (a : BitVec 4) (m : BitVec 1)
  /-- VEXP2 (R111). -/
  | vexp2 (d : BitVec 4) (a : BitVec 4) (m : BitVec 1)
  /-- VLOG2 (R111). -/
  | vlog2 (d : BitVec 4) (a : BitVec 4) (m : BitVec 1)
  /-- VIADD (R112). -/
  | viadd (d : BitVec 4) (a : BitVec 4) (b : BitVec 4) (m : BitVec 1)
  /-- VISUB (R112). -/
  | visub (d : BitVec 4) (a : BitVec 4) (b : BitVec 4) (m : BitVec 1)
  /-- VIMUL (R112). -/
  | vimul (d : BitVec 4) (a : BitVec 4) (b : BitVec 4) (m : BitVec 1)
  /-- VAND (R112). -/
  | vand (d : BitVec 4) (a : BitVec 4) (b : BitVec 4) (m : BitVec 1)
  /-- VOR (R112). -/
  | vor (d : BitVec 4) (a : BitVec 4) (b : BitVec 4) (m : BitVec 1)
  /-- VXOR (R112). -/
  | vxor (d : BitVec 4) (a : BitVec 4) (b : BitVec 4) (m : BitVec 1)
  /-- VSLL (R112). -/
  | vsll (d : BitVec 4) (a : BitVec 4) (b : BitVec 4) (m : BitVec 1)
  /-- VSRL (R112). -/
  | vsrl (d : BitVec 4) (a : BitVec 4) (b : BitVec 4) (m : BitVec 1)
  /-- VSRA (R112). -/
  | vsra (d : BitVec 4) (a : BitVec 4) (b : BitVec 4) (m : BitVec 1)
  /-- VCMP_EQ (R113). -/
  | vcmpEq (a : BitVec 4) (b : BitVec 4) (m : BitVec 1)
  /-- VCMP_NE (R113). -/
  | vcmpNe (a : BitVec 4) (b : BitVec 4) (m : BitVec 1)
  /-- VCMP_LT (R113). -/
  | vcmpLt (a : BitVec 4) (b : BitVec 4) (m : BitVec 1)
  /-- VCMP_LTU (R113). -/
  | vcmpLtu (a : BitVec 4) (b : BitVec 4) (m : BitVec 1)
  /-- VCMP_GE (R113). -/
  | vcmpGe (a : BitVec 4) (b : BitVec 4) (m : BitVec 1)
  /-- VCMP_GEU (R113). -/
  | vcmpGeu (a : BitVec 4) (b : BitVec 4) (m : BitVec 1)
  /-- VCMP_FEQ (R113). -/
  | vcmpFeq (a : BitVec 4) (b : BitVec 4) (m : BitVec 1)
  /-- VCMP_FLT (R113). -/
  | vcmpFlt (a : BitVec 4) (b : BitVec 4) (m : BitVec 1)
  /-- VCMP_FLE (R113). -/
  | vcmpFle (a : BitVec 4) (b : BitVec 4) (m : BitVec 1)
  /-- VCMP_FUN (R113). -/
  | vcmpFun (a : BitVec 4) (b : BitVec 4) (m : BitVec 1)
  /-- VSEL (R114). -/
  | vsel (d : BitVec 4) (a : BitVec 4) (b : BitVec 4)
  /-- VSHUF (R114). -/
  | vshuf (d : BitVec 4) (a : BitVec 4) (b : BitVec 4) (m : BitVec 1)
  /-- VSLIDE_UP (R114). -/
  | vslideUp (d : BitVec 4) (a : BitVec 4) (b : BitVec 4) (m : BitVec 1) (n : BitVec 5)
  /-- VSLIDE_DN (R114). -/
  | vslideDn (d : BitVec 4) (a : BitVec 4) (b : BitVec 4) (m : BitVec 1) (n : BitVec 5)
  /-- VCVT_I32_F (R115). -/
  | vcvtI32F (d : BitVec 4) (a : BitVec 4) (m : BitVec 1) (r : BitVec 3)
  /-- VCVT_F_I32 (R115). -/
  | vcvtFI32 (d : BitVec 4) (a : BitVec 4) (m : BitVec 1) (r : BitVec 3)
  /-- VCVT_BF_F (R115). -/
  | vcvtBfF (d : BitVec 4) (a : BitVec 4) (h : BitVec 1) (m : BitVec 1) (r : BitVec 3)
  /-- VCVT_F_BF (R115). -/
  | vcvtFBf (d : BitVec 4) (a : BitVec 4) (h : BitVec 1) (m : BitVec 1)
  /-- VCVT_HF_F (R115). -/
  | vcvtHfF (d : BitVec 4) (a : BitVec 4) (h : BitVec 1) (m : BitVec 1) (r : BitVec 3)
  /-- VCVT_F_HF (R115). -/
  | vcvtFHf (d : BitVec 4) (a : BitVec 4) (h : BitVec 1) (m : BitVec 1)
  /-- VENC_T0 (R116). -/
  | vencT0 (d : BitVec 4) (a : BitVec 4) (q : BitVec 2) (m : BitVec 1)
  /-- VENC_T1 (R116). -/
  | vencT1 (d : BitVec 4) (a : BitVec 4) (q : BitVec 2) (m : BitVec 1)
  /-- VENC_E2 (R116). -/
  | vencE2 (d : BitVec 4) (a : BitVec 4) (e : BitVec 3) (m : BitVec 1)
  /-- VDEC_T0 (R116). -/
  | vdecT0 (d : BitVec 4) (a : BitVec 4) (q : BitVec 2) (m : BitVec 1)
  /-- VDEC_T1 (R116). -/
  | vdecT1 (d : BitVec 4) (a : BitVec 4) (q : BitVec 2) (m : BitVec 1)
  /-- VDEC_E2 (R116). -/
  | vdecE2 (d : BitVec 4) (a : BitVec 4) (e : BitVec 3) (m : BitVec 1)
  /-- DTAB_LD (R117). -/
  | dtabLd (t : BitVec 1) (a : BitVec 5) (im : BitVec 15)
  /-- VRED (R118). -/
  | vred (d : BitVec 4) (a : BitVec 4) (m : BitVec 1) (k : BitVec 4)
  /-- VSCAN (R118). -/
  | vscan (d : BitVec 4) (a : BitVec 4) (m : BitVec 1) (k : BitVec 4)
  /-- VSCANL (R119). -/
  | vscanl (d : BitVec 4) (a : BitVec 4) (b : BitVec 4) (c : BitVec 4) (m : BitVec 1) (f : BitVec 4)
  /-- VDOTB_X8 (R120). -/
  | vdotbX8 (d : BitVec 4) (a : BitVec 4) (b : BitVec 4) (sc : BitVec 4) (q : BitVec 2)
  /-- VDOTB_X4 (R120). -/
  | vdotbX4 (d : BitVec 4) (a : BitVec 4) (b : BitVec 4) (sc : BitVec 4) (e : BitVec 3)
  /-- MMA_BF (R140). -/
  | mmaBf (c : BitVec 3) (a : BitVec 5) (n : BitVec 1) (t : BitVec 1) (k : BitVec 3)
  /-- MMA_HF (R140). -/
  | mmaHf (c : BitVec 3) (a : BitVec 5) (n : BitVec 1) (t : BitVec 1) (k : BitVec 3)
  /-- MMA_E4 (R140). -/
  | mmaE4 (c : BitVec 3) (a : BitVec 5) (n : BitVec 1) (t : BitVec 1) (k : BitVec 3)
  /-- MMA_E45 (R140). -/
  | mmaE45 (c : BitVec 3) (a : BitVec 5) (n : BitVec 1) (t : BitVec 1) (k : BitVec 3)
  /-- MMA_E5 (R140). -/
  | mmaE5 (c : BitVec 3) (a : BitVec 5) (n : BitVec 1) (t : BitVec 1) (k : BitVec 3)
  /-- MMA_X8 (R140). -/
  | mmaX8 (c : BitVec 3) (a : BitVec 5) (sc : BitVec 5) (n : BitVec 1) (t : BitVec 1) (k : BitVec 3)
  /-- MMA_X84 (R140). -/
  | mmaX84 (c : BitVec 3) (a : BitVec 5) (sc : BitVec 5) (n : BitVec 1) (t : BitVec 1) (k : BitVec 3)
  /-- MMA_X4 (R140). -/
  | mmaX4 (c : BitVec 3) (a : BitVec 5) (sc : BitVec 5) (n : BitVec 1) (t : BitVec 1) (k : BitVec 3)
  /-- MMA_I8 (R140). -/
  | mmaI8 (c : BitVec 3) (a : BitVec 5) (n : BitVec 1) (t : BitVec 1) (k : BitVec 3)
  /-- ACQ (R126). -/
  | acq (c : BitVec 3)
  /-- REL (R127). -/
  | rel (c : BitVec 3)
  /-- AZERO (R128). -/
  | azero (c : BitVec 3)
  /-- APOIS (R128). -/
  | apois (d : BitVec 5) (c : BitVec 3)
  /-- ALD (R130). -/
  | ald (c : BitVec 3) (a : BitVec 5)
  /-- AST (R130). -/
  | ast (c : BitVec 3) (a : BitVec 5) (sc : BitVec 1) (r : BitVec 3) (f : BitVec 4)
  /-- AROW (R132). -/
  | arow (d : BitVec 4) (c : BitVec 3) (b : BitVec 5)
  /-- AWR (R132). -/
  | awr (c : BitVec 3) (a : BitVec 4) (b : BitVec 5)
  /-- BLD (R136). -/
  | bld (a : BitVec 5) (b : BitVec 5)
  /-- BROT (R137). -/
  | brot (a : BitVec 5)
  /-- BSTAT (R138). -/
  | bstat (d : BitVec 5)
  /-- TLDT (R136). -/
  | tldt (a : BitVec 5) (b : BitVec 5)
  /-- SPAWN (R200). -/
  | spawn (p : BitVec 5) (o : BitVec 20)
  /-- SPAWNC (R201). -/
  | spawnc (o : BitVec 20)
  /-- SPAWNR (R202). -/
  | spawnr (n : BitVec 5) (o : BitVec 20)
  /-- NEXTCH (R203). -/
  | nextch (o : BitVec 20)
  /-- AWAIT (R158). -/
  | await
  /-- EXIT (R204). -/
  | exit
  /-- YIELD (R204). -/
  | yield
  /-- MOOR (R205). -/
  | moor
  /-- UNMOOR (R205). -/
  | unmoor
  /-- FRAME (R205). -/
  | frame (d : BitVec 5)
  /-- CANCEL (R206). -/
  | cancel (a : BitVec 5)
  /-- PLACE (R207). -/
  | place (d : BitVec 5) (a : BitVec 5) (b : BitVec 5)
  /-- RANKOF (R207). -/
  | rankof (d : BitVec 5) (a : BitVec 5) (p : BitVec 15)
  /-- ALLOC (R246). -/
  | alloc (d : BitVec 5) (a : BitVec 5)
  /-- FREE (R238). -/
  | free (a : BitVec 5)
  /-- RULEEND (R246). -/
  | ruleend
  /-- NETAUD (R246). -/
  | netaud (d : BitVec 5)
  /-- NSTAT (R246). -/
  | nstat (d : BitVec 5) (a : BitVec 5)
  /-- PORTP (R246). -/
  | portp (d : BitVec 5) (a : BitVec 5)
  /-- PORTA (R246). -/
  | porta (d : BitVec 5) (a : BitVec 5) (k : BitVec 2)
  /-- PORTN (R246). -/
  | portn (d : BitVec 5) (a : BitVec 5) (b : BitVec 5)
  /-- LINK (R229). -/
  | link (a : BitVec 5) (b : BitVec 5)
  /-- JOIN (R231). -/
  | join (a : BitVec 5) (b : BitVec 5)
  /-- LINKN (R232). -/
  | linkn (a : BitVec 5) (b : BitVec 5)
  /-- PAYDUP (R242). -/
  | paydup (a : BitVec 5) (b : BitVec 5)
  /-- PAYDROP (R243). -/
  | paydrop (d : BitVec 5) (a : BitVec 5) (im : BitVec 5)
  /-- PAYOWN (R244). -/
  | payown (a : BitVec 5) (im : BitVec 5)
  /-- CHBIND (R209). -/
  | chbind (l : BitVec 3) (f : BitVec 2) (a : BitVec 5) (p : BitVec 15)
  /-- CHFREE (R211). -/
  | chfree (a : BitVec 5)
  /-- CHSTAT (R211). -/
  | chstat (d : BitVec 5) (a : BitVec 5)
  /-- CBAR (R215). -/
  | cbar (im : BitVec 4)
  /-- CBARCFG (R214). -/
  | cbarcfg (d : BitVec 5) (a : BitVec 5) (im : BitVec 4)
  /-- SLU_COPY (R218). -/
  | sluCopy (d : BitVec 5) (a : BitVec 5) (b : BitVec 5) (f : BitVec 1) (e : BitVec 1)
  /-- SLU_FILL (R218). -/
  | sluFill (d : BitVec 5) (a : BitVec 5) (b : BitVec 5) (f : BitVec 1) (e : BitVec 1)
  /-- SLU_STAT (R219). -/
  | sluStat (d : BitVec 5) (a : BitVec 5)
  /-- SLU_CAN (R219). -/
  | sluCan (a : BitVec 5)
  /-- SC_OPEN (R323). -/
  | scOpen (d : BitVec 5) (a : BitVec 5) (b : BitVec 5)
  /-- SC_STEP (R323). -/
  | scStep (d : BitVec 5) (a : BitVec 5) (b : BitVec 5) (im : BitVec 5)
  /-- SC_MASK (R324). -/
  | scMask (r : BitVec 5) (a : BitVec 5) (b : BitVec 5)
  /-- SC_FORK (R323). -/
  | scFork (d : BitVec 5) (a : BitVec 5)
  /-- SC_ROLL (R323). -/
  | scRoll (a : BitVec 5) (b : BitVec 5)
  /-- SC_SAVE (R325). -/
  | scSave (a : BitVec 5) (b : BitVec 5)
  /-- SC_LOAD (R325). -/
  | scLoad (d : BitVec 5) (a : BitVec 5)
  /-- SC_CLOSE (R323). -/
  | scClose (a : BitVec 5)
  /-- SC_STAT (R323). -/
  | scStat (d : BitVec 5) (a : BitVec 5) (b : BitVec 5)
  /-- RNG (R330). -/
  | rng (d : BitVec 5) (a : BitVec 5) (b : BitVec 5)
  /-- RNGU (R330). -/
  | rngu (d : BitVec 4) (a : BitVec 5) (b : BitVec 5)
  /-- SMP_LOC (R332). -/
  | smpLoc (d : BitVec 5) (a : BitVec 5) (b : BitVec 5)
  /-- SMP_MRG (R333). -/
  | smpMrg (d : BitVec 5) (a : BitVec 5) (b : BitVec 5)
  /-- SMP_TOPK (R332). -/
  | smpTopk (d : BitVec 5) (a : BitVec 5) (b : BitVec 5)
  /-- RPT (R52). -/
  | rpt (n : BitVec 8) (l : BitVec 2) (sc : BitVec 1) (m : BitVec 12)
  /-- RPT_D (R53). -/
  | rptD (n : BitVec 8) (l : BitVec 2) (sc : BitVec 1) (m : BitVec 12)
  /-- BORROW (R97). -/
  | borrow (d : BitVec 5) (a : BitVec 5)
  /-- GIVEB (R99). -/
  | giveb
  /-- XMOVT (R100). -/
  | xmovt (d : BitVec 5) (a : BitVec 5) (c : BitVec 5)
  /-- XMOVF (R100). -/
  | xmovf (d : BitVec 5) (a : BitVec 5) (c : BitVec 5)
  /-- CSRR (R295). -/
  | csrr (d : BitVec 5) (c : BitVec 12)
  /-- CSRW (R295). -/
  | csrw (d : BitVec 5) (a : BitVec 5) (c : BitVec 12)
  /-- CSRS (R295). -/
  | csrs (d : BitVec 5) (a : BitVec 5) (c : BitVec 12)
  /-- CSRC (R295). -/
  | csrc (d : BitVec 5) (a : BitVec 5) (c : BitVec 12)
  /-- ECALL (R296). -/
  | ecall
  /-- EBREAK (R296). -/
  | ebreak
  /-- TRET (R297). -/
  | tret
  /-- WFI (R298). -/
  | wfi
  /-- ISYNC (R299). -/
  | isync
  /-- LNCH (R309). -/
  | lnch (d : BitVec 5) (a : BitVec 5)
  /-- LCANCEL (R309). -/
  | lcancel (a : BitVec 5)
  /-- PSPILL (R306). -/
  | pspill (d : BitVec 5) (a : BitVec 5) (b : BitVec 5)
  /-- PREST (R307). -/
  | prest (d : BitVec 5) (a : BitVec 5) (b : BitVec 5)
  /-- REPEAT_BUFFER_WORD (R53). -/
  | repeatBufferWord (r : Nat)
  /-- INTERRUPT_ENTRY (R287). -/
  | interruptEntry (r b : Nat)
  /-- REGISTER_FILE_DROWSE (R32). -/
  | registerFileDrowse (r b : Nat)
  /-- DOCKING (R150). -/
  | docking (r : Nat)
  /-- SPILL_RETURN (R151). -/
  | spillReturn (r : Nat)
  /-- STEAL_REQUEST (R161). -/
  | stealRequest (r : Nat)
  /-- STEAL_SERVE (R161). -/
  | stealServe (cl : Nat)
  /-- DETECTION_PASS (R164). -/
  | detectionPass (lid : Nat)
  /-- POOL_AUDIT (R239). -/
  | poolAudit (r lid : Nat)
  /-- DEADLOCK_PROBE_SEND (R212). -/
  | deadlockProbeSend (r b : Nat)
  /-- BARRIER_TIMEOUT (R215). -/
  | barrierTimeout (cl id : Nat)
  /-- BROT_TIMEOUT (R137). -/
  | brotTimeout (r : Nat)
  /-- MMA_STEP (R124). -/
  | mmaStep (r : Nat)
  /-- LATCH_FILL_DONE (R136). -/
  | latchFillDone (r h : Nat)
  /-- RING_SEND (R137). -/
  | ringSend (r : Nat)
  /-- RING_TRANSFER_DONE (R137). -/
  | ringTransferDone (r : Nat)
  /-- DTAB_SORT_DONE (R61). -/
  | dtabSortDone (r t : Nat)
  /-- BASIN_SWITCH_DONE (R172). -/
  | basinSwitchDone (cl bank : Nat)
  /-- SLUICE_BURST (R218). -/
  | sluiceBurst (cl : Nat)
  /-- SC_REQUEST_SERVICE (R320). -/
  | scRequestService (cl : Nat)
  /-- TIMER_EXPIRY (R292). -/
  | timerExpiry (r : Nat)
  /-- BUDGET_EXPIRY (R288). -/
  | budgetExpiry (r b : Nat)
  /-- PREEMPT_REQUEST (R302). -/
  | preemptRequest (r : Nat)
  /-- RESTORE_START (R307). -/
  | restoreStart (r : Nat) (buf : BitVec 64)
  /-- HELD_MESSAGE_RELEASE (R266). -/
  | heldMessageRelease (r : Nat)
  /-- JOB_TAKE (R270). -/
  | jobTake
  /-- LAUNCH_ADMISSION (R264). -/
  | launchAdmission (job : Nat)
  /-- JQTAIL_WRITE (R271). -/
  | jqtailWrite (v : BitVec 64)
  /-- JQCANCEL (R268). -/
  | jqcancel (v : BitVec 64)
  /-- CTX_WRITE (R272). -/
  | ctxWrite (n : Nat) (v : BitVec 64)
  /-- TLBINV_ASID (R277). -/
  | tlbinvAsid (asid : BitVec 8)
  /-- TLBINV_RANGE (R277). -/
  | tlbinvRange (asid : BitVec 8) (va len : BitVec 64)
  /-- TLBINV_ALL (R277). -/
  | tlbinvAll
  /-- HOST_BAR2_READ (R273). -/
  | hostBar2Read (off n : Nat)
  /-- HOST_BAR2_WRITE (R273). -/
  | hostBar2Write (off : Nat) (bytes : List (BitVec 8))
  /-- DEBUG_HALT (R301). -/
  | debugHalt (r : Nat) (m : BitVec 16)
  /-- BERTH_HALTED (R34). -/
  | berthHalted (r b : Nat)
  /-- DEBUG_RESUME (R301). -/
  | debugResume (r : Nat) (m : BitVec 16)
  /-- DEBUG_DATA_WRITE (R35). -/
  | debugDataWrite (r : Nat) (v : BitVec 64)
  /-- CORECFG_WRITE (R31). -/
  | corecfgWrite (r : Nat) (v : BitVec 64)
  /-- HQCTL_WRITE (R147). -/
  | hqctlWrite (r : Nat) (v : BitVec 64)
  /-- BASCFG_WRITE (R172). -/
  | bascfgWrite (r : Nat) (v : BitVec 64)
  /-- TIMECMP_WRITE (R292). -/
  | timecmpWrite (r : Nat) (v : BitVec 64)
  /-- REGISTER_WRITE (R295). -/
  | registerWrite (reg : DevReg) (v : BitVec 64)
  /-- ATGO_WRITE (R358). -/
  | atgoWrite (v : BitVec 64)
  /-- ECC_CORRECTED (R338). -/
  | eccCorrected (un : ErrUnit)
  /-- ECC_UNCORRECTABLE (R338). -/
  | eccUncorrectable (un : ErrUnit)
  /-- FLIT_CRC_ERROR (R340). -/
  | flitCrcError (fl : FlitErr)
  /-- LINK_FLIT_ERROR (R281). -/
  | linkFlitError (link : Nat × Bool)
  /-- FATAL_ERROR (R342). -/
  | fatalError (un : ErrUnit)
  /-- SCRUB (R344). -/
  | scrub (stack : Nat) (line : Nat)
  /-- TELEMETRY_POLL (R344). -/
  | telemetryPoll
  /-- CLUSTER_RETIRE (R350). -/
  | clusterRetire (cl : Nat)
  /-- POWER_MEASUREMENT (R359). -/
  | powerMeasurement (watts : Nat)
  /-- THERMAL_TRIP (R359). -/
  | thermalTrip (temp : Int)
  /-- POWER_ON_RESET (R353). -/
  | powerOnReset (bt : BootInput)
  /-- SMBUS_READ_POWER (R360). -/
  | smbusReadPower
  /-- SMBUS_READ_TEMPERATURE (R360). -/
  | smbusReadTemperature
  /-- SMBUS_READ_READY (R360). -/
  | smbusReadReady
  /-- SMBUS_WRITE_PLIM (R360). -/
  | smbusWritePlim (w : Nat × BitVec 8)
  /-- SMBUS_READ_BOOT (R360). -/
  | smbusReadBoot
  /-- ILLEGAL_INSTRUCTION (R46). -/
  | illegalInstruction (w : BitVec 32)
  /-- FETCH_FAULT (R47). -/
  | fetchFault (va : BitVec 64)
  /-- PCIE_CONFIGURATION_REQUEST (R353). -/
  | pcieConfigurationRequest (rq : Nat)
deriving DecidableEq, Repr

end Sys2Proof
end

