-- ==== Sys2Proof/Machine/State.lean ====
section
/-!
DEFINITION. The state of the whole device as plain data, and the device right after reset. Cores, clusters and the
entries of the other lists that have never left their reset contents are absent from their lists; `Core.reset` and
`Cluster.reset` stand for them.
-/
namespace Sys2Proof.Machine

/-- Why a step stops for good: nothing does. Traps and errors are taken, and what comes for cores without power is lost (R359). -/
inductive Fault where
deriving DecidableEq, Repr

/-- Why a step has no meaning. -/
inductive Refusal where
  /-- Raised by an arm of `exec` whose instruction has no meaning yet. Safe: the machine stops. -/
  | notModelled (mnemonic : String)
deriving DecidableEq, Repr

/-- Trap and interrupt causes (R286). -/
inductive Cause where
  | ill | align | fetch | loadf | storef | ecall | brk | place | norule | netfull | poison | deadlock | barstall
  | budget | chan | scerr | linkerr | preempt | timer | debug
deriving DecidableEq, Repr

/-- Where data lives: a byte of HBM, a byte of a core's CLM, or a byte of a cluster's basin; with the key of `mem`. -/
inductive Loc where
  | hbm (pa : Nat)
  | clm (rank off : Nat)
  | basin (cl off : Nat)
deriving DecidableEq, Repr

/-- What a waiting berth waits for (R20, R186). -/
inductive Why where
  | full (key : Nat)                                   -- LDSYNC on an empty word
  | fifo (cl bank : Nat) (push : Bool)                 -- a FIFO push or pop
  | chan (port : Nat)                                  -- a channel push or pop
  | barrier (cl id : Nat)                              -- CBAR
  | await                                              -- an in-berth AWAIT
  | slot (cl : Nat)                                    -- SLU.COPY or SLU.FILL with the queue full
  | acq (rank n : Nat)                                      -- ACQ
  | board                                              -- the scoreboard, for a word of the repetition buffer
  | work                                               -- the scoreboard, for work of the matrix unit or of a fill
  | brot                                               -- BROT
  | walk (asid gran : Nat) (store : Bool)              -- a translation
  | bank (cl n : Nat)                                  -- a basin bank that is switching
  | frame                                              -- a free frame record or room in JOIN
  | stair (cl : Nat)                                   -- a staircase request
  | lock                                               -- the lockhouse's answer to LNCH
  | slow                                               -- a fixed unloaded time, such as a broker's answer
  | pipe                                               -- nothing: an instruction of class F whose effects come at its write-back
  | link                                               -- FREE, for a link sequence that holds a word of its node
  | seqr (rank : Nat)                                  -- the link sequencer of the core
  | sequence (due start : Nat) (log : List (Word × Bool))  -- its running link sequence: when it goes on, when its next step
                                                       -- starts, and the answers of the steps it has made (R228)
  | wfi
  | spill                                              -- a step of PSPILL or PREST that waits
  | wake (till : Nat)                                  -- XMOVT or XMOVF, for the drowsy file it reaches (R32, R100)
  | cleaning (till : Nat)                              -- its own release, which ends in cycle `till` (R179)
  | behind (till : Nat)                                -- another release of the core, which ends in cycle `till` (R179)
  | remote (due : Nat)                                 -- a request on its way to another core, there in cycle `due`
  | held (rank : Nat)                                  -- its request stands at a core that takes none, behind what came before (R266)
  | table (t : DTab) (till : Nat)                      -- VENC, with the table of its issue, for that table's order (R61)
  | fill (h : Nat)                                     -- BLD or TLDT into half h, chosen at its issue (R136)
  | mma (h : Nat) (t0 t1 : DTab)                       -- an MMA, with the half and the tables of its issue (R61, R140)
deriving DecidableEq, Repr

/-- A write of a CSR: the form's fn3, the CSR, the operand and the register for the old value (R295). -/
structure CsrWrite where
  fn3 : Nat
  num : Nat
  val : Word
  d : Nat
deriving DecidableEq, Repr

/-- What a reply brings: the sources whose ports it pops; writes of x, f and v registers, of a predicate and of a decode
table; whether the berth acquires; a branch; a trap; whether the instruction then issues once more to finish (`again`),
or issues for the first time because its fetch has been answered (`refetch`); a request of BORROW, a write of a CSR and a
swap of the latch halves, which act at write-back (R97, R137, R295); whether the release of a push is done (`cleaned`); and
whether the write-back was in the cycle before (`past`). -/
structure Reply where
  srcs : List (BitVec 5) := []
  writes : List (Nat × Word) := []
  fw : Option (Nat × W32) := none
  vw : Option (Nat × VReg) := none
  pred : Option (Nat × Bool) := none
  table : Option (Nat × DTab) := none
  acquire : Bool := false
  pc : Option Word := none
  trap : Option (Cause × Word) := none
  again : Bool := false
  refetch : Bool := false
  borrow : Option (Nat × Word) := none
  csr : Option CsrWrite := none
  brot : Bool := false
  cleaned : Bool := false
  past : Bool := false
deriving DecidableEq, Repr

/-- How far an instruction of many lanes has come: since when its accesses are on their way, the lanes that have been
performed, their values at 32 bits a lane, the poisoned ones, and when the slowest of them is answered (R106, R169). -/
structure Lanes where
  since : Nat
  done : Nat
  vals : Nat
  pois : Nat
  till : Nat
deriving DecidableEq, Repr

/-- A translation held by a cluster's unit (R278). -/
structure TlbEnt where
  asid : Nat
  gran : Nat
  big : Bool
  pte : Word
deriving DecidableEq, Repr

/-- What an instruction does to the latch (R143): nothing, an MMA, a fill of a half (of one not known yet, when its descriptor
is still to come), or a BROT. -/
inductive Latch where
  | none | mma | fill (h : Option Nat) | brot
deriving DecidableEq, Repr

/-- What an instruction has fixed at its issue: its place in the order of issue, the current half and the decode tables
(R61, R136, R140, R143); what it does to the latch, and the runs of CLM (offset, bytes) that it has still to read (R142); the
accumulator that it is moving, an ALD or AST whose transfer runs (R127, R128); the lanes it has performed; the translations
that its walks have brought it (R279); and the count operation of a payload instruction that has been performed: the count
before, and the address of its tile header (R242, R243). -/
structure Issued where
  seq : Nat
  half : Nat
  t0 : DTab
  t1 : DTab
  latch : Latch := .none
  reads : List (Nat × Nat) := []
  acc : Option Nat := none
  lanes : Option Lanes := none
  xl : List TlbEnt := []
  counted : Option (Nat × Word) := none
deriving DecidableEq, Repr

/-- A berth's wait: its place in the global order of waits, since when, when last looked at, whether its walk failed or
its timeout passed, whether its message has been answered and the instruction issues once more, whether its request
stands at the core it is for (R169), whether its release is done (R179), when it last sent a deadlock probe, the reply that has
arrived, and what the instruction has fixed at its issue. -/
structure Wait where
  why : Why
  ticket : Nat
  since : Nat
  polled : Nat
  failed : Bool
  hold : Bool            -- only a reply ends it; otherwise the instruction issues again
  acked : Bool
  home : Bool
  released : Bool
  probed : Nat
  reply : Option Reply
  issued : Issued
deriving DecidableEq, Repr

/-- One channel port of a berth (R209 to R211): 0 to 3 are qi0 to qi3, 4 to 7 are qo0 to qo3. `undel` counts the
entries pushed and not yet delivered; `leaving` holds, for each entry popped, the cycle of the write-back at which it
leaves (R25). -/
structure Port where
  bound : Bool
  frank : Nat
  fberth : Nat
  fport : Nat
  freed : Bool
  q : List Word
  undel : Nat
  leaving : List Nat
deriving DecidableEq, Repr

/-- A coupled RPT block in progress (R49 to R52, R93), and the block of the repetition buffer (R53). -/
structure Block where
  base : Word
  words : List W32
  cnt : Nat
  step : Nat
  mask : Nat
  k : Nat
  idx : Nat
  keep : Bool
deriving DecidableEq, Repr

/-- The repetition buffer (R53): its owner, the next cycle in which its word is tried, the block, what that word waits
for, and the first cycle in which the word after it may issue. -/
structure Buf where
  owner : Nat
  due : Nat
  blk : Block
  wait : Option Wait
  readyAt : Nat
deriving DecidableEq, Repr

/-- A trap that came from the repetition buffer and waits for the berth's next boundary (R53). -/
structure BufTrap where
  cause : Cause
  tval : Word
  addr : Word
  k : Nat
  idx : Nat
deriving DecidableEq, Repr

inductive Halt where
  | no | asked | halted
deriving DecidableEq, Repr

/-- A berth: the registers of R23, its CSRs (R29, R290 to R293), its ports, and what it is doing. -/
structure Berth where
  hdr : Option Hdr
  x : Vector Word 24
  f : Vector W32 16
  v : Vector VReg 16
  p : W32
  fr : W32
  pc : Word
  tstat : Word
  tcause : Word
  tval : Word
  tpc : Word
  tscr : Word
  budget : W32
  fcsr : Word
  rngsrc : Word
  moored : Bool
  ports : Vector Port 8
  borrowed : Option Nat
  lent : Option Nat
  wait : Option Wait
  readyAt : Nat
  lastIssue : Nat
  drowsy : Bool
  fileAt : Nat                                    -- the first cycle in which its file is awake after a debugger's access (R32)
  halt : Halt
  pBudget : Bool
  pDebug : Bool
  pPreempt : Bool
  pTimer : Bool
  preTval : Word
  rpt : Option Block
  bufTrap : Option BufTrap
  entry : Bool
  started : Bool
  pair : List Nat                                 -- the nodes of the pair its barge rewrites (R230)
  arr : Nat                                       -- the cycle of its barge's entry into this core's harbour queue (R144)
  was : Nat                                       -- the state code it shows until it falls EMPTY or is ungated (R31, R34)
deriving DecidableEq, Repr

/-- A line of an L1 (R174, R276): byte masks of valid and dirty bytes, and for each 8-byte unit whether it was poisoned
when it was fetched, and whether an error of the L1 has lost its stored bytes (R338); `big` says that it lies in a 256 MiB
page. -/
structure Line where
  asid : Nat
  va : Nat
  big : Bool
  pa : Nat
  stamp : BitVec 6
  pte : Word
  valid : BitVec 1024
  dirty : BitVec 1024
  data : LineData
  pois : BitVec 128
  lost : BitVec 128
deriving DecidableEq, Repr

/-- A 128-byte line of an instruction cache, with the poison of its 16 units (R341). -/
structure ILine where
  asid : Nat
  va : Nat
  pa : Nat
  pte : Word
  data : VReg
  pois : BitVec 16
deriving DecidableEq, Repr

/-- An accumulator (R122): its elements, poison mask, owner, and whether it is release-pending (R127). -/
structure Acc where
  data : AccData
  pois : W32
  owner : Option Nat
  relp : Bool
deriving DecidableEq, Repr

/-- The state of a latch half (R133). -/
inductive HalfSt where
  | empty | filling | full | draining
deriving DecidableEq, Repr

/-- A latch half (R122), and the fill that is running into it. -/
structure Half where
  data : HalfData
  scales : HalfScales
  st : HalfSt
  desc : BitVec 6
  pois : Bool
  fill : Option (Nat × Nat × Word × Nat × Bool)   -- berth, rank offset, descriptor, ready cycle, transposed
deriving DecidableEq, Repr

/-- An MMA in the matrix unit's queue (R124, R140): its operands as read at issue, the half it binds, the next step
and the rows it has poisoned so far. -/
structure Mma where
  fmt : Nat
  acc : Nat
  berth : Nat
  a : Word
  sc : Word
  n : Nat
  ta : Bool
  neg : Bool
  half : Nat
  seq : Nat            -- its place in the order of issue (R143)
  ready : Nat          -- the first cycle in which its first step may start
  st : Nat
  due : Nat            -- when its running step ends; 0 while none runs
  pois : W32
  first : Option Word
  t0 : DTab            -- the decode tables at issue (R61)
  t1 : DTab
  bufAt : Option (Word × Nat × Nat)   -- a buffer word's address, k and index
  wide : Bool          -- class W: the poison trap was enabled at issue
deriving DecidableEq, Repr

/-- A packet resident in a harbour queue (R147, R150, R159): its slot, ARR, and the berth it is held for. -/
structure QEnt where
  slot : Nat
  pk : Packet
  arr : Nat
  hold : Option Nat
deriving DecidableEq, Repr

/-- A launch's pool on one core (R236, R239, R250): base is in slots, the free list has its top first; `busy` is when a
running audit ends, and `bad` that the bitmap was found uncorrectable (R345). -/
structure Pool where
  lid : Nat
  base : Nat
  slots : Nat
  free : List Nat
  used : List Nat
  count : Nat
  audits : BitVec 16
  nextAudit : Nat
  reclaimed : Nat
  busy : Nat
  bad : Bool
deriving DecidableEq, Repr

/-- A network interface's counts for a launch (R163). -/
structure Counts where
  lid : Nat
  live : Nat
  pend : Nat
  sent : Nat
  recv : Nat
deriving DecidableEq, Repr

/-- Where a core stands in a pre-emption (R302 to R307): asked for, stopped by PSPILL Q, its lead started for a restore
that has not run PREST Q, and restoring since PREST Q. -/
inductive Pre where
  | none | asked | stopped | starting | restoring
deriving DecidableEq, Repr

/-- A ring send (R137): the half, its BROT's place in the order of issue, whether the half was FULL when it was swapped
out, and the transfer's last cycle once it has started. -/
structure Send where
  half : Nat
  seq : Nat
  full : Bool
  till : Option Nat
deriving DecidableEq, Repr

/-- The decode tables of the matrix queue's entries at their issue, for which the context buffer has no place (R61, R304,
log 20). -/
structure LatchSave where
  tables : List (DTab × DTab)
deriving DecidableEq, Repr

/-- The BROT outstanding on a core (R137): its berth, since when, its place in the order of issue, whether a word of the
repetition buffer issued it, whether it sends on the ring, and whether its stall has been recorded. -/
structure Brot where
  berth : Nat
  since : Nat
  seq : Nat
  buffered : Bool
  ring : Bool
  told : Bool
deriving DecidableEq, Repr

/-- What a vacated barge's save slot has no place for (R303): its header, its pair's nodes, and its entry into the queue. -/
structure Vacated where
  hdr : Hdr
  pair : List Nat
  arr : Nat
deriving DecidableEq, Repr

/-- A message that waits for a release of its core (R179): it leaves no earlier than cycle `least`, and arrives `way` cycles
after it has left, at a thief among others (R161). -/
structure Behind where
  least : Nat
  way : Nat
  msg : Instr
  thief : Option Nat
deriving DecidableEq, Repr

structure Core where
  berths : Vector Berth 16
  last : Nat
  issueAt : Nat
  l1 : List Line
  stamp : BitVec 6
  l1Busy : Nat
  relEnd : Nat                              -- the cycle in which the running release ends, with one that waits behind it (R179)
  relAgain : Option Nat                     -- when the release that waits behind the running one starts
  behind : List Behind                      -- the messages that wait for that release
  icache : List ILine
  tvec : Word
  corecfg : Word
  timecmp : Word
  instret : Word
  pfdrop : Word
  ecccnt : Word
  eccAt : Nat                               -- the cycle after the last event counted, and the value before that cycle's (R344)
  eccOld : Word
  eccHits : Word                            -- the events of that cycle, field by field
  probecfg : Word
  asid : Word
  accs : Vector Acc 8
  halves : Vector Half 2
  curh : Nat
  mq : List Mma
  stall : Bool
  sdone : Bool
  sends : List Send                         -- in the order in which they were asked for; the head may be running
  recv : Bool
  brot : Option Brot
  dt0 : DTab
  dt1 : DTab
  sort0 : Nat
  sort1 : Nat
  queue : List QEnt
  cap : Nat
  spillq : List (Packet × Nat × Nat)        -- packet, ARR, its slot of the overflow segment
  overq : List Packet                       -- held for this core at their senders while their launch's segment is full (R151)
  spillAt : Option Nat                      -- while spilled packets return: from when the next batch does (R151)
  buffer : Option Buf
  vecAt : Nat                               -- the cycle after the last issue of a vector instruction by a berth (R53)
  pools : List Pool
  counts : List Counts
  pre : Pre
  vac : BitVec 16
  vacated : List (Nat × Vacated)            -- what the save slots have no place for (R303)
  saved : Option LatchSave
  kept : List (Option QEnt)                 -- the packets of the last PSPILL Q, in docking order; none for a cancelled one (R268)
  bufAt : Word                              -- the context buffer of the last PSPILL Q, and where its granules lie in HBM
  bufPas : List Nat
  waiting : Option Word                     -- a restore asked for while the pre-emption still runs
  dbgctl : Word
  dbgsel : Word
  dbgv : Nat                                -- DATA[35:32] as last written (R300)
  stealOut : Bool
  stealAt : Nat
  dockAt : Nat
  seqAt : Nat                               -- the first cycle in which the link sequencer is free (R228)
  orphans : List Nat                        -- frame records whose owner has exited (R156)
deriving DecidableEq, Repr

/-- A bank of a basin (R171, R172): its mode, the switch in progress, a switch asked for meanwhile, its FIFO, each entry
with its poison (R341), and the free-value counter of its last switch into SCRATCH. -/
structure Bank where
  mode : Nat
  next : Option (Nat × Nat)
  again : Option Nat
  fifo : List (Word × Bool)
  epoch : Nat
deriving DecidableEq, Repr

/-- A line of the cluster cache (R171). -/
structure BLine where
  pa : Nat
  data : LineData
  pois : BitVec 128
deriving DecidableEq, Repr

/-- A barrier's state word and its waiters (R214, R215). -/
structure Barrier where
  count : Nat
  pendCount : Option Nat
  arr : Nat
  gen : Bool
  stalls : Nat
  waiters : List (Nat × Nat)
  stalled : Bool
deriving DecidableEq, Repr

inductive SluSt where
  | queued | running | done | cancelled | fault | paused
deriving DecidableEq, Repr

/-- A sluice command (R217 to R219). -/
structure Slu where
  seq : Nat
  st : SluSt
  fillW : Option Word
  dst : Word
  src : Word
  len : Nat
  cursor : Nat
  fe : Bool
  rank : Nat
  lid : Nat
  asid : Nat
  user : Bool
  order : Nat
  devs : List Nat                         -- the other devices of its launch's group: a command may outlive its launch
deriving DecidableEq, Repr

/-- A configuration of a staircase slot (R314, R318): the stack as a link to its top entry. -/
structure Conf where
  s : Nat
  top : Nat
  depth : Nat
  fin : Bool
  pos : W32
deriving DecidableEq, Repr

structure StairSlot where
  img : Word
  seq : W32
  conf : Conf
  hist : List Conf
  err : Bool
  lid : Nat
  asid : Nat
deriving DecidableEq, Repr

/-- The staircase instructions (R322). -/
inductive ScOp where
  | opening | step | mask | fork | roll | save | load | close | stat
deriving DecidableEq, Repr

/-- A request in a staircase engine's queue (R320): which instruction, who issued it, and its operands. -/
structure ScReq where
  op : ScOp
  rank : Nat
  berth : Nat
  d : Nat
  pred : Nat
  a : Word
  b : Word
  r : Word
  lid : Nat
  lasid : Nat            -- the launch's ASID; then the issuer's own, and its mode
  asid : Nat
  user : Bool
  srcs : List (BitVec 5)
deriving DecidableEq, Repr

structure Cluster where
  banks : Vector Bank 16
  bcache : List BLine
  tlb : List TlbEnt
  walks : List (Nat × Nat)
  bars : Vector Barrier 16
  slu : List (Nat × Slu)
  sluSeq : Nat
  sluAt : Nat
  sluOrder : Nat
  gens : List (Nat × Nat)
  sslots : List (Nat × StairSlot)
  store : List (Nat × Nat × Nat)          -- entry, symbol, link
  scq : List (Nat × ScReq)
  scAt : Nat
  scBad : List Nat
  steals : List Nat
  stealNext : Nat
deriving DecidableEq, Repr

/-- A launch the lockhouse has admitted or holds PENDING (R262, R264, R267). -/
structure Launch where
  lid : Nat
  job : Nat
  desc : Nat
  asid : Nat
  pri : Nat
  conc : Bool
  row0 : Nat
  col0 : Nat
  rows : Nat
  cols : Nat
  code : Word
  rules : Word
  k : Nat
  nsoff : Nat
  nsslots : Nat
  seed : Word
  area : Word
  state : Nat
  start : Nat
  pass : Option (Nat × Nat × Nat × Nat)
  nextPass : Nat
  cancel : Bool
  parked : List (Nat × Nat × Packet)       -- rank, slot, packet
  devs : List Nat                          -- the other devices of its group (R284)
deriving DecidableEq, Repr

/-- A job record taken by the lockhouse (R269, R270). -/
structure Job where
  id : Nat
  pa : Nat
  nl : Nat
  vec : Nat
  noirq : Bool
  next : Nat           -- the next launch to admit
deriving DecidableEq, Repr

/-- A rank table entry's live fields for a cluster of ranks (R266); the 16 ranks of a cluster move together. -/
structure RankEnt where
  valid : Bool
  transit : Bool
  pcl : Nat
deriving DecidableEq, Repr

/-- An error record (R346). -/
structure ErrRec where
  cycle : Nat
  cls : Nat
  unit : Nat
  num : Nat
  lid : Nat
  addr : Nat
  count : Nat
deriving DecidableEq, Repr

/-- The lockhouse (R269 to R277, R344 to R360). -/
structure Lock where
  jqbase : Word
  jqsize : Word
  jqtail : Word
  jqhead : Word
  bar2off : Word
  tlbinv : Word
  tlbva : Word
  tlblen : Word
  ctx : List (Nat × Word)
  needShoot : List Nat
  lastLid : Nat
  nextJob : Nat
  jobs : List Job
  inbox : List Nat
  ranks : List (Nat × RankEnt)
  ready : List Nat
  scReady : List Nat
  stage : Nat
  slot : Nat
  fwver : W32
  fwdig : BitVec 256
  hbm : BitVec 8
  links : BitVec 16
  nvme : BitVec 2
  pcie : Bool
  running : Bool
  spares : Nat
  dev : BitVec 12
  atnonce : Vector Word 4
  ataddr : Word
  atgo : Bool
  plim : Nat
  plimNext : Nat
  clock : Nat
  samples : List Nat
  lowFor : Nat
  power : Nat
  temp : Int                   -- in eighths of a degree (R360)
  errs : List ErrRec
  corr : List (Nat × Nat)      -- rank and cycle of corrected CLM errors
  units : List (Nat × Nat)     -- counters of slices, stacks and links
  telem : List (Nat × Nat)     -- telemetry totals
  corrMax : Nat                -- CORRMAX of the firmware configuration (R350)
  failing : List (Nat × Bool)  -- clusters to retire, and whether after a fatal error
  moving : List (Nat × Nat)    -- clusters whose state is being copied to a spare, and until when (R350)
  linkTry : List (Nat × Nat)
  dumpSeq : Nat
  dumping : Bool
  dumpPend : List ErrRec
  trip : Option ErrRec         -- the record of the thermal trip whose dump takes core power with it (R359)
  scrubAt : Nat
  pollAt : Nat
  configs : Nat
  boot : Option BootInput      -- the boot that is running, the cycle of its next step, and its clusters still to test (R353)
  bootAt : Nat
  toTest : List Nat
  sram : List Byte             -- the image loaded from the slot booted (R353)
  drive : Nat                  -- the drive booted from
  dumpDrive : Nat              -- the drive that dumps go to (R347)
  written : List (Nat × FwSlot)   -- the slots the firmware has written: twice the drive, and 1 for slot B (R354)
deriving DecidableEq, Repr

/-- What crosses a link to another device (R283). -/
inductive LinkMsg where
  | barge (rank : Nat) (pk : Packet)
deriving DecidableEq, Repr

/-- What the device hands to the outside: MSI-X messages, host read data, SMBus answers, configuration replies. -/
inductive Out where
  | msix (vec : Nat)
  | host (bytes : List Byte) (ep : Bool)
  | smbus (bytes : List Byte)
  | nack
  | config (retry : Bool) (v : Nat)
  | nvme (dump drive : Nat)
  | link (dev : Nat) (m : LinkMsg)
deriving DecidableEq, Repr

structure State where
  cycle : Nat
  rank : Nat
  berth : Nat
  buffered : Bool
  cores : List (Nat × Core)
  clusters : List (Nat × Cluster)
  mem : List Host.Cell
  basin : List Host.Cell
  full : List Nat
  poison : List Nat
  launches : List Launch
  lock : Lock
  agenda : List (Nat × Instr)
  held : List (Nat × Instr)
  inputs : List Instr
  outs : List Out
  ticket : Nat
  free : Nat
  powerOff : Bool
deriving DecidableEq, Repr

namespace Port
def reset : Port := ⟨false, 0, 0, 0, false, [], 0, []⟩
end Port

namespace Berth
/-- An empty berth: every register zero, p0 reads 1 (R26, R31, R33). -/
def reset : Berth where
  hdr := none
  x := Vector.replicate 24 0
  f := Vector.replicate 16 0
  v := Vector.replicate 16 0
  p := 1
  fr := 0
  pc := 0
  tstat := 0
  tcause := 0
  tval := 0
  tpc := 0
  tscr := 0
  budget := 0
  fcsr := 0
  rngsrc := 0
  moored := false
  ports := Vector.replicate 8 Port.reset
  borrowed := none
  lent := none
  wait := none
  readyAt := 0
  lastIssue := 0
  drowsy := false
  fileAt := 0
  halt := .no
  pBudget := false
  pDebug := false
  pPreempt := false
  pTimer := false
  preTval := 0
  rpt := none
  bufTrap := none
  entry := false
  started := false
  pair := []
  arr := 0
  was := 0
end Berth

namespace Half
def reset : Half := ⟨0, 0, .empty, 0, false, none⟩
end Half

namespace Core
/-- A core at reset: R19, R31, R60, R122, R147, R292, R294. -/
def reset : Core where
  berths := Vector.replicate 16 Berth.reset
  last := 15
  issueAt := 0
  l1 := []
  stamp := 0
  l1Busy := 0
  relEnd := 0
  relAgain := none
  behind := []
  icache := []
  tvec := 0
  corecfg := 0xFFFF
  timecmp := 0
  instret := 0
  pfdrop := 0
  ecccnt := 0
  eccAt := 0
  eccOld := 0
  eccHits := 0
  probecfg := 0x0000100000100001
  asid := 0
  accs := Vector.replicate 8 ⟨0, 0, none, false⟩
  halves := Vector.replicate 2 Half.reset
  curh := 0
  mq := []
  stall := false
  sdone := false
  sends := []
  recv := false
  brot := none
  dt0 := dtabT0
  dt1 := dtabT1
  sort0 := 0
  sort1 := 0
  queue := []
  cap := 64
  spillq := []
  overq := []
  spillAt := none
  buffer := none
  vecAt := 0
  pools := []
  counts := []
  pre := .none
  vac := 0
  vacated := []
  saved := none
  kept := []
  bufAt := 0
  bufPas := []
  waiting := none
  dbgctl := 0
  dbgsel := 0
  dbgv := 0
  stealOut := false
  stealAt := 0
  dockAt := 0
  seqAt := 0
  orphans := []
end Core

namespace Cluster
/-- A cluster at reset: R171, R214, R217, R318. -/
def reset : Cluster where
  banks := Vector.replicate 16 ⟨0, none, none, [], 0⟩
  bcache := []
  tlb := []
  walks := []
  bars := Vector.replicate 16 ⟨16, none, 0, false, 0, [], false⟩
  slu := []
  sluSeq := 0
  sluAt := 0
  sluOrder := 0
  gens := []
  sslots := []
  store := []
  scq := []
  scAt := 0
  scBad := []
  steals := []
  stealNext := 0
end Cluster

namespace Lock
/-- The lockhouse at reset, before its boot (R271, R272, R355, R358 to R360). -/
def reset : Lock where
  jqbase := 0
  jqsize := 0
  jqtail := 0
  jqhead := 0
  bar2off := 0
  tlbinv := 0
  tlbva := 0
  tlblen := 0
  ctx := []
  needShoot := []
  lastLid := 0
  nextJob := 0
  jobs := []
  inbox := []
  ranks := []
  ready := []
  scReady := []
  stage := 0
  slot := 0
  fwver := 0
  fwdig := 0
  hbm := 0
  links := 0
  nvme := 0
  pcie := false
  running := false
  spares := 0
  dev := 0
  atnonce := Vector.replicate 4 0
  ataddr := 0
  atgo := false
  plim := 3600
  plimNext := 3600
  clock := 1800
  samples := []
  lowFor := 0
  power := 0
  temp := 0
  errs := []
  corr := []
  units := []
  telem := []
  corrMax := 256
  failing := []
  moving := []
  linkTry := []
  dumpSeq := 0
  dumping := false
  dumpPend := []
  trip := none
  scrubAt := 0
  pollAt := 0
  configs := 0
  boot := none
  bootAt := 0
  toTest := []
  sram := []
  drive := 0
  dumpDrive := 0
  written := []
end Lock

namespace State
/-- The machine right after reset. -/
def reset : State where
  cycle := 0
  rank := 0
  berth := 0
  buffered := false
  cores := []
  clusters := []
  mem := []
  basin := []
  full := []
  poison := []
  launches := []
  lock := Lock.reset
  agenda := []
  held := []
  inputs := []
  outs := []
  ticket := 0
  free := 0
  powerOff := false
end State

end Sys2Proof.Machine
end

