-- ==== Sys2Proof/Machine/Access.lean ====
section
/-!
DEFINITION. Reading and writing the parts of the state: cores, berths, clusters, launches, ranks and the grid (R2,
R134, R153, R265), the agenda of messages in flight, and how a meaning may stop.
-/
namespace Sys2Proof.Machine

def vgetB (v : Vector Berth 16) (b : Nat) : Berth := vget v b Berth.reset

namespace Core
/-- A berth number has 4 bits, a latch half's one (R18, R133). -/
def berth (c : Core) (b : Nat) : Berth := vgetB c.berths (b % 16)
def setBerth (c : Core) (b : Nat) (x : Berth) : Core := { c with berths := vset c.berths (b % 16) x }
def acc (c : Core) (n : Nat) : Acc := vget c.accs n ⟨0, 0, none, false⟩
def setAcc (c : Core) (n : Nat) (a : Acc) : Core := { c with accs := vset c.accs n a }
def half (c : Core) (h : Nat) : Half := vget c.halves (h % 2) Half.reset
def setHalf (c : Core) (h : Nat) (x : Half) : Core := { c with halves := vset c.halves (h % 2) x }
/-- Every wait of a core: its berths', and that of its repetition buffer's word. -/
def waits (c : Core) : List Wait :=
  (c.berths.toList.filterMap fun b => b.wait) ++ (match c.buffer with | some q => q.wait.toList | none => [])
end Core

namespace State
def core (s : State) (r : Nat) : Core := (alGet s.cores r).getD Core.reset
def setCore (s : State) (r : Nat) (c : Core) : State := { s with cores := alSet s.cores r c }
def modCore (s : State) (r : Nat) (f : Core → Core) : State := s.setCore r (f (s.core r))
def berthAt (s : State) (r b : Nat) : Berth := (s.core r).berth b
def setBerth (s : State) (r b : Nat) (x : Berth) : State := s.modCore r fun c => c.setBerth b x
def modBerth (s : State) (r b : Nat) (f : Berth → Berth) : State := s.setBerth r b (f (s.berthAt r b))
/-- The executing core and berth. -/
def myCore (s : State) : Core := s.core s.rank
def modMyCore (s : State) (f : Core → Core) : State := s.modCore s.rank f
def me (s : State) : Berth := s.berthAt s.rank s.berth
def setMe (s : State) (b : Berth) : State := s.setBerth s.rank s.berth b
def modMe (s : State) (f : Berth → Berth) : State := s.setMe (f s.me)
def cluster (s : State) (cl : Nat) : Cluster := (alGet s.clusters cl).getD Cluster.reset
def setCluster (s : State) (cl : Nat) (c : Cluster) : State := { s with clusters := alSet s.clusters cl c }
def modCluster (s : State) (cl : Nat) (f : Cluster → Cluster) : State := s.setCluster cl (f (s.cluster cl))
/-- Acts as berth b of rank r. -/
def as (s : State) (r b : Nat) : State := { s with rank := r, berth := b, buffered := false }
/-- Leaves the executing berth as it was. -/
def back (t s : State) : State := { t with rank := s.rank, berth := s.berth, buffered := s.buffered }
def withLock (s : State) (f : Lock → Lock) : State := { s with lock := f s.lock }
def out (s : State) (o : Out) : State := { s with outs := s.outs ++ [o] }
/-- The wait of the executing instruction: the berth's, or that of the repetition buffer's word. -/
def myWait (s : State) : Option Wait := if s.buffered then s.myCore.buffer.bind Buf.wait else s.me.wait
/-- The instruction waits: a berth's first wait starts no earlier boundary than its write-back, 8 cycles on (R16); a
buffer's word is tried again in the next cycle. -/
def setWait (s : State) (w : Wait) : State :=
  if s.buffered then
    s.modMyCore fun c => { c with buffer := c.buffer.map fun q =>
      { q with wait := some w, due := s.cycle + 1, readyAt := if q.wait.isSome then q.readyAt else Nat.max q.readyAt (s.cycle + 8) } }
  else s.modMe fun b => { b with wait := some w, readyAt := if b.wait.isSome then b.readyAt else Nat.max b.readyAt (s.cycle + 8) }
/-- What an instruction that issues now fixes. -/
def issueNow (s : State) : Issued := { seq := s.ticket, half := s.myCore.curh, t0 := s.myCore.dt0, t1 := s.myCore.dt1 }
/-- What the executing instruction fixed at its issue: now, or when it first waited (R143). -/
def issued (s : State) : Issued := match s.myWait with | some w => w.issued | none => s.issueNow
/-- The first cycle of work that the executing instruction starts now: 8 cycles after its issue, or at once when it has
waited past that (R131, R136). -/
def startAt (s : State) : Nat :=
  match s.myWait with
  | none => s.cycle + 8
  | some _ => Nat.max s.cycle (if s.buffered then (match s.myCore.buffer with | some q => q.readyAt | none => 0) else s.me.readyAt)
/-- When the berth, or the buffer's next word, may issue again after an instruction of `lat` cycles from issue to next
readiness (R36, R37); one that waited goes on with what was left of them, and no earlier than the next cycle (R20). -/
def readyAfter (s : State) (lat : Nat) : Nat := Nat.max (s.cycle + 1) (s.startAt + (lat - 8))
/-- How long from now the executing instruction's message leaves: at its write-back, or now when it has waited past that
(R20, R36). -/
def leaveIn (s : State) : Nat := s.startAt - 1 - s.cycle
/-- A message or event that takes effect `delay` cycles from now. -/
def later (s : State) (delay : Nat) (i : Instr) : State := { s with agenda := insertDue s.agenda (s.cycle + delay) i }
/-- A fresh undefined byte source: the counter moves on. -/
def fresh (s : State) : State := { s with free := s.free + 1 }
end State

/-! ### Ranks and the grid (R2, R134, R153) -/

def rowOf (r : Nat) : Nat := r / 96
def colOf (r : Nat) : Nat := r % 96
def clusterOf (r : Nat) : Nat := rowOf r / 4 * 24 + colOf r / 4
/-- The B-ring position of a rank in its cluster (R134). -/
def ringPos (r : Nat) : Nat :=
  let ly := rowOf r % 4
  let lx := colOf r % 4
  if ly % 2 = 0 then 4 * ly + lx else 4 * ly + 3 - lx
/-- The rank at ring position p of a cluster. -/
def ringRank (cl p : Nat) : Nat :=
  let ly := p % 16 / 4
  let lx := if ly % 2 = 0 then p % 4 else 3 - p % 4
  (cl / 24 * 4 + ly) * 96 + cl % 24 * 4 + lx
def ringRanks (cl : Nat) : List Nat := (upTo 16).map (ringRank cl)
/-- The cluster's ranks from position p + 1 around to p. -/
def ringAfter (r : Nat) : List Nat := (upTo 16).map fun i => ringRank (clusterOf r) (ringPos r + 1 + i)
def ringNext (r : Nat) : Nat := ringRank (clusterOf r) (ringPos r + 1)
def ringPrev (r : Nat) : Nat := ringRank (clusterOf r) (ringPos r + 15)
def absDiff (a b : Nat) : Nat := (a - b) + (b - a)
/-- Mesh hops between two ranks (R37, R153). -/
def hops (a b : Nat) : Nat := absDiff (rowOf a) (rowOf b) + absDiff (colOf a) (colOf b)
/-- The rank at place(dy, dx) from rank r, if it lies on the grid (R265). -/
def placeRank (r : Nat) (dy dx : Int) : Option Nat :=
  let y := (rowOf r : Int) + dy
  let x := (colOf r : Int) + dx
  if 0 ≤ y ∧ y < 96 ∧ 0 ≤ x ∧ x < 96 then some (y.toNat * 96 + x.toNat) else none

namespace Launch
def inRect (l : Launch) (r : Nat) : Bool :=
  decide (l.row0 ≤ rowOf r ∧ rowOf r < l.row0 + l.rows ∧ l.col0 ≤ colOf r ∧ colOf r < l.col0 + l.cols)
/-- The ranks of the rectangle in index order (R262). -/
def ranks (l : Launch) : List Nat :=
  (upTo (l.rows * l.cols)).map fun i => (l.row0 + i / l.cols) * 96 + l.col0 + i % l.cols
def index (l : Launch) (r : Nat) : Nat := (rowOf r - l.row0) * l.cols + (colOf r - l.col0)
/-- Not yet in a final state (R267). -/
def live (l : Launch) : Bool := l.state == 1
end Launch

namespace State
def launch (s : State) (lid : Nat) : Option Launch := s.launches.find? fun l => l.lid == lid && l.live
def modLaunch (s : State) (lid : Nat) (f : Launch → Launch) : State :=
  { s with launches := s.launches.map fun l => if l.lid == lid && l.live then f l else l }
/-- Whether rank r lies in the rectangle of the live launch lid; an own rank always may be named (log 13). -/
def inRect (s : State) (lid r : Nat) : Bool :=
  match s.launch lid with
  | some l => l.inRect r
  | none => r == s.rank
end State

/-! ### The executing barge -/

namespace Berth
def lid (b : Berth) : Nat := match b.hdr with | some h => h.lid.toNat | none => 0
/-- TSTAT.M = U (R291). -/
def user (b : Berth) : Bool := !b.tstat.getLsbD 0
/-- The poison trap enable, TSTAT.PTE. -/
def pte (b : Berth) : Bool := b.tstat.getLsbD 4
/-- Pinned to its core: moored under R154, or in a trap handler (R285). -/
def pinned (b : Berth) : Bool := b.moored || !b.user
/-- It waits, with no more than an instruction in the pipeline it does not (R20, R34). -/
def waiting (b : Berth) : Bool := match b.wait with | some w => w.why != .pipe | none => false
/-- EMPTY of R34, apart from the enable bit. -/
def idle (b : Berth) : Bool := b.hdr.isNone && b.lent.isNone && !b.started
end Berth

namespace Core
def enabled (c : Core) (b : Nat) : Bool := c.corecfg.getLsbD b
/-- From PSPILL Q's snapshot to PREST Q: messages to the core are held, and its ports trap (R306, R307). -/
def shut (c : Core) : Bool := c.pre == .stopped || c.pre == .starting
end Core

/-! ### How a meaning ends -/

/-- Why an instruction does not complete by advancing: it traps, it waits and issues again, or it has left a finished
state of its own (its barge has gone, or its berth waits for a reply). -/
inductive Stop where
  | trap (c : Cause) (tval : Word)
  | wait (w : Why)
  | gone (s : State)
deriving DecidableEq, Repr

abbrev Run := Except Stop

def stop {α : Type} (c : Cause) (tval : Word) : Run α := .error (.trap c tval)
def waitFor {α : Type} (w : Why) : Run α := .error (.wait w)
def gone {α : Type} (s : State) : Run α := .error (.gone s)

end Sys2Proof.Machine
end

