-- ==== Sys2Proof/Machine/Mem.lean ====
section
/-!
DEFINITION. Memory: the bytes of HBM, CLM and basin, full/empty bits and poison, the translation unit and page walks
(R275 to R280), the L1 and the cluster cache (R171, R174), releases and acquires (R179, R180), and where an address
goes (R166, R168, R173).
-/
namespace Sys2Proof.Machine

/-! ### The error log (R346) -/

/-- Whether a record repeats an earlier one's class, unit and address within 2^20 cycles. -/
def sameUnit (a b : ErrRec) : Bool := a.unit == b.unit && a.num == b.num
def repeats (a b : ErrRec) : Bool := a.cls == b.cls && a.addr == b.addr && decide (b.cycle - a.cycle ≤ 1048576)
/-- Raises the count of the newest record of e's unit when e repeats it; newest first. -/
def bump (e : ErrRec) : List ErrRec → Option (List ErrRec)
  | [] => none
  | a :: l =>
    if sameUnit a e then (if repeats a e then some ({ a with count := Nat.min 0xFFFFFFFF (a.count + 1) } :: l) else none)
    else (bump e l).map fun r => a :: r
/-- A record enters the ring of 16,384, oldest first. -/
def logErr (s : State) (e : ErrRec) : State :=
  s.withLock fun k => { k with errs := match bump e k.errs.reverse with
    | some l => l.reverse
    | none => (if 16384 ≤ k.errs.length then k.errs.tail else k.errs) ++ [e] }

/-! ### The byte store -/

namespace Memory
/-- One byte; an unlisted address reads 0 (log 1). -/
def read : List Host.Cell → Nat → Byte
  | [], _ => 0
  | (a, b) :: r, k => if a = k then b else if k < a then 0 else read r k
/-- One byte written, in canonical form: rising addresses, no listed zero. -/
def write : List Host.Cell → Nat → Byte → List Host.Cell
  | [], k, v => if v = 0 then [] else [(k, v)]
  | (a, b) :: r, k, v =>
    if k < a then (if v = 0 then (a, b) :: r else (k, v) :: (a, b) :: r)
    else if k = a then (if v = 0 then r else (k, v) :: r)
    else (a, b) :: write r k v
/-- The canonical form: every address above `lo`, rising, and no listed byte 0. -/
def wfFrom : Nat → List Host.Cell → Bool
  | _, [] => true
  | lo, (a, b) :: r => decide (lo ≤ a) && (b != 0) && wfFrom (a + 1) r
def wf (m : List Host.Cell) : Bool := wfFrom 0 m
end Memory

/-- Where CLM bytes and basin bytes start in the key space; CLM keys are the physical map of R282. -/
def clmBase : Nat := 0x800000000000
def basinBase : Nat := 0x900000000000
namespace Loc
def key : Loc → Nat
  | .hbm pa => pa
  | .clm r off => clmBase + r * 131072 + off
  | .basin cl off => basinBase + cl * 2097152 + off
/-- A place as the error log names it: a physical address, or an offset of the CLM or basin (R346). -/
def addr : Loc → Nat
  | .hbm pa => pa
  | .clm _ off => off
  | .basin _ off => off
def plus : Loc → Nat → Loc
  | .hbm pa, n => .hbm (pa + n)
  | .clm r off, n => .clm r (off + n)
  | .basin cl off, n => .basin cl (off + n)
end Loc

/-- The 288 bytes of a packet as they stand in memory (R144). -/
def packetBytes (k : Packet) (arr : Nat) : List Byte :=
  let h := k.hdr
  let kind := match h.kind with | .ordinary => 0 | .pair => 1 | .continuation => 2
  toBytes 8 (h.pfh.toNat * 2 ^ 32 + h.lid.toNat * 2 ^ 16 + h.asid.toNat * 256 + h.pri.toNat * 64
      + (if h.stl then 32 else 0) + kind * 8 + (if h.cl then 4 else 0))
    ++ toBytes 8 (arr % 2 ^ 32) ++ toBytes 8 k.pc.toNat ++ toBytes 4 (k.p ||| 1).toNat ++ toBytes 4 0
    ++ toBytes 8 k.fr.toNat
    ++ ((upTo 23).map fun i => toBytes 8 (vget k.x (i + 1) 0).toNat).flatten
    ++ ((upTo 16).map fun i => toBytes 4 (vget k.f i 0).toNat).flatten

/-- HQCTL (R147). -/
def hqctl (c : Core) : Word :=
  w64 (c.spillq.length * 2 ^ 48 + c.queue.length * 2 ^ 40 + c.cap)

namespace State

/-- A byte of the harbour queue area, seen as R147 lays it out; a slot that holds no packet is undefined. -/
def queueByte (s : State) (r off : Nat) : Byte :=
  let c := s.core r
  if 0x5800 ≤ off ∧ off < 0x5808 then (hqctl c).extractLsb' (8 * (off - 0x5800)) 8      -- the other control words: 0 (log 61)
  else if off < 0x5800 then
    match c.queue.find? fun e => e.slot == (off - 0x1000) / 288 with
    | some e => (packetBytes e.pk e.arr)[(off - 0x1000) % 288]?.getD 0
    | none => Config.freeByte (Loc.clm r off).key
  else 0

def basinGet : List Host.Cell → Nat → Option Byte
  | [], _ => none
  | (a, b) :: r, k => if a = k then some b else basinGet r k
def basinSet : List Host.Cell → Nat → Byte → List Host.Cell
  | [], k, v => [(k, v)]
  | (a, b) :: r, k, v => if k < a then (k, v) :: (a, b) :: r else if k = a then (k, v) :: r else (a, b) :: basinSet r k v

def readByte (s : State) : Loc → Byte
  | .hbm pa => Memory.read s.mem pa
  | .clm r off =>
    if 0x1000 ≤ off ∧ off < 0x6000 then s.queueByte r off else Memory.read s.mem (Loc.clm r off).key
  | .basin cl off =>
    -- unwritten since the bank became SCRATCH: undefined (R172)
    (basinGet s.basin (Loc.basin cl off).key).getD
      (Config.freeByte ((vget (s.cluster cl).banks (off / 131072) ⟨0, none, none, [], 0⟩).epoch * 2 ^ 48 + (Loc.basin cl off).key))
def writeByte (s : State) (l : Loc) (v : Byte) : State :=
  match l with
  | .hbm pa => { s with mem := Memory.write s.mem pa v }
  | .clm r off =>
    if 0x1000 ≤ off ∧ off < 0x6000 then
      -- only HQCTL.CAP is writable, and only while RESID is 0 (R147); a value it does not list sets 64 (log 61)
      if off = 0x5800 ∧ (s.core r).queue.isEmpty then
        s.modCore r fun c => { c with cap := if v = 16 ∨ v = 32 ∨ v = 48 then v.toNat else 64 }
      else s
    else { s with mem := Memory.write s.mem (Loc.clm r off).key v }
  | .basin cl off => { s with basin := basinSet s.basin (Loc.basin cl off).key v }

/-- n bytes, little-endian (R4). -/
def readN (s : State) (l : Loc) : Nat → Nat
  | 0 => 0
  | n + 1 => s.readN l n + (s.readByte (l.plus n)).toNat * 256 ^ n
def writeN (s : State) (l : Loc) : Nat → Nat → State
  | 0, _ => s
  | n + 1, v => (s.writeN l n v).writeByte (l.plus n) (BitVec.ofNat 8 (v / 256 ^ n))

/-- Poison and full/empty bits, one for each 8-byte unit (R170, R341). -/
def poisoned (s : State) (l : Loc) : Bool := s.poison.contains (l.key / 8)
def setPoison (s : State) (l : Loc) (p : Bool) : State :=
  if p then { s with poison := nsAdd s.poison (l.key / 8) }
  else if s.poisoned l then { s with poison := nsDel s.poison (l.key / 8) } else s
def isFull (s : State) (l : Loc) : Bool := s.full.contains (l.key / 8)
def setFull (s : State) (l : Loc) (f : Bool) : State :=
  if f then { s with full := nsAdd s.full (l.key / 8) } else { s with full := nsDel s.full (l.key / 8) }

/-- A store of n bytes at its home: a whole unit's store clears its poison (R188). -/
def storeAt (s : State) (l : Loc) (n v : Nat) : State :=
  let s1 := s.writeN l n v
  if n < 8 then s1 else iter (fun i t => t.setPoison (l.plus (8 * i)) false) (n / 8) s1
/-- Whether any unit of n bytes is poisoned. -/
def anyPoison (s : State) (l : Loc) (n : Nat) : Bool :=
  s.poison.any fun u => decide (l.key / 8 ≤ u ∧ u ≤ (l.key + n - 1) / 8)

end State

/-! ### Translation (R275 to R280) -/

/-- What an access wants (R280). -/
inductive Kind where
  | read | write | exec
deriving DecidableEq, Repr

def Kind.cause : Kind → Cause
  | .read => .loadf
  | .write => .storef
  | .exec => .fetch

/-- On whose behalf an access is made. -/
structure Who where
  rank : Nat
  asid : Nat
  user : Bool
  lid : Nat
deriving DecidableEq, Repr

/-- Page-table entry bits (R275). -/
def pteV (p : Word) : Bool := p.getLsbD 0
def pteR (p : Word) : Bool := p.getLsbD 1
def pteW (p : Word) : Bool := p.getLsbD 2
def pteX (p : Word) : Bool := p.getLsbD 3
def pteU (p : Word) : Bool := p.getLsbD 4
def pteStdy (p : Word) : Bool := p.getLsbD 5
def pteDev (p : Word) : Bool := p.getLsbD 6
def pteD (p : Word) : Bool := p.getLsbD 8
def pteRmt (p : Word) : Bool := p.getLsbD 63
def ptePointer (p : Word) : Bool := !pteR p && !pteW p && !pteX p

/-- Malformed entries of R275 and R282. -/
def pteBad (dev : BitVec 12) (level : Nat) (p : Word) : Bool :=
  !zeroBits p 48 3 || !zeroBits p 9 6 || (pteW p && !pteR p) || (pteStdy p && (pteW p || pteDev p)) || (pteX p && pteDev p)
    || (ptePointer p && level == 3) || (!ptePointer p && level == 1)
    || (!ptePointer p && level == 2 && !zeroBits p 16 12) || (!ptePointer p && p.getLsbD 15)
    || (ptePointer p && pteRmt p) || (pteRmt p && fld p 51 12 == dev.toNat) || (!pteRmt p && fld p 51 12 != 0)
    || (!ptePointer p && !pteRmt p && p.getLsbD 47)

/-- Permission of a translation (R276, R280). -/
def permOk (user : Bool) (k : Kind) (p : Word) : Bool :=
  (!user || pteU p) && (match k with
    | .read => pteR p
    | .write => pteW p && !pteStdy p
    | .exec => pteX p)

/-- Memory of other devices: the physical addresses of device d start at (d + 1) * 2^48 (R283, log 18). -/
def farBase : Nat := 2 ^ 48
def isFar (pa : Nat) : Bool := decide (farBase ≤ pa)
/-- A CLM of another device, in its physical map (R282, R283). -/
def isFarClm (pa : Nat) : Bool := isFar pa && decide (clmBase ≤ pa % farBase)
/-- Whether a physical address of this or of another device exists (R282). -/
def paOk (pa : Nat) : Bool :=
  decide (pa % farBase < 2 ^ 39) || (isFarClm pa && decide (pa % farBase < clmBase + 9216 * 131072))
/-- Physical address of a virtual one under a leaf. -/
def leafPa (big : Bool) (p : Word) (va : Nat) : Nat :=
  (if big then fld p 28 20 * 2 ^ 28 + va % 2 ^ 28 else fld p 16 32 * 2 ^ 16 + va % 2 ^ 16)
    + (if pteRmt p then (fld p 51 12 + 1) * farBase else 0)

namespace State

/-- CTXn (R272). -/
def ctx (s : State) (asid : Nat) : Word := (alGet s.lock.ctx asid).getD 0

/-- A walk from a table at PA `t`, level by level: the leaf, whether it is a 256 MiB page, and the entry's address. A
poisoned entry is taken for an invalid one (DESIGN CHOICE, log 75). -/
def walkFrom (s : State) (va t level : Nat) : Nat → Option (Word × Bool × Nat)
  | 0 => none
  | fuel + 1 =>
    let idx := va / 2 ^ (52 - 12 * level) % 4096
    let a := t + 8 * idx
    if 2 ^ 39 ≤ a then none
    else
      let e := w64 (s.readN (.hbm a) 8)
      if s.poisoned (.hbm a) || !pteV e || pteBad s.lock.dev level e then none
      else if ptePointer e then s.walkFrom va (fld e 15 33 * 2 ^ 15) (level + 1) fuel
      else some (e, level == 2, a)
/-- The walk of R275 under an ASID's context. -/
def walk (s : State) (asid va : Nat) : Option (Word × Bool × Nat) :=
  let c := s.ctx asid
  if c.getLsbD 63 then s.walkFrom va (fld c 15 33 * 2 ^ 15) 1 3 else none

def tlbFind (s : State) (cl asid va : Nat) : Option TlbEnt :=
  (s.cluster cl).tlb.find? fun e => e.asid == asid && (if e.big then e.gran / 4096 == va / 2 ^ 28 else e.gran == va / 2 ^ 16)

/-- A translation that the executing instruction's walks have brought it: it uses that one until it completes, whatever the
unit's sets give up meanwhile (R279; DEDUCED, log 85). -/
def heldXl (s : State) (asid va : Nat) : Option TlbEnt :=
  match s.myWait with
  | some w => w.issued.xl.find? fun e => e.asid == asid && (if e.big then e.gran / 4096 == va / 2 ^ 28 else e.gran == va / 2 ^ 16)
  | none => none
/-- The translation at hand for a data access: the unit's, or one that the instruction's walks have brought it. -/
def entryFor (s : State) (cl asid va : Nat) : Option TlbEnt := (s.tlbFind cl asid va).or (s.heldXl asid va)
/-- Whether a translated address lies in a 256 MiB page. -/
def bigPage (s : State) (cl asid va : Nat) : Bool := match s.entryFor cl asid va with | some e => e.big | none => false

/-- Whether a TLB entry is the one for a leaf at a virtual address. -/
def tlbSame (t : TlbEnt) (asid va : Nat) (big : Bool) : Bool :=
  t.asid == asid && t.big == big && (if big then t.gran / 4096 == va / 2 ^ 28 else t.gran == va / 2 ^ 16)
/-- The set an entry is placed in (R278). -/
def tlbSet (t : TlbEnt) : Nat := Config.tlbSet t.asid (if t.big then t.gran / 4096 else t.gran) % 512
/-- Sets A, and D for a store, in the entry at its home, and caches the leaf; a full set of 8 ways gives one entry up
(R276, R278, R279). -/
def fillTlb (s : State) (cl asid va : Nat) (store : Bool) (w : Word × Bool × Nat) : State :=
  let e := w.1 ||| 0x80 ||| (if store then 0x100 else 0)
  let new : TlbEnt := ⟨asid, va / 2 ^ 16, w.2.1, e⟩
  let s1 := s.writeN (.hbm w.2.2) 8 e.toNat
  let l := (s1.cluster cl).tlb.filter fun t => !tlbSame t asid va w.2.1
  let mates := l.filter fun t => tlbSet t == tlbSet new
  if mates.length < 8 then s1.modCluster cl fun c => { c with tlb := new :: l }
  else
    let out := mates[Config.victim s.free 8 % 8]?
    (s1.modCluster cl fun c => { c with tlb := new :: l.filter fun t => some t != out }).fresh

/-- The other devices of a launch's group (R284). -/
def devsOf (s : State) (lid : Nat) : List Nat := match s.launch lid with | some l => l.devs | none => []
/-- Whether an access is performed at a physical address: nothing stands in its way, or the trap. A leaf with RMT set
needs a link that is up, and a device of the launch's group (R280, R282, R284), or of the group that is given. -/
def paCheck (s : State) (lid : Nat) (k : Kind) (p : Word) (pa : Nat) (devs : Option (List Nat) := none) : Option Cause :=
  if pteRmt p && s.lock.links == 0 then some k.cause
  else if pteRmt p && !((devs.getD (s.devsOf lid)).contains (fld p 51 12)) then some .place
  else if paOk pa then none
  else some k.cause
/-- An engine's or a prefetch's translation, made whole: the state with A (and D) set and the leaf cached, then the leaf
and the physical address, unless the access fails. -/
def xlate (s : State) (cl : Nat) (w : Who) (k : Kind) (va : Nat) (devs : Option (List Nat) := none) : State × Option (Word × Nat) :=
  let store := k == .write
  let judge := fun (p : Word) (big : Bool) =>
    let pa := leafPa big p va
    if permOk w.user k p && (s.paCheck w.lid k p pa devs).isNone then some (p, pa) else none
  let walked : Option (Word × Bool × Nat) := s.walk w.asid va
  match s.tlbFind cl w.asid va, walked with
  | some e, some f => if store && !pteD e.pte then (s.fillTlb cl w.asid va (permOk w.user k f.1) f, judge f.1 f.2.1) else (s, judge e.pte e.big)
  | some e, none => (s, if store && !pteD e.pte then none else judge e.pte e.big)
  | none, some f => (s.fillTlb cl w.asid va (store && permOk w.user k f.1) f, judge f.1 f.2.1)
  | none, none => (s, none)

/-- Whether the walk that the executing instruction waited for found no valid entry. -/
def walkFailed (s : State) (asid gran : Nat) : Bool :=
  match s.myWait with
  | some w => w.failed && (match w.why with | .walk a g _ => a == asid && g == gran | _ => false)
  | none => false
/-- A data access's or fetch's translation by the cluster's unit: a miss waits for a walk, and so does a store through an
entry with D clear; one whose walk found no valid entry traps (R276, R279, R280). -/
def translate (s : State) (w : Who) (k : Kind) (va : Word) : Run (Word × Nat) :=
  let a := va.toNat
  let walk : Run (Word × Nat) :=
    if s.walkFailed w.asid (a / 2 ^ 16) then stop k.cause va else waitFor (.walk w.asid (a / 2 ^ 16) (k == .write))
  match s.entryFor (clusterOf w.rank) w.asid a with
  | none => walk
  | some e =>
    let pa := leafPa e.big e.pte a
    if !permOk w.user k e.pte then stop k.cause va
    else match s.paCheck w.lid k e.pte pa with
      | some c => stop c va
      | none => if k = .write ∧ !pteD e.pte then walk else .ok (e.pte, pa)
/-- How long a walk takes: one entry a level, from the LLC or from HBM; a 256 MiB page has two levels (R278). -/
def walkTime (s : State) (asid gran : Nat) : Nat :=
  let level (i : Nat) : Nat := if Config.llcHit (s.cycle + i) (asid * 2 ^ 48 + gran) then 110 else 200
  level 0 + level 1 + (match s.walk asid (gran * 65536) with | some (_, true, _) => 0 | _ => level 2)

/-- The executing barge as an accessor; with ASID.KEN a supervisor translates under KASID (R292). -/
def who (s : State) : Who :=
  let b := s.me
  let own := match b.hdr with | some h => h.asid.toNat | none => 0
  let a := s.myCore.asid
  ⟨s.rank, if b.user then own else if a.getLsbD 8 then fld a 0 8 else own, b.user, b.lid⟩

end State

/-! ### The L1 (R174, R179, R180) -/

def secMask (k : Nat) : BitVec 1024 := BitVec.ofNat 1024 ((2 ^ 128 - 1) * 2 ^ (128 * k))
def byteMask (off n : Nat) : BitVec 1024 := BitVec.ofNat 1024 ((2 ^ n - 1) * 2 ^ off)
namespace Line
def byte (l : Line) (i : Nat) : Byte := l.data.extractLsb' (8 * i) 8
def steady (l : Line) : Bool := pteStdy l.pte
def covers (l : Line) (off n : Nat) : Bool := l.valid &&& byteMask off n == byteMask off n
def get (l : Line) (off n : Nat) : Nat := l.data.toNat / 2 ^ (8 * off) % 2 ^ (8 * n)
def poisonedIn (l : Line) (off n : Nat) : Bool := (l.pois ||| l.lost).toNat / 2 ^ (off / 8) % 2 ^ ((off % 8 + n + 7) / 8) != 0
def unitMask (off n : Nat) : BitVec 128 := BitVec.ofNat 128 ((2 ^ n - 1) * 2 ^ off)
/-- The units of which some byte is in a mask. -/
def units (m : BitVec 1024) : Nat → BitVec 128
  | 0 => 0
  | n + 1 => setBit (units m n) n (fld m (8 * n) 8 != 0)
/-- The line with only these of its bytes valid and dirty. A unit that gives up bytes is poisoned no longer here: its home
knows. One whose stored bytes were lost stays so while any of them is dirty; cleaned, its home is poisoned, and so is the
copy that stays (R188, R341). -/
def only (l : Line) (valid dirty : BitVec 1024) : Line :=
  let lost := if l.lost = 0 then 0 else l.lost &&& units dirty 128
  let pois := l.pois ||| (l.lost &&& ~~~lost)
  { l with
    valid := valid
    dirty := dirty
    pois := if pois = 0 then 0 else pois &&& ~~~units (l.valid &&& ~~~valid) 128
    lost := lost }
/-- Writes n bytes and marks them valid and dirty; a whole unit loses its poison. -/
def put (l : Line) (off n v : Nat) : Line :=
  let m : LineData := BitVec.ofNat 8192 ((2 ^ (8 * n) - 1) * 2 ^ (8 * off))
  { l with
    data := (l.data &&& ~~~m) ||| BitVec.ofNat 8192 (v % 2 ^ (8 * n) * 2 ^ (8 * off))
    valid := l.valid ||| byteMask off n
    dirty := l.dirty ||| byteMask off n
    pois := if n < 8 then l.pois else l.pois &&& ~~~unitMask (off / 8) (n / 8)
    lost := if n < 8 then l.lost else l.lost &&& ~~~unitMask (off / 8) (n / 8) }
/-- Sector k filled from memory. -/
def fill (l : Line) (k : Nat) (data : VReg) (pois : Nat) : Line :=
  let m : LineData := BitVec.ofNat 8192 ((2 ^ 1024 - 1) * 2 ^ (1024 * k))
  { l with
    data := (l.data &&& ~~~m) ||| BitVec.ofNat 8192 (data.toNat * 2 ^ (1024 * k))
    valid := l.valid ||| secMask k
    dirty := l.dirty &&& ~~~secMask k
    pois := (l.pois &&& ~~~unitMask (16 * k) 16) ||| BitVec.ofNat 128 (pois * 2 ^ (16 * k))
    lost := l.lost &&& ~~~unitMask (16 * k) 16 }
end Line

namespace State

def cleanByte (l : Line) (i : Nat) (s : State) : State :=
  if l.dirty.getLsbD i then s.writeByte (.hbm (l.pa * 1024 + i)) (l.byte i) else s
/-- The slice merges the masked bytes; a unit wholly written takes the poison it has here, one with lost bytes carries it
along, any other keeps what it has at its home (R188, R341). -/
def cleanUnit (l : Line) (u : Nat) (s : State) : State :=
  let d := fld l.dirty (8 * u) 8
  if d = 0 then s
  else if l.lost.getLsbD u then s.setPoison (.hbm (l.pa * 1024 + 8 * u)) true
  else if d = 255 then s.setPoison (.hbm (l.pa * 1024 + 8 * u)) (l.pois.getLsbD u) else s
/-- Writes sector k's dirty bytes to the LLC. -/
def cleanSector (s : State) (l : Line) (k : Nat) : State :=
  if l.dirty &&& secMask k = 0 then s
  else iter (fun u t => cleanUnit l (16 * k + u) t) 16 (iter (fun i t => cleanByte l (128 * k + i) t) 128 s)
def cleanLine (s : State) (l : Line) : State :=
  if l.dirty = 0 then s else iter (fun k t => t.cleanSector l k) 8 s
/-- The time of a release: 4 cycles a dirty sector and 110 for the acknowledgement, with two link crossings where another
device's memory is among them (R179, R281, R283). -/
def dirtySectors (l : Line) : Nat := ((upTo 8).filter fun k => l.dirty &&& secMask k != 0).length
def releaseCost (s : State) (r : Nat) : Nat :=
  let l := (s.core r).l1.filter fun l => l.dirty != 0
  if l.isEmpty then 0
  else 4 * l.foldl (fun n l => n + dirtySectors l) 0 + 110 + (if l.any fun l => isFar (l.pa * 1024) then 1080 else 0)
/-- Every dirty sector of core r reaches the LLC, in a release that starts now. Steady lines are never dirty. -/
def cleanAll (s : State) (r : Nat) : State :=
  if (s.core r).l1.all fun l => l.dirty == 0 then s
  else ((s.core r).l1.foldl cleanLine s).modCore r fun c => { c with
    l1 := c.l1.map fun l => { l with dirty := 0, lost := 0, pois := l.pois ||| l.lost }
    relEnd := Nat.max c.relEnd (s.cycle + s.releaseCost r) }
/-- A lockage release of core r (R179). While another one runs it waits for that one's end, and cleans then what is dirty
then; releases that wait together clean together. -/
def release (s : State) (r : Nat) : State :=
  let c := s.core r
  if c.relEnd ≤ s.cycle then s.cleanAll r
  else
    let start := c.relAgain.getD c.relEnd
    s.modCore r fun c => { c with relAgain := some start, relEnd := Nat.max c.relEnd (start + s.releaseCost r) }
/-- Whether a release of core r that has waited for another one starts now. -/
def releaseStarts (s : State) (r : Nat) : Bool := match (s.core r).relAgain with | some t => decide (t ≤ s.cycle) | none => false
/-- A message arrives `delay` cycles from now; one that brings a thief what it has asked for ends its request (R161). -/
def sendOff (s : State) (delay : Nat) (i : Instr) (thief : Option Nat) : State :=
  let t := s.later delay i
  match thief with
  | some r => t.modCore r fun c => { c with stealOut := false, stealAt := s.cycle + delay + 1 }
  | none => t
/-- How long a message that follows a release of core r stays back for it. -/
def releaseTime (s : State) (r : Nat) : Nat := (s.core r).relEnd - s.cycle
/-- It starts; what waits for its end leaves then, each message no earlier than its own time. -/
def startRelease (s : State) (r : Nat) : State :=
  let t := (s.modCore r fun c => { c with relAgain := none, relEnd := s.cycle, behind := [] }).cleanAll r
  (s.core r).behind.foldl (fun u e => u.sendOff (Nat.max (e.least - s.cycle) (t.releaseTime r) + e.way) e.msg e.thief) t
/-- A message of core r leaves behind the core's release, no earlier than `least` cycles from now, and arrives `way` cycles
after it has left; one whose release still waits for another to end waits with it (R179). -/
def afterRelease (s : State) (r least way : Nat) (i : Instr) (thief : Option Nat := none) : State :=
  match (s.core r).relAgain with
  | some _ => s.modCore r fun c => { c with behind := c.behind ++ [⟨s.cycle + least, way, i, thief⟩] }
  | none => s.sendOff (Nat.max least (s.releaseTime r) + way) i thief
/-- A lockage acquire of core r (R180): clean bytes of shared-mutable sectors become invalid, dirty ones stay. The
stamp's wrap keeps every L1 access waiting for 32 cycles. -/
def acquire (s : State) (r : Nat) : State :=
  s.modCore r fun c => { c with
    stamp := c.stamp + 1
    l1Busy := if c.stamp = 63 then s.cycle + 33 else c.l1Busy
    l1 := c.l1.map fun l => if l.steady then l else l.only l.dirty l.dirty }
/-- The acquire of the executing instruction: when the stamp wraps, its berth is ready only after the clearing, and so is
the word behind it in the repetition buffer (R180). -/
def gain (s : State) : State :=
  let t := s.acquire s.rank
  if s.myCore.stamp ≠ 63 then t
  else
    let u := t.modMe fun b => { b with readyAt := Nat.max b.readyAt (s.cycle + 33) }
    if s.buffered then u.modMyCore fun c => { c with buffer := c.buffer.map fun q => { q with readyAt := Nat.max q.readyAt (s.cycle + 33) } }
    else u

def lineOf (s : State) (r asid va : Nat) : Option Line :=
  (s.core r).l1.find? fun l => l.asid == asid && l.va == va / 1024
def dropLine (s : State) (r asid va : Nat) : State :=
  s.modCore r fun c => { c with l1 := c.l1.filter fun l => !(l.asid == asid && l.va == va / 1024) }
/-- Puts a line into its set; a full set gives up one of its four lines, cleaned (R174). -/
def putLine (s : State) (r : Nat) (l : Line) : State :=
  let s0 := s.dropLine r l.asid (l.va * 1024)
  let set := (s0.core r).l1.filter fun o => o.va % 8 == l.va % 8
  let s1 :=
    if set.length < 4 then s0
    else match set[Config.victim s.free 4 % 4]? with
      | none => s0
      | some o => ((s0.cleanLine o).dropLine r o.asid (o.va * 1024)).fresh
  s1.modCore r fun c => { c with l1 := l :: c.l1 }

/-- The poison bits of the 16 units of a sector of HBM. -/
def poisonBits (s : State) (pa : Nat) : Nat → Nat
  | 0 => 0
  | n + 1 => s.poisonBits pa n + (if s.poisoned (.hbm (pa + 8 * n)) then 2 ^ n else 0)

def cacheWays (s : State) (cl : Nat) : Nat := ((s.cluster cl).banks.toList.filter fun b => b.mode == 0 && b.next.isNone).length

/-- A 1 KiB line through the cluster cache, for steady pages and instruction lines (R171). The spec gives the 128 sets no
index: a line lies in the set of its number modulo 128 (DESIGN CHOICE, log 9). -/
def bline (s : State) (cl pa : Nat) : State × BLine :=
  match (s.cluster cl).bcache.find? fun l => l.pa == pa / 1024 with
  | some l => (s, l)
  | none =>
    let base := pa / 1024 * 1024
    let l : BLine := ⟨pa / 1024, BitVec.ofNat 8192 (s.readN (.hbm base) 1024), BitVec.ofNat 128 (s.poisonBits base 128)⟩
    let k := s.cacheWays cl
    if k = 0 then (s, l)
    else
      let set := (s.cluster cl).bcache.filter fun o => o.pa % 128 == l.pa % 128
      let gone := if set.length < k then none else (set[Config.victim s.free k % k]?).map BLine.pa
      ((s.modCluster cl fun c => { c with bcache := l :: c.bcache.filter fun o => some o.pa != gone }).fresh, l)

/-- The unloaded time of an access at the LLC: a hit there, or HBM; another device's memory lies two link crossings
further (R37, R281). -/
def llcTime (s : State) (pa : Nat) : Nat := (if Config.llcHit s.cycle (pa / 1024) then 110 else 200) + (if isFar pa then 1080 else 0)
/-- The unloaded time of a fill: a steady page of this device may hit in the cluster cache (R37, R171). -/
def fillTime (s : State) (cl : Nat) (steady : Bool) (pa : Nat) : Nat :=
  if steady && !isFar pa && (s.cluster cl).bcache.any fun l => l.pa == pa / 1024 then 36 else s.llcTime pa
/-- A sector's bytes and poison bits at PA: from the cluster cache on a steady page, else from the LLC; another device's
memory lies in no cluster cache (R283). -/
def fetchSector (s : State) (cl : Nat) (steady : Bool) (pa : Nat) : State × VReg × Nat :=
  let base := pa / 128 * 128
  if steady && !isFar pa then
    let r := s.bline cl pa
    let k := base % 1024 / 128
    (r.1, r.2.data.extractLsb' (1024 * k) 1024, fld r.2.pois (16 * k) 16)
  else (s, BitVec.ofNat 1024 (s.readN (.hbm base) 128), s.poisonBits base 16)

end State

/-! ### Where an address goes (R166, R168, R173) -/

/-- The target of an address after the window limits and the rank check. -/
inductive Target where
  | global
  | clm (rank off : Nat)
  | basin (bank off : Nat)
deriving DecidableEq, Repr

/-- The CLM map's protection (R168). -/
def clmOk (user store : Bool) (off : Nat) : Bool :=
  if 0x8000 ≤ off then true
  else if user then false
  else if !store then true
  else decide (off < 0x1000) || decide (0x5800 ≤ off ∧ off < 0x5808)
/-- The first offset of n bytes that the map protects: the first byte, or where a protected area begins among them. -/
def clmBad (user store : Bool) (off n : Nat) : Option Nat :=
  if !clmOk user store off then some off
  else if 0x8000 ≤ off ∨ !store then none
  else if off < 0x1000 then (if off + n ≤ 0x1000 then none else some 0x1000)
  else if off + n ≤ 0x5808 then none
  else some 0x5808

namespace State

/-- Alignment, window limits and rank, in R185's order. -/
def decodeAddr (s : State) (w : Who) (k : Kind) (va : Word) (align : Nat) : Run Target :=
  let a := va.toNat
  let bad : Run Target := stop k.cause va
  if a % align ≠ 0 then stop .align va
  else if fld va 52 12 ≠ 0 then bad
  else
    let win := fld va 48 4
    if win ≤ 12 then .ok .global
    else if win = 13 then (if zeroBits va 21 27 then .ok (.basin (fld va 17 4) (fld va 0 17)) else bad)
    else if win = 14 then (if zeroBits va 17 31 then .ok (.clm w.rank (fld va 0 17)) else bad)
    else if !zeroBits va 31 17 then bad
    else
      let r := fld va 17 14
      if decide (r < 9216) && s.inRect w.lid r then .ok (.clm r (fld va 0 17)) else stop .place va

def bankOf (s : State) (cl n : Nat) : Bank := vget (s.cluster cl).banks n ⟨0, none, none, [], 0⟩
def modBank (s : State) (cl n : Nat) (f : Bank → Bank) : State :=
  s.modCluster cl fun c => { c with banks := vset c.banks n (f (vget c.banks n ⟨0, none, none, [], 0⟩)) }

/-- Whether messages to a rank are held at their senders (R266, R306). -/
def rankHeld (s : State) (r : Nat) : Bool :=
  (s.core r).shut || (match alGet s.lock.ranks (clusterOf r) with
    | some e => !e.valid || e.transit
    | none => true)

/-- What an access to another device's CLM meets: its map's protection, at that home (R168, R283). -/
def farOk (w : Who) (k : Kind) (va : Word) (pa n : Nat) : Run Unit :=
  if isFarClm pa then (match clmBad w.user (k == .write) (pa % 131072) n with | some _ => stop k.cause va | none => .ok ()) else .ok ()
/-- A load of n bytes of global memory: state, value, poison, and the unloaded latency (R37, R174). -/
def l1Load (s : State) (w : Who) (va : Word) (n : Nat) : Run (State × Nat × Bool × Nat) :=
  let a := va.toNat
  let off := a % 1024
  if s.cycle < (s.core w.rank).l1Busy then waitFor .slow
  else
    match s.lineOf w.rank w.asid a with
    | some l =>
      if l.covers off n then
        if permOk w.user .read l.pte then .ok (s, l.get off n, l.poisonedIn off n, 8) else stop .loadf va
      else do
        let t ← s.translate w .read va
        -- a sector holding stored bytes only is cleaned, then fetched
        let s1 := if l.pa = t.2 / 1024 then s.cleanSector l (off / 128) else s.cleanLine l
        let f := s1.fetchSector (clusterOf w.rank) (pteStdy t.1) t.2
        let l0 : Line := if l.pa = t.2 / 1024 then l else { l with pa := t.2 / 1024, valid := 0, dirty := 0, pois := 0, lost := 0 }
        let l1 := { (l0.fill (off / 128) f.2.1 f.2.2) with pte := t.1, big := s.bigPage (clusterOf w.rank) w.asid a, stamp := (s.core w.rank).stamp }
        .ok (f.1.putLine w.rank l1, l1.get off n, l1.poisonedIn off n, s.fillTime (clusterOf w.rank) (pteStdy t.1) t.2)
    | none => do
      let t ← s.translate w .read va
      if pteDev t.1 ∨ isFarClm t.2 then do
        farOk w .read va t.2 n
        .ok (s, s.readN (.hbm t.2) n, s.anyPoison (.hbm t.2) n, s.llcTime t.2)
      else
        let f := s.fetchSector (clusterOf w.rank) (pteStdy t.1) t.2
        let l0 : Line := ⟨w.asid, a / 1024, s.bigPage (clusterOf w.rank) w.asid a, t.2 / 1024, (s.core w.rank).stamp, t.1, 0, 0, 0, 0, 0⟩
        let l1 := l0.fill (off / 128) f.2.1 f.2.2
        .ok (f.1.putLine w.rank l1, l1.get off n, l1.poisonedIn off n, s.fillTime (clusterOf w.rank) (pteStdy t.1) t.2)

/-- A store of n bytes of global memory: it allocates without fetching (R174). -/
def l1Store (s : State) (w : Who) (va : Word) (n v : Nat) : Run (State × Nat) :=
  let a := va.toNat
  let off := a % 1024
  let fresh (p : Word) (pa : Nat) : Line := ⟨w.asid, a / 1024, s.bigPage (clusterOf w.rank) w.asid a, pa / 1024, (s.core w.rank).stamp, p, 0, 0, 0, 0, 0⟩
  if s.cycle < (s.core w.rank).l1Busy then waitFor .slow
  else
    match s.lineOf w.rank w.asid a with
    | some l =>
      if !permOk w.user .write l.pte then stop .storef va
      else if pteD l.pte then .ok (s.putLine w.rank (l.put off n v), 8)
      else do
        -- D was clear: translated again, as a miss is (R276)
        let t ← s.translate w .write va
        if l.pa = t.2 / 1024 then .ok (s.putLine w.rank { (l.put off n v) with pte := t.1, big := s.bigPage (clusterOf w.rank) w.asid a }, 8)
        else .ok ((s.cleanLine l).putLine w.rank ((fresh t.1 t.2).put off n v), 8)
    | none => do
      let t ← s.translate w .write va
      if pteDev t.1 ∨ isFarClm t.2 then do
        farOk w .write va t.2 n
        .ok (s.storeAt (.hbm t.2) n v, s.llcTime t.2)
      else .ok (s.putLine w.rank ((fresh t.1 t.2).put off n v), 8)

/-- An AMO or engine access at the home slice: the core first cleans and invalidates the sector (R174). -/
def purgeSector (s : State) (r asid va : Nat) : State :=
  match s.lineOf r asid va with
  | none => s
  | some l =>
    let k := va % 1024 / 128
    (s.cleanSector l k).putLine r (l.only (l.valid &&& ~~~secMask k) (l.dirty &&& ~~~secMask k))

/-- Whether another berth has waited longer for the same thing: waiters are served in order (R170, R173); those for an
accumulator in the order of their issue (R126). -/
def earlier (s : State) (y : Why) : Bool :=
  let place (w : Wait) : Nat := match y with | .acq _ _ => w.issued.seq | _ => w.ticket
  let mine := match s.myWait with | some w => if w.why = y then place w else s.ticket | none => s.ticket
  s.cores.any fun e => e.2.waits.any fun w => w.why == y && decide (place w < mine)

/-- A store of the berth to bytes an outstanding MMA, BLD or TLDT of it has still to read waits (R142): one in the matrix
unit's queue, a fill that runs, or one of its repetition buffer, or of the berth beside its buffer, that waits. -/
def matrixReads (s : State) (off n : Nat) : Bool :=
  let c := s.myCore
  let meets (lo len : Nat) : Bool := decide (lo < off + n ∧ off < lo + len)
  let lenOf (f : Nat) : Nat := if f ≤ 1 then 2048 else if f = 7 then 512 else 1024
  (c.mq.any fun m => m.berth == s.berth &&
      (meets (fld m.a 0 17 + m.st * lenOf m.fmt) ((m.n - m.st) * lenOf m.fmt)
        || (decide (5 ≤ m.fmt ∧ m.fmt ≤ 7) && meets (fld m.sc 0 17 + 128 * m.st) ((m.n - m.st) * 128))))
    || (c.halves.toList.any fun h => match h.fill with
      | some (b, src, d, _, _) => b == s.berth &&
          (let n := fld d 0 3 + 1
           let sb := if fld d 3 2 = 1 then 1024 else if fld d 3 2 = 2 then 512 else 2048
           meets src (n * sb + (if bit d 5 then 128 * n else 0)))
      | none => false)
    || (match (if s.buffered then s.me.wait else c.buffer.bind fun q => if q.owner = s.berth then q.wait else none) with
      | some w => w.issued.reads.any fun e => meets e.1 e.2
      | none => false)

/-- Basin accesses (R173); `whole` says the access is LDD, RLD, STD or RST, which a FIFO takes. -/
def basinLoad (s : State) (w : Who) (va : Word) (bank off n : Nat) (whole : Bool) : Run (State × Nat × Bool × Nat) :=
  let cl := clusterOf w.rank
  let b := s.bankOf cl bank
  if b.next.isSome then waitFor (.bank cl bank)
  else if b.mode = 1 then
    let l := Loc.basin cl (bank * 131072 + off)
    .ok (s, s.readN l n, s.anyPoison l n, 36)
  else if b.mode = 2 ∧ whole ∧ off = 0x10 then .ok (s, b.fifo.length, false, 36)
  else if b.mode = 2 ∧ whole ∧ off = 8 then
    match b.fifo with
    | [] => waitFor (.fifo cl bank false)
    | e :: r =>
      if s.earlier (.fifo cl bank false) then waitFor (.fifo cl bank false)
      else .ok (s.modBank cl bank fun b => { b with fifo := r }, e.1.toNat, e.2, 36)
  else stop .loadf va
def basinStore (s : State) (w : Who) (va : Word) (bank off n v : Nat) (whole : Bool) : Run (State × Nat) :=
  let cl := clusterOf w.rank
  let b := s.bankOf cl bank
  if b.next.isSome then waitFor (.bank cl bank)
  else if b.mode = 1 then .ok (s.storeAt (.basin cl (bank * 131072 + off)) n v, 36)
  else if b.mode = 2 ∧ whole ∧ off = 0 then
    if b.fifo.length < 16384 ∧ !s.earlier (.fifo cl bank true) then
      .ok (s.modBank cl bank fun b => { b with fifo := b.fifo ++ [(w64 v, false)] }, 36)
    else waitFor (.fifo cl bank true)
  else stop .storef va

/-- A request of the executing berth stands at core r: at once at its own, elsewhere after a way of d cycles; at a core that
takes no messages it stands in order among those that are held for it (R169, R266). -/
def arrives (s : State) (r d : Nat) : Run Unit :=
  if r = s.rank then .ok ()
  else match s.myWait with
    | some w =>
      if w.home then .ok ()
      else (match w.why with
        | .remote t => if s.cycle < t then waitFor (.remote t) else if s.rankHeld r then waitFor (.held r) else .ok ()
        | _ => waitFor (.remote (s.cycle + d)))
    | none => waitFor (.remote (s.cycle + d))
/-- The request of a remote operation of 10 + 4h cycles stands at its home. The spec gives only the round trip; the model
takes 5 + 2h cycles from the issue for the way there (R37, R169; DESIGN CHOICE, log 26). -/
def atHome (s : State) (r : Nat) : Run Unit := s.arrives r (5 + 2 * hops s.rank r)

/-- Whether a byte of a CLM is one of a node header's LID and reserved bits, which ordinary stores leave (R7, R222). -/
def headerRo (s : State) (r off : Nat) : Bool :=
  decide (off % 64 < 4) && (s.core r).pools.any fun p => decide (64 * p.base ≤ off ∧ off < 64 * (p.base + p.slots))
/-- n bytes of an ordinary store as CLM takes them. -/
def keepRo (s : State) (r off v : Nat) : Nat → Nat
  | 0 => 0
  | n + 1 => s.keepRo r off v n
      + (if s.headerRo r (off + n) then (s.readByte (.clm r (off + n))).toNat else v / 256 ^ n % 256) * 256 ^ n
/-- An ordinary store of n bytes at a CLM home. -/
def storeClm (s : State) (r off n v : Nat) : State :=
  s.storeAt (.clm r off) n (if (s.core r).pools.isEmpty then v else s.keepRo r off v n)

/-- The time of a CLM operation: of a remote one's 10 + 4h cycles, once its request stands at its home, 5 + 2h are left
for the way back (R37, R169). -/
def clmTime (s : State) (r : Nat) : Nat := if r = s.rank then 8 else 8 + (s.cycle + 5 + 2 * hops s.rank r - s.startAt)
/-- A load of n bytes, aligned to `align`, wherever it is performed; a remote CLM access is performed at its home when its
request arrives there (R169), unless `there` says that it stands there. -/
def load (s : State) (va : Word) (n align : Nat) (whole : Bool) (there : Bool := false) : Run (State × Nat × Bool × Nat) := do
  let w := s.who
  match ← s.decodeAddr w .read va align with
  | .global => s.l1Load w va n
  | .basin bank off => s.basinLoad w va bank off n whole
  | .clm r off =>
    match clmBad w.user false off n with
    | some o => stop .loadf (va + w64 (o - off))
    | none => do
      if there then .ok () else s.atHome r
      .ok (s, s.readN (.clm r off) n, s.anyPoison (.clm r off) n, s.clmTime r)
def store (s : State) (va : Word) (n align v : Nat) (whole : Bool) (there : Bool := false) : Run (State × Nat) := do
  let w := s.who
  match ← s.decodeAddr w .write va align with
  | .global => s.l1Store w va n v
  | .basin bank off => s.basinStore w va bank off n v whole
  | .clm r off =>
    match clmBad w.user true off n with
    | some o => stop .storef (va + w64 (o - off))
    | none =>
      if r = w.rank ∧ s.matrixReads off n then waitFor .work
      else do
        if there then .ok () else s.atHome r
        .ok (s.storeClm r off n v, s.clmTime r)

/-- ECCCNT as it was before the events of cycle `now` (R344). -/
def eccBefore (now : Nat) (c : Core) : Word := if c.eccAt = now + 1 then c.eccOld else c.ecccnt
/-- The events of cycle `now`, field by field. -/
def eccNow (now : Nat) (c : Core) : Word := if c.eccAt = now + 1 then c.eccHits else 0
/-- A field of a core's ECCCNT rises by one, saturating (R294). -/
def countField (s : State) (r lo : Nat) : State :=
  s.modCore r fun c => { c with
    eccOld := eccBefore s.cycle c
    eccHits := eccNow s.cycle c + w64 (2 ^ lo)
    eccAt := s.cycle + 1
    ecccnt := if fld c.ecccnt lo 16 = 65535 then c.ecccnt else c.ecccnt + w64 (2 ^ lo) }
/-- A write of ECCCNT: the events of its cycle count after it (R344). -/
def eccWrite (now : Nat) (c : Core) (v : Word) : Core :=
  { c with
    eccOld := v
    ecccnt := w64 ((upTo 4).foldl (fun n i =>
      n + Nat.min 65535 (fld v (16 * i) 16 + fld (eccNow now c) (16 * i) 16) * 2 ^ (16 * i)) 0) }
/-- Core r has consumed a poisoned unit at address a for a barge of a launch: it counts in ECCCNT.POIS and is logged with
class 3 (R341, R346). -/
def countPoison (s : State) (r lid a : Nat) : State := logErr (s.countField r 16) ⟨s.cycle, 3, 0, r, lid, a, 0⟩
/-- The physical address, or the CLM or basin offset, of the unit that an address names (R346). -/
def unitAt (s : State) (va : Word) : Nat :=
  let a := va.toNat / 8 * 8
  let win := fld va 48 4
  if 14 ≤ win then a % 131072
  else if win = 13 then a % 2097152
  else match s.lineOf s.rank s.who.asid a with
    | some l => l.pa * 1024 + a % 1024
    | none => match s.entryFor (clusterOf s.rank) s.who.asid a with
      | some e => leafPa e.big e.pte a
      | none => a
/-- The executing instruction consumes the poisoned unit of an address without a trap. -/
def consume (s : State) (va : Word) : State := s.countPoison s.rank s.me.lid (s.unitAt va)

/-- The address of the 8-byte unit that holds a byte. -/
def unitVa (va : Word) : Word := va &&& ~~~7
/-- The shared end of a load: a poisoned unit traps, or gives `dflt` and is counted (R188). TVAL is the unit's address (R286,
log 65). -/
def settle (s : State) (va : Word) (v : Nat) (pois : Bool) (dflt : Nat) : Run (State × Nat) :=
  if !pois then .ok (s, v)
  else if s.me.pte then stop .poison (unitVa va)
  else .ok (s.consume va, dflt)

end State
end Sys2Proof.Machine
end

