-- ==== Sys2Proof/Machine/Ops.lean ====
section
/-!
DEFINITION. The named operations of a berth: registers and channel ports (R23 to R27, R209 to R211), how an instruction
writes back, waits and traps (R17, R20, R24, R52), taking a trap or an interrupt and returning from one (R285 to R289,
R297), mooring (R154), and the network interface's counts (R163).
-/
namespace Sys2Proof.Machine

/-- The codes of R286. -/
def Cause.code : Cause → Nat
  | .ill => 0 | .align => 1 | .fetch => 2 | .loadf => 3 | .storef => 4 | .ecall => 5 | .brk => 6 | .place => 7
  | .norule => 8 | .netfull => 9 | .poison => 10 | .deadlock => 11 | .barstall => 12 | .budget => 13 | .chan => 14
  | .scerr => 15 | .linkerr => 16 | .preempt => 32 | .timer => 33 | .debug => 34
/-- TCAUSE (R285, R286). -/
def Cause.word (c : Cause) : Word := w64 (c.code + (if 32 ≤ c.code then 2 ^ 63 else 0))

/-- TSTAT as an entry leaves it (R285): PM and PIE from M and IE, supervisor mode, interrupts off, the block record. -/
def trapTstat (t : Word) (rpts k idx : Nat) (rkm : Bool) : Word :=
  let keep := t &&& 0x30                                   -- BE and PTE
  keep ||| 1 ||| (if t.getLsbD 0 then 2 else 0) ||| (if t.getLsbD 2 then 8 else 0)
    ||| w64 ((if rkm then 64 else 0) + rpts * 256 + idx * 1024 + k * 4096)
/-- TSTAT as TRET leaves it (R297). -/
def tretTstat (t : Word) : Word :=
  (t &&& 0x30) ||| (if t.getLsbD 1 then 1 else 0) ||| (if t.getLsbD 3 then 4 else 0)

/-- TVEC.BASE (R292). -/
def tvecBase (t : Word) : Word := t &&& 0x000FFFFFFFFFFF00

namespace State

/-- Why the berth's next issue is later when its file is drowsy: a reply wakes it, for 3 cycles (R32). -/
def wakeTime (b : Berth) : Nat := if b.drowsy then 3 else 0

/-- Taking a trap or an interrupt: R285's one step. `tpc` is the saved PC; `rpts`, `k`, `idx` and `rkm` the block
record. The berth leaves any wait and block; the next fetch is an entry's first (R380). -/
def enter (s : State) (c : Cause) (tval tpc : Word) (rpts k idx : Nat) (rkm : Bool) : State :=
  let base := tvecBase s.myCore.tvec
  let at_ := s.readyAfter 8
  s.modMe fun b => { b with
    tpc := tpc
    tcause := c.word
    tval := tval
    tstat := trapTstat b.tstat rpts k idx rkm
    pc := if 32 ≤ c.code then base + 0x40 else base
    wait := none
    rpt := none
    entry := true
    readyAt := Nat.max b.readyAt (at_ + wakeTime b)
    drowsy := false
    lastIssue := s.cycle }

/-- The trap of the instruction at the PC, inside a coupled block or not (R52, R285). -/
def takeTrap (s : State) (c : Cause) (tval : Word) : State :=
  match s.me.rpt with
  | none => s.enter c tval s.me.pc 0 0 0 false
  | some k => s.enter c tval s.me.pc 1 k.k k.idx k.keep

/-- The address of word idx of a block (R49). -/
def wordAt (k : Block) (idx : Nat) : Word := k.base + w64 (4 * (idx + 1))
/-- A trap of the repetition buffer's word: the buffer stops, and its owner takes it at its next boundary (R53). -/
def bufTrap (s : State) (c : Cause) (tval : Word) : State :=
  match s.myCore.buffer with
  | none => s
  | some q =>
    (s.modMyCore fun co => { co with buffer := none }).modMe fun b =>
      { b with bufTrap := some ⟨c, tval, wordAt q.blk q.blk.idx, q.blk.k, q.blk.idx⟩ }

/-- A trap of the executing instruction, whose effects so far stand. -/
def trapNow (s : State) (c : Cause) (tval : Word) : State := if s.buffered then s.bufTrap c tval else s.takeTrap c tval

/-- A wait that begins now, of an instruction with what it has fixed at its issue. -/
def startWait (y : Why) (ticket cycle : Nat) (i : Issued := { seq := ticket, half := 0, t0 := 0, t1 := 0 }) : Wait :=
  ⟨y, ticket, cycle, cycle, false, false, false, false, false, cycle, none, i⟩
/-- What goes with an instruction into another wait: of one that has waited for words of the repetition buffer, its place
in the order of issue is behind theirs (log 71). -/
def keptIssue (w : Wait) (ticket : Nat) : Issued := match w.why with | .board => { w.issued with seq := ticket } | _ => w.issued
/-- The wait the instruction is in from now on: the one it was in, if it is the same; whether its message has been
answered, whether its request stands at its core, whether its release is done and what it fixed at its issue go with it. -/
def nextWait (y : Why) (ticket cycle : Nat) (i : Issued) : Option Wait → Wait
  | some w => if w.why = y then { w with polled := cycle }
      else { startWait y ticket cycle (keptIssue w ticket) with
          acked := w.acked
          home := w.home || (match w.why with | .remote _ => true | _ => false)
          released := w.released || (match w.why with | .cleaning _ => true | _ => false) }
  | none => startWait y ticket cycle i
/-- The wait of berth b of core r changes; 16 stands for the word of its repetition buffer. -/
def modWait (s : State) (r b : Nat) (f : Wait → Wait) : State :=
  if b = 16 then s.modCore r fun c => { c with buffer := c.buffer.map fun q => { q with wait := q.wait.map f } }
  else s.modBerth r b fun t => { t with wait := t.wait.map f }
/-- The executing instruction's number on its core: its berth, or 16 for a word of the repetition buffer. -/
def slot (s : State) : Nat := if s.buffered then 16 else s.berth % 16
def modMyWait (s : State) (f : Wait → Wait) : State := s.modWait s.rank s.slot f
/-- Notes, in the wait that has begun, what the instruction has fixed at its issue. -/
def noteIssued (s : State) (f : Issued → Issued) : State := s.modMyWait fun w => { w with issued := f w.issued }
/-- The executing instruction's request stands behind what is held for core r; when its turn comes it goes on (R266). -/
def joinHeld (s : State) (r : Nat) : State :=
  let t := s.modMyWait fun w => { w with hold := true, reply := some { again := true } }
  { t with held := t.held ++ [(r, .replyArrival s.rank s.slot)] }
/-- The instruction waits: it has had no effect and issues again (R20, R186). A miss of the translation unit starts a
walk, or joins the running one, at most 32 at once (R279); a request that is held goes on when its turn comes (R266). -/
def block (s : State) (y : Why) : State :=
  let s1 := { (s.setWait (nextWait y s.ticket s.cycle s.issueNow s.myWait)) with ticket := s.ticket + 1 }
  match y with
  | .walk asid gran _ =>
    let cl := clusterOf s.rank
    let c := s.cluster cl
    if c.walks.contains (asid, gran) ∨ 32 ≤ c.walks.length then s1
    else ((s1.modCluster cl fun c => { c with walks := c.walks ++ [(asid, gran)] }).later (s.walkTime asid gran)
      (.walkDone cl (BitVec.ofNat 8 asid) gran))
  | .held r => s1.joinHeld r
  | _ => s1

/-- The berth, or the buffer's word, waits for a reply that a unit will bring; its instruction does not issue again. -/
def await (s : State) (y : Why) : State :=
  (s.block y).modMyWait fun w => { w with hold := true }
/-- The order of the replies of one cycle: by cluster, along its B ring, and by berth (R117, R172). -/
def replyKey (r b : Nat) : Nat := (clusterOf r * 16 + ringPos r) * 32 + b
/-- The wait of berth b of core r; 16 stands for the word of its repetition buffer. -/
def waitOf (s : State) (r b : Nat) : Option Wait := if b = 16 then (s.core r).buffer.bind Buf.wait else (s.berthAt r b).wait
/-- Whether a message is a reply that counts as of the cycle before it is due. -/
def pastReply (s : State) (i : Instr) : Bool :=
  match i with
  | .replyArrival r b => (match (s.waitOf r b).bind Wait.reply with | some q => q.past | none => false)
  | _ => false
/-- A reply's place among the messages due in its cycle: those of the cycle before come first, then all others; `past` tells
them, and `mine` whether this one is of them. -/
def insertReply (past : Instr → Bool) (mine : Bool) (l : List (Nat × Instr)) (t r b : Nat) : List (Nat × Instr) :=
  match l with
  | [] => [(t, .replyArrival r b)]
  | (k, i) :: rest =>
    let less := match i with | .replyArrival r2 b2 => decide (replyKey r b < replyKey r2 b2) | _ => false
    let before := decide (t < k) || (t == k && (if mine then !past i || less else !past i && less))
    if before then (t, .replyArrival r b) :: (k, i) :: rest else (k, i) :: insertReply past mine rest t r b
/-- Sends a waiting berth its reply; it arrives `delay` cycles later (R20). A wait with a reply is served: it is no
longer withdrawn (R186). -/
def reply (s : State) (r b : Nat) (q : Reply) (delay : Nat := 0) : State :=
  let t := s.modWait r b fun w => { w with reply := some q }
  { t with agenda := insertReply t.pastReply q.past t.agenda (s.cycle + delay) r b }
/-- A release that begins now, or waits for another one of the core to end; without anything to clean it ends at once. -/
def releaseNow (s : State) : Run State :=
  if s.cycle < s.myCore.relEnd then waitFor (.behind s.myCore.relEnd)
  else
    let t := s.release s.rank
    if t.myCore.relEnd ≤ s.cycle then .ok t else gone (t.block (.cleaning t.myCore.relEnd))
/-- The executing core's release before an edge's message leaves; the instruction waits for its end, and for that of one
which still runs (R179). One whose request is on its way, or at its home, has made its release. -/
def releasing (s : State) : Run State :=
  match s.myWait with
  | some w =>
    if w.released || w.home || (match w.why with | .cleaning t => decide (t ≤ s.cycle) | .remote _ => true | _ => false) then .ok s
    else match w.why with
      | .cleaning t => waitFor (.cleaning t)
      | _ => s.releaseNow
  | none => s.releaseNow
/-- The executing instruction has begun: its release is done or runs, or its message has been answered. -/
def begun (s : State) : Bool :=
  match s.myWait with
  | some w => w.acked || w.released || (match w.why with | .cleaning _ => true | _ => false)
  | none => false
/-- Whether the executing instruction issues again because its message has been answered. -/
def acked (s : State) : Bool := match s.myWait with | some w => w.acked | none => false

/-- How an instruction ends: a trap has no effect beyond its entry, a wait none at all. -/
def finish (s : State) (r : Run State) : Host.Outcome State Fault Refusal :=
  match r with
  | .ok t => .next t
  | .error (.trap c v) => .next (s.trapNow c v)
  | .error (.wait y) => .next (s.block y)
  | .error (.gone t) => .next t

/-- The block's next word after this one, or its end (R51, R52, R93). -/
def stepBlock (b : Berth) (k : Block) : Berth :=
  let len := k.words.length
  if k.idx + 1 < len then { b with pc := b.pc + 4, rpt := some { k with idx := k.idx + 1 } }
  else if k.k < k.cnt then { b with pc := k.base + 4, rpt := some { k with idx := 0, k := k.k + 1 } }
  else { b with pc := wordAt k len, rpt := none, moored := k.keep }
/-- The buffer after a word that completed; the next one may issue in cycle `due` (R53). -/
def stepBuf (q : Buf) (due : Nat) : Option Buf :=
  let b := q.blk
  if b.idx + 1 < b.words.length then some { q with blk := { b with idx := b.idx + 1 }, due := due, wait := none }
  else if b.k < b.cnt then some { q with blk := { b with idx := 0, k := b.k + 1 }, due := due, wait := none }
  else none

/-- INSTRET counts an instruction that completes (R292). -/
def retire (s : State) : State := s.modMyCore fun c => { c with instret := c.instret + 1 }
/-- Write-back without a trap: the PC moves on, INSTRET counts, and the berth may issue again `lat` cycles after issue;
a reply to a drowsy file wakes it. A word of the repetition buffer leaves the berth as it is. -/
def next (s : State) (lat : Nat := 8) : State :=
  let at_ := s.readyAfter lat
  if s.buffered then s.retire.modMyCore fun c => { c with buffer := c.buffer.bind fun q => stepBuf q (Nat.max q.readyAt at_) }
  else s.retire.modMe fun b =>
    let b1 := match b.rpt with
      | none => { b with pc := b.pc + 4 }
      | some k => stepBlock b k
    { b1 with wait := none, readyAt := Nat.max b.readyAt (at_ + wakeTime b), drowsy := false, lastIssue := if b.drowsy then s.cycle else b.lastIssue }

/-- The bits of an address that a PC holds (R27). -/
def pcMask : Word := 0x000FFFFFFFFFFFFC
/-- A taken branch or jump (R17, R27, R84). -/
def jump (s : State) (t : Word) : State :=
  let at_ := s.readyAfter 8
  s.retire.modMe fun b => { b with pc := t &&& pcMask, wait := none, readyAt := Nat.max b.readyAt (at_ + wakeTime b), drowsy := false,
                                   lastIssue := if b.drowsy then s.cycle else b.lastIssue }

/-- Mooring (R154); a block word that moors makes the block's end leave the barge moored (R93). -/
def moor (s : State) : State :=
  s.modMe fun b => { b with moored := true, rpt := if s.buffered then b.rpt else b.rpt.map fun k => { k with keep := true } }

/-- The end of a vector or matrix instruction: one that waits has issued, and has moored the barge (R102, R123); one that
traps at its issue has no effect at all (R285, log 62). -/
def finishMoored (s : State) (r : Run State) : Host.Outcome State Fault Refusal :=
  match r with
  | .error (.wait y) => .next (s.moor.block y)
  | r => s.finish r

/-! ### Counts (R163) -/

def counts (s : State) (r lid : Nat) : Counts :=
  ((s.core r).counts.find? fun c => c.lid == lid).getD ⟨lid, 0, 0, 0, 0⟩
def modCounts (s : State) (r lid : Nat) (f : Counts → Counts) : State :=
  s.modCore r fun c => { c with counts := f (s.counts r lid) :: c.counts.filter fun k => k.lid != lid }
def incLive (s : State) (r lid : Nat) : State := s.modCounts r lid fun c => { c with live := c.live + 1 }
def decLive (s : State) (r lid : Nat) : State := s.modCounts r lid fun c => { c with live := c.live - 1 }
def incPend (s : State) (r lid : Nat) : State := s.modCounts r lid fun c => { c with pend := c.pend + 1 }
def decPend (s : State) (r lid : Nat) : State := s.modCounts r lid fun c => { c with pend := c.pend - 1 }
def incSent (s : State) (r lid : Nat) : State := s.modCounts r lid fun c => { c with sent := c.sent + 1 }
def incRecv (s : State) (r lid : Nat) : State := s.modCounts r lid fun c => { c with recv := c.recv + 1 }

/-- Whether a launch still takes its barges: a cancelled one discards them (R268). -/
def dropsBarges (s : State) (lid : Nat) : Bool := match s.launch lid with | some l => l.cancel | none => false

/-! ### Registers and ports -/

def port (b : Berth) (p : Nat) : Port := vget b.ports p Port.reset
def modPort (s : State) (r b p : Nat) (f : Port → Port) : State :=
  s.modBerth r b fun t => { t with ports := vset t.ports p (f (port t p)) }

/-- Whether port (r, b, p) is bound to port (fr, fb, fp), ports 0 to 3 inbound and 4 to 7 outbound. -/
def boundTo (s : State) (r b p fr fb fp : Nat) : Bool :=
  let q := port (s.berthAt r b) p
  q.bound && q.frank == fr && q.fberth == fb && q.fport == fp
/-- PEER (R211): the far port is bound to this port. -/
def peer (s : State) (r b p : Nat) : Bool :=
  let q := port (s.berthAt r b) p
  q.bound && s.boundTo q.frank q.fberth q.fport r b p
/-- The entries that an inbound port holds: a popped one until its write-back (R25). -/
def entries (s : State) (q : Port) : Nat := q.q.length + (q.leaving.filter fun t => decide (s.cycle < t)).length
/-- Room for a push (R210): entries held and entries in transit number fewer than 8. -/
def room (s : State) (q : Port) : Bool :=
  decide (s.entries (port (s.berthAt q.frank q.fberth) q.fport) + q.undel < 8)

/-- An x register as a source; an inbound port shows its oldest entry (R23, R25). -/
def rx (s : State) (r : BitVec 5) : Word :=
  let n := r.toNat
  if n = 0 then 0
  else if n < 24 then vget s.me.x n 0
  else if n < 28 then (port s.me (n - 24)).q.headD 0
  else 0

/-- One source's port check (R25, R210): unbound, or empty with its partner freed, traps CHAN; empty waits. On a
stopped core every use of a port traps CHAN (R306). -/
def checkIn (s : State) (r : BitVec 5) : Run Unit :=
  let n := r.toNat
  if n < 24 then .ok ()
  else
    let q := port s.me (n - 24)
    if !q.bound ∨ s.myCore.shut then stop .chan (w64 n)
    else if q.q.isEmpty then (if q.freed then stop .chan (w64 n) else waitFor (.chan (n - 24)))
    else .ok ()
/-- One destination's port check (R25, R210). -/
def checkOut (s : State) (r : BitVec 5) : Run Unit :=
  let n := r.toNat
  if n < 24 then .ok ()
  else
    let p := n - 24
    let q := port s.me p
    if !q.bound ∨ s.myCore.shut ∨ q.freed then stop .chan (w64 n)
    else if s.peer s.rank s.berth p ∧ s.room q then .ok ()
    else waitFor (.chan p)
/-- What a push that has waited meets at its port: CHAN, when the port is unbound, freed or on a stopped core (R210). -/
def checkFreed (s : State) (r : BitVec 5) : Option Word :=
  let q := port s.me (r.toNat - 24)
  if !q.bound ∨ s.myCore.shut ∨ q.freed then some (w64 r.toNat) else none
def checkIns (s : State) : List (BitVec 5) → Run Unit
  | [] => .ok ()
  | r :: l => match s.checkIn r with
    | .ok _ => s.checkIns l
    | .error e => .error e
/-- Every port an instruction names, sources in field order, then its destination. -/
def checkPorts (s : State) (srcs : List (BitVec 5)) (d : BitVec 5) : Run Unit :=
  match s.checkIns srcs with
  | .ok _ => s.checkOut d
  | .error e => .error e

/-- Pops each inbound port among the sources once, in field order; a pop acquires and moors (R25, R154, R181). The entry
counts as held until the instruction's write-back. -/
def pop (s : State) (r : BitVec 5) : State :=
  let n := r.toNat
  if n < 24 then s
  else ((s.modPort s.rank s.berth (n - 24) fun q => { q with
    q := q.q.tail
    leaving := (s.cycle + s.leaveIn) :: q.leaving.filter fun t => decide (s.cycle < t) }).gain).moor
def pops (s : State) : List (BitVec 5) → State
  | [] => s
  | r :: l => if l.contains r then s.pops l else (s.pops l).pop r

/-- Pushes onto outbound port p, the release of the push done: the entry reaches the far port 2h + 9 cycles after the
write-back, or at it on the same core (R179, R181, R210, R211). -/
def push (s : State) (p : Nat) (v : Word) : State :=
  let s1 := s.moor
  let q := port s1.me p
  ((s1.modPort s.rank s.berth p fun t => { t with undel := t.undel + 1 }).incSent s.rank s1.me.lid).later
    (s.leaveIn + if q.frank = s.rank then 0 else 2 * hops s.rank q.frank + 9) (.channelEntryArrival q.frank q.fberth q.fport s.rank s.berth p s1.me.lid v)

/-- Writes an x register: x0 discards, qo0 to qo3 push (R24, R25). -/
def wx (s : State) (d : BitVec 5) (v : Word) : State :=
  let n := d.toNat
  if n = 0 then s
  else if n < 24 then s.modMe fun b => { b with x := vset b.x n v }
  else s.push (n - 24) v

def rf (s : State) (r : BitVec 4) : W32 := vget s.me.f r.toNat 0
def wf (s : State) (d : BitVec 4) (v : W32) : State := s.modMe fun b => { b with f := vset b.f d.toNat v }
def rv (s : State) (r : BitVec 4) : VReg := vget s.me.v r.toNat 0
def wv (s : State) (d : BitVec 4) (v : VReg) : State := s.modMe fun b => { b with v := vset b.v d.toNat v }
/-- A predicate bit; p0 reads 1 (R26). -/
def rp (s : State) (i : BitVec 5) : Bool := i.toNat == 0 || s.me.p.getLsbD i.toNat
/-- Writes a predicate bit; a write to p0 is discarded (R26). -/
def wp (s : State) (i : BitVec 5) (v : Bool) : State :=
  if i.toNat = 0 then s else s.modMe fun b => { b with p := setBit b.p i.toNat v }
/-- Accrues FCSR flags (R66). -/
def flag (s : State) (f : Flags) : State :=
  if f = 0 then s else s.modMe fun b => { b with fcsr := b.fcsr ||| f.setWidth 64 }

/-- Writes a decode table; its order is built in the 256 cycles that follow (R61). -/
def setTable (s : State) (r t : Nat) (v : DTab) : State :=
  s.modCore r fun c => if t = 0 then { c with dt0 := v, sort0 := s.cycle + 256 } else { c with dt1 := v, sort1 := s.cycle + 256 }
/-- What a completing instruction or its reply writes: ports popped, then the registers. -/
def put (s : State) (q : Reply) : State :=
  let s1 := s.pops q.srcs
  let s2 := q.writes.foldl (fun t e => t.wx (BitVec.ofNat 5 e.1) e.2) s1
  let s3 := match q.fw with | some (d, v) => s2.wf (BitVec.ofNat 4 d) v | none => s2
  let s4 := match q.vw with | some (d, v) => s3.wv (BitVec.ofNat 4 d) v | none => s3
  let s5 := match q.pred with | some (i, v) => s4.wp (BitVec.ofNat 5 i) v | none => s4
  let s6 := match q.table with | some (i, v) => s5.setTable s5.rank i v | none => s5
  if q.acquire then s6.gain else s6
/-- Whether a completion pushes onto a channel. -/
def pushes (q : Reply) : Bool := q.writes.any fun e => decide (24 ≤ e.1)
/-- What the end of an instruction of `lat` cycles waits for: one of class F waits for nothing, and is in the pipeline until
its write-back (R20, R36). -/
def endWhy (lat : Nat) : Why := if lat ≤ 8 then .pipe else .slow
/-- The reply that ends the instruction writes when it arrives, so that the berth is ready `lat` cycles after its issue
(R20, R36). -/
def answered (s : State) (lat : Nat) (q : Reply) : State :=
  (s.await (endWhy lat)).reply s.rank s.slot q (s.readyAfter lat - s.cycle - 1)
/-- The same for one that acts after everything else of the cycle of its write-back. -/
def answeredLast (s : State) (lat : Nat) (q : Reply) : State :=
  (s.await (endWhy lat)).reply s.rank s.slot { q with past := true } (s.readyAfter lat - s.cycle)
/-- The end of an instruction of class F that acts at its write-back, after everything else of that cycle: those of one cycle
in the order of their cores and berths (R97, R101, R172). -/
def atWriteBack (s : State) (q : Reply) : State := s.answeredLast 8 q
/-- The end of an instruction that takes `lat` cycles from its issue to its berth's next readiness: of class F it writes
now, which nothing can tell from its write-back, but for a push, which acts there; of class W the berth waits for its reply,
which writes when it arrives (R20, R25, R36). -/
def done (s : State) (lat : Nat) (q : Reply) : State :=
  if lat ≤ 8 ∧ !pushes q then (match q.pc with | some a => (s.put q).jump a | none => (s.put q).next lat) else s.answered lat q

/-- An integer or FP instruction whose destination is an x register: checks, pops, writes, moves on. -/
def putX (s : State) (srcs : List (BitVec 5)) (d : BitVec 5) (v : Word) (fl : Flags := 0) :
    Host.Outcome State Fault Refusal :=
  s.finish (match s.checkPorts srcs d with
    | .ok _ => .ok ((s.flag fl).done 8 { srcs := srcs, writes := [(d.toNat, v)] })
    | .error e => .error e)
/-- The same for any other effect on the berth, `f`, after the sources' pops. -/
def putS (s : State) (srcs : List (BitVec 5)) (f : State → State) : Host.Outcome State Fault Refusal :=
  s.finish (match s.checkIns srcs with
    | .ok _ => .ok ((f (s.pops srcs)).next)
    | .error e => .error e)

end State

/-- An instruction word from its fixed bits and its fields, for the TVAL of an ILL decided in execution (R286). -/
def wd (fixed : Nat) (fs : List (Nat × Nat)) : Word := w64 (fs.foldl (fun n f => n + f.1 * 2 ^ f.2) fixed)

end Sys2Proof.Machine
end

