-- ==== Sys2Proof/Machine/Flags.lean ====
section
/-!
DEFINITION. FCSR: the rounding mode and saturation in force, and how flags accrue (R64 to R66, R293).
-/
namespace Sys2Proof.Machine

/-- A rounding code of R64; every code but 000 to 011 rounds RNE where no encoding names it. -/
def rmOf (code : Nat) : Rm := if code = 1 then .rtz else if code = 2 then .rdn else if code = 3 then .rup else .rne
/-- The environment of scalar and vector arithmetic: FCSR.RM and FCSR.SAT (R64, R85, R293). -/
def fcsrEnv (fcsr : Word) : FpEnv := ⟨rmOf (fld fcsr 5 3), bit fcsr 8⟩
/-- A conversion's rounding field: 000 to 100 name a mode, 101 takes FCSR's (R45, R115). -/
def rmField (env : FpEnv) (code : Nat) : Rm := if code = 4 then .sr else if code = 5 then env.mode else rmOf code

namespace State
def env (s : State) : FpEnv := fcsrEnv s.me.fcsr
end State
end Sys2Proof.Machine
end

