-- ==== Sys2Proof/Machine/Operands.lean ====
section
/-!
DEFINITION. Operand forms: immediates and targets (R40), places (R42, R44), lanes and masks (R103, R104), the
conversion and code positions of packed vectors (R59, R115, R116).
-/
namespace Sys2Proof.Machine

/-- SX(imm15, 15), ZX(imm15, 15), SX(imm20 << 12, 32) (R40). -/
def immS (i : BitVec 15) : Word := i.signExtend 64
def immZ (i : BitVec 15) : Word := i.setWidth 64
def immU (i : BitVec 20) : Word := (i ++ (0 : BitVec 12)).signExtend 64
/-- Branch and jump targets (R40). -/
def targetB (pc : Word) (o : BitVec 19) : Word := pc + 4 * o.signExtend 64
def targetJ (pc : Word) (o : BitVec 20) : Word := pc + 4 * o.signExtend 64

/-- dy and dx of an immediate place field, signed 7 bits each (R42). -/
def fieldDy (p : BitVec 15) : Int := sint 7 (fld p 7 7)
def fieldDx (p : BitVec 15) : Int := sint 7 (fld p 0 7)
def fieldInd (p : BitVec 15) : Bool := bit p 14
/-- dy and dx of a place word, signed 8 bits each (R42). -/
def wordDy (w : Word) : Int := sint 8 (fld w 24 8)
def wordDx (w : Word) : Int := sint 8 (fld w 16 8)
/-- The place word an immediate gives: dy in [31:24], dx in [23:16], every other bit zero (R209). -/
def fieldWord (p : BitVec 15) : Word :=
  w64 ((BitVec.ofInt 8 (fieldDy p)).toNat * 2 ^ 24 + (BitVec.ofInt 8 (fieldDx p)).toNat * 2 ^ 16)

/-- Lane i of a vector register (R23). -/
def lane (v : VReg) (i : Nat) : W32 := v.extractLsb' (32 * i) 32
/-- The number whose 32-bit lanes 0 to n - 1 are f. -/
def lanesNat (f : Nat → W32) : Nat → Nat
  | 0 => 0
  | n + 1 => lanesNat f n + (f n).toNat * 2 ^ (32 * n)
def ofLanes (f : Nat → W32) : VReg := BitVec.ofNat 1024 (lanesNat f 32)
/-- The bytes of a vector register. -/
def vbyte (v : VReg) (i : Nat) : Byte := v.extractLsb' (8 * i) 8
def vhalf (v : VReg) (i : Nat) : BitVec 16 := v.extractLsb' (16 * i) 16
def vnib (v : VReg) (i : Nat) : BitVec 4 := v.extractLsb' (4 * i) 4
/-- Pieces of width w, piece i from f, as a number. -/
def piecesNat (w : Nat) (f : Nat → Nat) : Nat → Nat
  | 0 => 0
  | n + 1 => piecesNat w f n + f n % 2 ^ w * 2 ^ (w * n)
def ofPieces (w : Nat) (f : Nat → Nat) (n : Nat) : VReg := BitVec.ofNat 1024 (piecesNat w f n)

/-- Whether lane i is active: M = 0, or p_i = 1 (R103). -/
def active (p : W32) (m : BitVec 1) (i : Nat) : Bool := m == 0 || i == 0 || p.getLsbD i
/-- Lane results where active, the old destination elsewhere (R103). -/
def masked (p : W32) (m : BitVec 1) (old : VReg) (f : Nat → W32) : VReg :=
  ofLanes fun i => if active p m i then f i else lane old i
/-- The OR of the active lanes' flags (R102). -/
def orFlags (p : W32) (m : BitVec 1) (f : Nat → Flags) : Nat → Flags
  | 0 => 0
  | n + 1 => orFlags p m f n ||| (if active p m n then f n else 0)
/-- Indices 0 to 31, made once. -/
def lanes32 : List Nat := upTo 32

/-! ### The latch's halves (R133) -/

namespace State
/-- Whether a wait is that of an MMA which has bound half h (R124, R140). -/
def waitsMma (h : Nat) (w : Wait) : Bool := w.issued.latch == .mma && w.issued.half == h
/-- An MMA bound to half h is outstanding. -/
def halfBound (s : State) (r h : Nat) : Bool := ((s.core r).mq.any fun m => m.half == h) || (s.core r).waits.any (waitsMma h)
/-- A send from half h is running or asked for. -/
def halfSending (s : State) (r h : Nat) : Bool := (s.core r).sends.any fun e => e.half == h
/-- A DRAINING half with nothing outstanding becomes EMPTY (R133). -/
def drain (s : State) (r h : Nat) : State :=
  if ((s.core r).half h).st = .draining ∧ !s.halfBound r h ∧ !s.halfSending r h then
    s.modCore r fun c => c.setHalf h { c.half h with st := .empty }
  else s
/-- The half that an MMA had bound whose wait has ended without it (R133). -/
def drainAfter (s : State) (r : Nat) (w : Option Wait) : State :=
  match w with
  | some w => if w.issued.latch = .mma then s.drain r w.issued.half else s
  | none => s
end State

end Sys2Proof.Machine
end

