-- ==== Sys2Proof/Machine/Barges.lean ====
section
/-!
DEFINITION. What happens to a barge as a whole: its packet (R144 to R146), leaving a berth (R98, R204), entering a
harbour queue (R148, R151), migration (R152) and docking (R28, R150, R289).
-/
namespace Sys2Proof.Machine
open State

/-- The header a packet carries for a berth that holds none. -/
def noHdr : Hdr := ⟨0, 0, 0, 0, false, .ordinary, false⟩
namespace Berth
def header (b : Berth) : Hdr := b.hdr.getD noHdr
/-- The barge as a packet, with the PC it will issue from (R144, R145). -/
def pack (b : Berth) (pc : Word) : Packet := ⟨b.header, pc, b.p, b.fr.setWidth 64, b.x, b.f, false, false, b.pair⟩
/-- The berth with its barge gone, EMPTY from the next cycle on (R31). Its registers stand until the next docking; its
ports are unbound. Interrupts stay pending (R287): a lead berth takes PREEMPT without a barge (R302). -/
def emptied (b : Berth) (now : Nat) : Berth :=
  let lead := b.pPreempt && b.preTval.getLsbD 0
  { b with
    hdr := none
    wait := none
    rpt := none
    bufTrap := none
    moored := false
    borrowed := none
    entry := false
    pair := []
    started := lead
    preTval := if lead then 3 else b.preTval
    tstat := if lead then 4 else b.tstat
    pBudget := false
    ports := Vector.replicate 8 Port.reset
    was := 1
    readyAt := now + 1 }
end Berth

namespace State

/-- The berth whose file berth b of core r has borrowed becomes EMPTY, from the cycle after `now` on (R99). -/
def giveBack (s : State) (r b now : Nat) : State :=
  match (s.berthAt r b).borrowed with
  | none => s
  | some c => (s.modBerth r c fun k => { k with lent := none, was := 5, readyAt := now + 1 }).modBerth r b fun k => { k with borrowed := none }

/-- The berth falls free: its borrowed file is let go and its barge is gone. -/
def leave (s : State) (r b : Nat) : State := (s.giveBack r b s.cycle).modBerth r b fun k => k.emptied s.cycle
/-- The executing barge leaves its berth, which falls free at the instruction's write-back (R36, R152). -/
def depart (s : State) : State := (s.giveBack s.rank s.berth (s.cycle + s.leaveIn)).modMe fun k => k.emptied (s.cycle + s.leaveIn)

/-! ### The harbour queue (R147 to R151) -/

/-- The slot an entering packet takes: the lowest that holds none (log 63). -/
def freeSlot (c : Core) : Nat := ((upTo 64).find? fun i => !(c.queue.any fun e => e.slot == i)).getD 64

/-- Where the overflow segment of core r of a launch stands, and where its park segment does (R262). -/
def overflowAt (l : Launch) (r : Nat) : Nat := l.area.toNat + 2359296 * l.index r
def parkAt (l : Launch) (r : Nat) : Nat := overflowAt l r + 1179648

/-- A run of bytes written at a virtual address of a launch by an engine, at the LLC; an unmapped page is skipped. -/
def putBytes (s : State) (cl : Nat) (w : Who) (va : Nat) : List Byte → State
  | [] => s
  | b :: r =>
    let t := s.xlate cl w .write va
    let s1 := match t.2 with
      | some (_, pa) => t.1.writeByte (.hbm pa) b
      | none => t.1
    s1.putBytes cl w (va + 1) r

/-- The packet's image in its launch's area: at an overflow slot or a park slot (R151, R158). -/
def imagePacket (s : State) (cl : Nat) (pk : Packet) (arr va : Nat) : State :=
  s.putBytes cl ⟨0, pk.hdr.asid.toNat, false, pk.hdr.lid.toNat⟩ va (packetBytes pk arr)

/-- The packets of a launch that stand in its overflow segment of core c (R151, R262). -/
def spilledOf (c : Core) (lid : Nat) : List (Packet × Nat × Nat) := c.spillq.filter fun e => e.1.hdr.lid.toNat == lid
/-- The slot of its launch's overflow segment that a spilled packet takes: the lowest that holds none. R151 does not say
which (DESIGN CHOICE, log 63). -/
def spillSlot (c : Core) (lid : Nat) : Nat := ((upTo 4096).find? fun i => !((spilledOf c lid).any fun e => e.2.2 == i)).getD 4096
/-- Whether an arrival of a launch finds its segment full, or another of its packets held before it (R151). -/
def segFull (c : Core) (lid : Nat) : Bool :=
  decide (4096 ≤ (spilledOf c lid).length) || c.overq.any fun k => k.hdr.lid.toNat == lid
/-- A packet enters core r's harbour queue with ARR = now; a full queue, or one with packets spilled, spills it; with the
4,096 packets of its launch's overflow segment full it is held at its sender until there is room (R148, R151, R262). A
cancelled launch's packet is discarded (R268). -/
def enqueue (s : State) (r : Nat) (pk : Packet) (hold : Option Nat) : State :=
  let c := s.core r
  let lid := pk.hdr.lid.toNat
  if s.dropsBarges lid then (if pk.pend then s.decPend r lid else s).decLive r lid
  else if c.spillq.isEmpty ∧ c.queue.length < c.cap then
    s.modCore r fun c => { c with queue := c.queue ++ [⟨freeSlot c, pk, s.cycle, hold⟩] }
  else if segFull c lid then s.modCore r fun c => { c with overq := c.overq ++ [pk] }
  else
    let n := spillSlot c lid
    let s1 := s.modCore r fun c => { c with spillq := c.spillq ++ [(pk, s.cycle, n)] }
    match s.launch lid with
    | some l => s1.imagePacket (clusterOf r) pk s.cycle (overflowAt l r + 288 * n)
    | none => s1

/-- How long a packet travels between two cores: 2h + 9 cycles, and 12 for each die edge (R153). -/
def travel (a b : Nat) : Nat := 2 * hops a b + 9 + 12 * Config.dieEdges a b
/-- A packet leaves for rank r over the mesh, after write-back and behind the core's release: it counts in SENT (R153,
R179). -/
def sendBarge (s : State) (r : Nat) (pk : Packet) : State :=
  (s.incSent s.rank pk.hdr.lid.toNat).afterRelease s.rank s.leaveIn (travel s.rank r) (.bargeArrival r ⟨pk, s.rank⟩)

/-- Migration of the executing barge to rank r: release, the packet with the PC of the access, the berth free (R152). -/
def migrate (s : State) (r : Nat) : State :=
  let b := s.me
  let s1 := s.release s.rank
  ((s1.sendBarge r (b.pack b.pc)).decLive s.rank b.lid).depart
/-- Migration to a core of another device, across the links: the barge leaves this device (R281, R283). -/
def migrateFar (s : State) (dev r : Nat) : State :=
  let b := s.me
  let s1 := ((s.release s.rank).incSent s.rank b.lid).out (.link dev (.barge r (b.pack b.pc)))
  (s1.decLive s.rank b.lid).depart

/-- The rank an access migrates to: an unpinned barge, another rank's place window, and the source's checks passed
(R152, R154, R285). -/
def migrates (s : State) (va : Word) (align : Nat) : Option Nat :=
  let r := fld va 17 14
  if va.toNat % align = 0 ∧ fld va 48 16 = 15 ∧ zeroBits va 31 17 ∧ r < 9216 ∧ r ≠ s.rank ∧ s.inRect s.me.lid r
      ∧ !s.me.pinned ∧ !s.buffered then some r
  else none

/-- The core of another device to which an access of an unpinned barge migrates: its leaf maps a CLM there, and the
access is permitted (R283). -/
def migratesFar (s : State) (va : Word) (align : Nat) (k : Kind) : Option (Nat × Nat) :=
  if va.toNat % align ≠ 0 ∨ 13 * 2 ^ 48 ≤ va.toNat ∨ s.me.pinned ∨ s.buffered then none
  else match s.translate s.who k va with
    | .ok (_, pa) => if isFarClm pa then some (pa / farBase - 1, (pa % farBase - clmBase) / 131072) else none
    | .error _ => none

/-- Docking, of a packet that entered the queue in cycle `arr`: R28, R289. -/
def dockInto (s : State) (r b : Nat) (pk : Packet) (arr : Nat) : State :=
  s.modBerth r b fun t => { t with
    hdr := some pk.hdr
    pc := pk.pc &&& 0x000FFFFFFFFFFFFC
    p := pk.p ||| 1
    fr := pk.fr.setWidth 32
    x := vset pk.x 0 0
    f := pk.f
    v := Vector.replicate 16 0
    fcsr := 0
    tstat := 4
    ports := Vector.replicate 8 Port.reset
    wait := none
    rpt := none
    bufTrap := none
    moored := false
    entry := false
    pair := pk.nodes
    arr := arr
    drowsy := false
    lastIssue := s.cycle
    readyAt := s.cycle + 10 }

end State
end Sys2Proof.Machine
end

