-- ==== Sys2Proof/Machine/Channel.lean ====
section
/-!
DEFINITION. Channels and deadlock probes (R209 to R212), the cluster barrier (R214, R215), and the sluice (R217 to R219).
-/
namespace Sys2Proof.Machine
open State

/-! ### Channels -/

/-- The channel status word (R211). -/
def chanWord (s : State) (r b p : Nat) : Word :=
  let q := port (s.berthAt r b) p
  if !q.bound then 0
  else w64 ((if p < 4 then s.entries q else q.undel) * 2 ^ 28 + (if q.freed then 2 ^ 27 else 0)
    + (if s.peer r b p then 2 ^ 26 else 0) + 2 ^ 25 + q.fberth * 2 ^ 20 + q.fport % 4 * 2 ^ 18 + q.frank)

/-- CHBIND (R44, R209). -/
def execChbind (l : BitVec 3) (f : BitVec 2) (a : BitVec 5) (p : BitVec 15) (s : State) : Host.Outcome State Fault Refusal :=
  let lp := l.toNat
  s.finish (do
    s.checkIns [a]
    let va := s.rx a
    let w := if fieldInd p then va else fieldWord p
    if (port s.me lp).bound ∨ s.myCore.shut then stop .chan (w64 (24 + lp))
    else match placeRank s.rank (if fieldInd p then wordDy va else fieldDy p) (if fieldInd p then wordDx va else fieldDx p) with
      | none => stop .place w
      | some r =>
        if !s.inRect s.me.lid r then stop .place w
        else
          let q : Port := ⟨true, r, fld va 0 4, if lp < 4 then 4 + f.toNat else f.toNat, false, [], 0, []⟩
          .ok (((s.pops [a]).modPort s.rank s.berth lp fun _ => q).moor.next))

namespace State
/-- Tells the port bound to port p of berth b of rank r that its partner has freed its end (R211). -/
def noticeFreed (s : State) (r b p : Nat) : State :=
  let q := port (s.berthAt r b) p
  if !q.bound ∨ (p < 4 ∧ !s.peer r b p) then s
  else if q.frank = r then
    if s.boundTo q.frank q.fberth q.fport r b p then s.modPort q.frank q.fberth q.fport fun t => { t with freed := true } else s
  else s.later (2 * hops r q.frank + 16) (.channelFreedNotice q.frank q.fberth q.fport r b p)
/-- Unbinds port p, notice given. -/
def freePort (s : State) (r b p : Nat) : State :=
  (s.noticeFreed r b p).modPort r b p fun _ => Port.reset
end State

/-- CHFREE (R211): an outbound port waits for the delivery of its entries. -/
def execChfree (a : BitVec 5) (s : State) : Host.Outcome State Fault Refusal :=
  let p := a.toNat - 24
  let q := port s.me p
  s.finish (
    if !q.bound ∨ s.myCore.shut then stop .chan (a.setWidth 64)
    else if 4 ≤ p ∧ 0 < q.undel then waitFor .slow
    else .ok ((s.freePort s.rank s.berth p).moor.next))

/-- CHSTAT (R211): an unbound port reads 0. -/
def execChstat (d a : BitVec 5) (s : State) : Host.Outcome State Fault Refusal :=
  let p := a.toNat - 24
  s.finish (do
    s.checkOut d
    if s.myCore.shut then stop .chan (a.setWidth 64)
    else .ok (s.moor.done 8 { writes := [(d.toNat, chanWord s s.rank s.berth p)] }))

/-- CHANNEL_ENTRY_ARRIVAL (R210, R211): taken by the port that is bound to the sender, discarded by any other. -/
def execChannelEntryArrival (r b port fr fb fp lid : Nat) (v : BitVec 64) (s : State) : Host.Outcome State Fault Refusal :=
  let s1 := s.incRecv r lid
  let s2 := if s1.boundTo r b port fr fb fp then s1.modPort r b port fun q => { q with q := q.q ++ [v] } else s1
  .next (if s2.boundTo fr fb fp r b port then s2.modPort fr fb fp fun q => { q with undel := q.undel - 1 } else s2)
/-- CHANNEL_FREED_NOTICE (R211). -/
def execChannelFreedNotice (r b port fr fb fp : Nat) (s : State) : Host.Outcome State Fault Refusal :=
  .next (if s.boundTo r b port fr fb fp then s.modPort r b port fun q => { q with freed := true } else s)

/-! ### Deadlock probes (R126, R212) -/

/-- The wait-for edge of a wait of berth b: the far berth of its port, or the accumulator's owner. -/
def edgeOf (s : State) (r b : Nat) (w : Wait) : Option (Nat × Nat) :=
  match w.why with
  | .chan p => let q := port (s.berthAt r b) p; if q.bound then some (q.frank, q.fberth) else none
  | .acq _ n => ((s.core r).acc n).owner.map fun o => (r, o)
  | _ => none
/-- The wait of a word of berth b in the repetition buffer, an ACQ among them (R50, R53). -/
def bufferWait (s : State) (r b : Nat) : Option Wait :=
  match (s.core r).buffer with | some q => if q.owner = b then q.wait else none | none => none
/-- The wait by which berth b is blocked, with its edge, and whether it is that of its word in the repetition buffer: its
own wait goes first (log 64). -/
def blockedOn (s : State) (r b : Nat) : Option (Wait × (Nat × Nat) × Bool) :=
  match (s.berthAt r b).wait.bind fun w => (edgeOf s r b w).map fun e => (w, e, false) with
  | some x => some x
  | none => (bufferWait s r b).bind fun w => (edgeOf s r b w).map fun e => (w, e, true)
/-- A blocked berth's wait-for edge (R212). -/
def waitEdge (s : State) (r b : Nat) : Option (Nat × Nat) := (blockedOn s r b).map fun x => x.2.1
def probeId (r b : Nat) : BitVec 32 := BitVec.ofNat 32 (16 * r + b)
/-- Whether berth b of core r sends a probe now: it has waited longer than the threshold since it last did (R294). -/
def probeDue (s : State) (r b : Nat) : Bool :=
  let c := s.core r
  match blockedOn s r b with
  | some (w, _, _) => bit c.probecfg 0 && w.reply.isNone && decide (fld c.probecfg 4 20 < s.cycle - w.probed)
  | none => false
/-- DEADLOCK_PROBE_SEND (R212). -/
def execDeadlockProbeSend (r b : Nat) (s : State) : Host.Outcome State Fault Refusal :=
  if !probeDue s r b then .next s
  else match blockedOn s r b with
    | none => .next s
    | some (_, (fr, fb), buffered) =>
      let sent (w : Wait) : Wait := { w with probed := s.cycle }
      let t :=
        if buffered then s.modCore r fun c => { c with buffer := c.buffer.map fun q => { q with wait := q.wait.map sent } }
        else s.modBerth r b fun t => { t with wait := t.wait.map sent }
      .next (t.later (2 * hops r fr + 9) (.deadlockProbeReceive fr fb [probeId r b]))
/-- DEADLOCK_PROBE_RECEIVE (R212): a blocked berth forwards it, its origin traps and gets the record in its slot. -/
def execDeadlockProbeReceive (r b : Nat) (ids : List (BitVec 32)) (s : State) : Host.Outcome State Fault Refusal :=
  match blockedOn s r b with
  | none => .next s
  | some (_, (fr, fb), buffered) =>
    if ids.head? = some (probeId r b) then
      let off := 256 * b + 184
      let s1 := s.storeAt (.clm r off) 8 ids.length
      let s2 := (upTo ids.length).foldl (fun t i => t.storeAt (.clm r (off + 8 + 4 * i)) 4 ((ids[i]?).getD 0).toNat) s1
      let t := s2.as r b
      .next (((if buffered then t.bufTrap .deadlock (w64 off) else t.takeTrap .deadlock (w64 off)).drainAfter r (s.waitOf r (if buffered then 16 else b))).back s)
    else if 16 ≤ ids.length then .next s
    else .next (s.later (2 * hops r fr + 9) (.deadlockProbeReceive fr fb (ids ++ [probeId r b])))

/-! ### The cluster barrier -/

def barrier (c : Cluster) (id : Nat) : Barrier := vget c.bars id ⟨16, none, 0, false, 0, [], false⟩
def modBarrier (s : State) (cl id : Nat) (f : Barrier → Barrier) : State :=
  s.modCluster cl fun c => { c with bars := vset c.bars id (f (barrier c id)) }
/-- The barrier state word (R214); COUNT shows a count that is not yet in effect. -/
def barWord (k : Barrier) : Word :=
  w64 (k.stalls * 2 ^ 24 + (if k.gen then 2 ^ 18 else 0) + k.arr * 2 ^ 9 + k.pendCount.getD k.count)

/-- An arrival's place among the messages due in its cycle: B-ring order, then berth number (R215). -/
def arrivalKey (r b : Nat) : Nat := ringPos r * 16 + b
def insertArrival (l : List (Nat × Instr)) (t cl id r b : Nat) : List (Nat × Instr) :=
  match l with
  | [] => [(t, .barrierArrival cl id r b)]
  | (k, i) :: rest =>
    let before := decide (t < k) || (t == k && (match i with
      | .barrierArrival cl2 _ r2 b2 => cl2 == cl && decide (arrivalKey r b < arrivalKey r2 b2)
      | _ => false))
    if before then (t, .barrierArrival cl id r b) :: (k, i) :: rest else (k, i) :: insertArrival rest t cl id r b

/-- CBAR (R215): a release, then the arrival leaves for the barrier unit; the berth waits for its reply. -/
def execCbar (im : BitVec 4) (s : State) : Host.Outcome State Fault Refusal :=
  let cl := clusterOf s.rank
  s.finish (do
    let t ← s.releasing
    let u := t.await (.barrier cl im.toNat)
    gone { u with agenda := insertArrival u.agenda (s.cycle + s.leaveIn + 6) cl im.toNat s.rank s.berth })

/-- Whether berth b of rank r still waits at the barrier. -/
def atBarrier (s : State) (r b cl id : Nat) : Bool :=
  match (s.berthAt r b).wait with | some w => w.why == .barrier cl id && w.reply.isNone | none => false

/-- BARRIER_ARRIVAL (R215): the arrival that completes a generation releases its waiters, flips GEN and applies a
pending count. -/
def execBarrierArrival (cl id r b : Nat) (s : State) : Host.Outcome State Fault Refusal :=
  let k := barrier (s.cluster cl) id
  if !atBarrier s r b cl id ∨ k.waiters.contains (r, b) then .next s
  else if k.arr + 1 < k.count then
    .next (modBarrier s cl id fun k => { k with arr := k.arr + 1, waiters := k.waiters ++ [(r, b)] })
  else
    let s1 := (k.waiters ++ [(r, b)]).foldl (fun t w => t.reply w.1 w.2 { acquire := true } 6) s
    .next (modBarrier s1 cl id fun k =>
      { k with arr := 0, gen := !k.gen, waiters := [], stalled := false, count := k.pendCount.getD k.count, pendCount := none })

/-- A withdrawn arrival is subtracted from its generation (R186). -/
def withdrawBarrier (s : State) (cl id r b : Nat) : State :=
  modBarrier s cl id fun k =>
    if k.waiters.contains (r, b) then { k with arr := k.arr - 1, waiters := k.waiters.filter fun w => w != (r, b) } else k

/-- The executing instruction's request reaches a unit `d` cycles after its write-back, and is performed there. -/
def reaches (s : State) (d : Nat) : Run Unit :=
  match s.myWait with
  | some w => (match w.why with
    | .remote t => if s.cycle < t then waitFor (.remote t) else .ok ()
    | _ => waitFor (.remote (s.cycle + s.leaveIn + d)))
  | none => waitFor (.remote (s.cycle + s.leaveIn + d))
/-- The end of such an instruction, whose reply comes `d` cycles after the unit has taken the request. -/
def repliesIn (s : State) (d : Nat) (q : Reply) : State := s.done (9 + d) q
/-- CBARCFG (R214): the unit answers with the old word and takes the count when the request reaches it. -/
def execCbarcfg (d a : BitVec 5) (im : BitVec 4) (s : State) : Host.Outcome State Fault Refusal :=
  let cl := clusterOf s.rank
  s.finish (do
    s.checkPorts [a] d
    let n := fld (s.rx a) 0 9
    let k := barrier (s.cluster cl) im.toNat
    if n = 0 ∨ 256 < n then stop .ill (wd 0xD4000100 [(d.toNat, 20), (a.toNat, 15), (im.toNat, 0)])
    else do
      reaches s 6
      let t := modBarrier s cl im.toNat fun k =>
        if k.arr = 0 then { k with count := n, pendCount := none } else { k with pendCount := some n }
      .ok (repliesIn t 6 { srcs := [a], writes := [(d.toNat, barWord k)] }))

/-- Whether a waiter has waited longer than its core's PROBECFG timeout (R215, R294): it counts once for the generation,
and the waiters of a core with the stall trap enabled trap whenever one has. -/
def barrierStalled (s : State) (cl id : Nat) : Bool :=
  let k := barrier (s.cluster cl) id
  k.waiters.any fun w => match (s.berthAt w.1 w.2).wait with
    | some t => decide (fld (s.core w.1).probecfg 24 24 < s.cycle - t.since) && (!k.stalled || bit (s.core w.1).probecfg 1)
    | none => false
/-- BARRIER_TIMEOUT (R215): STALLS rises once for the generation; with BSTE set, its waiters trap BARSTALL. -/
def execBarrierTimeout (cl id : Nat) (s : State) : Host.Outcome State Fault Refusal :=
  if !barrierStalled s cl id then .next s
  else
    let s1 := modBarrier s cl id fun k => { k with stalled := true, stalls := if k.stalled then k.stalls else Nat.min 255 (k.stalls + 1) }
    let k := barrier (s1.cluster cl) id
    .next (k.waiters.foldl (fun t w =>
      if bit (t.core w.1).probecfg 1 then (((withdrawBarrier t cl id w.1 w.2).as w.1 w.2).takeTrap .barstall (barWord k)).back s
      else t) s1)

/-! ### The sluice -/

/-- A command's range at issue (R218): the windows, then the whole range in its window under the issuer's mode. -/
def sluRange (s : State) (k : Kind) (va : Word) (len : Nat) : Run Unit := do
  let w := s.who
  let cl := clusterOf w.rank
  match ← s.decodeAddr w k va 1 with
  | .global => if va.toNat + len ≤ 13 * 2 ^ 48 then .ok () else stop k.cause va
  | .clm _ off =>
    if decide (off + len ≤ 131072) && (clmBad w.user (k == .write) off (Nat.max 1 len)).isNone then .ok () else stop k.cause va
  | .basin bank off =>
    let lo := bank * 131072 + off
    if 2097152 < lo + len then stop k.cause va
    else
      let banks := (upTo 16).filter fun n => decide (n = bank) || decide (n * 131072 < lo + len ∧ lo < (n + 1) * 131072)
      match banks.find? fun n => (s.bankOf cl n).next.isSome with
      | some n => waitFor (.bank cl n)
      | none => if banks.all fun n => (s.bankOf cl n).mode == 1 then .ok () else stop k.cause va

def sluFinal (c : Slu) : Bool := c.st == .done || c.st == .cancelled || c.st == .fault
/-- The lowest slot that is empty or holds a command in a final state (R217). -/
def sluSlot (c : Cluster) : Option Nat :=
  (upTo 64).find? fun i => match alGet c.slu i with | some k => sluFinal k | none => true
def sluTag (cl seq slot : Nat) : Word := w64 (cl * 2 ^ 22 + seq * 2 ^ 6 + slot)

/-- The shared issue of SLU.COPY and SLU.FILL (R217, R218). -/
def sluIssue (d a b : BitVec 5) (f e : BitVec 1) (copy : Bool) (s : State) : Host.Outcome State Fault Refusal :=
  let cl := clusterOf s.rank
  s.finish (do
    s.checkIns [a, b]
    let len := fld (s.rx d) 0 32
    let dst := s.rx a
    let src := s.rx b
    if dst.toNat % 8 ≠ 0 then stop .align dst
    else if copy ∧ src.toNat % 8 ≠ 0 then stop .align src
    else if len % 8 ≠ 0 then stop .align (w64 len)
    else
      sluRange s .write dst len
      if copy then sluRange s .read src len else .ok ()
      let t ← if e = 1 then s.releasing else .ok s
      let c := t.cluster cl
      match sluSlot c with
      | none => waitFor (.slot cl)
      | some n =>
        if s.earlier (.slot cl) then waitFor (.slot cl)
        else
          let k : Slu := ⟨c.sluSeq, if len = 0 then .done else .queued, if copy then none else some src, dst, src, len, 0,
            f == 1, s.rank, s.me.lid, s.who.asid, s.me.user, c.sluOrder, s.devsOf s.me.lid⟩
          let t1 := t.modCluster cl fun c =>
            { c with slu := alSet c.slu n k, sluSeq := (c.sluSeq + 1) % 65536, sluOrder := c.sluOrder + 1 }
          .ok (t1.done 8 { srcs := [a, b], writes := [(d.toNat, sluTag cl c.sluSeq n)] }))
/-- SLU.COPY (R217, R218). -/
def execSluCopy (d a b : BitVec 5) (f e : BitVec 1) (s : State) : Host.Outcome State Fault Refusal := sluIssue d a b f e true s
/-- SLU.FILL (R217, R218). -/
def execSluFill (d a b : BitVec 5) (f e : BitVec 1) (s : State) : Host.Outcome State Fault Refusal := sluIssue d a b f e false s

/-- The command a tag names, unless it reads STALE (R219). -/
def sluFind (s : State) (tag : Word) : Option (Nat × Nat × Slu) :=
  let cl := fld tag 22 10
  let slot := fld tag 0 6
  if !zeroBits tag 32 32 ∨ 576 ≤ cl then none
  else match alGet (s.cluster cl).slu slot with
    | some k => if k.seq = fld tag 6 16 then some (cl, slot, k) else none
    | none => none
def sluCode : SluSt → Nat
  | .queued => 0 | .running => 1 | .done => 2 | .cancelled => 3 | .fault => 4 | .paused => 5
def sluWord (k : Slu) : Word := w64 (k.cursor * 2 ^ 32 + sluCode k.st)
def clusterHops (a b : Nat) : Nat := absDiff (a / 24) (b / 24) + absDiff (a % 24) (b % 24)
/-- SLU.STAT (R219): the status is that of the cycle in which the request reaches the sluice. -/
def execSluStat (d a : BitVec 5) (s : State) : Host.Outcome State Fault Refusal :=
  s.finish (do
    s.checkPorts [a] d
    let tag := s.rx a
    let v := match sluFind s tag with | some (_, _, k) => sluWord k | none => 6
    let h := if fld tag 22 10 < 576 then clusterHops (clusterOf s.rank) (fld tag 22 10) else 0
    reaches s (6 + 2 * h)
    .ok (repliesIn s (6 + 2 * h) { srcs := [a], writes := [(d.toNat, v)] }))
/-- SLU.CAN (R219): a QUEUED or RUNNING command stops. -/
def execSluCan (a : BitVec 5) (s : State) : Host.Outcome State Fault Refusal :=
  s.putS [a] fun t =>
    match sluFind s (s.rx a) with
    | some (cl, slot, k) =>
      if k.st = .queued ∨ k.st = .running then
        t.modCluster cl fun c => { c with slu := alSet c.slu slot { k with st := .cancelled } }
      else t
    | none => t

/-- The place of one 8-byte unit of a command's range, whose windows and rank its issue has judged; a global unit that no
access may reach, and a bank that is no SCRATCH, have none (R218, R219). -/
def sluPlace (s : State) (c : Slu) (k : Kind) (va : Word) : State × Option Loc :=
  let cl := clusterOf c.rank
  let win := fld va 48 4
  if win ≤ 12 then
    let t := s.xlate cl ⟨c.rank, c.asid, c.user, c.lid⟩ k va.toNat (some c.devs)
    (t.1, t.2.map fun e => .hbm e.2)
  else if win = 13 then
    (s, if (s.bankOf cl (fld va 17 4)).mode = 1 then some (.basin cl (fld va 0 21)) else none)
  else (s, some (.clm (if win = 14 then c.rank else fld va 17 14) (fld va 0 17)))
/-- Whether a burst of n bytes at va has to wait for a bank that is switching (R172). -/
def sluWaits (s : State) (c : Slu) (va : Word) (n : Nat) : Bool :=
  let busy (a : Word) : Bool := (s.bankOf (clusterOf c.rank) (fld a 17 4)).next.isSome
  fld va 48 4 == 13 && (busy va || busy (va + w64 (n - 1)))
/-- Whether core r's engines find another core at an address for which messages are held (R266). -/
def heldPlace (s : State) (r : Nat) (va : Word) : Option Nat :=
  let far := fld va 17 14
  if fld va 48 4 = 15 ∧ far ≠ r ∧ (s.rankHeld far ∨ s.held.any fun e => e.1 == far) then some far else none
/-- Every unit of a burst read in full, with its poison (R218). -/
def sluRead (s : State) (c : Slu) (va : Word) : Nat → State × Option (List (Nat × Bool))
  | 0 => (s, some [])
  | n + 1 => match sluRead s c va n with
    | (t, none) => (t, none)
    | (t, some l) => match c.fillW with
      | some w => (t, some (l ++ [(w.toNat, false)]))
      | none =>
        let p := sluPlace t c .read (va + w64 (8 * n))
        (p.1, p.2.map fun e => l ++ [(p.1.readN e 8, p.1.poisoned e)])
/-- The places a burst writes; none when one faults, and then the burst writes nothing. -/
def sluDests (s : State) (c : Slu) (va : Word) : Nat → State × Option (List Loc)
  | 0 => (s, some [])
  | n + 1 => match sluDests s c va n with
    | (t, none) => (t, none)
    | (t, some l) =>
      let p := sluPlace t c .write (va + w64 (8 * n))
      (p.1, p.2.map fun e => l ++ [e])
def sluWrite (fe : Bool) (t : State) (e : Loc × Nat × Bool) : State :=
  let t1 := (t.storeAt e.1 8 e.2.1).setPoison e.1 e.2.2
  match e.1 with
  | .hbm _ => t1
  | _ => if fe then t1.setFull e.1 true else t1

/-- The poisoned units a burst has copied are counted, and logged (R218, R341). -/
def sluPoison (c : Slu) (va : Word) : List (Nat × Bool) → Nat → State → State
  | [], _, s => s
  | e :: l, i, s => sluPoison c va l (i + 1)
      (if e.2 then s.countPoison c.rank c.lid (match (sluPlace s c .read (va + w64 (8 * i))).2 with | some p => p.addr | none => 0) else s)

/-- The command the sluice runs next: its running one, or the first in queue order (R218). -/
def sluNext (s : State) (cl : Nat) : Option (Nat × Slu) :=
  let l := (s.cluster cl).slu
  match l.find? fun e => e.2.st == .running with
  | some e => some e
  | none => minBy (fun e => e.2.order) (l.filter fun e => e.2.st == .queued)
/-- The bytes of a command's next burst. -/
def sluBytes (c : Slu) : Nat := Nat.min 1024 (c.len - c.cursor)
/-- The core at which the next burst of a cluster's sluice finds its messages held: where it writes, or where it reads. There it
joins what is held for that core (R266). -/
def sluHeld (s : State) (cl : Nat) : Option Nat :=
  match sluNext s cl with
  | some (_, c) => (heldPlace s c.rank (c.dst + w64 c.cursor)).or (if c.fillW.isSome then none else heldPlace s c.rank (c.src + w64 c.cursor))
  | none => none
/-- The cluster of a message that is a burst of its sluice. -/
def burstOf (i : Instr) : Option Nat := match i with | .sluiceBurst c => some c | _ => none
/-- Whether the sluice runs a burst now. One that stands among the messages held for a core goes on in their order. -/
def sluDue (s : State) (cl : Nat) : Bool :=
  decide ((s.cluster cl).sluAt ≤ s.cycle) && !(s.held.any fun e => burstOf e.2 == some cl) && (match sluNext s cl with
    | some (_, c) => !(sluWaits s c (c.dst + w64 c.cursor) (sluBytes c)) &&
        (c.fillW.isSome || !(sluWaits s c (c.src + w64 c.cursor) (sluBytes c)))
    | none => false)
/-- SLUICE_BURST (R218): up to 1 KiB, in increasing address order; a page fault stops the command before the burst. -/
def execSluiceBurst (cl : Nat) (s : State) : Host.Outcome State Fault Refusal :=
  if !sluDue s cl then .next s
  else match sluNext s cl with
    | none => .next s
    | some (slot, c) =>
      let n := sluBytes c
      let put (t : State) (k : Slu) : State :=
        t.modCluster cl fun x => { x with slu := alSet x.slu slot k, sluAt := s.cycle + (n + 31) / 32 }
      match sluRead s c (c.src + w64 c.cursor) (n / 8) with
      | (t, none) => .next (put t { c with st := .fault })
      | (t, some vs) => match sluDests t c (c.dst + w64 c.cursor) (n / 8) with
        | (u, none) => .next (put u { c with st := .fault })
        | (u, some ps) =>
          let u1 := (ps.zip vs).foldl (sluWrite c.fe) u
          let u2 := sluPoison c (c.src + w64 c.cursor) vs 0 u1
          let cur := c.cursor + n
          .next (put u2 { c with cursor := cur, st := if cur = c.len then .done else .running })

end Sys2Proof.Machine
end

