-- ==== Sys2Proof/Machine/Frames.lean ====
section
/-!
DEFINITION. Frame records in CLM (R155 to R157), their counts, and a barge's exit (R204).
-/
namespace Sys2Proof.Machine
open State

/-- The record a handle names; its home. -/
def frec (h : Nat) : Loc := .clm (h / 131072) (h % 131072)
def frank (h : Nat) : Nat := h / 131072
def recHandle (r i : Nat) : Nat := r * 131072 + 0x6000 + 32 * i

namespace State
/-- A field of n bytes at an offset of a record (R155), read and written by the home's network interface. -/
def fget (s : State) (h off n : Nat) : Nat := s.readN ((frec h).plus off) n
def fset (s : State) (h off n v : Nat) : State := s.writeN ((frec h).plus off) n v
def fflag (s : State) (h i : Nat) : Bool := s.fget h 4 4 / 2 ^ i % 2 == 1
def fmark (s : State) (h i : Nat) (v : Bool) : State :=
  s.fset h 4 4 (setBit (BitVec.ofNat 32 (s.fget h 4 4)) i v).toNat
def canc (s : State) (h : Nat) : Bool := s.fflag h 0
def isRange (s : State) (h : Nat) : Bool := s.fflag h 1
def liveRec (s : State) (h : Nat) : Bool := s.fflag h 3
/-- Record i of core r is the second half of a live range frame. -/
def secondHalf (s : State) (r i : Nat) : Bool :=
  i % 2 == 1 && s.liveRec (recHandle r (i - 1)) && s.isRange (recHandle r (i - 1))
def recFree (s : State) (r i : Nat) : Bool := !s.liveRec (recHandle r i) && !s.secondHalf r i
/-- The lowest free record of core r; a range frame takes an aligned pair. -/
def freeRec (s : State) (r : Nat) (range : Bool) : Option Nat :=
  (upTo 256).find? fun i => s.recFree r i && (!range || (i % 2 == 0 && s.recFree r (i + 1)))
/-- The first of some cores that has a free record, and that record's handle. -/
def firstRec (s : State) (range : Bool) (l : List Nat) : Option Nat :=
  l.findSome? fun r => (s.freeRec r range).map (recHandle r)
/-- R156: the executing core, then the cores after it in B-ring order that lie in the rectangle. -/
def homeRec (s : State) (range : Bool) : Option Nat :=
  s.firstRec range (s.rank :: (ringAfter s.rank).filter fun r => r != s.rank && s.inRect s.me.lid r)
/-- A new record: LIVE, JOIN 0, and the rest from the barge (R155, R156). -/
def newRec (s : State) (h : Nat) (range : Bool) (pfh : Nat) : State :=
  let b := s.me.header
  let s1 := s.writeN (frec h) (if range then 64 else 32) 0
  (((s1.fset h 4 4 (if range then 10 else 8)).fset h 8 4 pfh).fset h 12 2 b.lid.toNat).fset h 14 1 b.pri.toNat
/-- A record falls free; its bytes are zero from then on (log 63). -/
def freeFrame (s : State) (h : Nat) : State :=
  let s1 := s.writeN (frec h) (if s.isRange h then 64 else 32) 0
  s1.modCore (frank h) fun c => { c with orphans := nsDel c.orphans h }

/-- The decrement of a frame's count leaves for its home `back` cycles from now: its arrival there (R157, R163). -/
def sendDecrement (s : State) (r lid h back : Nat) : State :=
  if h = 0 then s
  else (s.incSent r lid).later (back + if frank h = r then 0 else 2 * hops r (frank h) + 9) (.frameDecrement ⟨BitVec.ofNat 32 h, r⟩)
/-- A child's exit counts at its parent: a release of its core, then the decrement once that has ended (R157, R179). -/
def childExits (s : State) (r lid pfh after : Nat) : State :=
  if pfh = 0 then s
  else
    ((s.release r).incSent r lid).afterRelease r after (if frank pfh = r then 0 else 2 * hops r (frank pfh) + 9)
      (.frameDecrement ⟨BitVec.ofNat 32 pfh, r⟩)

/-- A count reaches 0 at a frame: a parked continuation is resumed (R158), a frame whose owner has exited is freed. -/
def joinZero (s : State) (h : Nat) : State :=
  let r := frank h
  if s.fflag h 2 then
    let cont := s.fget h 16 8
    let dest := cont / 2 ^ 32 % 16384
    ((s.fmark h 2 false).incSent r (s.fget h 12 2)).later (2 * hops r dest + 9) (.resumeMessage dest (cont % 2 ^ 32) ⟨s.fget h 12 2, r⟩)
  else if (s.core r).orphans.contains h then s.freeFrame h
  else s
/-- One decrement at the home (R157): JOIN, or LIVEW of a range frame, whose last worker counts for its parent (R160). -/
def decFrame (s : State) (h : Nat) : State :=
  if !s.liveRec h then s
  else if s.isRange h then
    let n := s.fget h 54 2 - 1
    let s1 := s.fset h 54 2 n
    if n = 0 then (s1.sendDecrement (frank h) (s.fget h 12 2) (s.fget h 8 4) 0).freeFrame h else s1
  else
    let n := s.fget h 0 4 - 1
    let s1 := s.fset h 0 4 n
    if n = 0 then s1.joinZero h else s1

/-- Accumulators of the berth become release-pending, its channels are freed, notice given, and so is its
borrowed file, EMPTY after `now` (R127, R204, R211). -/
def letGo (s : State) (rel : State → Nat → Nat → State) (fp : State → Nat → Nat → Nat → State) (r b now : Nat) : State :=
  let s1 := iter (fun n t => let a := (t.core r).acc n; if a.owner = some b ∧ !a.relp then rel t r n else t) 8 s
  (iter (fun p t => fp t r b p) 8 s1).giveBack r b now

/-- Whether the repetition buffer holds a block of the berth (R53, R95). -/
def inBuffer (s : State) (r b : Nat) : Bool := match (s.core r).buffer with | some q => q.owner == b | none => false

/-- A frame whose owner exits: freed when JOIN is 0, else at the decrement that brings it there (R156). -/
def ownerExits (s : State) (h : Nat) : State :=
  if h = 0 then s
  else if s.fget h 0 4 = 0 then s.freeFrame h
  else s.modCore (frank h) fun c => { c with orphans := nsAdd c.orphans h }

/-- Whether the barge's parent frame is cancelled (R162). -/
def cancelled (s : State) : Bool := let h := s.me.header; h.cl && h.pfh != 0 && s.canc h.pfh.toNat

end State

/-- FRAME_INCREMENT (R157): an increment that would pass the top waits for a decrement; the spawner's berth gets the
acknowledgement and finishes its spawn. -/
def execFrameIncrement (h : BitVec 32) (r b : Nat) (s : State) : Host.Outcome State Fault Refusal :=
  let n := s.fget h.toNat 0 4
  if n = 0xFFFFFFFF then .next (s.later 1 (.frameIncrement h r b))
  else
    let s1 := (s.fset h.toNat 0 4 (n + 1)).incRecv (frank h.toNat) (s.fget h.toNat 12 2)
    .next (s1.reply r b { again := true } (2 * hops (frank h.toNat) r + 9))
/-- FRAME_DECREMENT (R157, R160). -/
def execFrameDecrement (h : Sent (BitVec 32)) (s : State) : Host.Outcome State Fault Refusal :=
  let h := h.val.toNat
  .next ((s.incRecv (frank h) (s.fget h 12 2)).decFrame h)

/-- RESUME_MESSAGE (R158): the slot is freed and the continuation enqueued. One whose parent is cancelled exits at this
resumption: it sets CANC in its own frame, which has no child left, and decrements its parent (R162). -/
def execResumeMessage (r slot : Nat) (lid : Sent Nat) (s : State) : Host.Outcome State Fault Refusal :=
  let lid := lid.val
  let s1 := s.incRecv r lid
  match s.launch lid with
  | none => .next s1
  | some l => match l.parked.find? fun e => e.1 == r && e.2.1 == slot with
    | none => .next s1
    | some (_, _, pk) =>
      let s2 := s1.modLaunch lid fun l => { l with parked := l.parked.filter fun e => !(e.1 == r && e.2.1 == slot) }
      if pk.hdr.cl && pk.hdr.pfh != 0 && s2.canc pk.hdr.pfh.toNat then
        .next (((s2.childExits r lid pk.hdr.pfh.toNat 0).ownerExits (pk.fr.toNat % 2 ^ 32)).decLive r lid)
      else .next (s2.enqueue r pk none)

end Sys2Proof.Machine
end

