-- ==== Sys2Proof/Machine/Vector.lean ====
section
/-!
DEFINITION. The vector instructions (R102 to R121): every one but DTAB.LD moors the barge, computes on the lanes that P
makes active, and accrues the active lanes' flags.
-/
namespace Sys2Proof.Machine
open State

/-- A vector result: destination, flags, mooring, and the next instruction. -/
def putV (s : State) (d : BitVec 4) (v : VReg) (fl : Flags := 0) : Host.Outcome State Fault Refusal :=
  s.finish (.ok (((s.wv d v).flag fl).moor.next))
/-- Lane results with flags under the mask (R102, R103). -/
def mapLanes (s : State) (d : BitVec 4) (m : BitVec 1) (r : Nat → W32 × Flags) : Host.Outcome State Fault Refusal :=
  putV s d (masked s.me.p m (s.rv d) fun i => (r i).1) (orFlags s.me.p m (fun i => (r i).2) 32)
/-- A two-source lane operation. -/
def lanes2 (s : State) (d a b : BitVec 4) (m : BitVec 1) (f : W32 → W32 → W32 × Flags) : Host.Outcome State Fault Refusal :=
  mapLanes s d m fun i => f (lane (s.rv a) i) (lane (s.rv b) i)
def lanes1 (s : State) (d a : BitVec 4) (m : BitVec 1) (f : W32 → W32 × Flags) : Host.Outcome State Fault Refusal :=
  mapLanes s d m fun i => f (lane (s.rv a) i)
def lanes3 (s : State) (d a b c : BitVec 4) (m : BitVec 1) (f : W32 → W32 → W32 → W32 × Flags) :
    Host.Outcome State Fault Refusal :=
  mapLanes s d m fun i => f (lane (s.rv a) i) (lane (s.rv b) i) (lane (s.rv c) i)
/-- Integer lanes raise no flag (R112). -/
def ilanes (s : State) (d a b : BitVec 4) (m : BitVec 1) (f : W32 → W32 → W32) : Host.Outcome State Fault Refusal :=
  lanes2 s d a b m fun x y => (f x y, 0)

/-! ### Loads and stores (R104 to R108) -/

/-- The access of one lane: the state, what was loaded, whether that was poisoned, and the latency. -/
abbrev LaneOp := State → Nat → Run (State × Nat × Bool × Nat)
/-- The accesses of those of lanes 0 to n - 1 that are chosen, in lane order, so that of two stores to one byte the higher
lane's remains (R106): the state, the packed values, the poisoned lanes, and the slowest latency. -/
def eachLane (f : LaneOp) (s : State) (act : Nat → Bool) : Nat → Run (State × Nat × Nat × Nat)
  | 0 => .ok (s, 0, 0, 8)
  | n + 1 => do
    let (t, v, p, l) ← eachLane f s act n
    if act n then do
      let (t', x, q, l') ← f t n
      .ok (t', v + x * 2 ^ (32 * n), p + (if q then 2 ^ n else 0), max l l')
    else .ok (t, v, p, l)
/-- Each an aligned 4-byte access, whose request stands at its home. -/
def loadLane (addr : Nat → Word) : LaneOp := fun t i => t.load (addr i) 4 4 false true
def storeLane (addr : Nat → Word) (v : VReg) : LaneOp := fun t i => do
  let (u, l) ← t.store (addr i) 4 4 (lane v i).toNat false true
  .ok (u, 0, false, l)
/-- The home of a lane: another core of the launch's rectangle, or the executing one. -/
def laneHome (s : State) (va : Word) : Nat :=
  if fld va 48 16 = 15 ∧ zeroBits va 31 17 ∧ fld va 17 14 < 9216 ∧ s.inRect s.me.lid (fld va 17 14) then fld va 17 14 else s.rank
/-- The cycle in which a lane's access stands at its home (R169, log 26). -/
def laneDue (s : State) (since : Nat) (va : Word) : Nat :=
  if laneHome s va = s.rank then since else since + 5 + 2 * hops s.rank (laneHome s va)
/-- The lanes of a gather or scatter: all are checked before any is performed (R107); then each is performed when it stands at
its home, those of one home together (R106, R169), and the instruction waits for the next ones. -/
def lanesRun (f : LaneOp) (s : State) (addr : Nat → Word) (act : Nat → Bool) (n : Nat) (leave : State → State) :
    Run (State × Nat × Nat × Nat) :=
  let past := s.issued.lanes.getD ⟨s.cycle, 0, 0, 0, 0⟩
  let left (i : Nat) : Bool := act i && past.done / 2 ^ i % 2 == 0
  let due (i : Nat) : Bool := left i && decide (laneDue s past.since (addr i) ≤ s.cycle)
  let now (i : Nat) : Bool := due i && (laneHome s (addr i) == s.rank || !s.rankHeld (laneHome s (addr i)))
  let rest := (upTo n).filter fun i => left i && !now i
  do
  let _ ← if s.issued.lanes.isNone then eachLane f s act n else .ok (s, 0, 0, 0)
  let (t, v, p, lat) ← eachLane f s now n
  if rest.isEmpty then
    .ok (t, past.vals + v, past.pois + p, if s.issued.lanes.isNone then lat else max lat (8 + (past.till - t.startAt)))
  else
    let y : Why := match rest.find? due with
      | some i => .held (laneHome s (addr i))
      | none => .remote ((rest.map fun i => laneDue s past.since (addr i)).foldl Nat.min (laneDue s past.since (addr (rest.headD 0))))
    let l : Lanes :=
      { since := past.since
        done := past.done + (upTo n).foldl (fun m i => m + (if now i then 2 ^ i else 0)) 0
        vals := past.vals + v
        pois := past.pois + p
        till := max past.till (s.readyAfter lat) }
    gone (((leave t).block y).noteIssued fun e => { e with lanes := some l })
/-- The lowest set bit's index. -/
def firstBit (p : Nat) : Nat → Nat → Nat
  | 0, i => i
  | f + 1, i => if p / 2 ^ i % 2 = 1 then i else firstBit p f (i + 1)
/-- The 8-byte unit of an address, one for both names of a unit of the own CLM (R166). -/
def unitOf (s : State) (va : Word) : Nat :=
  (if fld va 48 16 = 15 ∧ fld va 17 14 = s.rank then 14 * 2 ^ 48 + fld va 0 17 else va.toNat) / 8
/-- The first lanes of the distinct units of the poisoned lanes among lanes 0 to n - 1 (R341). -/
def poisonUnits (s : State) (addr : Nat → Word) (p : Nat) : Nat → List Nat
  | 0 => []
  | n + 1 =>
    let l := poisonUnits s addr p n
    if p / 2 ^ n % 2 = 1 ∧ !(l.any fun i => unitOf s (addr i) == unitOf s (addr n)) then l ++ [n] else l
/-- Poisoned lanes trap at the first, TVAL holding that lane's address as R107 says (log 65), or read as the canonical NaN, and
each unit counts once (R107, R341). -/
def settleLanes (s : State) (addr : Nat → Word) (v p : Nat) (dflt : W32) : Run (State × (Nat → W32)) :=
  let get : Nat → W32 := fun i => BitVec.ofNat 32 (v / 2 ^ (32 * i))
  if p = 0 then .ok (s, get)
  else if s.me.pte then stop .poison (addr (firstBit p 256 0))
  else .ok ((poisonUnits s addr p 256).foldl (fun t i => t.consume (addr i)) s,
    fun i => if p / 2 ^ i % 2 = 1 then dflt else get i)
/-- VLD (R104): one 128-byte sector; the poison of each lane by R107. -/
def execVld (d : BitVec 4) (a : BitVec 5) (im : BitVec 15) (s : State) : Host.Outcome State Fault Refusal :=
  s.finishMoored (do
    s.checkIns [a]
    let va := s.rx a + immS im
    let addr : Nat → Word := fun i => va + w64 (4 * i)
    let (t, v, p, lat) ← s.load va 128 128 false
    if p then do
      let (t, v, p, _) ← eachLane (loadLane addr) t (fun _ => true) 32
      let (t, g) ← settleLanes t addr v p qnan32
      .ok (t.moor.done lat { srcs := [a], vw := some (d.toNat, ofLanes g) })
    else .ok (t.moor.done lat { srcs := [a], vw := some (d.toNat, BitVec.ofNat 1024 v) }))

/-- VST (R104): one 128-byte sector. -/
def execVst (b : BitVec 4) (a : BitVec 5) (im : BitVec 15) (s : State) : Host.Outcome State Fault Refusal :=
  s.finishMoored (do
    s.checkIns [a]
    let (t, lat) ← s.store (s.rx a + immS im) 128 128 (s.rv b).toNat false
    .ok (t.moor.done lat { srcs := [a] }))

/-- The shared strided and gathered load. -/
def gather (s : State) (d : BitVec 4) (srcs : List (BitVec 5)) (m : BitVec 1) (addr : Nat → Word) (base : Nat) :
    Host.Outcome State Fault Refusal :=
  s.finishMoored (do
    s.checkIns srcs
    let (t, v, p, lat) ← lanesRun (loadLane addr) s addr (active s.me.p m) 32 State.moor
    let (t, g) ← settleLanes t addr v p qnan32
    .ok (t.moor.done (max base lat) { srcs := srcs, vw := some (d.toNat, masked s.me.p m (s.rv d) g) }))
def scatter (s : State) (d : BitVec 4) (srcs : List (BitVec 5)) (m : BitVec 1) (addr : Nat → Word) (base : Nat) :
    Host.Outcome State Fault Refusal :=
  s.finishMoored (do
    s.checkIns srcs
    let (t, _, _, lat) ← lanesRun (storeLane addr (s.rv d)) s addr (active s.me.p m) 32 State.moor
    .ok (t.moor.done (max base lat) { srcs := srcs }))
/-- Lane addresses: a stride from x[b] (R105), or signed 32-bit offsets from vb (R106). -/
def strideAddr (s : State) (a b : BitVec 5) (i : Nat) : Word := s.rx a + w64 i * s.rx b
def indexAddr (s : State) (a : BitVec 5) (b : BitVec 4) (i : Nat) : Word := s.rx a + (lane (s.rv b) i).signExtend 64

/-- VLDS (R105). -/
def execVlds (d : BitVec 4) (a b : BitVec 5) (m : BitVec 1) (s : State) : Host.Outcome State Fault Refusal :=
  gather s d [a, b] m (strideAddr s a b) 8
/-- VSTS (R105). -/
def execVsts (d : BitVec 4) (a b : BitVec 5) (m : BitVec 1) (s : State) : Host.Outcome State Fault Refusal :=
  scatter s d [a, b] m (strideAddr s a b) 8
/-- VLDX (R106). -/
def execVldx (d : BitVec 4) (a : BitVec 5) (b : BitVec 4) (m : BitVec 1) (s : State) : Host.Outcome State Fault Refusal :=
  gather s d [a] m (indexAddr s a b) 16
/-- VSTX (R106). -/
def execVstx (d : BitVec 4) (a : BitVec 5) (b : BitVec 4) (m : BitVec 1) (s : State) : Host.Outcome State Fault Refusal :=
  scatter s d [a] m (indexAddr s a b) 16

/-! ### Moves (R109) -/

/-- VBCAST (R109). -/
def execVbcast (d : BitVec 4) (a : BitVec 5) (s : State) : Host.Outcome State Fault Refusal :=
  s.finishMoored (match s.checkIns [a] with
    | .ok _ => .ok (s.moor.done 8 { srcs := [a], vw := some (d.toNat, ofLanes fun _ => (s.rx a).extractLsb' 0 32) })
    | .error e => .error e)
/-- VEXTR (R109). -/
def execVextr (d : BitVec 5) (a : BitVec 4) (n : BitVec 5) (s : State) : Host.Outcome State Fault Refusal :=
  s.finishMoored (match s.checkOut d with
    | .ok _ => .ok (s.moor.done 8 { writes := [(d.toNat, (lane (s.rv a) n.toNat).signExtend 64)] })
    | .error e => .error e)

/-! ### Lane arithmetic (R110 to R112) -/

/-- VADD (R110). -/
def execVadd (d a b : BitVec 4) (m : BitVec 1) (s : State) : Host.Outcome State Fault Refusal := lanes2 s d a b m (fAdd s.env)
/-- VSUB (R110). -/
def execVsub (d a b : BitVec 4) (m : BitVec 1) (s : State) : Host.Outcome State Fault Refusal := lanes2 s d a b m (fSub s.env)
/-- VMUL (R110). -/
def execVmul (d a b : BitVec 4) (m : BitVec 1) (s : State) : Host.Outcome State Fault Refusal := lanes2 s d a b m (fMul s.env)
/-- VMIN (R110). -/
def execVmin (d a b : BitVec 4) (m : BitVec 1) (s : State) : Host.Outcome State Fault Refusal := lanes2 s d a b m (fMinMax false)
/-- VMAX (R110). -/
def execVmax (d a b : BitVec 4) (m : BitVec 1) (s : State) : Host.Outcome State Fault Refusal := lanes2 s d a b m (fMinMax true)
/-- VFMA (R110). -/
def execVfma (d a b c : BitVec 4) (m : BitVec 1) (s : State) : Host.Outcome State Fault Refusal := lanes3 s d a b c m (fFma s.env)
/-- VFMS (R110). -/
def execVfms (d a b c : BitVec 4) (m : BitVec 1) (s : State) : Host.Outcome State Fault Refusal := lanes3 s d a b c m (fFms s.env)
/-- VABS (R110, R111). -/
def execVabs (d a : BitVec 4) (m : BitVec 1) (s : State) : Host.Outcome State Fault Refusal := lanes1 s d a m (fAbs)
/-- VRCP (R110, R111). -/
def execVrcp (d a : BitVec 4) (m : BitVec 1) (s : State) : Host.Outcome State Fault Refusal := lanes1 s d a m (fRcp s.env)
/-- VRSQ (R110, R111). -/
def execVrsq (d a : BitVec 4) (m : BitVec 1) (s : State) : Host.Outcome State Fault Refusal := lanes1 s d a m (fRsq s.env)
/-- VEXP2 (R110, R111). -/
def execVexp2 (d a : BitVec 4) (m : BitVec 1) (s : State) : Host.Outcome State Fault Refusal := lanes1 s d a m (fExp2 s.env)
/-- VLOG2 (R110, R111). -/
def execVlog2 (d a : BitVec 4) (m : BitVec 1) (s : State) : Host.Outcome State Fault Refusal := lanes1 s d a m (fLog2 s.env)
/-- VIADD (R112). -/
def execViadd (d a b : BitVec 4) (m : BitVec 1) (s : State) : Host.Outcome State Fault Refusal := ilanes s d a b m (fun x y => x + y)
/-- VISUB (R112). -/
def execVisub (d a b : BitVec 4) (m : BitVec 1) (s : State) : Host.Outcome State Fault Refusal := ilanes s d a b m (fun x y => x - y)
/-- VIMUL (R112). -/
def execVimul (d a b : BitVec 4) (m : BitVec 1) (s : State) : Host.Outcome State Fault Refusal := ilanes s d a b m (fun x y => x * y)
/-- VAND (R112). -/
def execVand (d a b : BitVec 4) (m : BitVec 1) (s : State) : Host.Outcome State Fault Refusal := ilanes s d a b m (fun x y => x &&& y)
/-- VOR (R112). -/
def execVor (d a b : BitVec 4) (m : BitVec 1) (s : State) : Host.Outcome State Fault Refusal := ilanes s d a b m (fun x y => x ||| y)
/-- VXOR (R112). -/
def execVxor (d a b : BitVec 4) (m : BitVec 1) (s : State) : Host.Outcome State Fault Refusal := ilanes s d a b m (fun x y => x ^^^ y)
/-- VSLL (R112). -/
def execVsll (d a b : BitVec 4) (m : BitVec 1) (s : State) : Host.Outcome State Fault Refusal := ilanes s d a b m (fun x y => x <<< fld y 0 5)
/-- VSRL (R112). -/
def execVsrl (d a b : BitVec 4) (m : BitVec 1) (s : State) : Host.Outcome State Fault Refusal := ilanes s d a b m (fun x y => x >>> fld y 0 5)
/-- VSRA (R112). -/
def execVsra (d a b : BitVec 4) (m : BitVec 1) (s : State) : Host.Outcome State Fault Refusal := ilanes s d a b m (fun x y => x.sshiftRight (fld y 0 5))

/-! ### Compares (R113) -/

/-- The predicate word after a lane compare: active lanes 1 to 31 take their results, p0 stays. -/
def cmpBits (p : W32) (m : BitVec 1) (f : Nat → Bool) : Nat → W32
  | 0 => p
  | n + 1 => let q := cmpBits p m f n
    if n ≠ 0 ∧ active p m n then setBit q n (f n) else q
def vcompare (s : State) (a b : BitVec 4) (m : BitVec 1) (f : W32 → W32 → Bool × Flags) : Host.Outcome State Fault Refusal :=
  let r : Nat → Bool × Flags := fun i => f (lane (s.rv a) i) (lane (s.rv b) i)
  s.finish (.ok (((s.modMe fun t => { t with p := cmpBits t.p m (fun i => (r i).1) 32 }).flag
    (orFlags s.me.p m (fun i => (r i).2) 32)).moor.next))

/-- VCMP.EQ (R113). -/
def execVcmpEq (a b : BitVec 4) (m : BitVec 1) (s : State) : Host.Outcome State Fault Refusal := vcompare s a b m (fun x y => (x == y, 0))
/-- VCMP.NE (R113). -/
def execVcmpNe (a b : BitVec 4) (m : BitVec 1) (s : State) : Host.Outcome State Fault Refusal := vcompare s a b m (fun x y => (x != y, 0))
/-- VCMP.LT (R113). -/
def execVcmpLt (a b : BitVec 4) (m : BitVec 1) (s : State) : Host.Outcome State Fault Refusal := vcompare s a b m (fun x y => (x.slt y, 0))
/-- VCMP.LTU (R113). -/
def execVcmpLtu (a b : BitVec 4) (m : BitVec 1) (s : State) : Host.Outcome State Fault Refusal := vcompare s a b m (fun x y => (x.ult y, 0))
/-- VCMP.GE (R113). -/
def execVcmpGe (a b : BitVec 4) (m : BitVec 1) (s : State) : Host.Outcome State Fault Refusal := vcompare s a b m (fun x y => (!(x.slt y), 0))
/-- VCMP.GEU (R113). -/
def execVcmpGeu (a b : BitVec 4) (m : BitVec 1) (s : State) : Host.Outcome State Fault Refusal := vcompare s a b m (fun x y => (!(x.ult y), 0))
/-- VCMP.FEQ (R113, R90). -/
def execVcmpFeq (a b : BitVec 4) (m : BitVec 1) (s : State) : Host.Outcome State Fault Refusal := vcompare s a b m fCmpEq
/-- VCMP.FLT (R113, R90). -/
def execVcmpFlt (a b : BitVec 4) (m : BitVec 1) (s : State) : Host.Outcome State Fault Refusal := vcompare s a b m fCmpLt
/-- VCMP.FLE (R113, R90). -/
def execVcmpFle (a b : BitVec 4) (m : BitVec 1) (s : State) : Host.Outcome State Fault Refusal := vcompare s a b m fCmpLe
/-- VCMP.FUN (R113, R90). -/
def execVcmpFun (a b : BitVec 4) (m : BitVec 1) (s : State) : Host.Outcome State Fault Refusal := vcompare s a b m fCmpUn

/-! ### Selection (R114) -/

/-- VSEL (R114): lane 0 takes va. -/
def execVsel (d a b : BitVec 4) (s : State) : Host.Outcome State Fault Refusal :=
  putV s d (ofLanes fun i => if i == 0 || s.me.p.getLsbD i then lane (s.rv a) i else lane (s.rv b) i)
/-- VSHUF (R114). -/
def execVshuf (d a b : BitVec 4) (m : BitVec 1) (s : State) : Host.Outcome State Fault Refusal :=
  mapLanes s d m fun i => (lane (s.rv a) (fld (lane (s.rv b) i) 0 5), 0)
/-- VSLIDE.UP (R114). -/
def execVslideUp (d a b : BitVec 4) (m : BitVec 1) (n : BitVec 5) (s : State) : Host.Outcome State Fault Refusal :=
  mapLanes s d m fun i => (if n.toNat ≤ i then lane (s.rv a) (i - n.toNat) else lane (s.rv b) (i + 32 - n.toNat), 0)
/-- VSLIDE.DN (R114). -/
def execVslideDn (d a b : BitVec 4) (m : BitVec 1) (n : BitVec 5) (s : State) : Host.Outcome State Fault Refusal :=
  mapLanes s d m fun i => (if i + n.toNat < 32 then lane (s.rv a) (i + n.toNat) else lane (s.rv b) (i + n.toNat - 32), 0)

/-! ### Conversions and codes (R115 to R117) -/

namespace State
/-- The launch's seed (R262); a barge of no live launch has the seed 0, which no rule gives (DESIGN CHOICE, log 13). -/
def seed (s : State) : Word := match s.launch s.me.lid with | some l => l.seed | none => 0
end State

/-- VCVT.I32.F (R115, R67). -/
def execVcvtI32F (d a : BitVec 4) (m : BitVec 1) (r : BitVec 3) (s : State) : Host.Outcome State Fault Refusal :=
  lanes1 s d a m fun x => let q := toInt 32 (rmField s.env r.toNat) x; (BitVec.ofInt 32 q.1, q.2)
/-- VCVT.F.I32 (R115). -/
def execVcvtFI32 (d a : BitVec 4) (m : BitVec 1) (r : BitVec 3) (s : State) : Host.Outcome State Fault Refusal :=
  lanes1 s d a m fun x => ofInt { s.env with mode := rmField s.env r.toNat } x.toInt
/-- A narrowing conversion into halfwords 32H + i; the other half of vd stays (R115). SR draws by lane (R68). -/
def narrow (s : State) (f : Fmt) (d a : BitVec 4) (h m : BitVec 1) (r : BitVec 3) : Host.Outcome State Fault Refusal :=
  let q : Nat → Nat × Flags := fun i =>
    convert f (rmField s.env r.toNat) s.env.sat (f32 (lane (s.rv a) i)) (if r = 4 then drawLane s.seed d.toNat i else 0)
  let v := ofPieces 16 (fun j => if j / 32 = h.toNat ∧ active s.me.p m (j % 32) then (q (j % 32)).1 else (vhalf (s.rv d) j).toNat) 64
  putV s d v (orFlags s.me.p m (fun i => (q i).2) 32)
/-- VCVT.BF.F (R115). -/
def execVcvtBfF (d a : BitVec 4) (h m : BitVec 1) (r : BitVec 3) (s : State) : Host.Outcome State Fault Refusal :=
  narrow s bf16 d a h m r
/-- VCVT.HF.F (R115). -/
def execVcvtHfF (d a : BitVec 4) (h m : BitVec 1) (r : BitVec 3) (s : State) : Host.Outcome State Fault Refusal :=
  narrow s fp16 d a h m r
def widenLanes (s : State) (f : Fmt) (d a : BitVec 4) (h m : BitVec 1) : Host.Outcome State Fault Refusal :=
  mapLanes s d m fun i => w32 (widen f (vhalf (s.rv a) (32 * h.toNat + i)).toNat)
/-- VCVT.F.BF (R115). -/
def execVcvtFBf (d a : BitVec 4) (h m : BitVec 1) (s : State) : Host.Outcome State Fault Refusal := widenLanes s bf16 d a h m
/-- VCVT.F.HF (R115). -/
def execVcvtFHf (d a : BitVec 4) (h m : BitVec 1) (s : State) : Host.Outcome State Fault Refusal := widenLanes s fp16 d a h m

/-- The table that an instruction reads: as it stood at its issue, for one that has waited (R61). -/
def issueTable (s : State) (n : Nat) : DTab := if n = 0 then s.issued.t0 else s.issued.t1
/-- The table a VENC reads and when its order is built; one that DTAB.LD has replaced since has its order. -/
def vencTable (s : State) (n : Nat) : DTab × Nat :=
  let c := s.myCore
  let t := issueTable s n
  let now : DTab × Nat := (t, if t = (if n = 0 then c.dt0 else c.dt1) then (if n = 0 then c.sort0 else c.sort1) else 0)
  match s.myWait with
  | some w => (match w.why with | .table t0 till => (t0, till) | _ => now)
  | none => now
/-- VENC of table codes into bytes 32q + i; it waits while the table's order is being built (R61, R63, R116). -/
def encodeTable (s : State) (n : Nat) (d a : BitVec 4) (q : BitVec 2) (m : BitVec 1) :
    Host.Outcome State Fault Refusal :=
  let (t, sort) := vencTable s n
  let r : Nat → Nat × Flags := fun i => venc t (lane (s.rv a) i)
  if s.cycle < sort then s.finishMoored (waitFor (.table t sort))
  else putV s d (ofPieces 8 (fun j => if j / 32 = q.toNat ∧ active s.me.p m (j % 32) then (r (j % 32)).1
      else (vbyte (s.rv d) j).toNat) 128) (orFlags s.me.p m (fun i => (r i).2) 32)
/-- VENC.T0 (R116). -/
def execVencT0 (d a : BitVec 4) (q : BitVec 2) (m : BitVec 1) (s : State) : Host.Outcome State Fault Refusal :=
  encodeTable s 0 d a q m
/-- VENC.T1 (R116). -/
def execVencT1 (d a : BitVec 4) (q : BitVec 2) (m : BitVec 1) (s : State) : Host.Outcome State Fault Refusal :=
  encodeTable s 1 d a q m
/-- VENC.E2 (R116): E2M1 nibbles from byte 16e, rounded under FCSR's mode. -/
def execVencE2 (d a : BitVec 4) (e : BitVec 3) (m : BitVec 1) (s : State) : Host.Outcome State Fault Refusal :=
  let r : Nat → Nat × Flags := fun i => convert e2m1 s.env.mode s.env.sat (f32 (lane (s.rv a) i))
  putV s d (ofPieces 4 (fun j => if j / 32 = e.toNat ∧ active s.me.p m (j % 32) then (r (j % 32)).1
    else (vnib (s.rv d) j).toNat) 256) (orFlags s.me.p m (fun i => (r i).2) 32)
/-- An F19 entry widened to FP32; a NaN entry gives the canonical NaN (R54, R116). -/
def f19Word (e : Nat) : W32 := if (f19.decode e).isNan then qnan32 else BitVec.ofNat 32 (e * 2 ^ 13)
def decodeTable (s : State) (t : DTab) (d a : BitVec 4) (q : BitVec 2) (m : BitVec 1) : Host.Outcome State Fault Refusal :=
  mapLanes s d m fun i => (f19Word (dtabEntry t (vbyte (s.rv a) (32 * q.toNat + i)).toNat), 0)
/-- VDEC.T0 (R116). -/
def execVdecT0 (d a : BitVec 4) (q : BitVec 2) (m : BitVec 1) (s : State) : Host.Outcome State Fault Refusal :=
  decodeTable s (issueTable s 0) d a q m
/-- VDEC.T1 (R116). -/
def execVdecT1 (d a : BitVec 4) (q : BitVec 2) (m : BitVec 1) (s : State) : Host.Outcome State Fault Refusal :=
  decodeTable s (issueTable s 1) d a q m
/-- VDEC.E2 (R116). -/
def execVdecE2 (d a : BitVec 4) (e : BitVec 3) (m : BitVec 1) (s : State) : Host.Outcome State Fault Refusal :=
  mapLanes s d m fun i => w32 (convert fp32 .rne false (e2m1.decode (vnib (s.rv a) (32 * e.toNat + i)).toNat))

/-- A decode table from 256 words: bits [18:0] of each (R60). -/
def tableOf (g : Nat → W32) : DTab := BitVec.ofNat 4864 (piecesNat 19 (fun i => (g i).toNat % 2 ^ 19) 256)
/-- DTAB.LD (R117): it does not moor; the table changes at its write-back; a poisoned word becomes the canonical NaN. Where no
word misses it takes 8 cycles, for which R117 gives no figure (DESIGN CHOICE, log 87). -/
def execDtabLd (t : BitVec 1) (a : BitVec 5) (im : BitVec 15) (s : State) : Host.Outcome State Fault Refusal :=
  s.finish (do
    s.checkIns [a]
    let va := s.rx a + immS im
    let addr : Nat → Word := fun i => va + w64 (4 * i)
    if va.toNat % 128 ≠ 0 then stop .align va
    else do
      let (u, v, p, lat) ← lanesRun (loadLane addr) s addr (fun _ => true) 256 id
      let (u, g) ← settleLanes u addr v p (BitVec.ofNat 32 f19.qnan)
      .ok (u.answered lat { srcs := [a], table := some (t.toNat, tableOf g) }))

/-! ### Reductions and scans (R118, R119) -/

/-- The combine codes of R118, and the identity an inactive lane enters as. -/
def combine (env : FpEnv) (k : Nat) (x y : W32) : W32 × Flags :=
  match k with
  | 0 => fAdd env x y
  | 1 => fMinMax true x y
  | 2 => fMinMax false x y
  | 3 => (x + y, 0)
  | 4 => (if x.slt y then y else x, 0)
  | 5 => (if x.slt y then x else y, 0)
  | 6 => (if x < y then y else x, 0)
  | 7 => (if x < y then x else y, 0)
  | 8 => (x &&& y, 0)
  | 9 => (x ||| y, 0)
  | 10 => (x ^^^ y, 0)
  | _ => fMul env x y
def identity (k : Nat) : W32 :=
  match k with
  | 0 => 0x80000000
  | 1 => 0xFF800000
  | 2 => 0x7F800000
  | 4 => 0x80000000
  | 5 => 0x7FFFFFFF
  | 7 => 0xFFFFFFFF
  | 8 => 0xFFFFFFFF
  | 11 => 0x3F800000
  | _ => 0
def inputLanes (s : State) (a : BitVec 4) (m : BitVec 1) (k : Nat) : List W32 :=
  lanes32.map fun i => if active s.me.p m i then lane (s.rv a) i else identity k
/-- One level of the pairwise tree: adjacent pairs, the lower group on the left (R72). -/
def pairUp (f : W32 → W32 → W32 × Flags) : List W32 → List W32 × Flags
  | x :: y :: l => let r := f x y; let q := pairUp f l; (r.1 :: q.1, r.2 ||| q.2)
  | l => (l, 0)
def treeRed (f : W32 → W32 → W32 × Flags) : Nat → List W32 → W32 × Flags
  | 0, l => (l.headD 0, 0)
  | n + 1, l => let q := pairUp f l; let r := treeRed f n q.1; (r.1, q.2 ||| r.2)
/-- One level of a scan: lanes from 2^l on take the earlier lane's value on the left (R73); with each lane go the flags
of the combines made for it. -/
def scanLevel {α : Type} (f : α → α → α × Flags) (k : Nat) (ys : List (α × Flags)) : List (α × Flags) :=
  ys.take k ++ List.zipWith (fun x y => let r := f x.1 y.1; (r.1, y.2 ||| r.2)) ys (ys.drop k)
def scanAll {α : Type} (f : α → α → α × Flags) : Nat → List α → List (α × Flags)
  | 0, l => l.map fun x => (x, 0)
  | n + 1, l => scanLevel f (2 ^ n) (scanAll f n l)
/-- VRED (R118, R72). Its combines are no lane's, and each raises its flags (log 67). -/
def execVred (d a : BitVec 4) (m : BitVec 1) (k : BitVec 4) (s : State) : Host.Outcome State Fault Refusal :=
  let r := treeRed (combine s.env k.toNat) 5 (inputLanes s a m k.toNat)
  putV s d (ofLanes fun _ => r.1) r.2
/-- VSCAN (R118, R73): the combines made for an inactive lane raise no flag (R102). -/
def execVscan (d a : BitVec 4) (m : BitVec 1) (k : BitVec 4) (s : State) : Host.Outcome State Fault Refusal :=
  let r := scanAll (combine s.env k.toNat) 5 (inputLanes s a m k.toNat)
  putV s d (ofLanes fun i => (r[i]?.getD (0, 0)).1) (orFlags s.me.p m (fun i => (r[i]?.getD (0, 0)).2) 32)
/-- VSCANL's input formats (R119): code, and which of a (0) and b (1). -/
def scanInput (f : Nat) (isB : Bool) (x : W32) : W32 × Flags :=
  let bf := (f = 1 ∧ isB) ∨ f = 2
  let hf := (f = 3 ∧ isB) ∨ f = 4
  if bf then w32 (widen bf16 (fld x 0 16)) else if hf then w32 (widen fp16 (fld x 0 16)) else (x, 0)
/-- VSCANL (R119, R74): an inactive lane raises no flag (R102). -/
def execVscanl (d a b c : BitVec 4) (m : BitVec 1) (f : BitVec 4) (s : State) : Host.Outcome State Fault Refusal :=
  let inp : Nat → (W32 × Flags) × (W32 × Flags) := fun i =>
    if active s.me.p m i then (scanInput f.toNat false (lane (s.rv a) i), scanInput f.toNat true (lane (s.rv b) i))
    else ((0x3F800000, 0), (0x80000000, 0))
  let comb : W32 × W32 → W32 × W32 → (W32 × W32) × Flags := fun p q =>
    let x := fMul s.env q.1 p.1
    let y := fFma s.env q.1 p.2 q.2
    ((x.1, y.1), x.2 ||| y.2)
  let r := scanAll comb 5 (lanes32.map fun i => ((inp i).1.1, (inp i).2.1))
  let at_ : Nat → (W32 × W32) × Flags := fun i => r[i]?.getD ((0, 0), 0)
  let fin : Nat → W32 × Flags := fun i => fFma s.env (at_ i).1.1 (s.rf c) (at_ i).1.2
  let fl := orFlags s.me.p m (fun i => (fin i).2 ||| (at_ i).2 ||| (inp i).1.2 ||| (inp i).2.2) 32
  s.finish (.ok ((((s.wv d (ofLanes fun i => (fin i).1)).wf (c + 1) (at_ 31).1.1).flag fl).moor.next))

/-! ### The block dot product (R120) -/

/-- One block of 32 products into f[d], always RNE, without flags. -/
def blockDot (s : State) (d sc : BitVec 4) (ps : List (FVal × FVal)) : Host.Outcome State Fault Refusal :=
  let scale : BitVec 4 → FVal := fun r => s20.decode (fld (s.rf r) 0 20)
  s.finish (.ok ((s.wf d (accumulate false (s.rf d) (blockTS ps (scale sc) (scale (sc + 1))))).moor.next))
/-- VDOTB.X8 (R120): T0 for va, T1 for vb. -/
def execVdotbX8 (d a b sc : BitVec 4) (q : BitVec 2) (s : State) : Host.Outcome State Fault Refusal :=
  blockDot s d sc (lanes32.map fun i =>
    (dtabVal (issueTable s 0) (vbyte (s.rv a) (32 * q.toNat + i)).toNat, dtabVal (issueTable s 1) (vbyte (s.rv b) (32 * q.toNat + i)).toNat))
/-- VDOTB.X4 (R120): E2M1 elements. -/
def execVdotbX4 (d a b sc : BitVec 4) (e : BitVec 3) (s : State) : Host.Outcome State Fault Refusal :=
  blockDot s d sc (lanes32.map fun i =>
    (e2m1.decode (vnib (s.rv a) (32 * e.toNat + i)).toNat, e2m1.decode (vnib (s.rv b) (32 * e.toNat + i)).toNat))

end Sys2Proof.Machine
end

