-- ==== Sys2Proof/Machine/Matrix.lean ====
section
/-!
DEFINITION. Matrix instructions, the matrix unit and the B ring (R122 to R143).
-/
namespace Sys2Proof.Machine
open State

/-! ### Accumulators -/

def accElem (d : AccData) (i j : Nat) : W32 := d.extractLsb' (32 * (32 * i + j)) 32
def accRow (d : AccData) (i : Nat) : VReg := d.extractLsb' (1024 * i) 1024
/-- 32 rows, row i from f. -/
def accOf (f : Nat → VReg) : Nat → Nat
  | 0 => 0
  | n + 1 => accOf f n + (f n).toNat * 2 ^ (1024 * n)
def setRow (d : AccData) (i : Nat) (v : VReg) : AccData :=
  BitVec.ofNat 32768 (accOf (fun k => if k = i then v else accRow d k) 32)
def nanRow : VReg := ofLanes fun _ => qnan32

namespace State

/-- The berth owns accumulator n, and has not released it (R123, R127). -/
def owns (s : State) (n : Nat) : Bool := let a := s.myCore.acc n; a.owner == some s.berth && !a.relp
/-- An MMA into the accumulator is outstanding on a core, or an ALD or AST of it moves (R124, R127, R128). -/
def coreBusy (c : Core) (n : Nat) : Bool := (c.mq.any fun m => m.acc == n) || c.waits.any fun w => w.issued.acc == some n
def accBusy (s : State) (r n : Nat) : Bool := coreBusy (s.core r) n
/-- Marks an accumulator release-pending; with nothing outstanding it is free at once (R127). -/
def relAcc (s : State) (r n : Nat) : State :=
  s.modCore r fun c =>
    if coreBusy c n then c.setAcc n { c.acc n with relp := true }
    else c.setAcc n { c.acc n with owner := none, relp := false }
/-- A release-pending accumulator becomes free after the last of its MMA steps and transfers (R127). -/
def freeAcc (s : State) (r n : Nat) : State := if (s.core r).acc n |>.relp then s.relAcc r n else s

/-- A matrix instruction's memory operand: 128-byte aligned, wholly in the executing core's CLM, and every byte permitted
(R123); the offset in CLM. A trap holds the operand's start address (log 66). -/
def matOperand (s : State) (va : Word) (n : Nat) (k : Kind) : Run Nat := do
  let w := s.who
  match ← s.decodeAddr w k va 128 with
  | .clm r off =>
    if r ≠ s.rank ∨ 131072 < off + n then stop .place va
    else match clmBad w.user (k == .write) off n with
      | none => .ok off
      | some _ => stop k.cause va
  | _ => stop .place va

/-- The executing instruction's place in the order of issue on its core (R124, R143): that of its issue; one that has waited
for words of the repetition buffer stands behind them (log 71). One with a wait stands behind one without that has the same
number. -/
def issueSeq (s : State) : Nat := match s.myWait with | some w => (keptIssue w s.ticket).seq | none => s.ticket

end State

/-- ACQ (R126): the waiter that issued first claims. -/
def execAcq (c : BitVec 3) (s : State) : Host.Outcome State Fault Refusal :=
  let n := c.toNat
  let a := s.myCore.acc n
  s.finishMoored (
    if s.owns n then .ok s.moor.next
    else if a.owner.isSome || a.relp || s.earlier (.acq s.rank n) then waitFor (.acq s.rank n)
    else .ok ((s.modMyCore fun k => k.setAcc n { a with owner := some s.berth }).moor.next))

/-- REL (R127). -/
def execRel (c : BitVec 3) (s : State) : Host.Outcome State Fault Refusal :=
  s.finish (if s.owns c.toNat then .ok ((s.relAcc s.rank c.toNat).moor.next)
    else stop .ill (wd 0xA2000001 [(c.toNat, 20)]))

/-- An instruction on an owned accumulator: its checks, then a wait for outstanding work on it, then `f` (R123, R128). -/
def onAcc {α : Type} (s : State) (n : Nat) (w : Word) (checks : Run α) (f : α → Run State) : Host.Outcome State Fault Refusal :=
  s.finishMoored (
    if !s.owns n then stop .ill w
    else do
      let x ← checks
      if s.accBusy s.rank n then waitFor .work else f x)
/-- The end of an ALD or AST, `lat` cycles from its issue: until then its transfer is outstanding, and its accumulator falls
free in the cycle after (R127, R128, R131). -/
def accMoves (s : State) (n lat : Nat) (a : BitVec 5) : Run State :=
  .ok ((s.moor.answeredLast lat { srcs := [a] }).noteIssued fun i => { i with acc := some n })

/-- AZERO (R128). -/
def execAzero (c : BitVec 3) (s : State) : Host.Outcome State Fault Refusal :=
  onAcc s c.toNat (wd 0xA2000002 [(c.toNat, 20)]) (.ok ())
    fun _ => (.ok ((s.modMyCore fun k => k.setAcc c.toNat { k.acc c.toNat with data := 0, pois := 0 }).moor.next))

/-- APOIS (R128). -/
def execApois (d : BitVec 5) (c : BitVec 3) (s : State) : Host.Outcome State Fault Refusal :=
  onAcc s c.toNat (wd 0xA2000003 [(d.toNat, 20), (c.toNat, 15)])
    (s.checkOut d) fun _ => .ok (s.moor.done 8 { writes := [(d.toNat, (s.myCore.acc c.toNat).pois.setWidth 64)] })

/-- The rows of a 4 KiB operand that hold a poisoned unit, as a mask, and the first such unit (R130). -/
def poisonRows (s : State) (r off : Nat) : Nat → Nat
  | 0 => 0
  | n + 1 => poisonRows s r off n + (if s.anyPoison (.clm r (off + 128 * n)) 128 then 2 ^ n else 0)
def firstPoison (s : State) (r off : Nat) : Nat → Nat → Nat
  | 0, i => i
  | f + 1, i => if s.poisoned (.clm r (off + 8 * i)) then i else firstPoison s r off f (i + 1)

/-- The poisoned units among n bytes of core r's CLM are consumed without a trap, each once (R341). -/
def consumeRange (r lid off n : Nat) (s : State) : State :=
  if s.poison.isEmpty then s
  else (upTo (n / 8)).foldl (fun t i => if s.poisoned (.clm r (off + 8 * i)) then t.countPoison r lid (off + 8 * i) else t) s

/-- ALD (R129 to R131). -/
def execAld (c : BitVec 3) (a : BitVec 5) (s : State) : Host.Outcome State Fault Refusal :=
  let va := s.rx a
  onAcc s c.toNat (wd 0xA4000000 [(c.toNat, 22), (a.toNat, 17)]) (do
    s.checkIns [a]
    s.matOperand va 4096 .read) fun off =>
    let rows := poisonRows s s.rank off 32
    let data := s.readN (.clm s.rank off) 4096
    if rows ≠ 0 ∧ s.me.pte then stop .poison (va + w64 (8 * firstPoison s s.rank off 512 0))
    else
      let v := accOf (fun i => if rows / 2 ^ i % 2 = 1 then nanRow else BitVec.ofNat 1024 (data / 2 ^ (1024 * i))) 32
      let t := s.modMyCore fun k => k.setAcc c.toNat { k.acc c.toNat with data := BitVec.ofNat 32768 v, pois := BitVec.ofNat 32 rows }
      accMoves (consumeRange s.rank s.me.lid off 4096 t) c.toNat 136 a

/-- AST's formats (R129): code, format, element size in bytes. -/
def astFmt (f : Nat) : Fmt × Nat :=
  if f = 1 then (bf16, 2) else if f = 2 then (fp16, 2) else if f = 3 then (e4m3, 1) else if f = 4 then (e5m2, 1) else (fp32, 4)
/-- One element of an AST of a narrow format, with its flags (R130). -/
def astElem (s : State) (f : Fmt) (e : Nat) (mode : Rm) (sat : Bool) (va : Word) (acc : Acc) (i j : Nat) : Nat × Flags :=
  if acc.pois.getLsbD i then (f.qnan, 0)
  else if f = fp32 then ((accElem acc.data i j).toNat, 0)
  else convert f mode sat (f32 (accElem acc.data i j))
    (if mode = .sr then drawMem s.seed (va + w64 (32 * e * i + e * j)) 0 else 0)
/-- Row i's bytes and flags. -/
def astRow (g : Nat → Nat × Flags) (e : Nat) : Nat → Nat × Flags
  | 0 => (0, 0)
  | n + 1 => let r := astRow g e n; let q := g n; (r.1 + q.1 * 2 ^ (8 * e * n), r.2 ||| q.2)
/-- Rows 0 to n - 1 stored at the operand; a poisoned row's units are marked poisoned (R130). -/
def astRows (s : State) (off e : Nat) (pois : W32) (rows : Nat → Nat × Flags) : Nat → State → State × Flags
  | 0, t => (t, 0)
  | n + 1, t =>
    let (t1, fl) := astRows s off e pois rows n t
    let r := rows n
    let l := Loc.clm s.rank (off + 32 * e * n)
    let t2 := t1.storeAt l (32 * e) r.1
    (iter (fun u t => t.setPoison (l.plus (8 * u)) (pois.getLsbD n)) (4 * e) t2, fl ||| r.2)
/-- AST (R129 to R131). -/
def execAst (c : BitVec 3) (a : BitVec 5) (sc : BitVec 1) (r : BitVec 3) (f : BitVec 4) (s : State) : Host.Outcome State Fault Refusal :=
  let va := s.rx a
  let (fm, e) := astFmt f.toNat
  onAcc s c.toNat (wd 0xA4000800 [(c.toNat, 22), (a.toNat, 17), (sc.toNat, 7), (r.toNat, 4), (f.toNat, 0)]) (do
    s.checkIns [a]
    s.matOperand va (1024 * e) .write) fun off =>
    if s.matrixReads off (1024 * e) then waitFor .work
    else
      let acc := s.myCore.acc c.toNat
      let mode := rmField s.env r.toNat
      let (t, fl) := astRows s off e acc.pois (fun i => astRow (fun j => astElem s fm e mode (sc == 1) va acc i j) e 32) 32 s
      accMoves (t.flag fl) c.toNat (8 + 32 * e) a

/-- AROW (R132). A poisoned row read without a trap is logged with the address 128 r, the row's place in its accumulator; the spec
gives an accumulator row no address (DESIGN CHOICE, log 88). -/
def execArow (d : BitVec 4) (c : BitVec 3) (b : BitVec 5) (s : State) : Host.Outcome State Fault Refusal :=
  onAcc s c.toNat (wd 0xA6000000 [(d.toNat, 20), (c.toNat, 15), (b.toNat, 10)]) (s.checkIns [b]) fun _ =>
    let r := fld (s.rx b) 0 5
    let acc := s.myCore.acc c.toNat
    if acc.pois.getLsbD r ∧ s.me.pte then stop .poison (w64 r)
    else
      let t := if acc.pois.getLsbD r then s.countPoison s.rank s.me.lid (128 * r) else s
      .ok (((t.pops [b]).wv d (accRow acc.data r)).moor.next)

/-- AWR (R132). -/
def execAwr (c : BitVec 3) (a : BitVec 4) (b : BitVec 5) (s : State) : Host.Outcome State Fault Refusal :=
  onAcc s c.toNat (wd 0xA6000001 [(c.toNat, 20), (a.toNat, 15), (b.toNat, 10)]) (s.checkIns [b]) fun _ =>
    let r := fld (s.rx b) 0 5
    .ok (((s.pops [b]).modMyCore fun k => k.setAcc c.toNat
      { k.acc c.toNat with data := setRow (k.acc c.toNat).data r (s.rv a), pois := setBit (k.acc c.toNat).pois r false }).moor.next)

/-! ### The latch (R133 to R138) -/

/-- Descriptor fields (R135): step tiles, bytes of one step's tile, whether scale words follow. -/
def descN (d : Nat) : Nat := d % 8 + 1
def descSb (d : Nat) : Nat := if d / 8 % 4 = 1 then 1024 else if d / 8 % 4 = 2 then 512 else 2048
def descSc (d : Nat) : Bool := d / 32 % 2 == 1
def descBytes (d : Nat) : Nat := descN d * descSb d + (if descSc d then 128 * descN d else 0)

namespace State
/-- Whether a wait is that of a fill of half h, or of one whose half is not known yet (R136). -/
def waitsFill (h : Nat) (w : Wait) : Bool := match w.issued.latch with | .fill (some g) => g == h | .fill none => true | _ => false
/-- A fill of half h waits that issued before place `seq`, whatever it waits for (R136, R143). -/
def fillBefore (s : State) (r h seq : Nat) : Bool := (s.core r).waits.any fun w => waitsFill h w && decide (w.issued.seq < seq)
/-- The half of a send holds what it is to send: it is FULL, or was when it was swapped out. -/
def sendable (c : Core) (e : Send) : Bool := (c.half e.half).st == .full || ((c.half e.half).st == .draining && e.full)
/-- Whether a wait is that of a BROT which is not the outstanding one: it has not asked for its send (R137). -/
def unasked (c : Core) (w : Wait) : Bool := w.issued.latch == .brot && c.brot.map Brot.seq != some w.issued.seq
/-- The fill with place `seq` may start in half h: no fill, receive or send is in progress on it, no earlier MMA is bound
to it, no earlier fill waits for it, and no earlier BROT has its contents still to send, one that has not yet asked for its
send included (R133, R143, log 68). -/
def mayFill (s : State) (r h seq : Nat) : Bool :=
  let c := s.core r
  (c.half h).fill.isNone && !(c.recv && h != c.curh)
    && !(c.sends.any fun e => e.half == h && (e.till.isSome || (sendable c e && decide (e.seq ≤ seq))))
    && !(c.mq.any fun m => m.half == h && decide (m.seq ≤ seq))
    && !(c.waits.any fun w => waitsMma h w && decide (w.issued.seq < seq)) && !s.fillBefore r h seq
    && !((c.half h).st == .full && c.waits.any fun w => unasked c w && decide (w.issued.seq < seq))
end State

/-- The half a fill targets: the one that its descriptor named at its issue (R136, R143). -/
def fillTarget (s : State) (d : Nat) : Nat := if d / 64 = 0 then s.issued.half else 1 - s.issued.half
/-- The wait of an instruction of the matrix unit, with what it does to the latch and what it has still to read (R142, R143),
whatever it waits for. An MMA that waited and traps has its half no longer bound (R133). -/
def finishMatrix (s : State) (latch : Latch) (reads : List (Nat × Nat)) (r : Run State) : Host.Outcome State Fault Refusal :=
  match r with
  | .error (.wait y) => .next ((s.moor.block y).noteIssued fun i => { i with
      latch := latch
      reads := match y with | .fill _ | .mma _ _ _ => reads | _ => [] })
  | .error (.trap c v) => .next ((s.trapNow c v).drainAfter s.rank s.myWait)
  | r => s.finish r
/-- The fill of an instruction whose descriptor is at hand, or stands in a port that is still empty (R135, R136). -/
def fillLatch (s : State) (b : BitVec 5) : Latch :=
  .fill (match s.checkIns [b] with | .ok _ => some (fillTarget s (fld (s.rx b) 0 7)) | .error _ => none)
/-- The shared start of a fill (R136): checks at issue, a wait until the half may be filled, then class A. The transfer
starts 8 cycles after issue, or when the wait ends. -/
def fillHalf (s : State) (a b : BitVec 5) (tr : Bool) : Host.Outcome State Fault Refusal :=
  let d := fld (s.rx b) 0 7
  let n := descBytes d
  finishMatrix s (fillLatch s b) [(fld (s.rx a) 0 17, n)] (do
    s.checkIns [a, b]
    let off ← s.matOperand (s.rx a) n .read
    let h := fillTarget s d
    if !s.mayFill s.rank h s.issueSeq then waitFor (.fill h)
    else
      let t := s.modMyCore fun k => k.setHalf h { k.half h with
        st := .filling, fill := some (s.berth, off, w64 (d % 64), s.startAt + n / 32, tr) }
      .ok ((t.pops [a, b]).moor.next))
/-- BLD (R136). -/
def execBld (a b : BitVec 5) (s : State) : Host.Outcome State Fault Refusal := fillHalf s a b false
/-- TLDT (R136). -/
def execTldt (a b : BitVec 5) (s : State) : Host.Outcome State Fault Refusal := fillHalf s a b true

/-- Element pieces of a transposed tile: H element 32j + k of a step from source element 32k + j (R136). -/
def transposed (src w n : Nat) : Nat :=
  (List.range n).foldl (fun acc st =>
    let tile := src / 2 ^ (1024 * w * st)
    acc + piecesNat w (fun m => tile / 2 ^ (w * (32 * (m % 32) + m / 32))) 1024 * 2 ^ (1024 * w * st)) 0
/-- Scale words as a unit writes them: bits 31 to 20 of each are zero (R57). -/
def scaleBits (x : Nat) : Nat → Nat
  | 0 => 0
  | n + 1 => scaleBits x n + x / 2 ^ (32 * n) % 2 ^ 20 * 2 ^ (32 * n)
/-- LATCH_FILL_DONE (R136): the half takes the source's bytes, its scale words and its poison, and is FULL. -/
def execLatchFillDone (r h : Nat) (s : State) : Host.Outcome State Fault Refusal :=
  match ((s.core r).half h).fill with
  | none => .next s
  | some (_, off, dw, _, tr) =>
    let d := dw.toNat
    let n := descN d
    let sb := descSb d
    let raw := s.readN (.clm r off) (n * sb)
    let tile := if tr then transposed raw (sb * 8 / 1024) n else raw
    let sc := scaleBits (s.readN (.clm r (off + n * sb)) (128 * n)) (32 * n)
    .next (s.modCore r fun c =>
      let o := c.half h
      c.setHalf h { o with
        data := BitVec.ofNat 131072 (o.data.toNat / 2 ^ (8 * n * sb) * 2 ^ (8 * n * sb) + tile)
        scales := if descSc d then BitVec.ofNat 8192 (o.scales.toNat / 2 ^ (1024 * n) * 2 ^ (1024 * n) + sc) else o.scales
        st := .full
        desc := BitVec.ofNat 6 d
        pois := s.anyPoison (.clm r off) (descBytes d)
        fill := none })

/-- Since when a BROT waits, and whether its stall has been recorded: one that has waited behind another counts from there. -/
def brotSince (s : State) : Nat × Bool :=
  match s.myWait with
  | some w => if w.why = .brot then (w.since, w.failed) else (s.cycle, false)
  | none => (s.cycle, false)
/-- The BROT's turn: it is outstanding, and the ring form asks for its send, unless SDONE says that this is done (R137,
R302). -/
def openBrot (s : State) (ring : Bool) : State :=
  s.modMyCore fun k => { k with
    brot := some ⟨s.berth, (brotSince s).1, s.issueSeq, s.buffered, ring, (brotSince s).2⟩
    sends := if ring && !k.sdone then k.sends ++ [⟨k.curh, s.issueSeq, false, none⟩] else k.sends
    sdone := if ring then false else k.sdone }
/-- The swap of a BROT (R137): the old current half, unless a fill still runs into it, is DRAINING, and EMPTY when nothing
is outstanding. -/
def swapHalves (s : State) (r : Nat) : State :=
  let h := (s.core r).curh
  let t := s.modCore r fun k =>
    let o := k.half h
    { (k.setHalf h { o with st := if o.fill.isSome then .filling else .draining }) with
      curh := 1 - h
      brot := none
      sends := k.sends.map fun e => if e.half = h then { e with full := o.st == .full } else e }
  t.drain r h
/-- Whether the executing BROT is the outstanding one. -/
def myBrot (s : State) : Bool :=
  match s.myCore.brot with | some b => b.berth == s.berth && b.buffered == s.buffered | none => false
/-- Whether an earlier BROT of the executing core waits, whatever it waits for (R137, R143). -/
def brotBefore (s : State) : Bool := s.myCore.waits.any fun w => w.issued.latch == .brot && decide (w.issued.seq < s.issueSeq)
/-- The outstanding BROT's place in the order of issue. -/
def brotSeq (c : Core) : Nat := match c.brot with | some b => b.seq | none => 0
/-- BROT (R137): one at a time, in the order of issue; it asks for the ring send, waits for a FULL incoming half whose
earlier fills are done, and swaps at its write-back. -/
def execBrot (a : BitVec 5) (s : State) : Host.Outcome State Fault Refusal :=
  finishMatrix s .brot [] (do
    if myBrot s then .ok () else s.checkIns [a]
    if !myBrot s && (s.myCore.brot.isSome || brotBefore s) then waitFor .brot
    else
      let t := if myBrot s then s else openBrot s (a.toNat == 0 || !bit (s.rx a) 0)
      let c := t.myCore
      let note (u : State) : State := u.noteIssued fun i => { i with latch := .brot }
      if (c.half (1 - c.curh)).st = .full ∧ !t.fillBefore s.rank (1 - c.curh) (brotSeq c) then
        gone (note (t.moor.atWriteBack { srcs := [a], brot := true }))
      else gone (note (t.moor.block .brot)))

/-- Whether a core's latch takes part in ring transfers: not from part L of its save, or its snapshot, until its restore, whose
part L replaces the latch (R306, R307). -/
def ringOpen (c : Core) : Bool := !c.shut && c.saved.isNone
/-- RING_SEND (R137): the oldest send starts when its half is FULL and the successor's incoming half is EMPTY; fills of
its half that issued before it go first (R143). -/
def ringSendReady (s : State) (r : Nat) : Bool :=
  let c := s.core r
  let n := s.core (ringNext r)
  match c.sends with
  | e :: _ => e.till.isNone && sendable c e && !s.fillBefore r e.half e.seq && ringOpen c && ringOpen n &&
      (n.half (1 - n.curh)).st == .empty && (n.half (1 - n.curh)).fill.isNone && !n.recv
  | [] => false
def execRingSend (r : Nat) (s : State) : Host.Outcome State Fault Refusal :=
  if ringSendReady s r then
    match (s.core r).sends with
    | e :: l =>
      let d := ((s.core r).half e.half).desc.toNat
      let t := s.modCore r fun c => { c with sends := { e with till := some (s.cycle + descBytes d / 32 + 4) } :: l }
      .next (t.modCore (ringNext r) fun c => { (c.setHalf (1 - c.curh) { c.half (1 - c.curh) with st := .filling }) with recv := true })
    | [] => .next s
  else .next s

/-- RING_TRANSFER_DONE (R137): the successor's incoming half is FULL with the sender's tile, scales, descriptor, poison. -/
def execRingTransferDone (r : Nat) (s : State) : Host.Outcome State Fault Refusal :=
  match (s.core r).sends with
  | ⟨h, _, _, some _⟩ :: l =>
    let src := (s.core r).half h
    let d := src.desc.toNat
    let bits := 8 * descN d * descSb d
    let t := s.modCore r fun c => { c with sends := l }
    let t1 := t.modCore (ringNext r) fun c =>
      let o := c.half (1 - c.curh)
      { (c.setHalf (1 - c.curh) { o with
          data := BitVec.ofNat 131072 (o.data.toNat / 2 ^ bits * 2 ^ bits + src.data.toNat % 2 ^ bits)
          scales := if descSc d then
              BitVec.ofNat 8192 (o.scales.toNat / 2 ^ (1024 * descN d) * 2 ^ (1024 * descN d) + scaleBits src.scales.toNat (32 * descN d))
            else o.scales
          st := .full
          desc := src.desc
          pois := src.pois }) with recv := false }
    .next (t1.drain r h)
  | _ => .next s

def halfCode : HalfSt → Nat
  | .empty => 0 | .filling => 1 | .full => 2 | .draining => 3
/-- The latch status word (R138). -/
def bstatWord (c : Core) : Word :=
  let cur := c.half c.curh
  let nxt := c.half (1 - c.curh)
  let b : Bool → Nat → Nat := fun x i => if x then 2 ^ i else 0
  w64 (c.mq.length * 2 ^ 24 + b c.stall 23 + b (c.sends.any fun e => e.till.isSome) 22 + b c.recv 21
    + c.curh * 2 ^ 20 + nxt.desc.toNat * 2 ^ 14 + cur.desc.toNat * 2 ^ 8 + b nxt.pois 5 + b cur.pois 4
    + halfCode nxt.st * 4 + halfCode cur.st)
/-- BSTAT (R138): it leaves the barge as it is; reading clears STALL. -/
def execBstat (d : BitVec 5) (s : State) : Host.Outcome State Fault Refusal :=
  s.finish (match s.checkOut d with
    | .ok _ => .ok ((s.modMyCore fun k => { k with stall := false }).done 8 { writes := [(d.toNat, bstatWord s.myCore)] })
    | .error e => .error e)

/-- The outstanding BROT is withdrawn: its send that has not started goes with it; one that has started, or is done,
leaves SDONE for the BROT that issues again (R137, R302). -/
def closeBrot (s : State) (r : Nat) : State :=
  match (s.core r).brot with
  | none => s
  | some k =>
    let asked : Bool := (s.core r).sends.any fun e => e.seq == k.seq && e.till.isNone
    s.modCore r fun c => { c with
      brot := none
      sends := c.sends.filter fun e => !(e.seq == k.seq && e.till.isNone)
      sdone := c.sdone || (k.ring && !asked) }
/-- Whether a BROT's wait has passed the core's timeout (R294). -/
def brotLate (s : State) (c : Core) (since : Nat) : Bool := decide (fld c.probecfg 24 24 < s.cycle - since)
/-- Whether the outstanding BROT is still to meet a FULL half: it waits. -/
def brotWaits (s : State) (r : Nat) (k : Brot) : Bool :=
  match s.waitOf r (if k.buffered then 16 else k.berth) with | some w => w.why == .brot | none => false
/-- The BROT whose wait has passed the timeout (R137, R294): the outstanding one, or one that waits behind it. -/
def brotStalled (s : State) (r : Nat) : Option Nat :=
  let c := s.core r
  match c.brot with
  | some k => if !k.told && brotWaits s r k && brotLate s c k.since then some k.berth
      else (upTo 16).find? fun b => match (c.berth b).wait with
        | some w => w.why == .brot && !w.failed && brotLate s c w.since && (b != k.berth || k.buffered)
        | none => false
  | none => none
/-- BROT_TIMEOUT (R137): the stall is recorded, and traps BARSTALL when PROBECFG.BSTE is set; else the BROT waits on. -/
def execBrotTimeout (r : Nat) (s : State) : Host.Outcome State Fault Refusal :=
  match brotStalled s r with
  | none => .next s
  | some b =>
    let c := s.core r
    let t := s.modCore r fun k => { k with stall := true }
    let own : Option Brot := match c.brot with | some k => if !k.told && brotWaits s r k && brotLate s c k.since then some k else none | none => none
    if bit c.probecfg 1 then
      let t1 := (if own.isSome then closeBrot t r else t).as r b
      let buf := match own with | some k => k.buffered | none => false
      .next ((if buf then t1.bufTrap .barstall (bstatWord (t.core r)) else t1.takeTrap .barstall (bstatWord (t.core r))).back s)
    else match own with
      | some k => .next (t.modCore r fun c => { c with brot := some { k with told := true } })
      | none => .next (t.modBerth r b fun x => { x with wait := x.wait.map fun w => { w with failed := true } })

/-! ### MMA (R139 to R141) -/

/-- Formats by number: BF, HF, E4, E45, E5, X8, X84, X4, I8. Bits of an A and of a B element (R139). -/
def mmaBitsA (f : Nat) : Nat := if f ≤ 1 then 16 else if f = 7 then 4 else 8
def mmaBitsB (f : Nat) : Nat := if f ≤ 1 then 16 else if f = 6 ∨ f = 7 then 4 else 8
def mmaScaled (f : Nat) : Bool := decide (5 ≤ f ∧ f ≤ 7)
def mmaCycles (f : Nat) : Nat := if f ≤ 1 then 64 else if f = 7 then 16 else 32
def decA (m : Mma) (v : Nat) : FVal :=
  match m.fmt with
  | 0 => bf16.decode v
  | 1 => fp16.decode v
  | 4 => e5m2.decode v
  | 5 => dtabVal m.t0 v
  | 6 => dtabVal m.t0 v
  | 7 => e2m1.decode v
  | _ => e4m3.decode v
def decB (m : Mma) (v : Nat) : FVal :=
  match m.fmt with
  | 0 => bf16.decode v
  | 1 => fp16.decode v
  | 2 => e4m3.decode v
  | 5 => dtabVal m.t1 v
  | 6 => e2m1.decode v
  | 7 => e2m1.decode v
  | _ => e5m2.decode v
/-- A piece of w bits of a number. -/
def piece (x w i : Nat) : Nat := x / 2 ^ (w * i) % 2 ^ w
/-- Element (i, j) after one step: `a` and `b` the step's A and B bytes, `sa` and `sb` its scale words (R69, R71, R140). -/
def mmaElem (m : Mma) (a b sa sb : Nat) (c : W32) (i j : Nat) : W32 :=
  let wa := mmaBitsA m.fmt
  let wb := mmaBitsB m.fmt
  let ea := fun k => piece a wa (if m.ta then 32 * k + i else 32 * i + k)
  let eb := fun k => piece b wb (32 * j + k)
  if m.fmt = 8 then
    let d := lanes32.foldl (fun acc k => acc + sint 8 (ea k) * sint 8 (eb k)) (0 : Int)
    if m.neg then c - BitVec.ofInt 32 d else c + BitVec.ofInt 32 d
  else
    let ps := lanes32.map fun k => (decA m (ea k), decB m (eb k))
    let t := if mmaScaled m.fmt then
        blockTS ps (s20.decode (piece sa 32 i % 2 ^ 20)) (s20.decode (piece sb 32 j % 2 ^ 20))
      else blockT ps
    accumulate m.neg c t
/-- Whether row i reads a poisoned A unit or scale word in this step (R141). -/
def mmaRowPois (s : State) (r : Nat) (m : Mma) (aOff sOff i : Nat) : Bool :=
  let w := mmaBitsA m.fmt
  let el := fun k => s.poisoned (.clm r (aOff + w * (if m.ta then 32 * k + i else 32 * i + k) / 8))
  lanes32.any el || (mmaScaled m.fmt && s.poisoned (.clm r (sOff + 4 * i)))
def mmaPoisRows (s : State) (r : Nat) (m : Mma) (aOff sOff : Nat) : Nat → Nat
  | 0 => 0
  | n + 1 => mmaPoisRows s r m aOff sOff n + (if mmaRowPois s r m aOff sOff n then 2 ^ n else 0)
/-- The address of the first poisoned unit of a range, in the window the MMA's address used (R141). The order of reading
within a step is taken to be that of rising addresses of its A bytes, TA or not, and then its scale words (log 66). -/
def firstUnit (s : State) (r : Nat) (va : Word) (off n : Nat) : Option Word :=
  ((List.range (n / 8)).find? fun u => s.poisoned (.clm r (off + 8 * u))).map fun u => va + w64 (8 * u)

/-- The end of an MMA, in the cycle after its last step: poisoned rows take the canonical NaN and their mask bits; the answer
of a wide one to its berth, or to the buffer that waits in its place, came in that step's last cycle, so that either is
ready now (R140, R141). -/
def mmaEnd (s : State) (r : Nat) (m : Mma) (bad : W32) : State :=
  let s1 := s.modCore r fun c =>
    let a := c.acc m.acc
    let mask := a.pois ||| bad
    let data := BitVec.ofNat 32768 (accOf (fun i => if mask.getLsbD i then nanRow else accRow a.data i) 32)
    { (c.setAcc m.acc { a with pois := mask, data := data }) with mq := c.mq.tail }
  let s3 := (s1.freeAcc r m.acc).drain r m.half
  if !m.wide then s3
  else
    let tr : Option (Cause × Word) := if bad = 0 then none else some (.poison, m.first.getD ones64)
    s3.reply r (if m.bufAt.isSome then 16 else m.berth) { trap := tr, past := true }

/-- Whether the repetition buffer's word waits for work of the matrix unit. -/
def bufWaitsWork (c : Core) : Bool :=
  match c.buffer.bind Buf.wait with
  | some w => (match w.why with | .work => true | .fill _ => true | .mma _ _ _ => true | _ => false)
  | none => false
/-- Whether the matrix unit may start a step of the queue's head. A pre-empted core goes on only while an MMA of class W
is left in the queue, or a block word that has to drain waits for a step (R302, log 69); a restored one starts an MMA
once its accumulator is back (R307). -/
def mmaMayStart (c : Core) (q : List Mma) : Bool :=
  match c.pre with
  | .none => true
  | .asked => q.any (fun m => m.wide) || bufWaitsWork c
  | .restoring => match q with | m :: _ => (c.acc m.acc).owner == some m.berth | [] => true
  | _ => false
/-- Whether the queue's head may start its next step: its half is not FILLING, no fill that issued before it still waits
for that half, and no MMA that issued before it still waits to enter the queue (R124, R140, R143). -/
def mmaStarts (s : State) (r : Nat) : Bool :=
  let c := s.core r
  match c.mq with
  | [] => false
  | m :: _ => (c.half m.half).st != .filling && decide (m.ready ≤ s.cycle) && mmaMayStart c c.mq && !s.fillBefore r m.half m.seq
    && !(c.waits.any fun w => w.issued.latch == .mma && decide (w.issued.seq < m.seq))
/-- Whether the head's running step ends now, or its next one can start. -/
def mmaDue (s : State) (r : Nat) : Bool :=
  match (s.core r).mq with
  | [] => false
  | m :: _ => if m.due = 0 then mmaStarts s r else decide (m.due ≤ s.cycle)
/-- The head's next step starts, if it may. -/
def mmaStart (s : State) (r : Nat) : State :=
  match (s.core r).mq with
  | [] => s
  | m :: rest => if mmaStarts s r then s.modCore r fun c => { c with mq := { m with due := s.cycle + mmaCycles m.fmt } :: rest } else s
/-- What a step of an MMA without the poison trap consumes: the poisoned units it reads of A and of its scale words, each
once, and the poisoned latch half once for the instruction (R141, R341). The half is logged with its number for an address, which
the spec does not give (DESIGN CHOICE, log 88). -/
def mmaConsume (s : State) (r : Nat) (m : Mma) (aOff wa sOff : Nat) (half : Bool) : State :=
  let lid := (s.berthAt r m.berth).lid
  let s1 := consumeRange r lid aOff (128 * wa) s
  let s2 := if mmaScaled m.fmt then consumeRange r lid sOff 128 s1 else s1
  if half && m.st == 0 then s2.countPoison r lid m.half else s2

/-- MMA_STEP (R124, R140): the head of the queue starts its next step, or completes the one that is running. A step
whose half is FILLING does not start. -/
def execMmaStep (r : Nat) (s : State) : Host.Outcome State Fault Refusal :=
  if !mmaDue s r then .next s
  else match (s.core r).mq with
  | [] => .next s
  | m :: rest =>
    if m.due = 0 then .next (mmaStart s r)
    else
      let wa := mmaBitsA m.fmt
      let wb := mmaBitsB m.fmt
      let aOff := fld m.a 0 17 + 128 * wa * m.st
      let sOff := fld m.sc 0 17 + 128 * m.st
      let h := (s.core r).half m.half
      let a := s.readN (.clm r aOff) (128 * wa)
      let b := h.data.toNat / 2 ^ (1024 * wb * m.st)
      let sa := if mmaScaled m.fmt then s.readN (.clm r sOff) 128 else 0
      let sb := h.scales.toNat / 2 ^ (1024 * m.st)
      let old := ((s.core r).acc m.acc).data
      let new := BitVec.ofNat 32768 (accOf (fun i => ofLanes fun j => mmaElem m a b sa sb (accElem old i j) i j) 32)
      let rows := if h.pois then BitVec.allOnes 32 else if s.poison.isEmpty then 0 else BitVec.ofNat 32 (mmaPoisRows s r m aOff sOff 32)
      let first := match m.first with
        | some x => some x
        | none => match firstUnit s r (m.a + w64 (128 * wa * m.st)) aOff (128 * wa) with
          | some x => some x
          | none => if mmaScaled m.fmt then firstUnit s r (m.sc + w64 (128 * m.st)) sOff 128 else none
      let s0 := s.modCore r fun c => c.setAcc m.acc { c.acc m.acc with data := new }
      let s1 := if m.wide then s0 else mmaConsume s0 r m aOff wa sOff h.pois
      let bad := m.pois ||| rows
      if m.st + 1 < m.n then
        .next (mmaStart (s1.modCore r fun c => { c with mq := { m with st := m.st + 1, pois := bad, first := first, due := 0 } :: rest }) r)
      else .next (mmaStart (mmaEnd s1 r { m with first := first } bad) r)

/-- The half and the decode tables an MMA binds: those of its issue (R61, R140). -/
def mmaBinds (s : State) : Nat × DTab × DTab := (s.issued.half, s.issued.t0, s.issued.t1)
/-- An MMA enters the queue in the order of issue (R124). -/
def enqueueMma (m : Mma) : List Mma → List Mma
  | [] => [m]
  | e :: l => if decide (m.seq < e.seq) && e.st == 0 && e.due == 0 then m :: e :: l else e :: enqueueMma m l
/-- An MMA into the accumulator is queued and has not started its first step (R124). -/
def accQueued (s : State) (n : Nat) : Bool := s.myCore.mq.any fun m => m.acc == n && m.st == 0 && m.due == 0
/-- The MMA an instruction puts into the queue (R124, R140): the unit starts its first step 8 cycles after its issue at the
earliest, or when its wait has ended. -/
def newMma (s : State) (fmt acc : Nat) (va vs : Word) (steps : Nat) (ta neg : Bool) : Mma :=
  let b := mmaBinds s
  { fmt := fmt, acc := acc, berth := s.berth, a := va, sc := vs, n := steps, ta := ta, neg := neg, half := b.1, seq := s.issueSeq
    ready := s.startAt, st := 0, due := 0, pois := 0, first := none, t0 := b.2.1, t1 := b.2.2
    bufAt := if s.buffered then s.myCore.buffer.map fun q => (wordAt q.blk q.blk.idx, q.blk.k, q.blk.idx) else none
    wide := s.me.pte }
/-- The shared issue of an MMA (R123, R124, R140): it binds the current half and the decode tables now; `op` is the
major opcode, for the word an ILL reports. -/
def issueMma (s : State) (fmt op : Nat) (c : BitVec 3) (a sc : BitVec 5) (n t : BitVec 1) (k : BitVec 3) : Host.Outcome State Fault Refusal :=
  let acc := c.toNat
  let steps := k.toNat + 1
  let srcs := if mmaScaled fmt then [a, sc] else [a]
  let na := steps * 128 * mmaBitsA fmt
  let reads := (fld (s.rx a) 0 17, na) :: if mmaScaled fmt then [(fld (s.rx sc) 0 17, 128 * steps)] else []
  finishMatrix s .mma reads (
    if !s.owns acc then
      stop .ill (wd (op * 2 ^ 25) [(acc, 22), (a.toNat, 17), (sc.toNat, 12), (n.toNat, 4), (t.toNat, 3), (k.toNat, 0)])
    else do
      s.checkIns srcs
      let _ ← s.matOperand (s.rx a) na .read
      if mmaScaled fmt then let _ ← s.matOperand (s.rx sc) (128 * steps) .read; pure () else pure ()
      if accQueued s acc then
        let b := mmaBinds s
        waitFor (.mma b.1 b.2.1 b.2.2)
      else
        let m := newMma s fmt acc (s.rx a) (s.rx sc) steps (t == 1) (n == 1)
        let u := ((s.modMyCore fun x => { x with mq := enqueueMma m x.mq }).pops srcs).moor
        if m.wide then gone ((u.await .slow).noteIssued fun i => { i with latch := .none, reads := [] }) else .ok u.next)
/-- MMA.BF (R139, R140). -/
def execMmaBf (c : BitVec 3) (a : BitVec 5) (n t : BitVec 1) (k : BitVec 3) (s : State) : Host.Outcome State Fault Refusal :=
  issueMma s 0 0x48 c a 0 n t k
/-- MMA.HF (R139, R140). -/
def execMmaHf (c : BitVec 3) (a : BitVec 5) (n t : BitVec 1) (k : BitVec 3) (s : State) : Host.Outcome State Fault Refusal :=
  issueMma s 1 0x49 c a 0 n t k
/-- MMA.E4 (R139, R140). -/
def execMmaE4 (c : BitVec 3) (a : BitVec 5) (n t : BitVec 1) (k : BitVec 3) (s : State) : Host.Outcome State Fault Refusal :=
  issueMma s 2 0x4A c a 0 n t k
/-- MMA.E45 (R139, R140). -/
def execMmaE45 (c : BitVec 3) (a : BitVec 5) (n t : BitVec 1) (k : BitVec 3) (s : State) : Host.Outcome State Fault Refusal :=
  issueMma s 3 0x4B c a 0 n t k
/-- MMA.E5 (R139, R140). -/
def execMmaE5 (c : BitVec 3) (a : BitVec 5) (n t : BitVec 1) (k : BitVec 3) (s : State) : Host.Outcome State Fault Refusal :=
  issueMma s 4 0x4C c a 0 n t k
/-- MMA.X8 (R139, R140). -/
def execMmaX8 (c : BitVec 3) (a sc : BitVec 5) (n t : BitVec 1) (k : BitVec 3) (s : State) : Host.Outcome State Fault Refusal :=
  issueMma s 5 0x4D c a sc n t k
/-- MMA.X84 (R139, R140). -/
def execMmaX84 (c : BitVec 3) (a sc : BitVec 5) (n t : BitVec 1) (k : BitVec 3) (s : State) : Host.Outcome State Fault Refusal :=
  issueMma s 6 0x4E c a sc n t k
/-- MMA.X4 (R139, R140). -/
def execMmaX4 (c : BitVec 3) (a sc : BitVec 5) (n t : BitVec 1) (k : BitVec 3) (s : State) : Host.Outcome State Fault Refusal :=
  issueMma s 7 0x4F c a sc n t k
/-- MMA.I8 (R139, R140). -/
def execMmaI8 (c : BitVec 3) (a : BitVec 5) (n t : BitVec 1) (k : BitVec 3) (s : State) : Host.Outcome State Fault Refusal :=
  issueMma s 8 0x50 c a 0 n t k

end Sys2Proof.Machine
end

