-- ==== Sys2Proof/Machine/Barge.lean ====
section
/-!
DEFINITION. The barge and frame instructions (R198 to R207) and the steps by which a core takes barges in: arrival,
docking, spilling and stealing (R148 to R151, R161).
-/
namespace Sys2Proof.Machine
open State

namespace State

/-- EXIT's last steps, its release done: the parent's count goes down, the barge's own frame is left, the berth falls free
(R204). -/
def exitDone (s : State) : State :=
  let b := s.me
  let s1 := s.sendDecrement s.rank b.lid b.header.pfh.toNat s.leaveIn
  ((s1.ownerExits b.fr.toNat).decLive s.rank b.lid).retire.depart
/-- EXIT's steps for the executing barge (R204); it waits while its block is in the repetition buffer (R95), and a barge
with a parent for its release. -/
def exitBarge (s : State) : Run State :=
  if s.inBuffer s.rank s.berth then waitFor .board
  else do
    let s1 := s.letGo relAcc freePort s.rank s.berth (s.cycle + s.leaveIn)
    let s2 ← if s.me.header.pfh = 0 ∧ s.me.header.kind ≠ .pair then .ok s1 else s1.releasing
    gone s2.exitDone
/-- An exit with cancelled status first sets CANC in the barge's own frame (R162, R204). -/
def exitCancelled (s : State) : Run State :=
  if s.inBuffer s.rank s.berth then waitFor .board
  else (if s.me.fr = 0 then s else s.fmark s.me.fr.toNat 0 true).exitBarge

/-- R200's common start: a frame, a release, and the increment of its JOIN, which a remote home acknowledges. The state
returned is ready to create the child. -/
def spawnCount (s : State) : Run State :=
  if s.acked then .ok s
  else
    let got : Option (State × Nat) :=
      if s.me.fr ≠ 0 then some (s, s.me.fr.toNat)
      else match s.homeRec false with
        | none => none
        | some h => some ((s.newRec h false s.me.header.pfh.toNat).modMe fun b => { b with fr := BitVec.ofNat 32 h }, h)
    match got with
    | none => waitFor .frame
    | some (t, h) => do
      let t1 ← t.releasing
      if frank h ≠ s.rank then
        gone (((t1.incSent s.rank s.me.lid).await .frame).later (s.leaveIn + 2 * hops s.rank (frank h) + 9)
          (.frameIncrement (BitVec.ofNat 32 h) s.rank s.berth))
      else if t.fget h 0 4 = 0xFFFFFFFF then waitFor .frame
      else .ok (t1.fset h 0 4 (t.fget h 0 4 + 1))

/-- A packet the executing core makes enters its own queue, or leaves for another core. -/
def launchPacket (s : State) (r : Nat) (pk : Packet) (hold : Option Nat) : State :=
  if r = s.rank then (s.incLive r pk.hdr.lid.toNat).enqueue r pk hold else s.sendBarge r pk
end State

/-- The child's packet (R200). -/
def childPacket (b : Berth) (target : Word) (pfh : W32) (stl : Bool) : Packet :=
  ⟨{ b.header with pfh := pfh, stl := stl, kind := .ordinary, cl := true }, target, b.p, 0, b.x, b.f, false, false, []⟩

/-- SPAWN (R199, R200). -/
def execSpawn (p : BitVec 5) (o : BitVec 20) (s : State) : Host.Outcome State Fault Refusal :=
  s.finish (do
    s.checkIns [p]
    let w := s.rx p
    let far := bit w 8
    match if far then placeRank s.rank (wordDy w) (wordDx w) else some s.rank with
    | none => stop .place w
    | some r =>
      if far && !s.inRect s.me.lid r then stop .place w
      else if !s.acked && s.cancelled then s.exitCancelled
      else
        let t ← s.spawnCount
        .ok ((((t.launchPacket r (childPacket t.me (targetJ s.me.pc o) t.me.fr (bit w 9)) none)).pops [p]).next))

/-- SPAWNC (R159, R201): the barge goes on as the child; its continuation is queued here, held for this berth. The child
keeps the spawner's STL, which no rule gives (log 63), and its ARR, since it enters no queue (DEDUCED, log 87). -/
def execSpawnc (o : BitVec 20) (s : State) : Host.Outcome State Fault Refusal :=
  s.finish (
    if s.me.pinned then stop .ill (wd 0xB2000000 [(o.toNat, 0)])
    else if !s.acked && s.cancelled then s.exitCancelled
    else do
      let t ← s.spawnCount
      let b := t.me
      let cont : Packet := { b.pack (b.pc + 4) with hdr := { b.header with kind := .continuation, stl := true } }
      let t1 := t.launchPacket s.rank cont (some s.berth)
      let t2 := t1.modMe fun k => { k with
        hdr := some { b.header with pfh := b.fr, cl := true, kind := .ordinary }, fr := 0, pair := [] }
      .ok (t2.jump (targetJ s.me.pc o)))

/-- One claim at a range frame's home (R160): the chunk, if any is left. -/
def claim (s : State) (h : Nat) : State × Option (Word × Word) :=
  let nxt := sint 64 (s.fget h 32 8)
  let rem := sint 64 (s.fget h 40 8) - nxt
  if rem ≤ 0 then (s, none)
  else
    let m := (s.fget h 48 4 : Int)
    let w := (s.fget h 52 2 : Int)
    let c := min rem (max m ((rem + w - 1) / w))
    (s.fset h 32 8 (BitVec.ofInt 64 (nxt + c)).toNat, some (BitVec.ofInt 64 nxt, BitVec.ofInt 64 (nxt + c)))

/-- The state with worker i of a SPAWNR and its first chunk on its way (R160). -/
def worker (s t : State) (h : Nat) (target : Word) (i : Nat) (c : Word × Word) : State :=
  let pk := childPacket s.me target (BitVec.ofNat 32 h) true
  (t.fset h 54 2 (i + 1)).launchPacket s.rank { pk with x := vset (vset (vset pk.x 1 c.1) 2 c.2) 3 (w64 i) } none
/-- Workers i to i + n - 1 of a SPAWNR, as long as a chunk is left (R160). -/
def workers (s : State) (h : Nat) (target : Word) (i : Nat) : Nat → State
  | 0 => s
  | n + 1 => (claim s h).2.elim s fun c => workers (worker s (claim s h).1 h target i c) h target (i + 1) n

/-- SPAWNR (R160, R202). -/
def execSpawnr (n : BitVec 5) (o : BitVec 20) (s : State) : Host.Outcome State Fault Refusal :=
  let a := s.rx n
  let b := s.rx (n + 1)
  let lo := sint 48 (fld a 0 48)
  let hi := sint 48 (fld b 0 48)
  s.finish (
    if !s.acked && s.cancelled then s.exitCancelled
    else if hi ≤ lo then
      let h := s.me.header
      .ok (s.done (if h.cl && h.pfh != 0 then s.clmTime (frank h.pfh.toNat) else 8) {})
    else if !s.acked ∧ (s.homeRec true).isNone then waitFor .frame
    else do
      let t ← s.spawnCount
      match t.homeRec true with
      | none => waitFor .frame
      | some h =>
        let t1 := t.newRec h true t.me.fr.toNat
        let t2 := t1.fset h 32 8 (BitVec.ofInt 64 lo).toNat
        let t3 := t2.fset h 40 8 (BitVec.ofInt 64 hi).toNat
        let t4 := t3.fset h 48 4 (max 1 (fld b 48 16))
        let t5 := t4.fset h 52 2 (fld a 48 10 + 1)
        .ok (workers t5 h (targetJ s.me.pc o) 0 (fld a 48 10 + 1)).next)

/-- NEXTCH (R203): the claim goes to the range frame's home; a worker that finds no chunk exits. -/
def execNextch (o : BitVec 20) (s : State) : Host.Outcome State Fault Refusal :=
  let h := s.me.header.pfh.toNat
  s.finish (
    if s.acked then s.exitBarge
    else if h = 0 ∨ !s.liveRec h ∨ !s.isRange h then stop .ill (wd 0xB6000000 [(o.toNat, 0)])
    else if s.canc h then s.exitCancelled
    else gone ((s.await .frame).later (s.leaveIn + if frank h = s.rank then 0 else 2 * hops s.rank (frank h) + 9)
      (.chunkClaim (BitVec.ofNat 32 h) s.rank s.berth (targetJ s.me.pc o))))
/-- What the home sends berth b of core r for its claim: the chunk and the branch, or that none is left (R160). -/
def chunkReply (t : State) (r b : Nat) (target : Word) (d : Nat) : Option (Word × Word) → State
  | some (lo, hi) => t.reply r b { writes := [(1, lo), (2, hi)], pc := some target } d
  | none => t.reply r b { again := true } d
/-- CHUNK_CLAIM (R160, R203): the home answers with the chunk and the branch, or that none is left. -/
def execChunkClaim (h : BitVec 32) (r b : Nat) (target : BitVec 64) (s : State) : Host.Outcome State Fault Refusal :=
  let e := claim s h.toNat
  .next (chunkReply e.1 r b target (if frank h.toNat = r then 0 else 2 * hops (frank h.toNat) r + 9) e.2)

/-- The lowest free park slot of core r in a launch's area (R158, log 63). -/
def parkSlot (l : Launch) (r : Nat) : Option Nat :=
  let used := (l.parked.filter fun e => e.1 == r).map fun e => e.2.1
  (upTo 4096).find? fun i => !used.contains i

/-- AWAIT (R158, R204): cancellation is tested at issue and at resumption. -/
def execAwait (s : State) : Host.Outcome State Fault Refusal :=
  let b := s.me
  let h := b.fr.toNat
  let waiting : Bool := match b.wait with | some w => w.why == .await | none => false
  s.finish (
    if h ≠ 0 ∧ waiting ∧ s.fget h 0 4 ≠ 0 then waitFor .await
    else if s.cancelled then s.exitCancelled
    else if h = 0 then .ok s.next
    else do
    s.atHome (frank h)
    if s.fget h 0 4 = 0 then .ok (s.done (s.clmTime (frank h)) { acquire := true })
    else if b.pinned then waitFor .await
    else if s.inBuffer s.rank s.berth then waitFor .board
    else match s.launch b.lid with
      | none => waitFor .await
      | some l => match parkSlot l s.rank with
        | none => waitFor .await
        | some i =>
          let pk := { b.pack (b.pc + 4) with hdr := { b.header with kind := .continuation } }
          let s1 := s.modLaunch b.lid fun l => { l with parked := l.parked ++ [(s.rank, i, pk)] }
          let s2 := s1.imagePacket (clusterOf s.rank) pk b.arr (parkAt l s.rank + 288 * i)
          let s3 := (s2.fset h 16 8 (s.rank * 2 ^ 32 + i)).fmark h 2 true
          gone s3.retire.depart)

/-- EXIT (R204). -/
def execExit (s : State) : Host.Outcome State Fault Refusal := s.finish s.exitBarge
/-- YIELD (R204): a moored barge goes on; another re-enters its core's queue at the next instruction. It waits while the
repetition buffer holds a block of the berth (R95). The packet enters the queue, with this cycle as its ARR, when YIELD issues,
as a child spawned here does; no rule says in which cycle of the pipeline it does (DESIGN CHOICE, log 87). -/
def execYield (s : State) : Host.Outcome State Fault Refusal :=
  s.finish (
    if s.cancelled then s.exitCancelled
    else if s.inBuffer s.rank s.berth then waitFor .board
    else if s.me.pinned then .ok s.next
    else gone (s.retire.depart.enqueue s.rank (s.me.pack (s.me.pc + 4)) none))
/-- MOOR (R205). -/
def execMoor (s : State) : Host.Outcome State Fault Refusal := s.finish (.ok s.moor.next)
/-- What keeps a barge moored: an accumulator, a bound channel, a borrowed file, a block in the buffer (R154). -/
def holds (s : State) : Bool :=
  ((upTo 8).any fun n => s.owns n) || s.me.ports.toList.any Port.bound || s.me.borrowed.isSome || s.inBuffer s.rank s.berth
/-- UNMOOR (R154, R205). -/
def execUnmoor (s : State) : Host.Outcome State Fault Refusal :=
  s.finish (if holds s then stop .ill 0xB8000004 else .ok ((s.modMe fun b => { b with moored := false }).next))
/-- FRAME (R205). -/
def execFrame (d : BitVec 5) (s : State) : Host.Outcome State Fault Refusal := s.putX [] d (s.me.fr.setWidth 64)
/-- CANCEL (R206). -/
def execCancel (a : BitVec 5) (s : State) : Host.Outcome State Fault Refusal :=
  s.finish (do
    s.checkIns [a]
    let h := if a = 0 then s.me.fr.toNat else fld (s.rx a) 0 32
    let r := frank h
    let off := h % 131072
    if h = 0 then .ok (s.pops [a]).next
    else if 9216 ≤ r ∨ !s.inRect s.me.lid r ∨ off < 0x6000 ∨ 0x8000 ≤ off ∨ off % 32 ≠ 0 then stop .place (w64 h)
    else do
      s.atHome r
      let i := (off - 0x6000) / 32
      let hit := s.liveRec h && !s.secondHalf r i && s.fget h 12 2 == s.me.lid
      .ok ((if hit then s.fmark h 0 true else s).done (s.clmTime r) { srcs := [a] }))
/-- PLACE (R207): TVAL of its trap is the address it would have made. -/
def execPlace (d a b : BitVec 5) (s : State) : Host.Outcome State Fault Refusal :=
  s.finish (do
    s.checkPorts [a, b] d
    let x := (s.rx a).toNat
    let y := (s.rx b).toNat
    let v := 0xF000000000000 ||| (s.rx a <<< 17) ||| s.rx b
    if 9216 ≤ x ∨ !s.inRect s.me.lid x ∨ 0x20000 ≤ y then stop .place v
    else .ok (s.done 8 { srcs := [a, b], writes := [(d.toNat, v)] }))
/-- RANKOF (R42, R207): all ones for a core outside the rectangle. -/
def execRankof (d a : BitVec 5) (p : BitVec 15) (s : State) : Host.Outcome State Fault Refusal :=
  let w := s.rx a
  let v := match placeRank s.rank (if fieldInd p then wordDy w else fieldDy p) (if fieldInd p then wordDx w else fieldDx p) with
    | some r => if s.inRect s.me.lid r then w64 r else ones64
    | none => ones64
  s.putX [a] d v

/-! ### Taking barges in -/

/-- BARGE_ARRIVAL (R148, R153, R163). -/
def execBargeArrival (r : Nat) (pk : Sent Packet) (s : State) : Host.Outcome State Fault Refusal :=
  let lid := pk.val.hdr.lid.toNat
  let s1 := s.incRecv r lid
  .next (if s.dropsBarges lid then s1 else (s1.incLive r lid).enqueue r pk.val none)
/-- PAIR_MESSAGE (R225, R227): the destination enqueues the pair barge, which PEND counts since the pair was formed. -/
def execPairMessage (r : Nat) (pk : Sent Packet) (s : State) : Host.Outcome State Fault Refusal :=
  let lid := pk.val.hdr.lid.toNat
  .next (((s.incRecv r lid).incLive r lid).enqueue r pk.val none)

/-- Whether spilled packets return: RESID has fallen to half of CAP, or a return that began then is due to go on (R151). -/
def spillReady (s : State) (r : Nat) : Bool :=
  let c := s.core r
  !c.shut && (match c.spillAt with
    | some n => decide (n ≤ s.cycle)
    | none => !c.spillq.isEmpty && decide (c.queue.length ≤ c.cap / 2))
/-- Up to n packets return in arrival order, each with the ARR it had (R148, R151). A continuation of SPAWNC that has been spilled
is no longer held for its berth (R159 does not say; DESIGN CHOICE, log 87). -/
def unspill (c : Core) : Nat → Core
  | 0 => c
  | n + 1 => match c.spillq with
    | [] => c
    | (pk, arr, _) :: l =>
      if c.queue.length < c.cap then unspill { c with queue := c.queue ++ [⟨freeSlot c, pk, arr, none⟩], spillq := l } n else c
/-- SPILL_RETURN (R151): a batch of up to 8 packets returns; the return goes on until none is spilled or the queue is full.
Those held at their senders enter as far as there is room. R151 gives a batch no time: one a cycle (DESIGN CHOICE, log 5). -/
def execSpillReturn (r : Nat) (s : State) : Host.Outcome State Fault Refusal :=
  .next (if spillReady s r then
      let t := s.modCore r fun c =>
        let d := unspill c 8
        { d with spillAt := if d.spillq.isEmpty || decide (d.cap ≤ d.queue.length) then none else some (s.cycle + 1) }
      (t.core r).overq.foldl (fun u pk => u.enqueue r pk none) (t.modCore r fun c => { c with overq := [] })
    else s)

/-- Effective level and level-entry cycle (R149). -/
def qLevel (now : Nat) (e : QEnt) : Nat := Nat.min 3 (e.pk.hdr.pri.toNat + (now - e.arr) / 4096)
def qEntry (now : Nat) (e : QEnt) : Nat := e.arr + 4096 * (qLevel now e - e.pk.hdr.pri.toNat)
/-- The packet docked into berth b (R150); of several continuations held for it, the one pushed last stands in front
(R159). -/
def dockChoice (now : Nat) (q : List QEnt) (b : Nat) : Option QEnt :=
  match (q.filter fun e => e.hold == some b).getLast? with
  | some e => some e
  | none => minBy (fun e => ((3 - qLevel now e) * 2 ^ 64 + qEntry now e) * 64 + e.slot) q
/-- Whether berth b of a core is EMPTY (R34): enabled, and free since an earlier cycle. -/
def emptyBerth (now : Nat) (c : Core) (b : Nat) : Bool := c.enabled b && (c.berth b).idle && decide ((c.berth b).readyAt ≤ now)
/-- The state code of a berth (R34). A berth whose instruction is in the pipeline does not wait; one that is told to halt
while its barge leaves it is HALTING until it falls free. -/
def stateCode (s : State) (r b : Nat) : Nat :=
  let c := s.core r
  let k := c.berth b
  if k.lent.isSome then 5
  else if k.hdr.isNone && !k.started then
    (if s.cycle < k.readyAt then (if k.was = 1 ∧ k.halt = .asked then 3 else k.was) else if c.enabled b then 0 else 6)
  else if k.halt = .halted then 4
  else if k.halt = .asked then 3
  else if k.waiting then 2
  else 1
/-- The lowest enabled EMPTY berth (R150). -/
def dockBerth (now : Nat) (c : Core) : Option Nat := (upTo 16).find? (emptyBerth now c)
/-- A core of a cluster that is not ready docks nothing (R357). -/
def dockReady (s : State) (r : Nat) : Bool :=
  let c := s.core r
  s.lock.ready.contains (clusterOf r) && decide (c.dockAt ≤ s.cycle) && (c.pre == .none || c.pre == .restoring) && !c.queue.isEmpty && (dockBerth s.cycle c).isSome
/-- DOCKING (R28, R150, R289): chosen at its start, ready 10 cycles later; it acquires. A pair barge without a rule
traps NORULE before its first instruction (R227). -/
def execDocking (r : Nat) (s : State) : Host.Outcome State Fault Refusal :=
  if !dockReady s r then .next s
  else match dockBerth s.cycle (s.core r) with
    | none => .next s
    | some b => match dockChoice s.cycle (s.core r).queue b with
      | none => .next s
      | some e =>
        let s1 := s.modCore r fun c => { c with queue := c.queue.filter fun q => q.slot != e.slot, dockAt := s.cycle + 10 }
        let s2 := (s1.acquire r).dockInto r b e.pk e.arr
        let s3 := if e.pk.pend then s2.decPend r e.pk.hdr.lid.toNat else s2
        let s4 := if e.pk.norule then ((s3.as r b).enter .norule (vget e.pk.x 3 0) e.pk.pc 0 0 0 false).back s else s3
        .next (s4.modBerth r b fun k => { k with readyAt := s.cycle + if (s.core r).stamp = 63 then 33 else 10 })

/-! ### Stealing (R161) -/

/-- An idle core: no berth of it is in state RUN, one is EMPTY, and nothing is queued (R161). -/
def coreIdle (s : State) (r : Nat) : Bool :=
  let c := s.core r
  c.pre == .none && c.queue.isEmpty && c.spillq.isEmpty && (dockBerth s.cycle c).isSome
    && (upTo 16).all fun b => stateCode s r b != 1
/-- Candidates of core v for thief r. -/
def stealable (s : State) (r v : Nat) : List QEnt :=
  (s.core v).queue.filter fun e => e.pk.hdr.stl && e.pk.hdr.kind != .pair &&
    (match s.launch e.pk.hdr.lid.toNat with | some l => l.inRect r && !l.cancel | none => false)
def stealReady (s : State) (r : Nat) : Bool :=
  !(s.core r).stealOut && decide ((s.core r).stealAt ≤ s.cycle) && coreIdle s r
    && (ringRanks (clusterOf r)).any fun v => v != r && !(s.core v).queue.isEmpty
/-- STEAL_REQUEST: one request outstanding. A request that could only return empty is not sent (log 23). -/
def execStealRequest (r : Nat) (s : State) : Host.Outcome State Fault Refusal :=
  if !stealReady s r then .next s
  else .next ((s.modCore r fun c => { c with stealOut := true }).modCluster (clusterOf r) fun c => { c with steals := c.steals ++ [r] })
def stealServeReady (s : State) (cl : Nat) : Bool := !(s.cluster cl).steals.isEmpty && decide ((s.cluster cl).stealNext ≤ s.cycle)
/-- The core with the most candidates, ties to the lower ring position. -/
def victimOf (s : State) (r : Nat) : List Nat → Option Nat
  | l => match minBy (fun v => 64 - (stealable s r v).length) (l.filter fun v => v != r) with
    | some v => if (stealable s r v).isEmpty then none else some v
    | none => none
/-- STEAL_SERVE: the earliest candidate of the fullest core moves, after a release at the victim. Of candidates with the same
ARR it is the one in the lowest queue slot, which R161 does not say (DESIGN CHOICE, log 63). -/
def execStealServe (cl : Nat) (s : State) : Host.Outcome State Fault Refusal :=
  if !stealServeReady s cl then .next s
  else match (s.cluster cl).steals with
    | [] => .next s
    | r :: rest =>
      let s1 := s.modCluster cl fun c => { c with steals := rest, stealNext := s.cycle + 4 }
      match victimOf s1 r (ringRanks cl) with
      | none => .next (s1.modCore r fun c => { c with stealOut := false, stealAt := s.cycle + 64 })
      | some v => match minBy (fun e => e.arr * 64 + e.slot) (stealable s1 r v) with
        | none => .next s1
        | some e =>
          let lid := e.pk.hdr.lid.toNat
          let s2 := (s1.release v).modCore v fun c => { c with queue := c.queue.filter fun q => q.slot != e.slot }
          .next (((s2.decLive v lid).incSent v lid).afterRelease v 0 (9 + 2 * hops v r) (.bargeArrival r ⟨e.pk, v⟩) (some r))

end Sys2Proof.Machine
end

