-- ==== Sys2Proof/Machine/Stair.lean ====
section
/-!
DEFINITION. The staircase engine: grammar images (R313 to R317, R381), slots and the persistent stack (R318, R319), the
engine's queue (R320, R321), and the staircase instructions (R322 to R325).
-/
namespace Sys2Proof.Machine
open State

/-! ### Reading a grammar image -/

/-- What the engine works on: the machine, and the bytes it has run and the trie nodes its search has examined, which its time
counts also where it fails (R320). -/
structure Tally where
  st : State
  bytes : Nat
  nodes : Nat
deriving DecidableEq, Repr
/-- A computation of the engine: it reads global memory, and fails where it meets a malformed entry. -/
abbrev Eng := OptionT (StateM Tally)

def engBad {α : Type} : Eng α := OptionT.mk fun t => (none, t)
/-- A read of the machine. -/
def engOn {α : Type} (f : State → Option α × State) : Eng α := OptionT.mk fun t => let r := f t.st; (r.1, { t with st := r.2 })
def countByte : Eng Unit := OptionT.mk fun t => (some (), { t with bytes := t.bytes + 1 })
def countNode : Eng Unit := OptionT.mk fun t => (some (), { t with nodes := t.nodes + 1 })
/-- The computation begins in a state, with nothing counted. -/
def Eng.go {α : Type} (m : Eng α) (t : State) : Option α × Tally := m.run ⟨t, 0, 0⟩
/-- A byte of global memory, at its home (R313, R325). A poisoned one is never read as data: the entry it stands in counts
as malformed (R339; DESIGN CHOICE, log 81). -/
def engByte (cl : Nat) (w : Who) (va : Nat) : Eng Nat := engOn fun t =>
  if 13 * 2 ^ 48 ≤ va then (none, t)
  else match t.xlate cl w .read va with
    | (u, some e) => (if u.poisoned (.hbm e.2) then none else some (u.readByte (.hbm e.2)).toNat, u)
    | (u, none) => (none, u)
def engRead (cl : Nat) (w : Who) (va : Nat) : Nat → Eng Nat
  | 0 => pure 0
  | n + 1 => do
    let lo ← engRead cl w va n
    let b ← engByte cl w (va + n)
    pure (lo + b * 256 ^ n)

/-- The header of an image (R313), and where it is read from. -/
structure Img where
  cl : Nat
  who : Who
  va : Nat
  nst : Nat
  nsym : Nat
  ntok : Nat
  nnode : Nat
  st : Nat
  tr : Nat
  cm : Nat
  tri : Nat
  ca : Nat
  ends : List Nat
  start : Nat
deriving DecidableEq, Repr

namespace Img
def read (g : Img) (off n : Nat) : Eng Nat := engRead g.cl g.who (g.va + off) n
end Img

/-- The header's fields as they stand, and whether they keep R313. -/
def readImg (cl : Nat) (w : Who) (va : Nat) : Eng (Img × Bool) := do
  let rd := fun off n => engRead cl w (va + off) n
  let magic ← rd 0 4
  let ver ← rd 4 4
  let nst ← rd 8 4
  let nsym ← rd 12 4
  let ntok ← rd 16 4
  let nnode ← rd 20 4
  let st ← rd 24 8
  let tr ← rd 32 8
  let cm ← rd 40 8
  let tri ← rd 48 8
  let ca ← rd 56 8
  let e0 ← rd 64 4
  let e1 ← rd 68 4
  let e2 ← rd 72 4
  let e3 ← rd 76 4
  let start ← rd 80 2
  let rest ← rd 82 46
  let es := [e0, e1, e2, e3]
  let ok := decide (magic = 0x53434731 ∧ ver = 1 ∧ 1 ≤ nst ∧ nst ≤ 65535 ∧ 1 ≤ nsym ∧ nsym ≤ 4096 ∧ 1 ≤ ntok ∧ ntok ≤ 2 ^ 20
    ∧ 1 ≤ nnode ∧ nnode ≤ 2 ^ 24 ∧ start < nst ∧ rest = 0) && es.all fun w => w / 2 ^ 20 % 2 ^ 11 == 0
  let ends := (es.filter fun w => decide (2 ^ 31 ≤ w)).map fun w => w % 2 ^ 20
  pure (⟨cl, w, va, nst, nsym, ntok, nnode, st, tr, cm, tri, ca, ends, start⟩, ok)

/-- The check of a header at SC.OPEN and SC.LOAD (R317, R323): a translation fault, a malformed image, or the header. -/
inductive HdrRes where
  | fault
  | bad
  | good (g : Img)
deriving DecidableEq, Repr
def checkImg (t : State) (cl : Nat) (w : Who) (va : Nat) : HdrRes × State :=
  if 13 * 2 ^ 48 < va + 128 then (.fault, t)
  else match t.xlate cl w .read va with
    | (u, none) => (.fault, u)
    | (u, some (p, _)) =>
      if va % 64 ≠ 0 ∨ !pteStdy p then (.bad, u)
      else match u.xlate cl w .read (va + 127) with
        | (v, none) => (.fault, v)
        | (v, some (p2, _)) =>
          if !pteStdy p2 then (.bad, v)
          else match (readImg cl w va).go v with
            | (some (g, true), x) => (.good g, x.st)
            | (_, x) => (.bad, x.st)

/-- A state entry: its first transition, their count, ACC (R313, R317). -/
def stateEntry (g : Img) (s : Nat) : Eng (Nat × Nat × Bool) :=
  if g.nst ≤ s then engBad
  else do
    let v ← g.read (g.st + 8 * s) 8
    if 2 ^ 49 ≤ v then engBad else pure (v % 2 ^ 32, v / 2 ^ 32 % 65536, v / 2 ^ 48 % 2 == 1)

/-- A transition entry: NEXT, ACT, PSYM, TOPS, ANYT, CLS. -/
structure Trans where
  next : Nat
  act : Nat
  psym : Nat
  tops : Nat
  anyt : Bool
  cls : Nat
deriving DecidableEq, Repr
def transEntry (g : Img) (i : Nat) : Eng Trans := do
  let v ← g.read (g.tr + 8 * i) 8
  let t : Trans := ⟨v / 2 ^ 48, v / 2 ^ 46 % 4, v / 2 ^ 34 % 4096, v / 2 ^ 22 % 4096, v / 2 ^ 21 % 2 == 1, v % 256⟩
  if t.act = 3 ∨ v / 256 % 2 ^ 13 ≠ 0 ∨ g.nst ≤ t.next ∨ (t.act = 1 ∧ (t.psym = 0 ∨ g.nsym ≤ t.psym)) ∨ (t.act ≠ 1 ∧ t.psym ≠ 0)
  then engBad else pure t
/-- The transition of R314 for a class and a top: the exact match, else the entry for any top. -/
def findTrans (g : Img) (c top : Nat) : Nat → Nat → Option Trans → Eng (Option Trans)
  | 0, _, any => pure any
  | n + 1, i, any => do
    let t ← transEntry g i
    if t.cls = c ∧ !t.anyt ∧ t.tops = top then pure (some t)
    else findTrans g c top n (i + 1) (if t.cls = c ∧ t.anyt ∧ any.isNone then some t else any)

/-- A trie node: first child, child count, edge byte, token id, TERM. -/
structure TNode where
  first : Nat
  count : Nat
  byte : Nat
  tok : Nat
  term : Bool
deriving DecidableEq, Repr
/-- A trie node (R313, R317): the index of its first child, also of a leaf, lies in the trie, and so do its children. -/
def trieNode (g : Img) (i : Nat) : Eng TNode :=
  if g.nnode ≤ i then engBad
  else do
    let a ← g.read (g.tri + 16 * i) 8
    let b ← g.read (g.tri + 16 * i + 8) 8
    let k : TNode := ⟨a % 2 ^ 32, a / 2 ^ 32 % 65536, a / 2 ^ 48 % 256, b % 2 ^ 20, b / 2 ^ 31 % 2 == 1⟩
    if 2 ^ 56 ≤ a ∨ g.nnode ≤ k.first ∨ g.nnode < k.first + k.count ∨ b / 2 ^ 20 % 2 ^ 11 ≠ 0 ∨ 2 ^ 32 ≤ b then engBad else pure k
def TNode.children (k : TNode) : List Nat := (upTo k.count).map fun i => k.first + i

/-! ### The stack -/

/-- A run's stack: the symbols it has pushed, top first, the store link below them, and the whole depth. -/
structure Stk where
  push : List Nat
  base : Nat
  depth : Nat
deriving DecidableEq, Repr

def storeEnt (c : Cluster) (i : Nat) : Nat × Nat := (alGet c.store i).getD (0, 0)
def stkOf (k : Conf) : Stk := ⟨[], k.top, k.depth⟩
/-- The top symbol; the empty stack reads 0 (R314). -/
def Stk.top (c : Cluster) (k : Stk) : Nat := match k.push with | a :: _ => a | [] => if k.base = 0 then 0 else (storeEnt c k.base).1

/-- One byte (R314): dead, or the next state and stack. -/
def runByte (g : Img) (c : Cluster) (s : Nat) (k : Stk) (b : Nat) : Eng (Option (Nat × Stk)) := do
  countByte
  let cls ← g.read (g.cm + b) 1
  let (first, count, _) ← stateEntry g s
  match ← findTrans g cls (k.top c) count first none with
  | none => pure none
  | some t =>
    if t.act = 0 then pure (some (t.next, k))
    else if t.act = 1 then pure (if k.depth = 65535 then none else some (t.next, ⟨t.psym :: k.push, k.base, k.depth + 1⟩))
    else if k.depth = 0 then pure none
    else match k.push with
      | _ :: r => pure (some (t.next, ⟨r, k.base, k.depth - 1⟩))
      | [] => pure (some (t.next, ⟨[], (storeEnt c k.base).2, k.depth - 1⟩))

/-- A run of bytes: dead, store full, or where it ends (R314, R323). A token whose run meets a dead step is not allowed, also
where the store has been full before that. -/
inductive RunEnd where
  | dead
  | full
  | at_ (s : Nat) (k : Stk)
deriving DecidableEq, Repr
def runBytes (g : Img) (c : Cluster) (room : Nat) : List Nat → Nat → Stk → Bool → Eng RunEnd
  | [], s, k, full => pure (if full then .full else .at_ s k)
  | b :: r, s, k, full => do
    match ← runByte g c s k b with
    | none => pure .dead
    | some (s2, k2) => runBytes g c room r s2 k2 (full || decide (room < k2.push.length))

/-- The search of R381, in pre-order: the token's bytes if it is found. A node stands with the bytes on the path to its parent;
the root has no edge. -/
def findTok (g : Img) (t : Nat) : Nat → List (Nat × Option (List Nat)) → Eng (Option (List Nat))
  | _, [] => pure none
  | 0, _ :: _ => engBad                                   -- more nodes than the trie has: a cycle
  | f + 1, (i, path) :: rest => do
    countNode
    let k ← trieNode g i
    let p := match path with | none => [] | some l => l ++ [k.byte]
    if k.term ∧ k.tok = t then pure (some p)
    else findTok g t f ((k.children.map fun j => (j, some p)) ++ rest)

/-- The mask's walk (R324): the allowed trie tokens of [lo, lo + cnt) as bits. A node whose byte is run is visited (R320). -/
def walkMask (g : Img) (c : Cluster) (lo cnt : Nat) : Nat → List (Nat × Nat × Stk) → Nat → Eng Nat
  | _, [], bits => pure bits
  | 0, _ :: _, _ => engBad
  | f + 1, (i, s, k) :: rest, bits => do
    let nd ← trieNode g i
    match ← runByte g c s k nd.byte with
    | none => walkMask g c lo cnt f rest bits
    | some (s2, k2) =>
      let hit := nd.term && !g.ends.contains nd.tok && decide (nd.tok < g.ntok ∧ lo ≤ nd.tok ∧ nd.tok < lo + cnt)
      walkMask g c lo cnt f ((nd.children.map fun j => (j, s2, k2)) ++ rest)
        (if hit then bits ||| 2 ^ (nd.tok - lo) else bits)

/-- The mask cache's entry for a state and a top, by binary search (R316). -/
def cacheFind (g : Img) (s top : Nat) : Nat → Nat → Nat → Eng (Option Nat)
  | 0, _, _ => pure none
  | f + 1, lo, hi =>
    if hi ≤ lo then pure none
    else do
      let mid := (lo + hi) / 2
      let v ← g.read (g.ca + 8 + 8 * mid) 8
      let key := v % 65536 * 4096 + v / 65536 % 4096
      if key = s * 4096 + top then pure (some (v / 2 ^ 32))
      else if key < s * 4096 + top then cacheFind g s top f (mid + 1) hi
      else cacheFind g s top f lo mid

/-- The mask of R315 over [lo, lo + cnt), and what its time at the engine is but for 4 cycles for each node visited (R320). -/
def maskOf (g : Img) (c : Cluster) (k : Conf) (lo cnt : Nat) : Eng (Nat × Nat) := do
  if k.fin then pure (0, 64)
  else
    let st := stkOf k
    let hit ← if g.ca = 0 then pure none else do
      let n ← g.read g.ca 8
      cacheFind g k.s (st.top c) 64 0 n
    match hit with
    | some off =>
      let n := Nat.min cnt (g.ntok - lo)
      let v ← g.read (off + lo / 8) ((n + 7) / 8)
      pure (v % 2 ^ n, 64 + cnt / 64)
    | none =>
      let root ← trieNode g 0
      let bits ← walkMask g c lo cnt g.nnode (root.children.map fun j => (j, k.s, st)) 0
      let (_, _, acc) ← stateEntry g k.s
      let ends := if acc ∧ k.depth = 0 then g.ends.filter fun t => decide (t < g.ntok ∧ lo ≤ t ∧ t < lo + cnt) else []
      pure (ends.foldl (fun b t => b ||| 2 ^ (t - lo)) bits, 64)

/-- What SC.STEP finds (R315, R381): the configuration after the token if it is allowed, and whether the store was full. -/
def stepTok (g : Img) (c : Cluster) (k : Conf) (t : Nat) : Eng (Option (Nat × Stk × Bool) × Bool) := do
  if g.ntok ≤ t then pure (none, false)
  else if g.ends.contains t then do
    if k.fin then pure (none, false)
    else
      let (_, _, acc) ← stateEntry g k.s
      pure (if acc ∧ k.depth = 0 then some (k.s, stkOf k, true) else none, false)
  else
    match ← findTok g t g.nnode [(0, none)] with
    | none => pure (none, false)
    | some bs =>
      if k.fin ∨ bs.isEmpty then pure (none, false)
      else
        match ← runBytes g c (65535 - c.store.length) bs k.s (stkOf k) false with
        | .dead => pure (none, false)
        | .full => pure (none, true)
        | .at_ s st => pure (some (s, st, false), false)

/-! ### Slots and the store -/

def freeEnt (c : Cluster) : Nat := ((upTo 65536).find? fun i => i != 0 && (alGet c.store i).isNone).getD 0
/-- Allocates symbols, the deepest first, above a link: the new top. -/
def pushAll : List Nat → Cluster → Nat → Cluster × Nat
  | [], c, l => (c, l)
  | a :: r, c, l => let n := freeEnt c; pushAll r { c with store := alSet c.store n (a, l) } n

/-- A stack's entries, top first. -/
def chain (c : Cluster) : Nat → Nat → List Nat
  | 0, _ => []
  | f + 1, l => if l = 0 then [] else l :: chain c f (storeEnt c l).2
def slotConfs (k : StairSlot) : List Conf := k.conf :: k.hist
/-- Frees every entry that no slot and no history refers to any longer (R318). -/
def sweep (c : Cluster) : Cluster :=
  let live := (c.sslots.map fun e => ((slotConfs e.2).map fun k => chain c k.depth k.top).flatten).flatten
  { c with store := c.store.filter fun e => live.contains e.1 }

def freeStair (c : Cluster) : Option Nat := (upTo 64).find? fun i => (alGet c.sslots i).isNone
def genOf (c : Cluster) (i : Nat) : Nat := (alGet c.gens i).getD 0
def handleOf (cl i gen : Nat) : Word := w64 (i * 2 ^ 26 + cl * 65536 + gen)
/-- Opens the lowest free slot with k; all ones when none is free (R319, R323). -/
def openStair (cl : Nat) (c : Cluster) (k : StairSlot) : Cluster × Word :=
  match freeStair c with
  | none => (c, ones64)
  | some i =>
    let gen := genOf c i % 65535 + 1
    ({ c with sslots := alSet c.sslots i k, gens := alSet c.gens i gen, scBad := nsDel c.scBad i }, handleOf cl i gen)
def closeStair (c : Cluster) (i : Nat) : Cluster := sweep { c with sslots := alDel c.sslots i, scBad := nsDel c.scBad i }
/-- The slot a handle names for a launch (R319). -/
def findStair (c : Cluster) (h : Word) (lid : Nat) : Option (Nat × StairSlot) :=
  let i := fld h 26 6
  match alGet c.sslots i with
  | some k => if genOf c i = fld h 0 16 ∧ k.lid = lid then some (i, k) else none
  | none => none
/-- Slots close when their launch reaches a final state. -/
def closeLaunchStair (c : Cluster) (lid : Nat) : Cluster :=
  sweep { c with sslots := c.sslots.filter fun e => e.2.lid != lid,
                 scBad := c.scBad.filter fun i => match alGet c.sslots i with | some k => k.lid != lid | none => false }

/-- Slot words 0 and 1 (R323). -/
def slotWord0 (acc : Bool) (k : StairSlot) : Word :=
  w64 (k.conf.s * 2 ^ 48 + k.conf.depth * 2 ^ 32 + k.hist.length * 65536 + (if k.err then 2048 else 0)
    + (if k.conf.fin then 1024 else 0) + (if acc ∧ k.conf.depth = 0 then 512 else 0) + 256)
def slotWord1 (k : StairSlot) : Word := w64 (k.seq.toNat * 2 ^ 32 + k.conf.pos.toNat)
/-- On whose behalf the engine reads a slot's image: its launch (R323). -/
def slotWho (k : StairSlot) : Who := ⟨0, k.asid, false, k.lid⟩
/-- ACC of a slot's state; an entry that cannot be read does not accept. -/
def slotAcc (k : StairSlot) (cl : Nat) (t : State) : Bool × State :=
  match (do let (g, _) ← readImg cl (slotWho k) k.img.toNat; stateEntry g k.conf.s : Eng (Nat × Nat × Bool)).go t with
  | (some (_, _, a), u) => (a, u.st)
  | (none, u) => (false, u.st)
/-- The engine word (R323): the requests that have arrived and wait. -/
def engineWord (now : Nat) (c : Cluster) : Word :=
  w64 ((65535 - c.store.length) * 2 ^ 48 + (c.scq.filter fun e => decide (e.1 ≤ now)).length * 2 ^ 32 + (64 - c.sslots.length))

/-! ### The queue (R320) -/

def scErr (code : Nat) (h : Option Word) : Cause × Word :=
  (.scerr, w64 (code * 2 ^ 56 + (match h with | some w => fld w 0 32 | none => 0)))
def scStop {α : Type} (code : Nat) (h : Option Word) : Run α := stop (scErr code h).1 (scErr code h).2

/-- What a request comes to: the state, the cycles at the engine, and its answer. -/
structure ScRes where
  st : State
  cost : Nat
  reply : Reply
deriving DecidableEq, Repr

def scTrap (t : State) (cost : Nat) (q : Cause × Word) : ScRes := ⟨t, cost, { trap := some q }⟩
def scVal (q : ScReq) (t : State) (cost : Nat) (v : Word) : ScRes := ⟨t, cost, { srcs := q.srcs, writes := [(q.d, v)] }⟩
def scNone (q : ScReq) (t : State) (cost : Nat) : ScRes := ⟨t, cost, { srcs := q.srcs }⟩

/-- The issuer of a request, and as which it reads an image: under its launch's ASID (R323, R280). -/
def ScReq.who (q : ScReq) : Who := ⟨q.rank, q.asid, q.user, q.lid⟩
def ScReq.imgWho (q : ScReq) : Who := ⟨q.rank, q.lasid, q.user, q.lid⟩
/-- SC.OPEN at the engine (R317, R323). -/
def scOpening (cl : Nat) (q : ScReq) (t : State) : ScRes :=
  match checkImg t cl q.imgWho q.a.toNat with
  | (.fault, u) => scTrap u 64 (.loadf, q.a)
  | (.bad, u) => scTrap u 64 (scErr 2 none)
  | (.good g, u) =>
    let k : StairSlot := ⟨q.a, q.b.setWidth 32, ⟨g.start, 0, 0, false, q.b.extractLsb' 32 32⟩, [], false, q.lid, q.lasid⟩
    let r := openStair cl (u.cluster cl) k
    scVal q (u.setCluster cl r.1) 64 r.2

/-- SC.STEP at the engine (R323): 16 cycles, 4 per byte run and 1 per node examined, also where it traps (R320). -/
def scStepping (cl : Nat) (q : ScReq) (i : Nat) (k : StairSlot) (t : State) : ScRes :=
  let c := t.cluster cl
  let bad := scErr 2 (some q.a)
  let cost (y : Tally) : Nat := 16 + 4 * y.bytes + y.nodes
  if c.scBad.contains i then scTrap t 16 bad
  else match (do let (g, _) ← readImg cl (slotWho k) k.img.toNat; stepTok g c k.conf (fld q.b 0 20) :
      Eng (Option (Nat × Stk × Bool) × Bool)).go t with
    | (none, y) => scTrap y.st (cost y) bad
    | (some (_, true), y) => scTrap y.st (cost y) (scErr 3 (some q.a))
    | (some (none, false), y) =>
      let a := slotAcc k cl y.st
      ⟨a.2, cost y, { srcs := q.srcs, writes := [(q.d, slotWord0 a.1 k)], pred := some (q.pred, false) }⟩
    | (some (some (s, st, fin), false), y) =>
      let u := y.st
      let r := pushAll st.push.reverse (u.cluster cl) st.base
      let k2 := { k with conf := ⟨s, r.2, st.depth, fin, k.conf.pos + 1⟩, hist := (k.hist ++ [k.conf]).drop (k.hist.length + 1 - 64) }
      let u1 := u.setCluster cl (sweep { r.1 with sslots := alSet r.1.sslots i k2 })
      let a := slotAcc k2 cl u1
      ⟨a.2, cost y, { srcs := q.srcs, writes := [(q.d, slotWord0 a.1 k2)], pred := some (q.pred, true) }⟩

/-- Writes the mask's dwords in increasing order, each set full (R324). A bank that is no longer SCRATCH discards them. -/
def scWriteMask (l : Loc) (bits : Nat) (t : State) : Nat → State
  | 0 => t
  | n + 1 =>
    let u := scWriteMask l bits t n
    ((u.storeAt (l.plus (8 * n)) 8 (bits / 2 ^ (64 * n) % 2 ^ 64)).setFull (l.plus (8 * n)) true)
/-- Where SC.MASK writes (R324). -/
def scMaskLoc (q : ScReq) : Loc :=
  let a := q.b.toNat
  if a / 2 ^ 48 = 13 then .basin (clusterOf q.rank) (a % 2 ^ 21)
  else if a / 2 ^ 48 = 14 then .clm q.rank (a % 2 ^ 17)
  else .clm (a / 2 ^ 17 % 2 ^ 14) (a % 2 ^ 17)
/-- SC.MASK at the engine (R324): a stale handle or a malformed entry gives zeros, and no trap. Its time counts the nodes it has
visited (R320). -/
def scMasking (cl : Nat) (q : ScReq) (t : State) : ScRes :=
  let c := t.cluster cl
  let lo := fld q.r 0 20
  let cnt := fld q.r 20 22
  let put (u : State) (bits : Nat) : State :=
    match scMaskLoc q with
    | .basin b off => if (upTo (cnt / 64)).all fun n => (u.bankOf b ((off + 8 * n) / 131072)).mode == 1
        then scWriteMask (.basin b off) bits u (cnt / 64) else u
    | l => scWriteMask l bits u (cnt / 64)
  let fail (u : State) (i : Nat) : State :=
    u.modCluster cl fun c => { c with sslots := match alGet c.sslots i with
      | some k => alSet c.sslots i { k with err := true }
      | none => c.sslots }
  match findStair c q.a q.lid with
  | none => scNone q (put t 0) 64
  | some (i, k) =>
    if c.scBad.contains i then scNone q (put (fail t i) 0) 64
    else match (do let (g, _) ← readImg cl (slotWho k) k.img.toNat; maskOf g c k.conf lo cnt : Eng (Nat × Nat)).go t with
      | (none, y) => scNone q (put (fail y.st i) 0) (64 + 4 * y.bytes)
      | (some (bits, cost), y) => scNone q (put y.st bits) (cost + 4 * y.bytes)

/-- SC.ROLL at the engine (R323). -/
def scRolling (cl : Nat) (q : ScReq) (i : Nat) (k : StairSlot) (t : State) : ScRes :=
  let n := q.b.toNat
  if k.hist.length < n then scTrap t 16 (scErr 4 (some q.a))
  else if n = 0 then scNone q t 16
  else
    let j := k.hist.length - n
    let k2 := { k with conf := k.hist[j]?.getD k.conf, hist := k.hist.take j }
    scNone q (t.modCluster cl fun c => sweep { c with sslots := alSet c.sslots i k2 }) 16

/-! ### Saved records (R325) -/

/-- The record's place: CLM bytes, or a global address. -/
inductive RecPlace where
  | clm (rank off : Nat)
  | global (va : Nat)
deriving DecidableEq, Repr
def recPlace (q : ScReq) (a : Word) : RecPlace :=
  if fld a 48 16 = 14 then .clm q.rank (fld a 0 17)
  else if fld a 48 16 = 15 then .clm (fld a 17 14) (fld a 0 17)
  else .global a.toNat
/-- Whether the record's n bytes can be reached, a sector at a time. -/
def recReach (cl : Nat) (q : ScReq) (k : Kind) (p : RecPlace) (n : Nat) (t : State) : Bool :=
  match p with
  | .clm _ off => decide (off + n ≤ 131072)
  | .global va => decide (va + n ≤ 13 * 2 ^ 48) && (upTo (n / 64)).all fun i => (t.xlate cl q.who k (va + 64 * i)).2.isSome
def recRead (cl : Nat) (q : ScReq) (p : RecPlace) (off n : Nat) : Eng Nat :=
  match p with
  | .clm r o => engOn fun t => (some (t.readN (.clm r (o + off)) n), t)
  | .global va => engRead cl q.who (va + off) n
/-- Whether n bytes of a record that can be reached hold a poisoned unit: the record is then malformed (R339; DESIGN CHOICE,
log 81). -/
def recPois (cl : Nat) (q : ScReq) (p : RecPlace) (n : Nat) (t : State) : Bool :=
  match p with
  | .clm r o => t.anyPoison (.clm r o) n
  | .global va => (upTo (n / 64)).any fun i => match (t.xlate cl q.who .read (va + 64 * i)).2 with
      | some e => t.anyPoison (.hbm e.2) 64
      | none => false
/-- Writes dword i of the record. -/
def recPut (cl : Nat) (q : ScReq) (p : RecPlace) (off v : Nat) (t : State) : State :=
  match p with
  | .clm r o => t.storeAt (.clm r (o + off)) 8 v
  | .global va => match t.xlate cl q.who .write (va + off) with
    | (u, some (_, pa)) => u.storeAt (.hbm pa) 8 v
    | (u, none) => u
/-- The record's sectors in the issuing core's L1 are cleaned, and for SC.SAVE invalidated. -/
def recClean (q : ScReq) (inv : Bool) (p : RecPlace) (n : Nat) (t : State) : State :=
  match p with
  | .clm _ _ => t
  | .global va => iter (fun i u =>
      let a := va + 64 * i
      if inv then u.purgeSector q.rank q.asid a
      else match u.lineOf q.rank q.asid a with
        | some l => (u.cleanSector l (a % 1024 / 128)).putLine q.rank (l.only l.valid (l.dirty &&& ~~~secMask (a % 1024 / 128)))
        | none => u) (n / 64) t
def recBytes (depth : Nat) : Nat := 64 + (2 * depth + 63) / 64 * 64
/-- Dword i of a slot's record. -/
def recWord (k : StairSlot) (syms : List Nat) (i : Nat) : Nat :=
  if i = 0 then k.img.toNat
  else if i = 1 then k.conf.pos.toNat * 2 ^ 32 + k.seq.toNat
  else if i = 2 then (if k.conf.fin then 2 ^ 32 else 0) + k.conf.depth * 65536 + k.conf.s
  else if i < 8 then 0
  else (upTo 4).foldl (fun n j => n + (syms[4 * (i - 8) + j]?.getD 0) * 2 ^ (16 * j)) 0
/-- SC.SAVE at the engine: the history is not written. -/
def scSaving (cl : Nat) (q : ScReq) (k : StairSlot) (t : State) : ScRes :=
  let n := recBytes k.conf.depth
  let p := recPlace q q.b
  let c := t.cluster cl
  if !recReach cl q .write p n t then scTrap t (64 + 2 * k.conf.depth) (.storef, q.b)
  else
    let syms := ((chain c k.conf.depth k.conf.top).map fun e => (storeEnt c e).1).reverse
    let t1 := recClean q true p n t
    scNone q (iter (fun i u => recPut cl q p (8 * i) (recWord k syms i) u) (n / 8) t1) (64 + 2 * k.conf.depth)
/-- The symbols of a record, the bottom first; none where a field breaks R313 or a zero field is not zero. -/
def recSyms (nsym : Nat) (v : Nat) (depth : Nat) : Nat → Option (List Nat)
  | 0 => some []
  | n + 1 => match recSyms nsym v depth n with
    | none => none
    | some l =>
      let a := v / 2 ^ (16 * n) % 65536
      if n < depth then (if a = 0 ∨ nsym ≤ a then none else some (l ++ [a]))
      else if a = 0 then some l else none
/-- SC.LOAD at the engine: 64 cycles, and 2 for each entry of DEPTH from when it has read that field (R320; DEDUCED, log 35). -/
def scLoading (cl : Nat) (q : ScReq) (t : State) : ScRes :=
  let p := recPlace q q.a
  if !recReach cl q .read p 64 t then scTrap t 64 (.loadf, q.a)
  else
    let t0 := recClean q false p 64 t
    if recPois cl q p 64 t0 then scTrap t0 64 (scErr 5 none)
    else match (do
        let img ← recRead cl q p 0 8
        let w1 ← recRead cl q p 8 8
        let w2 ← recRead cl q p 16 8
        let z ← recRead cl q p 24 40
        pure (img, w1, w2, z) : Eng (Nat × Nat × Nat × Nat)).go t0 with
    | (none, y) => scTrap y.st 64 (.loadf, q.a)
    | (some (img, w1, w2, z), y) =>
      let u := y.st
      let depth := w2 / 65536 % 65536
      let n := recBytes depth
      let cost := 64 + 2 * depth
      if z ≠ 0 ∨ 2 ^ 33 ≤ w2 then scTrap u cost (scErr 5 none)
      else if !recReach cl q .read p n u then scTrap u cost (.loadf, q.a)
      else if recPois cl q p n (recClean q false p n u) then scTrap (recClean q false p n u) cost (scErr 5 none)
      else match checkImg (recClean q false p n u) cl q.imgWho img with
        | (.fault, u) => scTrap u cost (.loadf, w64 img)
        | (.bad, u) => scTrap u cost (scErr 2 none)
        | (.good g, u) => match (recRead cl q p 64 (n - 64)).go u with
          | (none, y) => scTrap y.st cost (.loadf, q.a)
          | (some v, y) => match recSyms g.nsym v depth ((n - 64) / 2) with
            | none => scTrap y.st cost (scErr 5 none)
            | some syms =>
              let u := y.st
              let c := u.cluster cl
              if 65535 - c.store.length < depth then scTrap u cost (scErr 3 none)
              else if (freeStair c).isNone then scVal q u cost ones64
              else
                let r := pushAll syms c 0
                let k : StairSlot := ⟨w64 img, BitVec.ofNat 32 w1,
                  ⟨w2 % 65536, r.2, depth, decide (2 ^ 32 ≤ w2), BitVec.ofNat 32 (w1 / 2 ^ 32)⟩, [], false, q.lid, q.lasid⟩
                let o := openStair cl r.1 k
                scVal q (u.setCluster cl o.1) cost o.2

/-- One request, whole (R320, R323). -/
def scPerform (cl : Nat) (q : ScReq) (t : State) : ScRes :=
  let c := t.cluster cl
  let named (f : Nat → StairSlot → ScRes) : ScRes := match findStair c q.a q.lid with
    | some (i, k) => f i k
    | none => scTrap t (if q.op = .save then 64 else 16) (scErr 1 (some q.a))
  match q.op with
  | .opening => scOpening cl q t
  | .step => named fun i k => scStepping cl q i k t
  | .mask => scMasking cl q t
  | .fork => named fun i k =>
      let r := openStair cl c k
      let c1 := match freeStair c with | some j => (if c.scBad.contains i then { r.1 with scBad := nsAdd r.1.scBad j } else r.1) | none => r.1
      scVal q (t.setCluster cl c1) 16 r.2
  | .roll => named fun i k => scRolling cl q i k t
  | .save => named fun _ k => scSaving cl q k t
  | .load => scLoading cl q t
  | .close => named fun i _ => scNone q (t.setCluster cl (closeStair c i)) 16
  | .stat =>
    if q.a = 0 then scVal q t 16 (engineWord t.cycle c)
    else named fun _ k =>
      if q.b = 0 then
        let a := slotAcc k cl t
        scVal q a.2 16 (slotWord0 a.1 k)
      else if q.b = 1 then scVal q t 16 (slotWord1 k)
      else scTrap t 16 (scErr 1 (some q.a))

/-- The core whose CLM a request writes or reads. -/
def scRank (q : ScReq) : Option Nat :=
  let at_ (p : RecPlace) : Option Nat := match p with | .clm r _ => some r | .global _ => none
  match q.op with
  | .mask => (match scMaskLoc q with | .clm r _ => some r | _ => none)
  | .save => at_ (recPlace q q.b)
  | .load => at_ (recPlace q q.a)
  | _ => none
/-- The core for which an engine's messages to a CLM are held, if the request at its head has such (R266): only the issuer's
own core at the engine of its own cluster goes on. The request joins what is held for that core, in its order. -/
def scHeld (s : State) (cl : Nat) : Option Nat :=
  match (s.cluster cl).scq with
  | e :: _ => (scRank e.2).bind fun r =>
      if (r ≠ e.2.rank ∨ clusterOf r ≠ cl) ∧ (s.rankHeld r ∨ s.held.any fun m => m.1 == r) then some r else none
  | [] => none
/-- Whether a request waits for a bank of its mask's destination that is switching (R172). -/
def scBusy (s : State) (q : ScReq) : Bool :=
  q.op == .mask && (match scMaskLoc q with
    | .basin b off => (upTo 16).any fun i =>
        decide (i * 131072 < off + fld q.r 20 22 / 8 ∧ off < (i + 1) * 131072) && (s.bankOf b i).next.isSome
    | _ => false)
/-- The cluster of a message that is a service of its engine. -/
def serviceOf (i : Instr) : Option Nat := match i with | .scRequestService c => some c | _ => none
/-- Whether a request is due at an engine that is not busy and whose request does not stand among the messages held. -/
def scDue (s : State) (cl : Nat) : Bool :=
  let c := s.cluster cl
  decide (c.scAt ≤ s.cycle) && !(s.held.any fun m => serviceOf m.2 == some cl) &&
    (match c.scq with | e :: _ => decide (e.1 ≤ s.cycle) && !scBusy s e.2 | [] => false)
/-- SC_REQUEST_SERVICE (R320): the head of the queue, whole; then its reply. -/
def execScRequestService (cl : Nat) (s : State) : Host.Outcome State Fault Refusal :=
  if !scDue s cl then .next s
  else match (s.cluster cl).scq with
    | [] => .next s
    | (_, q) :: rest =>
      let r := scPerform cl q (s.modCluster cl fun c => { c with scq := rest })
      let t := r.st.modCluster cl fun c => { c with scAt := s.cycle + r.cost }
      .next (if q.op = .mask then t
        else t.reply q.rank q.berth r.reply (r.cost + 6 + 2 * clusterHops (clusterOf q.rank) cl))

/-! ### The instructions (R322) -/

/-- The engine a handle names, checked at issue (R319). -/
def handleCl (s : State) (h : Word) : Run Nat :=
  let cl := fld h 16 10
  if !zeroBits h 32 32 ∨ 576 ≤ cl ∨ !s.lock.scReady.contains cl then scStop 1 (some h) else .ok cl
/-- The issuing core's own engine. -/
def ownCl (s : State) : Run Nat :=
  let cl := clusterOf s.rank
  if s.lock.scReady.contains cl then .ok cl else scStop 1 none

/-- Whether another berth has waited longer for room in the engine's queue. -/
def State.roomAsked (s : State) (cl : Nat) : Bool :=
  let mine := match s.myWait with | some w => w.ticket | none => s.ticket
  s.cores.any fun e => e.2.waits.any fun w => w.why == .stair cl && !w.hold && decide (w.ticket < mine)
/-- Queues a request; it reaches the engine 6 cycles and 2 per hop after write-back. A full queue makes the berth wait. -/
def scQueue (s : State) (cl : Nat) (q : ScReq) : Run State :=
  if 64 ≤ (s.cluster cl).scq.length ∨ s.roomAsked cl then waitFor (.stair cl)
  else .ok (s.modCluster cl fun c => { c with scq := insertDue c.scq (s.cycle + s.leaveIn + 6 + 2 * clusterHops (clusterOf s.rank) cl) q })
def scReq (s : State) (op : ScOp) (d : BitVec 5) (pred : Nat) (a b r : Word) (srcs : List (BitVec 5)) : ScReq :=
  ⟨op, s.rank, s.berth, d.toNat, pred, a, b, r, s.me.lid, s.me.header.asid.toNat, s.who.asid, s.me.user, srcs⟩
/-- The shared issue of a request whose reply the berth waits for. -/
def scIssue (s : State) (cl : Run Nat) (op : ScOp) (d : BitVec 5) (pred : Nat) (a b : Word) (srcs : List (BitVec 5)) :
    Host.Outcome State Fault Refusal :=
  s.finish (do
    s.checkPorts srcs d
    let c ← cl
    let t ← scQueue s c (scReq s op d pred a b 0 srcs)
    gone (t.await (.stair c)))

/-- SC.OPEN (R323). -/
def execScOpen (d a b : BitVec 5) (s : State) : Host.Outcome State Fault Refusal :=
  scIssue s (ownCl s) .opening d 0 (s.rx a) (s.rx b) [a, b]
/-- SC.STEP (R323). -/
def execScStep (d a b im : BitVec 5) (s : State) : Host.Outcome State Fault Refusal :=
  scIssue s (handleCl s (s.rx a)) .step d im.toNat (s.rx a) (s.rx b) [a, b]
/-- SC.FORK (R323). -/
def execScFork (d a : BitVec 5) (s : State) : Host.Outcome State Fault Refusal :=
  scIssue s (handleCl s (s.rx a)) .fork d 0 (s.rx a) 0 [a]
/-- SC.ROLL (R323). -/
def execScRoll (a b : BitVec 5) (s : State) : Host.Outcome State Fault Refusal :=
  scIssue s (handleCl s (s.rx a)) .roll 0 0 (s.rx a) (s.rx b) [a, b]
/-- SC.CLOSE (R323). -/
def execScClose (a : BitVec 5) (s : State) : Host.Outcome State Fault Refusal :=
  scIssue s (handleCl s (s.rx a)) .close 0 0 (s.rx a) 0 [a]
/-- SC.STAT (R323): a zero handle names the core's own engine. -/
def execScStat (d a b : BitVec 5) (s : State) : Host.Outcome State Fault Refusal :=
  scIssue s (if s.rx a = 0 then ownCl s else handleCl s (s.rx a)) .stat d 0 (s.rx a) (s.rx b) [a, b]

/-- A record's address at issue (R325): 64-byte aligned, in global memory or in CLM. -/
def recCheck (s : State) (k : Kind) (a : Word) : Run Unit := do
  match ← s.decodeAddr s.who k a 64 with
  | .basin _ _ => stop k.cause a
  | _ => .ok ()
/-- SC.SAVE (R325). -/
def execScSave (a b : BitVec 5) (s : State) : Host.Outcome State Fault Refusal :=
  scIssue s (do let c ← handleCl s (s.rx a); recCheck s .write (s.rx b); .ok c) .save 0 0 (s.rx a) (s.rx b) [a, b]
/-- SC.LOAD (R325). -/
def execScLoad (d a : BitVec 5) (s : State) : Host.Outcome State Fault Refusal :=
  scIssue s (do let c ← ownCl s; recCheck s .read (s.rx a); .ok c) .load d 0 (s.rx a) 0 [a]

/-- The destination of SC.MASK (R324): a CLM of the rectangle, or SCRATCH banks of the issuing core's cluster. -/
def maskDest (s : State) (v : Word) (n : Nat) : Run Unit := do
  match ← s.decodeAddr s.who .write v 8 with
  | .global => stop .storef v
  | .clm _ off => if off + 8 * n ≤ 131072 then .ok () else stop .storef v
  | .basin bank off =>
    let cl := clusterOf s.rank
    let lo := bank * 131072 + off
    if 2097152 < lo + 8 * n then stop .storef v
    else
      let banks := (upTo 16).filter fun i => decide (i * 131072 < lo + 8 * n ∧ lo < (i + 1) * 131072)
      match banks.find? fun i => (s.bankOf cl i).next.isSome with
      | some i => waitFor (.bank cl i)
      | none => if banks.all fun i => (s.bankOf cl i).mode == 1 then .ok () else stop .storef v
/-- SC.MASK (R322, R324): class F once its request is queued. -/
def execScMask (r a b : BitVec 5) (s : State) : Host.Outcome State Fault Refusal :=
  s.finish (do
    s.checkIns [a, b, r]
    let h := s.rx a
    let cl ← handleCl s h
    let lo := fld (s.rx r) 0 20
    let cnt := fld (s.rx r) 20 22
    if lo % 64 ≠ 0 ∨ cnt % 64 ≠ 0 ∨ cnt < 64 ∨ 2 ^ 20 < cnt then scStop 7 (some h)
    else
      maskDest s (s.rx b) (cnt / 64)
      let t ← scQueue s cl (scReq s .mask 0 0 h (s.rx b) (s.rx r) [])
      .ok ((t.pops [a, b, r]).next))

end Sys2Proof.Machine
end

