-- ==== Sys2Proof/Machine/Memory.lean ====
section
/-!
DEFINITION. The memory instructions: loads and stores, full/empty operations, remote accesses and prefetches, atomics
and cache maintenance (R187 to R197), and the end of a page walk (R275 to R279).
-/
namespace Sys2Proof.Machine
open State

/-! ### Loads and stores (R187, R188) -/

/-- An access that migrates its barge, to a core of this device or of another, whose rank the launch's rectangle holds too
(R152, R283). Before a packet leaves the device the berth itself waits for its release (log 18). -/
def moving (s : State) (va : Word) (n : Nat) (k : Kind) : Run Unit :=
  match s.migrates va n with
  | some r => gone (s.migrate r)
  | none => match s.migratesFar va n k with
    | some (dev, r) => if s.inRect s.me.lid r then do gone ((← s.releasing).migrateFar dev r) else stop .place va
    | none => .ok ()
/-- The shared form of a load of n bytes: ports, migration, the access, poison, write-back of what `f` makes of it. -/
def loadAs (srcs : List (BitVec 5)) (d : BitVec 5) (va : Word) (n : Nat) (moves : Bool) (dflt : Nat) (f : Nat → Reply) (s : State) :
    Host.Outcome State Fault Refusal :=
  s.finish (do
    s.checkPorts srcs d
    if moves then moving s va n .read else .ok ()
    let (t, v, p, lat) ← s.load va n n (n == 8)
    let (t1, v1) ← t.settle va v p dflt
    .ok (t1.done lat (f v1)))
/-- A load of n bytes to x[d]. -/
def loadX (d : BitVec 5) (srcs : List (BitVec 5)) (va : Word) (n : Nat) (moves : Bool) (f : Nat → Word) (s : State) :
    Host.Outcome State Fault Refusal :=
  loadAs srcs d va n moves 0 (fun v => { srcs := srcs, writes := [(d.toNat, f v)] }) s
/-- The shared form of a store of n bytes. -/
def storeX (srcs : List (BitVec 5)) (va : Word) (n v : Nat) (moves : Bool) (s : State) : Host.Outcome State Fault Refusal :=
  s.finish (do
    s.checkIns srcs
    if moves then moving s va n .write else .ok ()
    let (t, lat) ← s.store va n n v (n == 8)
    .ok (t.done lat { srcs := srcs }))

def loadI (d a : BitVec 5) (im : BitVec 15) (n : Nat) (f : Nat → Word) (s : State) : Host.Outcome State Fault Refusal :=
  loadX d [a] (s.rx a + immS im) n true f s
def storeS (b a : BitVec 5) (im : BitVec 15) (n : Nat) (s : State) : Host.Outcome State Fault Refusal :=
  storeX [a, b] (s.rx a + immS im) n ((s.rx b).toNat % 2 ^ (8 * n)) true s

/-- LDB (R187). -/
def execLdb (d a : BitVec 5) (im : BitVec 15) (s : State) : Host.Outcome State Fault Refusal := loadI d a im 1 (sx 8) s
/-- LDBU (R187). -/
def execLdbu (d a : BitVec 5) (im : BitVec 15) (s : State) : Host.Outcome State Fault Refusal := loadI d a im 1 w64 s
/-- LDH (R187). -/
def execLdh (d a : BitVec 5) (im : BitVec 15) (s : State) : Host.Outcome State Fault Refusal := loadI d a im 2 (sx 16) s
/-- LDHU (R187). -/
def execLdhu (d a : BitVec 5) (im : BitVec 15) (s : State) : Host.Outcome State Fault Refusal := loadI d a im 2 w64 s
/-- LDW (R187). -/
def execLdw (d a : BitVec 5) (im : BitVec 15) (s : State) : Host.Outcome State Fault Refusal := loadI d a im 4 (sx 32) s
/-- LDWU (R187). -/
def execLdwu (d a : BitVec 5) (im : BitVec 15) (s : State) : Host.Outcome State Fault Refusal := loadI d a im 4 w64 s
/-- LDD (R187). -/
def execLdd (d a : BitVec 5) (im : BitVec 15) (s : State) : Host.Outcome State Fault Refusal := loadI d a im 8 w64 s
/-- STB (R187). -/
def execStb (b a : BitVec 5) (im : BitVec 15) (s : State) : Host.Outcome State Fault Refusal := storeS b a im 1 s
/-- STH (R187). -/
def execSth (b a : BitVec 5) (im : BitVec 15) (s : State) : Host.Outcome State Fault Refusal := storeS b a im 2 s
/-- STW (R187). -/
def execStw (b a : BitVec 5) (im : BitVec 15) (s : State) : Host.Outcome State Fault Refusal := storeS b a im 4 s
/-- STD (R187). -/
def execStd (b a : BitVec 5) (im : BitVec 15) (s : State) : Host.Outcome State Fault Refusal := storeS b a im 8 s
/-- LDF (R187, R188): a poisoned unit gives the canonical NaN when it does not trap. -/
def execLdf (d : BitVec 4) (a : BitVec 5) (im : BitVec 15) (s : State) : Host.Outcome State Fault Refusal :=
  loadAs [a] 0 (s.rx a + immS im) 4 true qnan32.toNat (fun v => { srcs := [a], fw := some (d.toNat, BitVec.ofNat 32 v) }) s
/-- STF (R187). -/
def execStf (b : BitVec 4) (a : BitVec 5) (im : BitVec 15) (s : State) : Host.Outcome State Fault Refusal :=
  storeX [a] (s.rx a + immS im) 4 (s.rf b).toNat true s

/-! ### Full/empty operations (R190) -/

/-- Where a full/empty instruction acts, and its latency: CLM of any rank, or a SCRATCH bank. -/
def fullPlace (s : State) (va : Word) (k : Kind) : Run (Loc × Nat) := do
  let w := s.who
  match ← s.decodeAddr w k va 8 with
  | .global => stop k.cause va
  | .basin bank off =>
    let b := s.bankOf (clusterOf w.rank) bank
    if b.next.isSome then waitFor (.bank (clusterOf w.rank) bank)
    else if b.mode = 1 then .ok (.basin (clusterOf w.rank) (bank * 131072 + off), 36)
    else stop k.cause va
  | .clm r off => if clmOk w.user (k == .write) off then .ok (.clm r off, s.clmTime r) else stop k.cause va
/-- The core at which a place is performed; a basin bank answers every core of its cluster. -/
def homeOf (s : State) : Loc → Nat
  | .clm r _ => r
  | _ => s.rank

/-- The shared form of a full/empty instruction: checks, migration, then `f` at the word, when its request is there. -/
def fullOp (s : State) (srcs : List (BitVec 5)) (d : BitVec 5) (va : Word) (k : Kind) (f : Loc → Nat → Run State) :
    Host.Outcome State Fault Refusal :=
  s.finish (do
    s.checkPorts srcs d
    match s.migrates va 8 with
    | some r => gone (s.migrate r)
    | none =>
      let (l, lat) ← fullPlace s va k
      f l lat)

/-- LDSYNC (R170, R190): it waits in its order of arrival for a full word, reads it, empties it and acquires, also where the
poison it has read traps (R181). -/
def execLdsync (d a : BitVec 5) (im : BitVec 15) (s : State) : Host.Outcome State Fault Refusal :=
  let va := s.rx a + immS im
  fullOp s [a] d va .read fun l lat => do
    s.atHome (homeOf s l)
    if !s.isFull l ∨ s.earlier (.full l.key) then waitFor (.full l.key)
    else
      let t := s.setFull l false
      if s.poisoned l ∧ s.me.pte then gone (t.gain.trapNow .poison va)
      else
        let v := if s.poisoned l then 0 else s.readN l 8
        let t1 := if s.poisoned l then t.consume va else t
        .ok (t1.done lat { srcs := [a], writes := [(d.toNat, w64 v)], acquire := true })
/-- STFULL (R190): a release, then the write, and the word is full. -/
def execStfull (b a : BitVec 5) (im : BitVec 15) (s : State) : Host.Outcome State Fault Refusal :=
  let va := s.rx a + immS im
  let v := (s.rx b).toNat
  fullOp s [a, b] 0 va .write fun l lat => do
    (match l with | .clm r off => if r = s.rank ∧ s.matrixReads off 8 then waitFor .work else .ok () | _ => .ok ())
    let t ← s.releasing
    t.atHome (homeOf s l)
    .ok (((t.storeAt l 8 v).setFull l true).done lat { srcs := [a, b] })
/-- FECLR (R190). -/
def execFeclr (a : BitVec 5) (im : BitVec 15) (s : State) : Host.Outcome State Fault Refusal :=
  fullOp s [a] 0 (s.rx a + immS im) .write fun l lat => do
    s.atHome (homeOf s l)
    .ok ((s.setFull l false).done lat { srcs := [a] })
/-- FERD (R190). -/
def execFerd (d a : BitVec 5) (im : BitVec 15) (s : State) : Host.Outcome State Fault Refusal :=
  fullOp s [a] d (s.rx a + immS im) .read fun l lat => do
    s.atHome (homeOf s l)
    .ok (s.done lat { srcs := [a], writes := [(d.toNat, b64 (s.isFull l))] })

/-! ### Remote accesses and prefetches (R192, R193) -/

/-- RLD (R192): never migrates. -/
def execRld (d a b : BitVec 5) (s : State) : Host.Outcome State Fault Refusal :=
  loadX d [a, b] (s.rx a + s.rx b) 8 false w64 s
/-- RST (R192). -/
def execRst (a b : BitVec 5) (s : State) : Host.Outcome State Fault Refusal :=
  storeX [a, b] (s.rx a) 8 (s.rx b).toNat false s

namespace State
/-- A prefetch is dropped: PFDROP counts it, saturating (R193, R292). -/
def dropped (s : State) : State :=
  s.modMyCore fun c => if c.pfdrop = 0xFFFFFFFF then c else { c with pfdrop := c.pfdrop + 1 }
/-- The fill of the sector at VA under a translation, into core r's L1. -/
def fillSector (s : State) (r asid va : Nat) (p : Word) (pa : Nat) : State :=
  let k := va % 1024 / 128
  match s.lineOf r asid va with
  | some l =>
    if l.covers (128 * k) 128 then s
    else
      let s1 := s.cleanSector l k
      let f := s1.fetchSector (clusterOf r) (pteStdy p) pa
      f.1.putLine r { (l.fill k f.2.1 f.2.2) with stamp := (s.core r).stamp }
  | none =>
    let f := s.fetchSector (clusterOf r) (pteStdy p) pa
    f.1.putLine r ((⟨asid, va / 1024, s.bigPage (clusterOf r) asid va, pa / 1024, (s.core r).stamp, p, 0, 0, 0, 0, 0⟩ : Line).fill k f.2.1 f.2.2)
/-- The 128-byte line at VA into core r's instruction cache, poison and all, through the cluster cache (R174, R341); another
device's memory lies in none (R283). -/
def fillIcache (s : State) (r asid va : Nat) (p : Word) (pa : Nat) : State :=
  let b := s.fetchSector (clusterOf r) true pa
  let l : ILine := ⟨asid, va / 128, pa / 128, p, b.2.1, BitVec.ofNat 16 b.2.2⟩
  b.1.modCore r fun c => { c with icache := l :: c.icache.filter fun o => !(o.asid == asid && o.va == va / 128) }
end State

/-- The shared form of a prefetch: `fill` is made whole at once; a page that is not mapped or not permitted drops it. -/
def prefetch (a : BitVec 5) (k : Kind) (fill : State → Who → Nat → Word → Nat → State) (s : State) :
    Host.Outcome State Fault Refusal :=
  let va := (s.rx a).toNat
  let w := s.who
  s.putS [a] fun t =>
    if 13 * 2 ^ 48 ≤ va then t.dropped
    else
      let u := t.xlate (clusterOf w.rank) w k va
      match u.2 with
      | none => u.1.dropped
      | some (p, pa) => fill u.1 w va p pa
/-- PFD (R193): a device page and another device's CLM are never cached; during the clearing of R180 its access waits. -/
def execPfd (a : BitVec 5) (s : State) : Host.Outcome State Fault Refusal :=
  if s.cycle < s.myCore.l1Busy then s.finish (waitFor .slow)
  else prefetch a .read (fun u w va p pa => if pteDev p ∨ isFarClm pa then u else u.fillSector w.rank w.asid va p pa) s
/-- ICPF (R193). -/
def execIcpf (a : BitVec 5) (s : State) : Host.Outcome State Fault Refusal :=
  prefetch a .exec (fun u w va p pa => u.fillIcache w.rank w.asid va p pa) s

/-! ### Atomics (R194, R195) -/

/-- Where an AMO is performed, with its latency; a global one first cleans and invalidates its L1 sector. Its read is
judged before its write (R195, R280). -/
def amoPlace (s : State) (va : Word) (n : Nat) : Run (State × Loc × Nat) := do
  let w := s.who
  match ← s.decodeAddr w .read va n with
  | .global =>
    if s.cycle < (s.core w.rank).l1Busy then waitFor .slow
    else
      let _ ← s.translate w .read va
      let (p, pa) ← s.translate w .write va
      if pteDev p then stop .storef va
      else do
        farOk w .read va pa n
        farOk w .write va pa n
        .ok (s.purgeSector w.rank w.asid va.toNat, .hbm pa, s.llcTime pa)
  | .basin bank off =>
    let b := s.bankOf (clusterOf w.rank) bank
    if b.next.isSome then waitFor (.bank (clusterOf w.rank) bank)
    else if b.mode = 1 then .ok (s, .basin (clusterOf w.rank) (bank * 131072 + off), 36)
    else stop .storef va
  | .clm r off =>
    if !clmOk w.user false off then stop .loadf va
    else if !clmOk w.user true off then stop .storef va
    else if r = w.rank ∧ s.matrixReads off n then waitFor .work
    else .ok (s, .clm r off, s.clmTime r)
/-- The place of an AMO when its message leaves: its release is done, and it stands at its home (R169, R195). -/
def amoHome (s : State) (va : Word) (n : Nat) (rel : Bool) : Run (State × Loc × Nat) := do
  let (t, l, lat) ← amoPlace s va n
  let u ← if rel then t.releasing else .ok t
  u.atHome (homeOf s l)
  .ok (u, l, lat)

/-- An AMO of n bytes whose new value is f old operand, at its home in one step (R195). -/
def amo (d a b : BitVec 5) (n : Nat) (q r : BitVec 1) (fp : Bool) (f : Nat → Nat → Nat) (s : State) :
    Host.Outcome State Fault Refusal :=
  let va := s.rx a
  s.finish (do
    s.checkPorts [a, b] d
    moving s va n .write
    let (t, l, lat) ← amoHome s va n (r == 1)
    let done (u : State) (v : Word) : Run State :=
      .ok (u.done lat { srcs := [a, b], writes := [(d.toNat, v)], acquire := q == 1 })
    if t.poisoned l then
      if s.me.pte then stop .poison (unitVa va) else done (t.consume va) (if fp then qnan32.setWidth 64 else 0)
    else
      let old := t.readN l n
      let new := f old ((s.rx b).toNat % 2 ^ (8 * n)) % 2 ^ (8 * n)
      done (t.storeAt l n new) (if fp then w64 old else sx (8 * n) old))

/-- 4 or 8 bytes by W (R194). -/
def amoN (w : BitVec 1) : Nat := if w = 1 then 8 else 4
def amoLess (n : Nat) (x y : Nat) : Bool := decide (sint (8 * n) x < sint (8 * n) y)
/-- AMO.ADD (R195). -/
def execAmoAdd (d a b : BitVec 5) (w q r : BitVec 1) (s : State) : Host.Outcome State Fault Refusal :=
  amo d a b (amoN w) q r false (fun o x => o + x) s
/-- AMO.AND (R195). -/
def execAmoAnd (d a b : BitVec 5) (w q r : BitVec 1) (s : State) : Host.Outcome State Fault Refusal :=
  amo d a b (amoN w) q r false (fun o x => o &&& x) s
/-- AMO.OR (R195). -/
def execAmoOr (d a b : BitVec 5) (w q r : BitVec 1) (s : State) : Host.Outcome State Fault Refusal :=
  amo d a b (amoN w) q r false (fun o x => o ||| x) s
/-- AMO.XOR (R195). -/
def execAmoXor (d a b : BitVec 5) (w q r : BitVec 1) (s : State) : Host.Outcome State Fault Refusal :=
  amo d a b (amoN w) q r false (fun o x => o ^^^ x) s
/-- AMO.MIN (R195). -/
def execAmoMin (d a b : BitVec 5) (w q r : BitVec 1) (s : State) : Host.Outcome State Fault Refusal :=
  amo d a b (amoN w) q r false (fun o x => if amoLess (amoN w) x o then x else o) s
/-- AMO.MAX (R195). -/
def execAmoMax (d a b : BitVec 5) (w q r : BitVec 1) (s : State) : Host.Outcome State Fault Refusal :=
  amo d a b (amoN w) q r false (fun o x => if amoLess (amoN w) o x then x else o) s
/-- AMO.MINU (R195). -/
def execAmoMinu (d a b : BitVec 5) (w q r : BitVec 1) (s : State) : Host.Outcome State Fault Refusal :=
  amo d a b (amoN w) q r false (fun o x => Nat.min o x) s
/-- AMO.MAXU (R195). -/
def execAmoMaxu (d a b : BitVec 5) (w q r : BitVec 1) (s : State) : Host.Outcome State Fault Refusal :=
  amo d a b (amoN w) q r false (fun o x => Nat.max o x) s
/-- AMO.SWAP (R195). -/
def execAmoSwap (d a b : BitVec 5) (w q r : BitVec 1) (s : State) : Host.Outcome State Fault Refusal :=
  amo d a b (amoN w) q r false (fun _ x => x) s
/-- AMO.CAS (R195): x[d] is the compare value; x0 compares with 0. -/
def execAmoCas (d a b : BitVec 5) (w q r : BitVec 1) (s : State) : Host.Outcome State Fault Refusal :=
  amo d a b (amoN w) q r false (fun o x => if o = (s.rx d).toNat % 2 ^ (8 * amoN w) then x else o) s
/-- AMO.FADD (R195): RN32, RNE, no flag; x[d] zero-extends. -/
def execAmoFadd (d a b : BitVec 5) (q r : BitVec 1) (s : State) : Host.Outcome State Fault Refusal :=
  amo d a b 4 q r true (fun o x => (fAdd envRne (BitVec.ofNat 32 o) (BitVec.ofNat 32 x)).1.toNat) s

/-! ### Cache maintenance (R184, R197) -/

/-- Whether sector k of a line of an ASID meets [lo, hi). -/
def sectorIn (l : Line) (asid lo hi k : Nat) : Bool :=
  l.asid == asid && decide (l.va * 1024 + 128 * k < hi ∧ lo < l.va * 1024 + 128 * k + 128)
namespace State
/-- One line at L1: the sectors of the range cleaned, then invalidated, as asked. -/
def cmoLine (clean : Bool) (asid lo hi : Nat) (s : State) (l : Line) : State :=
  if clean then iter (fun k t => if sectorIn l asid lo hi k then t.cleanSector l k else t) 8 s else s
def cmoMask (l : Line) (asid lo hi : Nat) : Nat → BitVec 1024
  | 0 => 0
  | n + 1 => cmoMask l asid lo hi n ||| (if sectorIn l asid lo hi n then secMask n else 0)
/-- The sectors of [lo, hi) at L1: cleaned, then invalidated, as asked; and how many were cleaned. -/
def cmoL1 (s : State) (r asid lo hi : Nat) (clean inv : Bool) : State :=
  ((s.core r).l1.foldl (cmoLine clean asid lo hi) s).modCore r fun c => { c with
    l1 := c.l1.map fun l =>
      let m := cmoMask l asid lo hi 8
      if m = 0 then l else l.only (if inv then l.valid &&& ~~~m else l.valid) (l.dirty &&& ~~~m) }
def cmoDirty (s : State) (r asid lo hi : Nat) : Nat :=
  (s.core r).l1.foldl (fun n l => n + ((upTo 8).filter fun k => sectorIn l asid lo hi k && l.dirty &&& secMask k != 0).length) 0
/-- The cluster cache's lines of [lo, hi) on the page at va, whose physical address is pa, leave it. -/
def cmoBasin (s : State) (cl lo hi va pa : Nat) : State :=
  s.modCluster cl fun c => { c with bcache := c.bcache.filter fun l =>
    let at_ := l.pa * 1024 - pa + va
    !(decide (pa ≤ l.pa * 1024 ∧ l.pa * 1024 < pa + 65536 ∧ at_ < hi ∧ lo < at_ + 1024)) }
/-- The translation of one page for a CMO, with A set by its walk; no permission is asked (R197). -/
def mapped (s : State) (cl : Nat) (w : Who) (va : Nat) : State × Option Nat :=
  let there (p : Word) (pa : Nat) : Option Nat := if (s.paCheck w.lid .read p pa).isNone then some pa else none
  match s.tlbFind cl w.asid va with
  | some e => (s, there e.pte (leafPa e.big e.pte va))
  | none => match s.walk w.asid va with
    | some f => (s.fillTlb cl w.asid va false f, there f.1 (leafPa f.2.1 f.1 va))
    | none => (s, none)
/-- The pages of [lo, hi) from granule g on, one after another, with `f` done on each that is mapped. -/
def cmoPages (s : State) (cl : Nat) (w : Who) (f : State → Nat → Nat → State) (g : Nat) : Nat → State
  | 0 => s
  | n + 1 =>
    let t := s.mapped cl w (g * 65536)
    (match t.2 with | some pa => f t.1 (g * 65536) pa | none => t.1).cmoPages cl w f (g + 1) n
end State

/-- The time of a CMO at the LLC over `lines` lines (R197): how many of them are dirty there is left open (log 5). -/
def llcCmoTime (s : State) (lo lines : Nat) : Nat :=
  let d := Nat.min lines (Config.llcDirty s.cycle (lo / 1024))
  if d = 0 then lines + 110 else lines + 200 + 32 * d
/-- The shared form of a CMO: level 0 L1, 1 BASIN, 2 LLC (R43). The LLC is the memory itself here, so a clean of it
changes nothing a program can read (log 17). -/
def cmo (a b : BitVec 5) (lev : BitVec 2) (clean inv : Bool) (s : State) : Host.Outcome State Fault Refusal :=
  let lo := (s.rx a).toNat
  let len := (s.rx b).toNat
  let w := s.who
  let hi := Nat.min (lo + len) (13 * 2 ^ 48)
  let cl := clusterOf w.rank
  let pages := (hi + 65535) / 65536 - lo / 65536
  let lines := (hi + 1023) / 1024 - lo / 1024
  s.finish (do
    s.checkIns [a, b]
    if hi ≤ lo ∨ len = 0 then .ok (s.done 8 { srcs := [a, b] })
    else if lev = 0 then
      if s.cycle < s.myCore.l1Busy then waitFor .slow
      else
        let n := if clean then s.cmoDirty w.rank w.asid lo hi else 0
        let t := s.cmoPages cl w (fun t va _ => t.cmoL1 w.rank w.asid (Nat.max lo va) (Nat.min hi (va + 65536)) clean inv) (lo / 65536) pages
        .ok (t.done (32 + if n = 0 then 0 else 4 * n + 110) { srcs := [a, b] })
    else if lev = 1 then
      let t := s.cmoPages cl w (fun t va pa => if inv then t.cmoBasin cl lo hi va pa else t) (lo / 65536) pages
      .ok (t.done (lines + 36) { srcs := [a, b] })
    else .ok ((s.cmoPages cl w (fun t _ _ => t) (lo / 65536) pages).done (llcCmoTime s lo lines) { srcs := [a, b] }))
/-- CMO.CLEAN (R197). -/
def execCmoClean (a b : BitVec 5) (l : BitVec 2) (s : State) : Host.Outcome State Fault Refusal := cmo a b l true false s
/-- CMO.INV (R184, R197): at L1 the dirty bytes of the range are lost. -/
def execCmoInv (a b : BitVec 5) (l : BitVec 2) (s : State) : Host.Outcome State Fault Refusal := cmo a b l false true s
/-- CMO.CLINV (R197). -/
def execCmoClinv (a b : BitVec 5) (l : BitVec 2) (s : State) : Host.Outcome State Fault Refusal := cmo a b l true true s

/-! ### The end of a walk (R276, R279) -/

/-- Whether a wait is for this walk. -/
def waitsWalk (asid gran : Nat) (w : Wait) : Bool := match w.why with | .walk a g _ => a == asid && g == gran | _ => false
/-- The places in the order of waits that a walk serves: its first 64 waiters (R279). -/
def servedWaits (s : State) (cl asid gran : Nat) : List Nat :=
  firstN 64 ((((ringRanks cl).map fun r => (s.core r).waits.filter (waitsWalk asid gran)).flatten).map Wait.ticket)
where
  /-- The n least. -/
  firstN : Nat → List Nat → List Nat
    | 0, _ => []
    | n + 1, l => match minBy (fun k => k) l with
      | some k => k :: firstN n (l.filter fun i => i != k)
      | none => []
/-- A failed walk is told to those of its waiters that it serves. -/
def failWait (asid gran : Nat) (served : List Nat) (w : Option Wait) : Option Wait :=
  w.map fun w => if waitsWalk asid gran w && served.contains w.ticket then { w with failed := true } else w
def failWaits (asid gran : Nat) (served : List Nat) (c : Core) : Core :=
  { c with
    berths := c.berths.map fun b => { b with wait := failWait asid gran served b.wait }
    buffer := c.buffer.map fun q => { q with wait := failWait asid gran served q.wait } }
/-- A found translation is told to those of the walk's waiters that it serves (log 85). -/
def tellWait (asid gran : Nat) (served : List Nat) (e : TlbEnt) (w : Option Wait) : Option Wait :=
  w.map fun w => if waitsWalk asid gran w && served.contains w.ticket then { w with issued := { w.issued with xl := e :: w.issued.xl } } else w
def tellWaits (asid gran : Nat) (served : List Nat) (e : TlbEnt) (c : Core) : Core :=
  { c with
    berths := c.berths.map fun b => { b with wait := tellWait asid gran served e b.wait }
    buffer := c.buffer.map fun q => { q with wait := tellWait asid gran served e q.wait } }
/-- A change of the waits for a walk, on those cores of a cluster that have one. -/
def atWaits (s : State) (cl asid gran : Nat) (f : Core → Core) (t : State) : State :=
  (ringRanks cl).foldl (fun t r => if (s.core r).waits.any (waitsWalk asid gran) then t.modCore r f else t) t
/-- A store to the page by a berth that the walk serves, and that the leaf permits: D is set too. -/
def storesHere (asid gran : Nat) (served : List Nat) (leaf : Word) (b : Berth) (w : Option Wait) : Bool :=
  match w with
  | some w => waitsWalk asid gran w && served.contains w.ticket && permOk b.user .write leaf &&
      (match w.why with | .walk _ _ st => st | _ => false)
  | none => false
/-- WALK_DONE: the leaf is cached, with D when a waiting store is allowed; the waiters look up again. A walk that finds
no valid entry makes none, and its waiters fault. A walk that a shootdown met is no longer listed: it is discarded. -/
def execWalkDone (cl : Nat) (asid : BitVec 8) (gran : Nat) (s : State) : Host.Outcome State Fault Refusal :=
  let c := s.cluster cl
  let n := asid.toNat
  if !c.walks.contains (n, gran) then .next s
  else
    let s1 := s.modCluster cl fun c => { c with walks := c.walks.filter fun w => w != (n, gran) }
    let served := servedWaits s cl n gran
    match s.walk n (gran * 65536) with
    | some w =>
      let store := (ringRanks cl).any fun r => let c := s.core r
        (c.berths.toList.any fun b => storesHere n gran served w.1 b b.wait) ||
          (match c.buffer with | some q => storesHere n gran served w.1 (c.berth q.owner) q.wait | none => false)
      let u := s1.fillTlb cl n (gran * 65536) store w
      .next (match u.tlbFind cl n (gran * 65536) with
        | some e => atWaits s cl n gran (tellWaits n gran served e) u
        | none => u)
    | none => .next (atWaits s cl n gran (failWaits n gran served) s1)

end Sys2Proof.Machine
end

