-- ==== Sys2Proof/Machine/Net.lean ====
section
/-!
DEFINITION. The net and its instructions (R221 to R248): port words, pools and audits, active pairs, the link sequencer
with LINK, JOIN and LINKN, and payloads. Slots and port words are handled as place bits, rank * 2^17 + offset (R223).
-/
namespace Sys2Proof.Machine
open State

/-! ### Port words (R223, R224) -/

def portTag (w : Word) : Nat := fld w 61 3
def placeBits (w : Word) : Nat := fld w 0 31
def placeAddr (a : Nat) : Word := w64 (0xF000000000000 + a)
def isAuxOff (a : Nat) : Bool := a % 64 == 16 || a % 64 == 24 || a % 64 == 32
def nulWord : Word := 0x6000000000000000
def auxWord (a : Nat) : Word := w64 (2 * 2 ^ 61 + a)
def busyWord (a : Nat) : Word := w64 (6 * 2 ^ 61 + a)
/-- REDIR of an endpoint, and the endpoint a REDIR carries. -/
def redirWord (e : Word) : Word := (e &&& 0x1FFFFFFFFFFFFFFF) ||| w64 (5 * 2 ^ 61 + portTag e * 2 ^ 45)
def innerWord (r : Word) : Word := (r &&& 0x1FFF1FFFFFFFFFFF) ||| w64 (fld r 45 3 * 2 ^ 61)
/-- PRI, NUL or NUM. -/
def principal (w : Word) : Bool := portTag w == 1 || portTag w == 3 || portTag w == 4
def endpoint (w : Word) : Bool := decide (1 ≤ portTag w ∧ portTag w ≤ 4)
/-- A malformed endpoint (R224). -/
def badEnd (w : Word) : Bool :=
  let t := portTag w
  if t = 1 then !zeroBits w 31 30 || placeBits w % 64 != 0
  else if t = 2 then !zeroBits w 31 30 || !isAuxOff (placeBits w)
  else if t = 3 then w != nulWord
  else bit w 60 || !zeroBits w 32 16 || fld w 48 12 == 0 || decide (4092 < fld w 48 12)
/-- A malformed port word (R224). -/
def badWord (w : Word) : Bool :=
  let t := portTag w
  if t = 0 then w != 0
  else if t ≤ 4 then badEnd w
  else if t = 5 then bit w 60 || !endpoint (innerWord w) || badEnd (innerWord w)
  else if t = 6 then !zeroBits w 31 30 || (placeBits w != 0 && !isAuxOff (placeBits w))
  else true
/-- slot(e): the AUX address, or word 1 of a PRI's node; an inline endpoint has none (R229). -/
def slotOf (e : Word) : Option Nat :=
  if portTag e = 2 then some (placeBits e) else if portTag e = 1 then some (placeBits e + 8) else none

def netLoc (a : Nat) : Loc := .clm (a / 131072) (a % 131072)
def netRank (a : Nat) : Nat := a / 131072
namespace State
def netRead (s : State) (a : Nat) : Word := w64 (s.readN (netLoc a) 8)
def netWrite (s : State) (a : Nat) (v : Word) : State := s.storeAt (netLoc a) 8 v.toNat
/-- Whether one of words 1 to 4 of a slot holds REDIR or BUSY (R235); a poisoned word reads as poison, which is neither (R339,
DEDUCED, log 83). -/
def slotHeld (s : State) (a : Nat) : Bool :=
  (upTo 4).any fun k =>
    let t := portTag (s.netRead (a + 8 * (k + 1)))
    !s.poisoned (netLoc (a + 8 * (k + 1))) && (t == 5 || t == 6)

/-! ### Pools (R236 to R239, R250, R345) -/

def pool (s : State) (r lid : Nat) : Option Pool := (s.core r).pools.find? fun p => p.lid == lid
def modPool (s : State) (r lid : Nat) (f : Pool → Pool) : State :=
  s.modCore r fun c => { c with pools := c.pools.map fun p => if p.lid == lid then f p else p }
end State
/-- The slot number of a slot address. -/
def slotIx (p : Pool) (a : Nat) : Nat := (a % 131072 - 64 * p.base) / 64
/-- NETPOOL (R236). -/
def poolWord (p : Pool) : Word := w64 (p.audits.toNat * 2 ^ 48 + p.count % 2048 * 2 ^ 32 + p.slots % 2048 * 2 ^ 16 + p.base % 65536)
def netpool (s : State) (r lid : Nat) : Word := match s.pool r lid with | some p => poolWord p | none => 0
/-- The free list built with the lowest free slot on top (R250). -/
def freshFree (slots : Nat) (used : List Nat) : List Nat := (upTo slots).filter fun i => !used.contains i

/-- Words 1 to 7 of a free slot are undefined (R236, log 8). -/
def clearSlot (s : State) (a : Nat) : State :=
  (iter (fun k t => t.netWrite (a + 8 * (k + 1)) (Config.freeWord (8 * s.free + k))) 7 (s.netWrite a 0)).fresh
/-- A slot goes back: header 0, bitmap bit clear, on top of the free list (R238, R250). -/
def freeLocal (s : State) (lid a : Nat) : State :=
  (clearSlot s a).modPool (netRank a) lid fun p =>
    let i := slotIx p a
    if p.used.contains i then { p with used := nsDel p.used i, free := i :: p.free, count := p.count + 1 } else p

/-- The place bits of slot i of core r's pool. -/
def slotAt (p : Pool) (r i : Nat) : Nat := r * 131072 + 64 * (p.base + i)
/-- Whether a slot's header reads as a tomb; a poisoned one does not (R238, R345). -/
def isTomb (s : State) (a : Nat) : Bool := !s.poisoned (netLoc a) && fld (s.netRead a) 52 12 == 0xFFF
/-- The audit of a pool (R239): after an uncorrectable bitmap it is rebuilt from the headers first; a slot whose header is
poisoned stays allocated and is logged (R345). -/
def audit (s : State) (r lid : Nat) : State :=
  match s.pool r lid with
  | none => s
  | some p =>
    let bad := (upTo p.slots).filter fun i => s.poisoned (netLoc (slotAt p r i))
    let used0 := if p.bad then (upTo p.slots).filter fun i => fld (s.netRead (slotAt p r i)) 52 12 != 0 || bad.contains i else p.used
    let gone := used0.filter fun i => isTomb s (slotAt p r i) && !s.slotHeld (slotAt p r i)
    let used := bad.foldl nsAdd (used0.filter fun i => !gone.contains i)
    let s1 := gone.foldl (fun t i => clearSlot t (slotAt p r i)) s
    let s2 := bad.foldl (fun t i => logErr t ⟨s.cycle, 3, 7, r, lid, slotAt p r i % 131072, 0⟩) s1
    s2.modPool r lid fun p => { p with
      used := used, free := freshFree p.slots used, count := p.slots - used.length, audits := p.audits + 1, bad := false,
      reclaimed := gone.length, busy := s.cycle + p.slots + 64, nextAudit := Nat.max p.nextAudit (s.cycle + 1) }

def auditDue (s : State) (r lid : Nat) : Bool :=
  match s.pool r lid with | some p => decide (p.nextAudit ≤ s.cycle ∧ p.busy ≤ s.cycle) | none => false
/-- POOL_AUDIT (R239): every 2^20 cycles, counted from the cycle in which the last scheduled audit ran, which R239 does not
say (DESIGN CHOICE, log 83). -/
def execPoolAudit (r lid : Nat) (s : State) : Host.Outcome State Fault Refusal :=
  if auditDue s r lid then .next ((audit s r lid).modPool r lid fun p => { p with nextAudit := s.cycle + 1048576 })
  else .next s
/-- FREE_SLOT_RETURN (R238): freed as a local FREE would, or discarded and counted when the header is no tomb. -/
def execFreeSlotReturn (r slot : Nat) (lid : Sent Nat) (s : State) : Host.Outcome State Fault Refusal :=
  match s.pool r lid.val with
  | none => .next ((s.incRecv r lid.val).countField r 0)
  | some p =>
    let a := r * 131072 + 64 * (p.base + slot)
    if s.cycle < p.busy then .next (s.later (p.busy - s.cycle) (.freeSlotReturn r slot lid))
    else if isTomb s a then .next (freeLocal (s.incRecv r lid.val) lid.val a)
    else .next ((s.incRecv r lid.val).countField r 0)

/-! ### Operands (R233, R245) -/

/-- A node operand: a place address, or the local alias converted. -/
def nodeOperand (s : State) (v : Word) : Run Nat :=
  if fld v 48 16 = 15 ∧ zeroBits v 31 17 then .ok (placeBits v)
  else if fld v 48 16 = 14 ∧ zeroBits v 17 31 then .ok (s.rank * 131072 + fld v 0 17)
  else stop .linkerr v
/-- A consumed-port operand: a well-formed AUX word (R223), or an address. -/
def portOperand (s : State) (v : Word) : Run Nat :=
  if fld v 48 16 = 0x4000 then (if badEnd v then stop .linkerr v else .ok (placeBits v)) else nodeOperand s v
def endOperand (v : Word) : Run Unit := if !endpoint v || badEnd v then stop .linkerr v else .ok ()
/-- Whether a slot lies in its home's net store of the launch (R233). -/
def inStore (s : State) (n : Nat) : Bool :=
  n % 64 == 0 && decide (netRank n < 9216) && s.inRect s.me.lid (netRank n) &&
    (match s.pool (netRank n) s.me.lid with
     | some p => decide (64 * p.base ≤ n % 131072 ∧ n % 131072 < 64 * (p.base + p.slots))
     | none => false)
def nodeOk (s : State) (n : Nat) : Bool := inStore s n && fld (s.netRead n) 16 16 == s.me.lid && !s.poisoned (netLoc n)
/-- The address that a node named at place bits a fails with (R233): its own where the node is not the launch's; its
header's where that is poisoned (R343). -/
def nodeFails (s : State) (a : Nat) : Option Nat :=
  let n := a / 64 * 64
  if nodeOk s n then none else if inStore s n && s.poisoned (netLoc n) then some n else some a
/-- The checks before the first write (R233): `ports` must be auxiliary port words, and every node named must lie in its
store and carry the launch's LID. Which of several failing addresses is the first R233 does not say: the ports that are no
auxiliary words come first, then each address in operand order, its place before its LID (DESIGN CHOICE, log 83). -/
def linkChecks (s : State) (ports : List Nat) (named : List Nat) : Run Unit :=
  match ports.find? fun a => !isAuxOff a with
  | some a => stop .linkerr (placeAddr a)
  | none => match (ports ++ named).findSome? (nodeFails s) with
    | some a => stop .linkerr (placeAddr a)
    | none => .ok ()
/-- What an endpoint names, for the checks. -/
def named (e : Word) : List Nat := if portTag e = 1 ∨ portTag e = 2 then [placeBits e] else []

/-! ### The link sequencer (R228 to R232) -/

/-- A link sequence: the state so far, the slots it holds, the slots met as INNER in the tie-break, the nodes being
rewritten, its JOIN's a, b and y, whether it writes plainly, the cycle in which its next step starts, the answers of
steps made in earlier cycles which it has still to take up, and all its answers so far. A sequence goes on over many
cycles: its instruction waits, and takes up the answers again from the first. -/
structure Seq where
  st : State
  held : List Nat
  tie : List Nat
  nodes : List Nat
  join : Option (Nat × Nat × Word)
  plain : Bool
  start : Nat
  log : List (Word × Bool)
  seen : List (Word × Bool)
deriving DecidableEq, Repr

/-- How a sequence stops early: it goes on in a later cycle, its request stands behind what is held for a core, it traps with
its writes standing, or it ends. -/
inductive SeqStop where
  | wait (q : Seq) (due : Nat)
  | held (q : Seq) (r : Nat)
  | trap (q : Seq) (v : Word)
  | ended (q : Seq)
deriving DecidableEq, Repr

/-- An act of a sequence which takes effect `delay` cycles after it starts and takes `cost` cycles; its answer is a word
and a mark. `home` is the core that performs it: one that takes no messages holds the request, in its order, and one that
takes it in counts it (R163, R228, R266). -/
def seqAct (q : Seq) (home delay cost : Nat) (f : State → State × Word × Bool) : Except SeqStop (Seq × Word × Bool) :=
  match q.log with
  | e :: l => .ok ({ q with log := l, seen := q.seen ++ [e] }, e)
  | [] =>
    let s := q.st
    if s.cycle < q.start + delay then .error (.wait q (q.start + delay))
    else if home ≠ s.rank ∧ s.rankHeld home then .error (.held q home)
    else
      let r := f s
      let t := if home = s.rank then r.1 else r.1.incRecv home s.me.lid
      .ok ({ q with st := t, start := Nat.max q.start (s.cycle - delay) + cost, seen := q.seen ++ [r.2] }, r.2)
/-- A step at a word: 4 cycles and in the last of them here, 10 + 4h cycles and performed after 5 + 2h at another core, whose
request counts when it leaves (R163, R228). -/
def seqStep (q : Seq) (a : Nat) (f : State → State × Word × Bool) : Except SeqStop (Seq × Word × Bool) :=
  let r := netRank a
  let h := hops q.st.rank r
  if r = q.st.rank then seqAct q r 3 4 f
  else match seqAct q q.st.rank 0 0 fun s => (s.incSent s.rank s.me.lid, 0, false) with
    | .ok (q1, _) => seqAct q1 r (5 + 2 * h) (10 + 4 * h) f
    | .error e => .error e
/-- A decision of the sequencer, taken once. -/
def seqNote (q : Seq) (f : State → Bool) : Except SeqStop (Seq × Bool) :=
  match seqAct q q.st.rank 0 0 fun s => (s, 0, f s) with
  | .ok (q1, _, b) => .ok (q1, b)
  | .error e => .error e
/-- A step that reads: a poisoned or malformed word traps LINKERR (R224, R343). -/
def seqRead (q : Seq) (a : Nat) (w : Word → Option Word) : Except SeqStop (Seq × Word) :=
  match seqStep q a fun s =>
      let v := s.netRead a
      if s.poisoned (netLoc a) then (s, v, true) else ((match w v with | some x => s.netWrite a x | none => s), v, false) with
  | .ok (q1, v, pois) => if pois then .error (.trap q1 (placeAddr a)) else if badWord v then .error (.trap q1 v) else .ok (q1, v)
  | .error e => .error e
def seqWrite (q : Seq) (a : Nat) (v : Word) : Except SeqStop (Seq × Unit) :=
  match seqStep q a fun s => (s.netWrite a v, 0, false) with
  | .ok (q1, _) => .ok (q1, ())
  | .error e => .error e
def seqSwap (q : Seq) (a : Nat) (v : Word) : Except SeqStop (Seq × Word) := seqRead q a fun _ => some v
def seqCas (q : Seq) (a : Nat) (exp v : Word) : Except SeqStop (Seq × Word) := seqRead q a fun x => if x = exp then some v else none
/-- The sequence waits 4 cycles and goes on again from where `q` stands: the steps since then are made anew. -/
def seqAgain {α : Type} (q now : Seq) : Except SeqStop α :=
  .error (.wait { now with start := now.start + 4, seen := q.seen } (Nat.max (now.st.cycle + 1) (now.start + 4)))

/-- LOOP(r) at word g (R231): the ring is closed and the sequence ends. A BUSY word for which it does not hold is waited
on: `q` is the sequence before it met the word. -/
def seqLoop (q q1 : Seq) (r : Word) (g : Nat) : Except SeqStop (Seq × Unit) :=
  match q1.join with
  | none => seqAgain q q1
  | some (a, b, _) =>
    let sl := placeBits r
    if sl = 0 then seqAgain q q1
    else match seqRead q1 sl fun _ => none with
      | .error e => .error e
      | .ok (q2, w) =>
        if w ≠ redirWord (auxWord a) then seqAgain q q2
        else if b ≤ g then do
          let (q3, _) ← seqWrite q2 a 0
          let (q4, _) ← seqWrite q3 b 0
          let (q5, _) ← seqWrite q4 sl 0
          let (q6, _) ← seqWrite q5 g 0
          .error (.ended q6)
        else .error (.ended q2)

/-- PUT's compare-and-swap at g, from AUX(b), and what it finds (R231). -/
def seqPutAt (q0 q : Seq) (g b : Nat) (v : Word) : Except SeqStop (Seq × Option Word) := do
  let (q1, r) ← seqCas q g (auxWord b) v
  if r = auxWord b then .ok (q1, none)
  else if portTag r = 5 then
    let (q2, _) ← seqWrite q1 g 0
    .ok (q2, some (innerWord r))
  else if portTag r = 6 then
    let (q2, _) ← seqLoop q0 q1 r g
    .ok (q2, none)
  else .error (.trap q1 r)
/-- PUT(y, v) at g = slot(y) (R231); a sequence that is not y's JOIN reads the word first, and learns b from it (R230). -/
def seqPut (q : Seq) (y v : Word) : Except SeqStop (Seq × Option Word) :=
  match slotOf y with
  | none => .ok (q, none)
  | some g =>
    match (match q.join with | some (_, b, jy) => if jy = y then some b else none | none => none) with
    | some b => seqPutAt q q g b v
    | none => do
      let (q1, r) ← seqRead q g fun _ => none
      if portTag r = 2 then seqPutAt q q1 g (placeBits r) v
      else if portTag r = 5 then
        let (q2, _) ← seqWrite q1 g 0
        .ok (q2, some (innerWord r))
      else if portTag r = 6 then seqAgain q q1
      else .error (.trap q1 r)

/-- END(e, v) (R230). -/
def seqEnd (q : Seq) (e v : Word) : Except SeqStop (Seq × Option Word) :=
  match slotOf e with
  | none => .ok (q, none)
  | some sl => do
    let (q1, loser) ← if q.tie.contains sl then seqNote q fun s => s.netRead sl == busyWord 0 else .ok (q, false)
    if q.plain || q.held.contains sl || loser || (portTag e == 1 && !q.nodes.contains (placeBits e)) then
      let (q2, _) ← seqWrite q1 sl v
      .ok (q2, none)
    else seqPut q1 e v

/-- END repeated until none, keeping the last endpoint; each repetition takes up an answer, so that n, one more than the
answers there are, is enough. -/
def seqEnds (q : Seq) (v : Word) : Nat → Word → Except SeqStop (Seq × Word)
  | 0, _ => seqAgain q q
  | n + 1, e => match seqEnd q e v with
    | .ok (q1, none) => .ok (q1, e)
    | .ok (q1, some e1) => seqEnds q1 v n e1
    | .error x => .error x

/-! ### Pairs (R225 to R227, R252) -/

/-- A side's kind, address (0 for an inline side) and word, its node's header being h (R223). -/
def sideOf (e h : Word) : Nat × Nat × Word :=
  if portTag e = 1 then (fld h 52 12, placeBits e, e) else (if portTag e = 3 then 0xFFD else fld e 48 12, 0, e)
def sideLe (a b : Nat × Nat × Word) : Bool :=
  decide (a.1 < b.1) || (a.1 == b.1 && (decide (a.2.1 < b.2.1) || (a.2.1 == b.2.1 && decide (a.2.2.toNat ≤ b.2.2.toNat))))
/-- One side of a pair, its header read as a step; a header that names no node of the launch traps (R225, R343). -/
def pairSide (q : Seq) (e : Word) : Except SeqStop (Seq × Nat × Nat × Word) :=
  if portTag e ≠ 1 then .ok (q, sideOf e 0)
  else
    let n := placeBits e
    match seqStep q n fun s => (s, s.netRead n, s.poisoned (netLoc n)) with
    | .error x => .error x
    | .ok (q1, h, pois) =>
      let k := fld h 52 12
      if pois ∨ k = 0 ∨ k = 0xFFE ∨ k = 0xFFF ∨ fld h 16 16 ≠ q1.st.me.lid then .error (.trap q1 (placeAddr n))
      else .ok (q1, sideOf e h)
/-- The ordinal of a kind under K; a kind from K to 4,092 has none (R226). -/
def ordinal (k K : Nat) : Option Nat := if k = 0xFFD then some (K - 1) else if 1 ≤ k ∧ k < K then some (k - 1) else none
/-- The address of the rule entry of a pair of kinds, if it has one (R226). -/
def ruleAddr (l : Launch) (lk rk : Nat) : Option Nat :=
  match ordinal lk l.k, ordinal rk l.k with
  | some a, some b => if l.rules = 0 then none else some (l.rules.toNat + 4 * (a * l.k - a * (a - 1) / 2 + (b - a)))
  | _, _ => none
/-- The rule entry at an address; a table read that faults or that returns poisoned data gives none (R225). -/
def ruleEntry (s : State) (l : Launch) (va : Nat) : State × Option Word :=
  let t := s.xlate (clusterOf s.rank) ⟨s.rank, l.asid, false, l.lid⟩ .read va
  (t.1, t.2.bind fun e => if s.poisoned (.hbm e.2) then none else some (w64 (s.readN (.hbm e.2) 4)))
/-- The pair barge of two ordered sides, and the core that enqueues it (R225, R227): an entry gives the priority, and with
VALID set the entry point. -/
def pairPacket (l : Launch) (rank : Nat) (x y : Nat × Nat × Word) (ent : Option Word) : Packet × Nat :=
  let valid := match ent with | some e => bit e 31 | none => false
  let pri := match ent with | some e => fld e 26 2 | none => 1
  let pc := match ent with | some e => if valid then l.code + w64 (4 * fld e 0 26) else l.code | none => l.code
  let addr := fun (z : Nat × Nat × Word) => if z.2.1 = 0 then (0 : Word) else placeAddr z.2.1
  let inline := fun (z : Nat × Nat × Word) => if z.2.1 = 0 then z.2.2 else (0 : Word)
  let xs : List Word := [0, addr x, addr y, w64 (x.1 * 65536 + y.1), inline x, inline y]
  (⟨⟨0, BitVec.ofNat 16 l.lid, BitVec.ofNat 8 l.asid, BitVec.ofNat 2 pri, false, .pair, false⟩, pc, 1, 0,
    Vector.ofFn fun i => (xs[i.val]?).getD 0, Vector.replicate 16 0, !valid, true, [x.2.1, y.2.1].filter fun n => n != 0⟩,
   if x.2.1 ≠ 0 then netRank x.2.1 else if y.2.1 ≠ 0 then netRank y.2.1 else rank)
/-- A barge of no live launch has no rule table: its pairs take VALID = 0 and PC 0 (log 13). -/
def noLaunch (lid asid : Nat) : Launch :=
  ⟨lid, 0, 0, asid, 0, false, 0, 0, 0, 0, 0, 0, 0, 0, 0, 0, 0, 1, 0, none, 0, false, [], []⟩
/-- The launch of the executing barge. -/
def myLaunch (s : State) : Launch := (s.launch s.me.lid).getD (noLaunch s.me.lid s.me.header.asid.toNat)
/-- The pair leaves: PEND counts it where it will dock, and its barge enters this core's queue or travels (R163, R225,
R252, log 49). -/
def sendPair (s : State) (pk : Packet) (dest : Nat) : State :=
  let s1 := s.incPend dest s.me.lid
  if dest = s.rank then (s1.incLive dest s.me.lid).enqueue dest pk none
  else (s1.incSent s.rank s.me.lid).later (travel s.rank dest) (.pairMessage dest ⟨pk, s.rank⟩)
/-- The release of a pair's formation: it waits for one that runs, and the sequence goes on when it has ended (R179, R225). -/
def seqRelease (q : Seq) : Except SeqStop (Seq × Unit) :=
  let runs := q.st.myCore.relEnd
  if q.log.isEmpty ∧ q.start ≤ q.st.cycle ∧ q.st.cycle < runs then .error (.wait { q with start := runs } runs)
  else match seqAct q q.st.rank 0 0 fun s => let t := s.release s.rank; (t, w64 (t.releaseTime s.rank), false) with
  | .ok (q1, d, _) => .ok ((if q.log.isEmpty then { q1 with start := q1.start + d.toNat } else q1), ())
  | .error e => .error e
/-- An active pair (R225, R252): the headers, left first; the rule entry, 110 cycles; a release; then the pair leaves. -/
def formPair (q : Seq) (e1 e2 : Word) : Except SeqStop (Seq × Unit) := do
  let peek (s : State) (e : Word) : Nat × Nat × Word := sideOf e (if portTag e = 1 then s.netRead (placeBits e) else 0)
  let (q0, first) ← seqNote q fun s => sideLe (peek s e1) (peek s e2)
  let (q1, a) ← pairSide q0 (if first then e1 else e2)
  let (q2, b) ← pairSide q1 (if first then e2 else e1)
  let (x, y) := if sideLe a b then (a, b) else (b, a)
  let l := myLaunch q.st
  let (q3, ent) ← match ruleAddr l x.1 y.1 with
    | none => Except.ok (q2, (none : Option Word))
    | some va => match seqAct q2 q2.st.rank 109 110 fun s => let r := ruleEntry s l va; (r.1, r.2.getD 0, r.2.isNone) with
      | .ok (q3, w, no) => .ok (q3, if no then none else some w)
      | .error x => .error x
  let (q4, _) ← seqRelease q3
  let (pk, dest) := pairPacket l q4.st.rank x y ent
  let (q5, _) ← seqAct q4 q4.st.rank 0 0 fun s => (sendPair s pk dest, 0, false)
  .ok (q5, ())

/-- CONNECT (R230). -/
def seqConnect (q : Seq) (e1 e2 : Word) : Except SeqStop (Seq × Unit) := do
  let n := q.log.length + 1
  let (q1, a) ← seqEnds q e2 n e1
  let (q2, b) ← seqEnds q1 a n e2
  if principal a && principal b then formPair q2 a b else .ok (q2, ())

/-- FINISH (R229). -/
def seqFinish (c : Nat) : Nat → Seq → Word → Word → Word → Except SeqStop (Seq × Unit)
  | 0, q, _, _, _ => seqAgain q q
  | n + 1, q, old, e, exp =>
    if principal old then do
      let (q1, _) ← seqConnect q e old
      seqWrite q1 c 0
    else if portTag old ≠ 2 then .error (.trap q old)
    else do
      let f := placeBits old
      let (q1, r) ← seqCas q f exp e
      if r = exp then
        let (q2, m) ← seqEnd q1 e (auxWord f)
        match m with
        | none => seqWrite q2 c 0
        | some e1 => seqFinish c n q2 old e1 e
      else if portTag r = 5 then
        if c < f then
          let inner := innerWord r
          let q2 := { q1 with tie := (slotOf inner).toList ++ q1.tie }
          let (q3, _) ← seqConnect q2 e inner
          let (q4, _) ← seqWrite q3 c 0
          seqWrite q4 f 0
        else .ok (q1, ())
      else if r = 0 then .ok (q1, ())
      else if portTag r = 6 then seqLoop q q1 r f
      else .error (.trap q1 r)

/-- The sequence goes on in cycle `due`; it is never withdrawn (R228). -/
def seqBlock (q : Seq) (due : Nat) : State :=
  (q.st.block (.sequence due q.start q.seen)).modMyWait fun w => { w with acked := false }
def seqWaits (q : Seq) (due : Nat) : Run State := gone (seqBlock q due)
/-- What ends a sequence counts as of the cycle before. -/
def asOfLast (t : State) (f : State → Run State) : Run State :=
  match f { t with cycle := t.cycle - 1 } with
  | .ok u => .ok { u with cycle := t.cycle }
  | .error (.gone u) => gone { u with cycle := t.cycle }
  | .error e => .error e
/-- The last step's cycles pass; then `f`, with the sequencer free (R228). A pair message that is all that follows the last step
leaves in the cycle after it, in which the berth is ready (R252). -/
def seqCloses (q : Seq) (f : State → Run State) : Run State :=
  let t := q.st.modMyCore fun c => { c with seqAt := q.start }
  if q.st.cycle + 1 < q.start then seqWaits q (q.start - 1)
  else if q.start ≤ q.st.cycle then asOfLast t f
  else f t
/-- How far a link instruction comes in this cycle; a late failure leaves the writes made before it (R233). -/
def endSeq (srcs : List (BitVec 5)) (r : Except SeqStop (Seq × Unit)) : Run State :=
  match r with
  | .ok (q, _) => seqCloses q fun t => .ok (t.pops srcs).next
  | .error (.ended q) => seqCloses q fun t => .ok (t.pops srcs).next
  | .error (.wait q due) => seqWaits q due
  | .error (.held q r) => gone ((seqBlock q q.start).joinHeld r)
  | .error (.trap q v) => seqCloses q fun t => gone (t.takeTrap .linkerr v)
/-- Where the executing instruction's sequence stands, once it has begun. -/
def seqRuns (s : State) : Option (Nat × List (Word × Bool)) :=
  match s.myWait with
  | some w => (match w.why with | .sequence _ start log => some (start, log) | _ => none)
  | none => none
/-- Whether the core's sequencer acts for another berth, or another one has asked for it before (R228). -/
def seqTaken (s : State) : Bool :=
  (s.myCore.waits.any fun w => match w.why with | .sequence _ _ _ => true | _ => false) || s.earlier (.seqr s.rank)
/-- A link instruction (R228, R233): its checks, a release (R181), its turn at the sequencer, then the sequence from the
write-back on. `nodes` and `held` are the operands' nodes and the slots the sequence holds; the nodes of the pair that the
barge rewrites come with it (R230). -/
def runSeq (s : State) (srcs : List (BitVec 5)) (nodes held : List Nat) (plain : Bool) (checks : Run Unit)
    (go : Seq → Except SeqStop (Seq × Unit)) : Run State :=
  let from_ (t : State) (start : Nat) (log : List (Word × Bool)) : Run State :=
    endSeq srcs (go ⟨t, held, [], nodes ++ s.me.pair, none, plain, start, log, []⟩)
  match seqRuns s with
  | some (start, log) => from_ s start log
  | none => do
    checks
    let t ← s.releasing
    if seqTaken t then waitFor (.seqr s.rank) else from_ t (Nat.max t.startAt t.myCore.seqAt) []

/-- LINK (R229). -/
def execLink (a b : BitVec 5) (s : State) : Host.Outcome State Fault Refusal :=
  s.finish (do
    s.checkIns [a, b]
    let e := s.rx b
    let c ← portOperand s (s.rx a)
    endOperand e
    runSeq s [a, b] [c / 64 * 64] (slotOf e).toList false (linkChecks s [c] (named e)) fun q => do
      let (q1, _) ← match slotOf e with
        | some sl => seqWrite q sl (busyWord 0)
        | none => .ok (q, ())
      let (q2, old) ← seqSwap q1 c (redirWord e)
      seqFinish c (q.log.length + 1) q2 old e (auxWord c))
/-- JOIN (R231). -/
def execJoin (a b : BitVec 5) (s : State) : Host.Outcome State Fault Refusal :=
  s.finish (do
    s.checkIns [a, b]
    let pa ← portOperand s (s.rx a)
    let pb ← portOperand s (s.rx b)
    runSeq s [a, b] [pa / 64 * 64, pb / 64 * 64] [] false (linkChecks s [pa, pb] []) fun q => do
      let (q1, y) ← seqSwap q pb (busyWord pa)
      if !endpoint y then .error (.trap q1 y)
      else
        let q2 := { q1 with join := some (pa, pb, y) }
        let (q3, x) ← seqSwap q2 pa (redirWord y)
        let (q4, _) ← seqFinish pa (q.log.length + 1) q3 x y (auxWord pa)
        let (q5, _) ← seqCas q4 pb (busyWord pa) 0
        .ok (q5, ()))
/-- LINKN (R232): plain writes, nothing held. Where every slot is local and no pair forms it is of class F and writes at
once (R247). -/
def execLinkn (a b : BitVec 5) (s : State) : Host.Outcome State Fault Refusal :=
  s.finish (do
    s.checkIns [a, b]
    let e1 := s.rx a
    let e2 := s.rx b
    endOperand e1
    endOperand e2
    let slots := (slotOf e1).toList ++ (slotOf e2).toList
    if (seqRuns s).isNone && (slots.all fun g => netRank g == s.rank) && !(principal e1 && principal e2) then do
      linkChecks s [] (named e1 ++ named e2)
      let put (t : State) (e v : Word) : State := match slotOf e with | some g => t.netWrite g v | none => t
      .ok (((put (put s e1 e2) e2 e1).pops [a, b]).next)
    else runSeq s [a, b] [] [] true (linkChecks s [] (named e1 ++ named e2)) fun q => seqConnect q e1 e2)

/-! ### Slots (R237, R238, R246) -/

/-- The core of a cluster with the largest non-empty pool of the launch, ties to the lower ring position (R237). -/
def largestPool (s : State) (lid cl : Nat) : Option Nat :=
  let n := fun r => match s.pool r lid with | some p => p.free.length | none => 0
  match minBy (fun r => 4096 - n r) ((ringRanks cl).filter fun r => s.inRect lid r) with
  | some r => if n r = 0 then none else some r
  | none => none
/-- The neighbouring clusters in the order N, E, S, W, NE, SE, SW, NW. -/
def neighbours (cl : Nat) : List Nat :=
  let y : Int := cl / 24
  let x : Int := cl % 24
  let ds : List (Int × Int) := [(-1, 0), (0, 1), (1, 0), (0, -1), (-1, 1), (1, 1), (1, -1), (-1, -1)]
  ds.filterMap fun d =>
    let a := y + d.1
    let b := x + d.2
    if 0 ≤ a ∧ a < 24 ∧ 0 ≤ b ∧ b < 24 then some (a.toNat * 24 + b.toNat) else none
def holdsCores (s : State) (lid cl : Nat) : Bool := (ringRanks cl).any fun r => s.inRect lid r
def brokerPick (s : State) (lid : Nat) : List Nat → Nat → Option (Nat × Nat)
  | [], _ => none
  | cl :: l, asked => match largestPool s lid cl with
    | some r => some (r, asked)
    | none => brokerPick s lid l (asked + 1)
/-- The core that allocates, and how many neighbouring clusters the broker asks (R237, R247). -/
def allocCore (s : State) : Option (Nat × Nat) :=
  let lid := s.me.lid
  match s.pool s.rank lid with
  | some p => if !p.free.isEmpty then some (s.rank, 0) else brokered s lid
  | none => brokered s lid
where
  brokered (s : State) (lid : Nat) : Option (Nat × Nat) :=
    brokerPick s lid (clusterOf s.rank :: (neighbours (clusterOf s.rank)).filter (holdsCores s lid)) 0
/-- A running audit holds ALLOC, FREE and returns back (R239). -/
def poolBusy (s : State) (r lid : Nat) : Bool := match s.pool r lid with | some p => decide (s.cycle < p.busy) | none => false

/-- ALLOC (R237, R246): a broker's core allocates when its request arrives there. -/
def execAlloc (d a : BitVec 5) (s : State) : Host.Outcome State Fault Refusal :=
  s.finish (do
    s.checkPorts [a] d
    let h := s.rx a
    let lid := s.me.lid
    if fld h 52 12 = 0 ∨ 4092 < fld h 52 12 then stop .linkerr h
    else if poolBusy s s.rank lid then waitFor .slow
    else match allocCore s with
      | none => stop .netfull 0
      | some (r, asks) => do
        s.arrives r (15 + 2 * hops s.rank r + 24 * asks)
        if poolBusy s r lid then waitFor .slow
        else match (s.pool r lid).map fun p => (p, p.free) with
          | some (p, i :: rest) =>
            let n := slotAt p r i
            let t := s.modPool r lid fun p => { p with free := rest, used := nsAdd p.used i, count := p.count - 1 }
            let hdr := (h &&& 0xFFFFFFFF00000000) ||| w64 (lid * 65536)
            let t1 := iter (fun k u => u.netWrite (n + 8 * k) (if k = 0 then hdr else 0)) 8 t
            .ok (t1.done (s.clmTime r) { srcs := [a], writes := [(d.toNat, placeAddr n)] })
          | _ => stop .netfull 0)

/-- FREE (R235, R238, R246): a slot homed elsewhere becomes a tomb, and once that is acknowledged its free-slot return
leaves. The tomb differs in its KIND only, since the hardware writes FLAGS at ALLOC alone (R222). Whether the tomb's write
waits for an audit that runs at its home R239 does not say: it does not, and the return does (DESIGN CHOICE, log 83). -/
def execFree (a : BitVec 5) (s : State) : Host.Outcome State Fault Refusal :=
  s.finish (do
    s.checkIns [a]
    let v := s.rx a
    let n ← nodeOperand s v
    let k := fld (s.netRead n) 52 12
    let r := netRank n
    let lid := s.me.lid
    if !nodeOk s n ∨ k = 0 ∨ 4092 < k then stop .linkerr v
    else if s.slotHeld n then waitFor .link
    else if r = s.rank then
      if poolBusy s r lid then waitFor .slow else .ok ((freeLocal s lid n).done 8 { srcs := [a] })
    else do
      s.atHome r
      let i := match s.pool r lid with | some p => slotIx p n | none => 0
      let t := (s.netWrite n (s.netRead n ||| 0xFFF0000000000000)).incSent s.rank lid
      .ok ((t.later (4 * hops s.rank r + 14) (.freeSlotReturn r i ⟨lid, s.rank⟩)).done (s.clmTime r) { srcs := [a] }))

/-- RULEEND (R246): a pair barge ends as by EXIT. -/
def execRuleend (s : State) : Host.Outcome State Fault Refusal :=
  s.finish (if s.me.header.kind = .pair ∧ s.me.hdr.isSome then s.exitBarge else stop .ill 0xC0000002)
/-- NETAUD (R239, R246). -/
def execNetaud (d : BitVec 5) (s : State) : Host.Outcome State Fault Refusal :=
  s.finish (do
    s.checkOut d
    let lid := s.me.lid
    if poolBusy s s.rank lid then waitFor .slow
    else
      let t := audit s s.rank lid
      let p := t.pool s.rank lid
      let n := match p with | some p => p.reclaimed | none => 0
      let lat := match p with | some p => p.slots + 64 | none => 8
      .ok (t.done lat { writes := [(d.toNat, w64 n)] }))
/-- NSTAT (R246). -/
def execNstat (d a : BitVec 5) (s : State) : Host.Outcome State Fault Refusal :=
  s.finish (do
    s.checkPorts [a] d
    let v := s.rx a
    let n ← if v = 0 then .ok (s.rank * 131072) else nodeOperand s v
    let r := netRank n
    if 9216 ≤ r ∨ !s.inRect s.me.lid r then stop .place v
    else do
      s.atHome r
      .ok (s.done (s.clmTime r) { srcs := [a], writes := [(d.toNat, netpool s r s.me.lid)] }))
/-- PORTP (R246). -/
def execPortp (d a : BitVec 5) (s : State) : Host.Outcome State Fault Refusal :=
  s.finish (do
    s.checkPorts [a] d
    let n ← nodeOperand s (s.rx a)
    if n % 64 ≠ 0 then stop .linkerr (s.rx a) else .ok (s.done 8 { srcs := [a], writes := [(d.toNat, w64 (2 ^ 61 + n))] }))
/-- PORTA (R246). -/
def execPorta (d a : BitVec 5) (k : BitVec 2) (s : State) : Host.Outcome State Fault Refusal :=
  s.finish (do
    s.checkPorts [a] d
    let n ← nodeOperand s (s.rx a)
    if n % 64 ≠ 0 then stop .linkerr (s.rx a) else .ok (s.done 8 { srcs := [a], writes := [(d.toNat, auxWord (n + 8 + 8 * k.toNat))] }))
/-- PORTN (R246). -/
def execPortn (d a b : BitVec 5) (s : State) : Host.Outcome State Fault Refusal :=
  s.finish (do
    s.checkPorts [a, b] d
    let k := fld (s.rx b) 0 12
    if k = 0xFFD then .ok (s.done 8 { srcs := [a, b], writes := [(d.toNat, nulWord)] })
    else if 1 ≤ k ∧ k ≤ 4092 then .ok (s.done 8 { srcs := [a, b], writes := [(d.toNat, w64 (2 ^ 63 + k * 2 ^ 48 + fld (s.rx a) 0 32))] })
    else stop .linkerr (s.rx b))

/-! ### Payloads (R240 to R244) -/

/-- A node operand of a payload instruction, with R233's checks on it. -/
def payNode (s : State) (v : Word) : Run Nat := do
  let n ← nodeOperand s v
  match nodeFails s n with
  | some a => stop .linkerr (placeAddr a)
  | none => if n % 64 ≠ 0 then stop .linkerr (placeAddr n) else .ok n
/-- The count at a tile header as an AMO.W at its home: the count before, f's new count (none for no write). A poisoned
count traps, or reads 0 and is left. -/
def payCount (s : State) (ha : Word) (rel : Bool) (f : Nat → Option Nat) : Run (State × Nat × Nat) := do
  let (t, l, lat) ← amoHome s ha 4 rel
  if t.poisoned l then (if s.me.pte then stop .poison (unitVa ha) else .ok (t.consume ha, 0, lat))
  else
    let old := t.readN l 4
    .ok ((match f old with | some n => t.storeAt l 4 n | none => t), old, lat)
def setPcls (s : State) (n c : Nat) : State :=
  s.netWrite n ((s.netRead n &&& 0xFFFCFFFFFFFFFFFF) ||| w64 (c * 2 ^ 48))
/-- The tile header of a node's counted payload; a poisoned descriptor traps, or reads as 0 and is consumed (R188, R241). -/
def tileHeader (s : State) (n : Nat) : Run (State × Word) :=
  let head (v : Word) : Word := (v &&& 0xFFFFFFFFFFFFF) - 16
  if s.poisoned (netLoc (n + 40)) then
    if s.me.pte then stop .poison (placeAddr (n + 40)) else .ok (s.countPoison s.rank s.me.lid ((n + 40) % 131072), head 0)
  else .ok (s, head (s.netRead (n + 40)))
/-- The count operation of a counted payload, at the home of its tile header. -/
def payTile (s : State) (n : Nat) (rel : Bool) (f : Nat → Option Nat) : Run (State × Word × Nat × Nat) := do
  let (t, ha) ← tileHeader s n
  let (u, old, lat) ← payCount t ha rel f
  .ok (u, ha, old, lat)
/-- The count operation that the executing instruction has performed: the count before, and its tile header. -/
def State.counted (s : State) : Option (Nat × Word) := s.myWait.bind fun w => w.issued.counted
/-- The count operation is performed; the slot write at core r follows when its reply is back, on its own way (R169, R242). -/
def State.countDone (t : State) (old : Nat) (ha : Word) (lat r : Nat) : Run State :=
  let due := t.startAt + (lat - 8) + (if r = t.rank then 7 else 5 + 2 * hops t.rank r)
  gone (((t.block (.remote due)).noteIssued fun i => { i with counted := some (old, ha) }).modMyWait fun w => { w with home := false })
/-- A count that may not change traps; its read has acquired (R181, R242, R243). -/
def badCount (t : State) (ha : Word) : Run State := gone (t.gain.trapNow .linkerr ha)
/-- A payload word copied with its poison (R339, R341). -/
def copyWord (t : State) (src dst : Nat) : State := (t.netWrite dst (t.netRead src)).setPoison (netLoc dst) (t.poisoned (netLoc src))

/-- PAYDUP (R242). A payload of class 0b11 traps LINKERR (R240) with the node's place address as TVAL, which the rules do not
say (DESIGN CHOICE, log 83). -/
def execPaydup (a b : BitVec 5) (s : State) : Host.Outcome State Fault Refusal :=
  s.finish (do
    s.checkIns [a, b]
    let n ← nodeOperand s (s.rx a)
    let m ← nodeOperand s (s.rx b)
    let c := fld (s.netRead n) 48 2
    let write (acq : Bool) : Run State := do
      s.atHome (netRank m)
      let t := setPcls (iter (fun k u => copyWord u (n + 40 + 8 * k) (m + 40 + 8 * k)) 3 s) m c
      .ok (t.done (s.clmTime (netRank m)) { srcs := [a, b], acquire := acq })
    if s.counted.isSome then write true
    else do
      let _ ← payNode s (s.rx a)
      let _ ← payNode s (s.rx b)
      if c = 3 then stop .linkerr (placeAddr n)
      else if c = 2 then do
        let (t, ha, old, l2) ← payTile s n true fun o => if o = 0 ∨ o = 0xFFFFFFFF then none else some (o + 1)
        if old = 0 ∨ old = 0xFFFFFFFF then badCount t ha else t.countDone old ha l2 (netRank m)
      else write false)
/-- PAYDROP (R243). Class 0b11 as for PAYDUP; the TVAL of a decrement from 0, which R243 does not say, is the tile header's
address, as R242 has it for PAYDUP (DESIGN CHOICE, log 83). -/
def execPaydrop (d a : BitVec 5) (im : BitVec 5) (s : State) : Host.Outcome State Fault Refusal :=
  s.finish (do
    s.checkPorts [a] d
    let n ← nodeOperand s (s.rx a)
    let c := fld (s.netRead n) 48 2
    let drop (p : Bool) (v : Word) (acq : Bool) : Run State := do
      s.atHome (netRank n)
      .ok ((if acq || c == 1 then setPcls s n 0 else s).done (s.clmTime (netRank n))
        { srcs := [a], writes := [(d.toNat, v)], pred := some (im.toNat, p), acquire := acq })
    match s.counted with
    | some (old, ha) => drop (old == 1) (if old = 1 then ha + 16 else 0) true
    | none => do
      let _ ← payNode s (s.rx a)
      if c = 3 then stop .linkerr (placeAddr n)
      else if c = 2 then do
        let (t, ha, old, l2) ← payTile s n true fun o => if o = 0 then none else some (o - 1)
        if old = 0 then badCount t ha else t.countDone old ha l2 (netRank n)
      else drop (c == 1) 0 false)
/-- PAYOWN (R244). Class 0b11 as for PAYDUP (log 83). -/
def execPayown (a : BitVec 5) (im : BitVec 5) (s : State) : Host.Outcome State Fault Refusal :=
  s.finish (do
    s.checkIns [a]
    let n ← payNode s (s.rx a)
    let c := fld (s.netRead n) 48 2
    if c = 3 then stop .linkerr (placeAddr n)
    else if c = 2 then do
      let (t, _, old, l2) ← payTile s n false some
      .ok (t.done (l2 + (if netRank n = s.rank then 8 else 10 + 4 * hops s.rank (netRank n))) { srcs := [a], pred := some (im.toNat, old == 1), acquire := true })
    else do
      s.atHome (netRank n)
      .ok (s.done (s.clmTime (netRank n)) { srcs := [a], pred := some (im.toNat, true) }))

end Sys2Proof.Machine
end

