-- ==== Sys2Proof/WellFormed.lean ====
section
/-!
DEFINITION. Well-formed instructions: the register-field, sub-field and event-argument checks that a decoded word must
pass beyond its fixed bits (R25, R41, R42, R46 and the encoding tables of the instruction chapters).
-/
namespace Sys2Proof

/-- A 5-bit field read as an x register: reading qo0 to qo3 traps ILL (R25). -/
def srcX (r : BitVec 5) : Bool := r.toNat < 28
/-- A 5-bit field written as an x register: writing qi0 to qi3 traps ILL (R25). -/
def dstX (r : BitVec 5) : Bool := r.toNat < 24 || 28 ≤ r.toNat
/-- A field both read and written: no channel port (R25). -/
def rwX (r : BitVec 5) : Bool := r.toNat < 24
/-- A field that names a channel port (R211). -/
def portX (r : BitVec 5) : Bool := 24 ≤ r.toNat
/-- A place field: with IND = 1, bits [13:0] are zero (R42). -/
def placeOk (p : BitVec 15) : Bool := p.toNat < 16384 || p.toNat == 16384
/-- The assigned CSR numbers (R29). -/
def csrOk (c : BitVec 12) : Bool := c.toNat ≤ 9 || (256 ≤ c.toNat && c.toNat ≤ 266)
/-- XMOVT and XMOVF: class 0 to 3 and the register numbers each class allows (R96, R100). -/
def xmovOk (c d a : BitVec 5) : Bool :=
  (c.toNat == 0 && d.toNat < 24 && a.toNat < 24) || ((c.toNat == 1 || c.toNat == 2) && d.toNat < 16 && a.toNat < 16)
    || (c.toNat == 3 && d.toNat == 0 && a.toNat == 0)

/-- Every constructor's checks. Encoded instructions: what R46 calls illegal beyond the fixed bits. Events: the ranges
of ranks, berths, clusters, ports and identifiers. -/
def Instr.wf : Instr → Bool
  | .add d a b => dstX d && srcX a && srcX b
  | .sub d a b => dstX d && srcX a && srcX b
  | .and d a b => dstX d && srcX a && srcX b
  | .or d a b => dstX d && srcX a && srcX b
  | .xor d a b => dstX d && srcX a && srcX b
  | .andn d a b => dstX d && srcX a && srcX b
  | .orn d a b => dstX d && srcX a && srcX b
  | .sll d a b => dstX d && srcX a && srcX b
  | .srl d a b => dstX d && srcX a && srcX b
  | .sra d a b => dstX d && srcX a && srcX b
  | .ror d a b => dstX d && srcX a && srcX b
  | .addw d a b => dstX d && srcX a && srcX b
  | .subw d a b => dstX d && srcX a && srcX b
  | .mul d a b => dstX d && srcX a && srcX b
  | .mulh d a b => dstX d && srcX a && srcX b
  | .mulhu d a b => dstX d && srcX a && srcX b
  | .mulhsu d a b => dstX d && srcX a && srcX b
  | .div d a b => dstX d && srcX a && srcX b
  | .divu d a b => dstX d && srcX a && srcX b
  | .rem d a b => dstX d && srcX a && srcX b
  | .remu d a b => dstX d && srcX a && srcX b
  | .min d a b => dstX d && srcX a && srcX b
  | .max d a b => dstX d && srcX a && srcX b
  | .minu d a b => dstX d && srcX a && srcX b
  | .maxu d a b => dstX d && srcX a && srcX b
  | .clz d a => dstX d && srcX a
  | .ctz d a => dstX d && srcX a
  | .popc d a => dstX d && srcX a
  | .sextb d a => dstX d && srcX a
  | .sexth d a => dstX d && srcX a
  | .sextw d a => dstX d && srcX a
  | .zextw d a => dstX d && srcX a
  | .addi d a _ => dstX d && srcX a
  | .andi d a _ => dstX d && srcX a
  | .ori d a _ => dstX d && srcX a
  | .xori d a _ => dstX d && srcX a
  | .slli d a _ => dstX d && srcX a
  | .srli d a _ => dstX d && srcX a
  | .srai d a _ => dstX d && srcX a
  | .rori d a _ => dstX d && srcX a
  | .addiw d a _ => dstX d && srcX a
  | .lui d _ => dstX d
  | .auipc d _ => dstX d
  | .cmpEq _ a b => srcX a && srcX b
  | .cmpNe _ a b => srcX a && srcX b
  | .cmpLt _ a b => srcX a && srcX b
  | .cmpLtu _ a b => srcX a && srcX b
  | .cmpGe _ a b => srcX a && srcX b
  | .cmpGeu _ a b => srcX a && srcX b
  | .cmpiEq _ a _ => srcX a
  | .cmpiNe _ a _ => srcX a
  | .cmpiLt _ a _ => srcX a
  | .cmpiLtu _ a _ => srcX a
  | .cmpiGe _ a _ => srcX a
  | .cmpiGeu _ a _ => srcX a
  | .pand _ _ _ => true
  | .por _ _ _ => true
  | .pxor _ _ _ => true
  | .pandn _ _ _ => true
  | .pmov _ _ => true
  | .pset d a => srcX a && d.toNat != 0
  | .psetP a => srcX a
  | .sel d a b im => dstX d && srcX a && srcX b && im.toNat != 0
  | .selP d => dstX d
  | .bpT _ _ => true
  | .bpF _ _ => true
  | .j _ => true
  | .jal d _ => dstX d
  | .jalr d a _ => dstX d && srcX a
  | .ldb d a _ => dstX d && srcX a
  | .ldbu d a _ => dstX d && srcX a
  | .ldh d a _ => dstX d && srcX a
  | .ldhu d a _ => dstX d && srcX a
  | .ldw d a _ => dstX d && srcX a
  | .ldwu d a _ => dstX d && srcX a
  | .ldd d a _ => dstX d && srcX a
  | .stb b a _ => srcX b && srcX a
  | .sth b a _ => srcX b && srcX a
  | .stw b a _ => srcX b && srcX a
  | .std b a _ => srcX b && srcX a
  | .ldf _ a _ => srcX a
  | .stf _ a _ => srcX a
  | .ldsync d a _ => dstX d && srcX a
  | .stfull b a _ => srcX b && srcX a
  | .feclr a _ => srcX a
  | .ferd d a _ => dstX d && srcX a
  | .rld d a b => dstX d && srcX a && srcX b
  | .rst a b => srcX a && srcX b
  | .pfd a => srcX a
  | .icpf a => srcX a
  | .amoAdd d a b _ _ _ => dstX d && srcX a && srcX b
  | .amoAnd d a b _ _ _ => dstX d && srcX a && srcX b
  | .amoOr d a b _ _ _ => dstX d && srcX a && srcX b
  | .amoXor d a b _ _ _ => dstX d && srcX a && srcX b
  | .amoMin d a b _ _ _ => dstX d && srcX a && srcX b
  | .amoMax d a b _ _ _ => dstX d && srcX a && srcX b
  | .amoMinu d a b _ _ _ => dstX d && srcX a && srcX b
  | .amoMaxu d a b _ _ _ => dstX d && srcX a && srcX b
  | .amoSwap d a b _ _ _ => dstX d && srcX a && srcX b
  | .amoCas d a b _ _ _ => rwX d && srcX a && srcX b
  | .amoFadd d a b _ _ => dstX d && srcX a && srcX b
  | .cmoClean a b l => srcX a && srcX b && l.toNat != 3
  | .cmoInv a b l => srcX a && srcX b && l.toNat != 3
  | .cmoClinv a b l => srcX a && srcX b && l.toNat != 3
  | .fadd _ _ _ => true
  | .fsub _ _ _ => true
  | .fmul _ _ _ => true
  | .fdiv _ _ _ => true
  | .fsqrt _ _ => true
  | .fmin _ _ _ => true
  | .fmax _ _ _ => true
  | .fsgnj _ _ _ => true
  | .fsgnjn _ _ _ => true
  | .fsgnjx _ _ _ => true
  | .fclass d _ => dstX d
  | .fma _ _ _ _ => true
  | .fms _ _ _ _ => true
  | .fnma _ _ _ _ => true
  | .fcmpEq _ _ _ => true
  | .fcmpLt _ _ _ => true
  | .fcmpLe _ _ _ => true
  | .fcmpUn _ _ _ => true
  | .fcvtI32F d _ => dstX d
  | .fcvtI64F d _ => dstX d
  | .fcvtFI32 _ a => srcX a
  | .fcvtFI64 _ a => srcX a
  | .fcvtBfF _ _ => true
  | .fcvtFBf _ _ => true
  | .fcvtHfF _ _ => true
  | .fcvtFHf _ _ => true
  | .fmvx d _ => dstX d
  | .fmvf _ a => srcX a
  | .vld _ a _ => srcX a
  | .vst _ a _ => srcX a
  | .vlds _ a b _ => srcX a && srcX b
  | .vsts _ a b _ => srcX a && srcX b
  | .vldx _ a _ _ => srcX a
  | .vstx _ a _ _ => srcX a
  | .vbcast _ a => srcX a
  | .vextr d _ _ => dstX d
  | .vadd _ _ _ _ => true
  | .vsub _ _ _ _ => true
  | .vmul _ _ _ _ => true
  | .vfma _ _ _ _ _ => true
  | .vfms _ _ _ _ _ => true
  | .vmin _ _ _ _ => true
  | .vmax _ _ _ _ => true
  | .vabs _ _ _ => true
  | .vrcp _ _ _ => true
  | .vrsq _ _ _ => true
  | .vexp2 _ _ _ => true
  | .vlog2 _ _ _ => true
  | .viadd _ _ _ _ => true
  | .visub _ _ _ _ => true
  | .vimul _ _ _ _ => true
  | .vand _ _ _ _ => true
  | .vor _ _ _ _ => true
  | .vxor _ _ _ _ => true
  | .vsll _ _ _ _ => true
  | .vsrl _ _ _ _ => true
  | .vsra _ _ _ _ => true
  | .vcmpEq _ _ _ => true
  | .vcmpNe _ _ _ => true
  | .vcmpLt _ _ _ => true
  | .vcmpLtu _ _ _ => true
  | .vcmpGe _ _ _ => true
  | .vcmpGeu _ _ _ => true
  | .vcmpFeq _ _ _ => true
  | .vcmpFlt _ _ _ => true
  | .vcmpFle _ _ _ => true
  | .vcmpFun _ _ _ => true
  | .vsel _ _ _ => true
  | .vshuf _ _ _ _ => true
  | .vslideUp _ _ _ _ _ => true
  | .vslideDn _ _ _ _ _ => true
  | .vcvtI32F _ _ _ r => (r.toNat < 4 || r.toNat == 5)
  | .vcvtFI32 _ _ _ r => (r.toNat < 4 || r.toNat == 5)
  | .vcvtBfF _ _ _ _ r => (r.toNat ≤ 5)
  | .vcvtFBf _ _ _ _ => true
  | .vcvtHfF _ _ _ _ r => (r.toNat ≤ 5)
  | .vcvtFHf _ _ _ _ => true
  | .vencT0 _ _ _ _ => true
  | .vencT1 _ _ _ _ => true
  | .vencE2 _ _ _ _ => true
  | .vdecT0 _ _ _ _ => true
  | .vdecT1 _ _ _ _ => true
  | .vdecE2 _ _ _ _ => true
  | .dtabLd _ a _ => srcX a
  | .vred _ _ _ k => (k.toNat ≤ 11)
  | .vscan _ _ _ k => (k.toNat ≤ 11)
  | .vscanl _ _ _ c _ f => c.toNat != 15 && (f.toNat ≤ 4)
  | .vdotbX8 _ _ _ sc _ => sc.toNat != 15
  | .vdotbX4 _ _ _ sc _ => sc.toNat != 15
  | .mmaBf _ a _ _ _ => srcX a
  | .mmaHf _ a _ _ _ => srcX a
  | .mmaE4 _ a _ _ _ => srcX a
  | .mmaE45 _ a _ _ _ => srcX a
  | .mmaE5 _ a _ _ _ => srcX a
  | .mmaX8 _ a sc _ _ _ => srcX a && srcX sc && sc.toNat != 0
  | .mmaX84 _ a sc _ _ _ => srcX a && srcX sc && sc.toNat != 0
  | .mmaX4 _ a sc _ _ _ => srcX a && srcX sc && sc.toNat != 0
  | .mmaI8 _ a _ _ _ => srcX a
  | .acq _ => true
  | .rel _ => true
  | .azero _ => true
  | .apois d _ => dstX d
  | .ald _ a => srcX a
  | .ast _ a _ r f => srcX a && (r.toNat ≤ 5) && (f.toNat ≤ 4)
  | .arow _ _ b => srcX b
  | .awr _ _ b => srcX b
  | .bld a b => srcX a && srcX b
  | .brot a => srcX a
  | .bstat d => dstX d
  | .tldt a b => srcX a && srcX b
  | .spawn p _ => srcX p
  | .spawnc _ => true
  | .spawnr n _ => (1 ≤ n.toNat && n.toNat ≤ 22)
  | .nextch _ => true
  | .await => true
  | .exit => true
  | .yield => true
  | .moor => true
  | .unmoor => true
  | .frame d => dstX d
  | .cancel a => srcX a
  | .place d a b => dstX d && srcX a && srcX b
  | .rankof d a p => dstX d && srcX a && placeOk p && (p.toNat / 16384 != 0 || a.toNat == 0)
  | .alloc d a => dstX d && srcX a
  | .free a => srcX a
  | .ruleend => true
  | .netaud d => dstX d
  | .nstat d a => dstX d && srcX a
  | .portp d a => dstX d && srcX a
  | .porta d a k => dstX d && srcX a && k.toNat != 0
  | .portn d a b => dstX d && srcX a && srcX b
  | .link a b => srcX a && srcX b
  | .join a b => srcX a && srcX b
  | .linkn a b => srcX a && srcX b
  | .paydup a b => srcX a && srcX b
  | .paydrop d a _ => dstX d && srcX a
  | .payown a _ => srcX a
  | .chbind _ _ a p => srcX a && placeOk p
  | .chfree a => portX a
  | .chstat d a => dstX d && portX a
  | .cbar _ => true
  | .cbarcfg d a _ => dstX d && srcX a
  | .sluCopy d a b _ _ => rwX d && srcX a && srcX b
  | .sluFill d a b _ _ => rwX d && srcX a && srcX b
  | .sluStat d a => dstX d && srcX a
  | .sluCan a => srcX a
  | .scOpen d a b => dstX d && srcX a && srcX b
  | .scStep d a b _ => dstX d && srcX a && srcX b
  | .scMask r a b => srcX r && srcX a && srcX b
  | .scFork d a => dstX d && srcX a
  | .scRoll a b => srcX a && srcX b
  | .scSave a b => srcX a && srcX b
  | .scLoad d a => dstX d && srcX a
  | .scClose a => srcX a
  | .scStat d a b => dstX d && srcX a && srcX b
  | .rng d a b => dstX d && srcX a && srcX b
  | .rngu _ a b => srcX a && srcX b
  | .smpLoc d a b => dstX d && srcX a && srcX b
  | .smpMrg d a b => dstX d && srcX a && srcX b
  | .smpTopk d a b => srcX d && srcX a && srcX b
  | .rpt _ _ _ _ => true
  | .rptD _ _ _ _ => true
  | .borrow d a => dstX d && srcX a
  | .giveb => true
  | .xmovt d a c => xmovOk c d a
  | .xmovf d a c => xmovOk c d a
  | .csrr d c => dstX d && csrOk c
  | .csrw d a c => dstX d && srcX a && csrOk c
  | .csrs d a c => dstX d && srcX a && csrOk c
  | .csrc d a c => dstX d && srcX a && csrOk c
  | .ecall => true
  | .ebreak => true
  | .tret => true
  | .wfi => true
  | .isync => true
  | .lnch d a => dstX d && srcX a
  | .lcancel a => srcX a
  | .pspill d a b => dstX d && srcX a && srcX b
  | .prest d a b => dstX d && srcX a && srcX b
  | .repeatBufferWord r => r < 9216
  | .interruptEntry r b => r < 9216 && b < 16
  | .replyArrival r b => r < 9216 && b < 16
  | .registerFileDrowse r b => r < 9216 && b < 16
  | .docking r => r < 9216
  | .bargeArrival r pk => r < 9216 && pk.src < 9216
  | .spillReturn r => r < 9216
  | .frameIncrement _ r b => r < 9216 && b < 16
  | .frameDecrement h => h.src < 9216
  | .resumeMessage r _ lid => r < 9216 && lid.src < 9216
  | .chunkClaim _ r b _ => r < 9216 && b < 16
  | .stealRequest r => r < 9216
  | .stealServe cl => cl < 576
  | .detectionPass _ => true
  | .pairMessage r pk => r < 9216 && pk.src < 9216
  | .freeSlotReturn r _ lid => r < 9216 && lid.src < 9216
  | .poolAudit r _ => r < 9216
  | .channelEntryArrival r b port fr fb fp _ _ => r < 9216 && b < 16 && port < 8 && fr < 9216 && fb < 16 && fp < 8
  | .channelFreedNotice r b port fr fb fp => r < 9216 && b < 16 && port < 8 && fr < 9216 && fb < 16 && fp < 8
  | .deadlockProbeSend r b => r < 9216 && b < 16
  | .deadlockProbeReceive r b _ => r < 9216 && b < 16
  | .barrierArrival cl id r b => cl < 576 && id < 16 && r < 9216 && b < 16
  | .barrierTimeout cl id => cl < 576 && id < 16
  | .brotTimeout r => r < 9216
  | .mmaStep r => r < 9216
  | .latchFillDone r h => r < 9216 && h < 2
  | .ringSend r => r < 9216
  | .ringTransferDone r => r < 9216
  | .dtabSortDone r t => r < 9216 && t < 2
  | .basinSwitchDone cl bank => cl < 576 && bank < 16
  | .sluiceBurst cl => cl < 576
  | .scRequestService cl => cl < 576
  | .walkDone cl _ _ => cl < 576
  | .timerExpiry r => r < 9216
  | .budgetExpiry r b => r < 9216 && b < 16
  | .preemptRequest r => r < 9216
  | .restoreStart r _ => r < 9216
  | .heldMessageRelease r => r < 9216
  | .jobTake => true
  | .launchAdmission _ => true
  | .jqtailWrite _ => true
  | .jqcancel _ => true
  | .ctxWrite n _ => n < 256
  | .tlbinvAsid _ => true
  | .tlbinvRange _ _ _ => true
  | .tlbinvAll => true
  | .shootdownDone => true
  | .hostBar2Read _ _ => true
  | .hostBar2Write _ _ => true
  | .debugHalt r _ => r < 9216
  | .berthHalted r b => r < 9216 && b < 16
  | .debugResume r _ => r < 9216
  | .debugDataWrite r _ => r < 9216
  | .corecfgWrite r _ => r < 9216
  | .hqctlWrite r _ => r < 9216
  | .bascfgWrite r _ => r < 9216
  | .timecmpWrite r _ => r < 9216
  | .registerWrite _ _ => true
  | .atgoWrite _ => true
  | .attestReportDone => true
  | .eccCorrected _ => true
  | .eccUncorrectable _ => true
  | .flitCrcError _ => true
  | .linkFlitError _ => true
  | .fatalError _ => true
  | .scrub _ _ => true
  | .telemetryPoll => true
  | .clusterRetire cl => cl < 576
  | .powerMeasurement _ => true
  | .thermalTrip _ => true
  | .powerOnReset _ => true
  | .smbusReadPower => true
  | .smbusReadTemperature => true
  | .smbusReadReady => true
  | .smbusWritePlim _ => true
  | .smbusReadBoot => true
  | .illegalInstruction _ => true
  | .fetchFault _ => true
  | .dumpCopyDone => true
  | .pcieConfigurationRequest _ => true

end Sys2Proof
end

