-- ==== Sys2Proof/Decode.lean ====
section
/-!
DEFINITION. The decoder (R38, R39, R43 to R46), total on any word and rejecting by name, and the encoder that writes
the words of an instruction from the same tables.
-/
namespace Sys2Proof

/-- Why a word is no instruction (R46). -/
inductive Reject where
  /-- Fewer than four bytes, or more. -/
  | length
  /-- The major opcode is 0x00, 0x7F or reserved in R43. -/
  | opcode
  /-- A function field is not listed, or a must-be-zero bit or an unused register field is set. -/
  | function
  /-- A register field, CSR number or sub-field breaks R25, R29, R41 or its encoding table. -/
  | field
deriving DecidableEq, Repr

/-- Major opcode 0x01 (R43). -/
def decodeOp01 (w : Nat) : Option Instr :=
  if w % 1024 = 0 then some (.add (BitVec.ofNat 5 (w / 1048576)) (BitVec.ofNat 5 (w / 32768)) (BitVec.ofNat 5 (w / 1024)))
  else if w % 1024 = 1 then some (.sub (BitVec.ofNat 5 (w / 1048576)) (BitVec.ofNat 5 (w / 32768)) (BitVec.ofNat 5 (w / 1024)))
  else if w % 1024 = 2 then some (.and (BitVec.ofNat 5 (w / 1048576)) (BitVec.ofNat 5 (w / 32768)) (BitVec.ofNat 5 (w / 1024)))
  else if w % 1024 = 3 then some (.or (BitVec.ofNat 5 (w / 1048576)) (BitVec.ofNat 5 (w / 32768)) (BitVec.ofNat 5 (w / 1024)))
  else if w % 1024 = 4 then some (.xor (BitVec.ofNat 5 (w / 1048576)) (BitVec.ofNat 5 (w / 32768)) (BitVec.ofNat 5 (w / 1024)))
  else if w % 1024 = 5 then some (.andn (BitVec.ofNat 5 (w / 1048576)) (BitVec.ofNat 5 (w / 32768)) (BitVec.ofNat 5 (w / 1024)))
  else if w % 1024 = 6 then some (.orn (BitVec.ofNat 5 (w / 1048576)) (BitVec.ofNat 5 (w / 32768)) (BitVec.ofNat 5 (w / 1024)))
  else if w % 1024 = 8 then some (.sll (BitVec.ofNat 5 (w / 1048576)) (BitVec.ofNat 5 (w / 32768)) (BitVec.ofNat 5 (w / 1024)))
  else if w % 1024 = 9 then some (.srl (BitVec.ofNat 5 (w / 1048576)) (BitVec.ofNat 5 (w / 32768)) (BitVec.ofNat 5 (w / 1024)))
  else if w % 1024 = 10 then some (.sra (BitVec.ofNat 5 (w / 1048576)) (BitVec.ofNat 5 (w / 32768)) (BitVec.ofNat 5 (w / 1024)))
  else if w % 1024 = 11 then some (.ror (BitVec.ofNat 5 (w / 1048576)) (BitVec.ofNat 5 (w / 32768)) (BitVec.ofNat 5 (w / 1024)))
  else if w % 1024 = 12 then some (.addw (BitVec.ofNat 5 (w / 1048576)) (BitVec.ofNat 5 (w / 32768)) (BitVec.ofNat 5 (w / 1024)))
  else if w % 1024 = 13 then some (.subw (BitVec.ofNat 5 (w / 1048576)) (BitVec.ofNat 5 (w / 32768)) (BitVec.ofNat 5 (w / 1024)))
  else if w % 1024 = 16 then some (.mul (BitVec.ofNat 5 (w / 1048576)) (BitVec.ofNat 5 (w / 32768)) (BitVec.ofNat 5 (w / 1024)))
  else if w % 1024 = 17 then some (.mulh (BitVec.ofNat 5 (w / 1048576)) (BitVec.ofNat 5 (w / 32768)) (BitVec.ofNat 5 (w / 1024)))
  else if w % 1024 = 18 then some (.mulhu (BitVec.ofNat 5 (w / 1048576)) (BitVec.ofNat 5 (w / 32768)) (BitVec.ofNat 5 (w / 1024)))
  else if w % 1024 = 19 then some (.mulhsu (BitVec.ofNat 5 (w / 1048576)) (BitVec.ofNat 5 (w / 32768)) (BitVec.ofNat 5 (w / 1024)))
  else if w % 1024 = 20 then some (.div (BitVec.ofNat 5 (w / 1048576)) (BitVec.ofNat 5 (w / 32768)) (BitVec.ofNat 5 (w / 1024)))
  else if w % 1024 = 21 then some (.divu (BitVec.ofNat 5 (w / 1048576)) (BitVec.ofNat 5 (w / 32768)) (BitVec.ofNat 5 (w / 1024)))
  else if w % 1024 = 22 then some (.rem (BitVec.ofNat 5 (w / 1048576)) (BitVec.ofNat 5 (w / 32768)) (BitVec.ofNat 5 (w / 1024)))
  else if w % 1024 = 23 then some (.remu (BitVec.ofNat 5 (w / 1048576)) (BitVec.ofNat 5 (w / 32768)) (BitVec.ofNat 5 (w / 1024)))
  else if w % 1024 = 24 then some (.min (BitVec.ofNat 5 (w / 1048576)) (BitVec.ofNat 5 (w / 32768)) (BitVec.ofNat 5 (w / 1024)))
  else if w % 1024 = 25 then some (.max (BitVec.ofNat 5 (w / 1048576)) (BitVec.ofNat 5 (w / 32768)) (BitVec.ofNat 5 (w / 1024)))
  else if w % 1024 = 26 then some (.minu (BitVec.ofNat 5 (w / 1048576)) (BitVec.ofNat 5 (w / 32768)) (BitVec.ofNat 5 (w / 1024)))
  else if w % 1024 = 27 then some (.maxu (BitVec.ofNat 5 (w / 1048576)) (BitVec.ofNat 5 (w / 32768)) (BitVec.ofNat 5 (w / 1024)))
  else if w % 32768 = 32 then some (.clz (BitVec.ofNat 5 (w / 1048576)) (BitVec.ofNat 5 (w / 32768)))
  else if w % 32768 = 33 then some (.ctz (BitVec.ofNat 5 (w / 1048576)) (BitVec.ofNat 5 (w / 32768)))
  else if w % 32768 = 34 then some (.popc (BitVec.ofNat 5 (w / 1048576)) (BitVec.ofNat 5 (w / 32768)))
  else if w % 32768 = 35 then some (.sextb (BitVec.ofNat 5 (w / 1048576)) (BitVec.ofNat 5 (w / 32768)))
  else if w % 32768 = 36 then some (.sexth (BitVec.ofNat 5 (w / 1048576)) (BitVec.ofNat 5 (w / 32768)))
  else if w % 32768 = 37 then some (.sextw (BitVec.ofNat 5 (w / 1048576)) (BitVec.ofNat 5 (w / 32768)))
  else if w % 32768 = 38 then some (.zextw (BitVec.ofNat 5 (w / 1048576)) (BitVec.ofNat 5 (w / 32768)))
  else none

/-- Major opcode 0x02 (R43). -/
def decodeOp02 (w : Nat) : Option Instr :=
  some (.addi (BitVec.ofNat 5 (w / 1048576)) (BitVec.ofNat 5 (w / 32768)) (BitVec.ofNat 15 w))

/-- Major opcode 0x03 (R43). -/
def decodeOp03 (w : Nat) : Option Instr :=
  some (.andi (BitVec.ofNat 5 (w / 1048576)) (BitVec.ofNat 5 (w / 32768)) (BitVec.ofNat 15 w))

/-- Major opcode 0x04 (R43). -/
def decodeOp04 (w : Nat) : Option Instr :=
  some (.ori (BitVec.ofNat 5 (w / 1048576)) (BitVec.ofNat 5 (w / 32768)) (BitVec.ofNat 15 w))

/-- Major opcode 0x05 (R43). -/
def decodeOp05 (w : Nat) : Option Instr :=
  some (.xori (BitVec.ofNat 5 (w / 1048576)) (BitVec.ofNat 5 (w / 32768)) (BitVec.ofNat 15 w))

/-- Major opcode 0x06 (R43). -/
def decodeOp06 (w : Nat) : Option Instr :=
  if w / 64 % 512 = 0 then some (.slli (BitVec.ofNat 5 (w / 1048576)) (BitVec.ofNat 5 (w / 32768)) (BitVec.ofNat 6 w))
  else if w / 64 % 512 = 64 then some (.srli (BitVec.ofNat 5 (w / 1048576)) (BitVec.ofNat 5 (w / 32768)) (BitVec.ofNat 6 w))
  else if w / 64 % 512 = 128 then some (.srai (BitVec.ofNat 5 (w / 1048576)) (BitVec.ofNat 5 (w / 32768)) (BitVec.ofNat 6 w))
  else if w / 64 % 512 = 192 then some (.rori (BitVec.ofNat 5 (w / 1048576)) (BitVec.ofNat 5 (w / 32768)) (BitVec.ofNat 6 w))
  else none

/-- Major opcode 0x07 (R43). -/
def decodeOp07 (w : Nat) : Option Instr :=
  some (.addiw (BitVec.ofNat 5 (w / 1048576)) (BitVec.ofNat 5 (w / 32768)) (BitVec.ofNat 15 w))

/-- Major opcode 0x08 (R43). -/
def decodeOp08 (w : Nat) : Option Instr :=
  some (.lui (BitVec.ofNat 5 (w / 1048576)) (BitVec.ofNat 20 w))

/-- Major opcode 0x09 (R43). -/
def decodeOp09 (w : Nat) : Option Instr :=
  some (.auipc (BitVec.ofNat 5 (w / 1048576)) (BitVec.ofNat 20 w))

/-- Major opcode 0x0A (R43). -/
def decodeOp0A (w : Nat) : Option Instr :=
  if w % 1024 = 0 then some (.cmpEq (BitVec.ofNat 5 (w / 1048576)) (BitVec.ofNat 5 (w / 32768)) (BitVec.ofNat 5 (w / 1024)))
  else if w % 1024 = 1 then some (.cmpNe (BitVec.ofNat 5 (w / 1048576)) (BitVec.ofNat 5 (w / 32768)) (BitVec.ofNat 5 (w / 1024)))
  else if w % 1024 = 2 then some (.cmpLt (BitVec.ofNat 5 (w / 1048576)) (BitVec.ofNat 5 (w / 32768)) (BitVec.ofNat 5 (w / 1024)))
  else if w % 1024 = 3 then some (.cmpLtu (BitVec.ofNat 5 (w / 1048576)) (BitVec.ofNat 5 (w / 32768)) (BitVec.ofNat 5 (w / 1024)))
  else if w % 1024 = 4 then some (.cmpGe (BitVec.ofNat 5 (w / 1048576)) (BitVec.ofNat 5 (w / 32768)) (BitVec.ofNat 5 (w / 1024)))
  else if w % 1024 = 5 then some (.cmpGeu (BitVec.ofNat 5 (w / 1048576)) (BitVec.ofNat 5 (w / 32768)) (BitVec.ofNat 5 (w / 1024)))
  else none

/-- Major opcode 0x0B (R43). -/
def decodeOp0B (w : Nat) : Option Instr :=
  some (.cmpiEq (BitVec.ofNat 5 (w / 1048576)) (BitVec.ofNat 5 (w / 32768)) (BitVec.ofNat 15 w))

/-- Major opcode 0x0C (R43). -/
def decodeOp0C (w : Nat) : Option Instr :=
  some (.cmpiNe (BitVec.ofNat 5 (w / 1048576)) (BitVec.ofNat 5 (w / 32768)) (BitVec.ofNat 15 w))

/-- Major opcode 0x0D (R43). -/
def decodeOp0D (w : Nat) : Option Instr :=
  some (.cmpiLt (BitVec.ofNat 5 (w / 1048576)) (BitVec.ofNat 5 (w / 32768)) (BitVec.ofNat 15 w))

/-- Major opcode 0x0E (R43). -/
def decodeOp0E (w : Nat) : Option Instr :=
  some (.cmpiLtu (BitVec.ofNat 5 (w / 1048576)) (BitVec.ofNat 5 (w / 32768)) (BitVec.ofNat 15 w))

/-- Major opcode 0x0F (R43). -/
def decodeOp0F (w : Nat) : Option Instr :=
  some (.cmpiGe (BitVec.ofNat 5 (w / 1048576)) (BitVec.ofNat 5 (w / 32768)) (BitVec.ofNat 15 w))

/-- Major opcode 0x10 (R43). -/
def decodeOp10 (w : Nat) : Option Instr :=
  some (.cmpiGeu (BitVec.ofNat 5 (w / 1048576)) (BitVec.ofNat 5 (w / 32768)) (BitVec.ofNat 15 w))

/-- Major opcode 0x11 (R43). -/
def decodeOp11 (w : Nat) : Option Instr :=
  if w % 1024 = 0 then some (.pand (BitVec.ofNat 5 (w / 1048576)) (BitVec.ofNat 5 (w / 32768)) (BitVec.ofNat 5 (w / 1024)))
  else if w % 1024 = 1 then some (.por (BitVec.ofNat 5 (w / 1048576)) (BitVec.ofNat 5 (w / 32768)) (BitVec.ofNat 5 (w / 1024)))
  else if w % 1024 = 2 then some (.pxor (BitVec.ofNat 5 (w / 1048576)) (BitVec.ofNat 5 (w / 32768)) (BitVec.ofNat 5 (w / 1024)))
  else if w % 1024 = 3 then some (.pandn (BitVec.ofNat 5 (w / 1048576)) (BitVec.ofNat 5 (w / 32768)) (BitVec.ofNat 5 (w / 1024)))
  else if w % 32768 = 4 then some (.pmov (BitVec.ofNat 5 (w / 1048576)) (BitVec.ofNat 5 (w / 32768)))
  else if w % 32768 = 5 ∧ w / 1048576 % 32 = 0 then some (.psetP (BitVec.ofNat 5 (w / 32768)))
  else if w % 32768 = 5 then some (.pset (BitVec.ofNat 5 (w / 1048576)) (BitVec.ofNat 5 (w / 32768)))
  else none

/-- Major opcode 0x12 (R43). -/
def decodeOp12 (w : Nat) : Option Instr :=
  if w / 32 % 32 = 0 ∧ w % 32 ≠ 0 then some (.sel (BitVec.ofNat 5 (w / 1048576)) (BitVec.ofNat 5 (w / 32768)) (BitVec.ofNat 5 (w / 1024)) (BitVec.ofNat 5 w))
  else if w % 1048576 = 0 then some (.selP (BitVec.ofNat 5 (w / 1048576)))
  else none

/-- Major opcode 0x14 (R43). -/
def decodeOp14 (w : Nat) : Option Instr :=
  if w / 524288 % 2 = 1 then some (.bpT (BitVec.ofNat 5 (w / 1048576)) (BitVec.ofNat 19 w))
  else if w / 524288 % 2 = 0 then some (.bpF (BitVec.ofNat 5 (w / 1048576)) (BitVec.ofNat 19 w))
  else none

/-- Major opcode 0x15 (R43). -/
def decodeOp15 (w : Nat) : Option Instr :=
  if w / 1048576 % 32 = 0 then some (.j (BitVec.ofNat 20 w))
  else none

/-- Major opcode 0x16 (R43). -/
def decodeOp16 (w : Nat) : Option Instr :=
  some (.jal (BitVec.ofNat 5 (w / 1048576)) (BitVec.ofNat 20 w))

/-- Major opcode 0x17 (R43). -/
def decodeOp17 (w : Nat) : Option Instr :=
  some (.jalr (BitVec.ofNat 5 (w / 1048576)) (BitVec.ofNat 5 (w / 32768)) (BitVec.ofNat 15 w))

/-- Major opcode 0x1C (R43). -/
def decodeOp1C (w : Nat) : Option Instr :=
  some (.ldb (BitVec.ofNat 5 (w / 1048576)) (BitVec.ofNat 5 (w / 32768)) (BitVec.ofNat 15 w))

/-- Major opcode 0x1D (R43). -/
def decodeOp1D (w : Nat) : Option Instr :=
  some (.ldbu (BitVec.ofNat 5 (w / 1048576)) (BitVec.ofNat 5 (w / 32768)) (BitVec.ofNat 15 w))

/-- Major opcode 0x1E (R43). -/
def decodeOp1E (w : Nat) : Option Instr :=
  some (.ldh (BitVec.ofNat 5 (w / 1048576)) (BitVec.ofNat 5 (w / 32768)) (BitVec.ofNat 15 w))

/-- Major opcode 0x1F (R43). -/
def decodeOp1F (w : Nat) : Option Instr :=
  some (.ldhu (BitVec.ofNat 5 (w / 1048576)) (BitVec.ofNat 5 (w / 32768)) (BitVec.ofNat 15 w))

/-- Major opcode 0x20 (R43). -/
def decodeOp20 (w : Nat) : Option Instr :=
  some (.ldw (BitVec.ofNat 5 (w / 1048576)) (BitVec.ofNat 5 (w / 32768)) (BitVec.ofNat 15 w))

/-- Major opcode 0x21 (R43). -/
def decodeOp21 (w : Nat) : Option Instr :=
  some (.ldwu (BitVec.ofNat 5 (w / 1048576)) (BitVec.ofNat 5 (w / 32768)) (BitVec.ofNat 15 w))

/-- Major opcode 0x22 (R43). -/
def decodeOp22 (w : Nat) : Option Instr :=
  some (.ldd (BitVec.ofNat 5 (w / 1048576)) (BitVec.ofNat 5 (w / 32768)) (BitVec.ofNat 15 w))

/-- Major opcode 0x23 (R43). -/
def decodeOp23 (w : Nat) : Option Instr :=
  some (.stb (BitVec.ofNat 5 (w / 1048576)) (BitVec.ofNat 5 (w / 32768)) (BitVec.ofNat 15 w))

/-- Major opcode 0x24 (R43). -/
def decodeOp24 (w : Nat) : Option Instr :=
  some (.sth (BitVec.ofNat 5 (w / 1048576)) (BitVec.ofNat 5 (w / 32768)) (BitVec.ofNat 15 w))

/-- Major opcode 0x25 (R43). -/
def decodeOp25 (w : Nat) : Option Instr :=
  some (.stw (BitVec.ofNat 5 (w / 1048576)) (BitVec.ofNat 5 (w / 32768)) (BitVec.ofNat 15 w))

/-- Major opcode 0x26 (R43). -/
def decodeOp26 (w : Nat) : Option Instr :=
  some (.std (BitVec.ofNat 5 (w / 1048576)) (BitVec.ofNat 5 (w / 32768)) (BitVec.ofNat 15 w))

/-- Major opcode 0x27 (R43). -/
def decodeOp27 (w : Nat) : Option Instr :=
  if w / 16777216 % 2 = 0 then some (.ldf (BitVec.ofNat 4 (w / 1048576)) (BitVec.ofNat 5 (w / 32768)) (BitVec.ofNat 15 w))
  else none

/-- Major opcode 0x28 (R43). -/
def decodeOp28 (w : Nat) : Option Instr :=
  if w / 16777216 % 2 = 0 then some (.stf (BitVec.ofNat 4 (w / 1048576)) (BitVec.ofNat 5 (w / 32768)) (BitVec.ofNat 15 w))
  else none

/-- Major opcode 0x29 (R43). -/
def decodeOp29 (w : Nat) : Option Instr :=
  some (.ldsync (BitVec.ofNat 5 (w / 1048576)) (BitVec.ofNat 5 (w / 32768)) (BitVec.ofNat 15 w))

/-- Major opcode 0x2A (R43). -/
def decodeOp2A (w : Nat) : Option Instr :=
  some (.stfull (BitVec.ofNat 5 (w / 1048576)) (BitVec.ofNat 5 (w / 32768)) (BitVec.ofNat 15 w))

/-- Major opcode 0x2B (R43). -/
def decodeOp2B (w : Nat) : Option Instr :=
  if w / 1048576 % 32 = 0 then some (.feclr (BitVec.ofNat 5 (w / 32768)) (BitVec.ofNat 15 w))
  else none

/-- Major opcode 0x2C (R43). -/
def decodeOp2C (w : Nat) : Option Instr :=
  some (.ferd (BitVec.ofNat 5 (w / 1048576)) (BitVec.ofNat 5 (w / 32768)) (BitVec.ofNat 15 w))

/-- Major opcode 0x2D (R43). -/
def decodeOp2D (w : Nat) : Option Instr :=
  if w % 1024 = 0 then some (.rld (BitVec.ofNat 5 (w / 1048576)) (BitVec.ofNat 5 (w / 32768)) (BitVec.ofNat 5 (w / 1024)))
  else if w % 1024 = 1 ∧ w / 1048576 % 32 = 0 then some (.rst (BitVec.ofNat 5 (w / 32768)) (BitVec.ofNat 5 (w / 1024)))
  else if w % 32768 = 2 ∧ w / 1048576 % 32 = 0 then some (.pfd (BitVec.ofNat 5 (w / 32768)))
  else if w % 32768 = 3 ∧ w / 1048576 % 32 = 0 then some (.icpf (BitVec.ofNat 5 (w / 32768)))
  else none

/-- Major opcode 0x2E (R43). -/
def decodeOp2E (w : Nat) : Option Instr :=
  if w % 8 = 0 ∧ w / 64 % 16 = 0 then some (.amoAdd (BitVec.ofNat 5 (w / 1048576)) (BitVec.ofNat 5 (w / 32768)) (BitVec.ofNat 5 (w / 1024)) (BitVec.ofNat 1 (w / 32)) (BitVec.ofNat 1 (w / 16)) (BitVec.ofNat 1 (w / 8)))
  else if w % 8 = 0 ∧ w / 64 % 16 = 1 then some (.amoAnd (BitVec.ofNat 5 (w / 1048576)) (BitVec.ofNat 5 (w / 32768)) (BitVec.ofNat 5 (w / 1024)) (BitVec.ofNat 1 (w / 32)) (BitVec.ofNat 1 (w / 16)) (BitVec.ofNat 1 (w / 8)))
  else if w % 8 = 0 ∧ w / 64 % 16 = 2 then some (.amoOr (BitVec.ofNat 5 (w / 1048576)) (BitVec.ofNat 5 (w / 32768)) (BitVec.ofNat 5 (w / 1024)) (BitVec.ofNat 1 (w / 32)) (BitVec.ofNat 1 (w / 16)) (BitVec.ofNat 1 (w / 8)))
  else if w % 8 = 0 ∧ w / 64 % 16 = 3 then some (.amoXor (BitVec.ofNat 5 (w / 1048576)) (BitVec.ofNat 5 (w / 32768)) (BitVec.ofNat 5 (w / 1024)) (BitVec.ofNat 1 (w / 32)) (BitVec.ofNat 1 (w / 16)) (BitVec.ofNat 1 (w / 8)))
  else if w % 8 = 0 ∧ w / 64 % 16 = 4 then some (.amoMin (BitVec.ofNat 5 (w / 1048576)) (BitVec.ofNat 5 (w / 32768)) (BitVec.ofNat 5 (w / 1024)) (BitVec.ofNat 1 (w / 32)) (BitVec.ofNat 1 (w / 16)) (BitVec.ofNat 1 (w / 8)))
  else if w % 8 = 0 ∧ w / 64 % 16 = 5 then some (.amoMax (BitVec.ofNat 5 (w / 1048576)) (BitVec.ofNat 5 (w / 32768)) (BitVec.ofNat 5 (w / 1024)) (BitVec.ofNat 1 (w / 32)) (BitVec.ofNat 1 (w / 16)) (BitVec.ofNat 1 (w / 8)))
  else if w % 8 = 0 ∧ w / 64 % 16 = 6 then some (.amoMinu (BitVec.ofNat 5 (w / 1048576)) (BitVec.ofNat 5 (w / 32768)) (BitVec.ofNat 5 (w / 1024)) (BitVec.ofNat 1 (w / 32)) (BitVec.ofNat 1 (w / 16)) (BitVec.ofNat 1 (w / 8)))
  else if w % 8 = 0 ∧ w / 64 % 16 = 7 then some (.amoMaxu (BitVec.ofNat 5 (w / 1048576)) (BitVec.ofNat 5 (w / 32768)) (BitVec.ofNat 5 (w / 1024)) (BitVec.ofNat 1 (w / 32)) (BitVec.ofNat 1 (w / 16)) (BitVec.ofNat 1 (w / 8)))
  else if w % 8 = 0 ∧ w / 64 % 16 = 8 then some (.amoSwap (BitVec.ofNat 5 (w / 1048576)) (BitVec.ofNat 5 (w / 32768)) (BitVec.ofNat 5 (w / 1024)) (BitVec.ofNat 1 (w / 32)) (BitVec.ofNat 1 (w / 16)) (BitVec.ofNat 1 (w / 8)))
  else if w % 8 = 0 ∧ w / 64 % 16 = 9 then some (.amoCas (BitVec.ofNat 5 (w / 1048576)) (BitVec.ofNat 5 (w / 32768)) (BitVec.ofNat 5 (w / 1024)) (BitVec.ofNat 1 (w / 32)) (BitVec.ofNat 1 (w / 16)) (BitVec.ofNat 1 (w / 8)))
  else if w % 8 = 0 ∧ w / 32 % 32 = 20 then some (.amoFadd (BitVec.ofNat 5 (w / 1048576)) (BitVec.ofNat 5 (w / 32768)) (BitVec.ofNat 5 (w / 1024)) (BitVec.ofNat 1 (w / 16)) (BitVec.ofNat 1 (w / 8)))
  else none

/-- Major opcode 0x2F (R43). -/
def decodeOp2F (w : Nat) : Option Instr :=
  if w % 4 = 1 ∧ w / 16 % 64 = 0 ∧ w / 1048576 % 32 = 0 then some (.cmoClean (BitVec.ofNat 5 (w / 32768)) (BitVec.ofNat 5 (w / 1024)) (BitVec.ofNat 2 (w / 4)))
  else if w % 4 = 2 ∧ w / 16 % 64 = 0 ∧ w / 1048576 % 32 = 0 then some (.cmoInv (BitVec.ofNat 5 (w / 32768)) (BitVec.ofNat 5 (w / 1024)) (BitVec.ofNat 2 (w / 4)))
  else if w % 4 = 3 ∧ w / 16 % 64 = 0 ∧ w / 1048576 % 32 = 0 then some (.cmoClinv (BitVec.ofNat 5 (w / 32768)) (BitVec.ofNat 5 (w / 1024)) (BitVec.ofNat 2 (w / 4)))
  else none

/-- Major opcode 0x30 (R43). -/
def decodeOp30 (w : Nat) : Option Instr :=
  if w % 1024 = 0 ∧ w / 16384 % 2 = 0 ∧ w / 524288 % 2 = 0 ∧ w / 16777216 % 2 = 0 then some (.fadd (BitVec.ofNat 4 (w / 1048576)) (BitVec.ofNat 4 (w / 32768)) (BitVec.ofNat 4 (w / 1024)))
  else if w % 1024 = 1 ∧ w / 16384 % 2 = 0 ∧ w / 524288 % 2 = 0 ∧ w / 16777216 % 2 = 0 then some (.fsub (BitVec.ofNat 4 (w / 1048576)) (BitVec.ofNat 4 (w / 32768)) (BitVec.ofNat 4 (w / 1024)))
  else if w % 1024 = 2 ∧ w / 16384 % 2 = 0 ∧ w / 524288 % 2 = 0 ∧ w / 16777216 % 2 = 0 then some (.fmul (BitVec.ofNat 4 (w / 1048576)) (BitVec.ofNat 4 (w / 32768)) (BitVec.ofNat 4 (w / 1024)))
  else if w % 1024 = 3 ∧ w / 16384 % 2 = 0 ∧ w / 524288 % 2 = 0 ∧ w / 16777216 % 2 = 0 then some (.fdiv (BitVec.ofNat 4 (w / 1048576)) (BitVec.ofNat 4 (w / 32768)) (BitVec.ofNat 4 (w / 1024)))
  else if w % 32768 = 4 ∧ w / 524288 % 2 = 0 ∧ w / 16777216 % 2 = 0 then some (.fsqrt (BitVec.ofNat 4 (w / 1048576)) (BitVec.ofNat 4 (w / 32768)))
  else if w % 1024 = 5 ∧ w / 16384 % 2 = 0 ∧ w / 524288 % 2 = 0 ∧ w / 16777216 % 2 = 0 then some (.fmin (BitVec.ofNat 4 (w / 1048576)) (BitVec.ofNat 4 (w / 32768)) (BitVec.ofNat 4 (w / 1024)))
  else if w % 1024 = 6 ∧ w / 16384 % 2 = 0 ∧ w / 524288 % 2 = 0 ∧ w / 16777216 % 2 = 0 then some (.fmax (BitVec.ofNat 4 (w / 1048576)) (BitVec.ofNat 4 (w / 32768)) (BitVec.ofNat 4 (w / 1024)))
  else if w % 1024 = 7 ∧ w / 16384 % 2 = 0 ∧ w / 524288 % 2 = 0 ∧ w / 16777216 % 2 = 0 then some (.fsgnj (BitVec.ofNat 4 (w / 1048576)) (BitVec.ofNat 4 (w / 32768)) (BitVec.ofNat 4 (w / 1024)))
  else if w % 1024 = 8 ∧ w / 16384 % 2 = 0 ∧ w / 524288 % 2 = 0 ∧ w / 16777216 % 2 = 0 then some (.fsgnjn (BitVec.ofNat 4 (w / 1048576)) (BitVec.ofNat 4 (w / 32768)) (BitVec.ofNat 4 (w / 1024)))
  else if w % 1024 = 9 ∧ w / 16384 % 2 = 0 ∧ w / 524288 % 2 = 0 ∧ w / 16777216 % 2 = 0 then some (.fsgnjx (BitVec.ofNat 4 (w / 1048576)) (BitVec.ofNat 4 (w / 32768)) (BitVec.ofNat 4 (w / 1024)))
  else if w % 32768 = 10 ∧ w / 524288 % 2 = 0 then some (.fclass (BitVec.ofNat 5 (w / 1048576)) (BitVec.ofNat 4 (w / 32768)))
  else none

/-- Major opcode 0x31 (R43). -/
def decodeOp31 (w : Nat) : Option Instr :=
  if w / 16 % 64 = 0 ∧ w / 16384 % 2 = 0 ∧ w / 524288 % 2 = 0 ∧ w / 16777216 % 2 = 0 then some (.fma (BitVec.ofNat 4 (w / 1048576)) (BitVec.ofNat 4 (w / 32768)) (BitVec.ofNat 4 (w / 1024)) (BitVec.ofNat 4 w))
  else if w / 16 % 64 = 1 ∧ w / 16384 % 2 = 0 ∧ w / 524288 % 2 = 0 ∧ w / 16777216 % 2 = 0 then some (.fms (BitVec.ofNat 4 (w / 1048576)) (BitVec.ofNat 4 (w / 32768)) (BitVec.ofNat 4 (w / 1024)) (BitVec.ofNat 4 w))
  else if w / 16 % 64 = 2 ∧ w / 16384 % 2 = 0 ∧ w / 524288 % 2 = 0 ∧ w / 16777216 % 2 = 0 then some (.fnma (BitVec.ofNat 4 (w / 1048576)) (BitVec.ofNat 4 (w / 32768)) (BitVec.ofNat 4 (w / 1024)) (BitVec.ofNat 4 w))
  else none

/-- Major opcode 0x32 (R43). -/
def decodeOp32 (w : Nat) : Option Instr :=
  if w % 1024 = 0 ∧ w / 16384 % 2 = 0 ∧ w / 524288 % 2 = 0 then some (.fcmpEq (BitVec.ofNat 5 (w / 1048576)) (BitVec.ofNat 4 (w / 32768)) (BitVec.ofNat 4 (w / 1024)))
  else if w % 1024 = 1 ∧ w / 16384 % 2 = 0 ∧ w / 524288 % 2 = 0 then some (.fcmpLt (BitVec.ofNat 5 (w / 1048576)) (BitVec.ofNat 4 (w / 32768)) (BitVec.ofNat 4 (w / 1024)))
  else if w % 1024 = 2 ∧ w / 16384 % 2 = 0 ∧ w / 524288 % 2 = 0 then some (.fcmpLe (BitVec.ofNat 5 (w / 1048576)) (BitVec.ofNat 4 (w / 32768)) (BitVec.ofNat 4 (w / 1024)))
  else if w % 1024 = 3 ∧ w / 16384 % 2 = 0 ∧ w / 524288 % 2 = 0 then some (.fcmpUn (BitVec.ofNat 5 (w / 1048576)) (BitVec.ofNat 4 (w / 32768)) (BitVec.ofNat 4 (w / 1024)))
  else none

/-- Major opcode 0x33 (R43). -/
def decodeOp33 (w : Nat) : Option Instr :=
  if w % 32768 = 0 ∧ w / 524288 % 2 = 0 then some (.fcvtI32F (BitVec.ofNat 5 (w / 1048576)) (BitVec.ofNat 4 (w / 32768)))
  else if w % 32768 = 1 ∧ w / 524288 % 2 = 0 then some (.fcvtI64F (BitVec.ofNat 5 (w / 1048576)) (BitVec.ofNat 4 (w / 32768)))
  else if w % 32768 = 2 ∧ w / 16777216 % 2 = 0 then some (.fcvtFI32 (BitVec.ofNat 4 (w / 1048576)) (BitVec.ofNat 5 (w / 32768)))
  else if w % 32768 = 3 ∧ w / 16777216 % 2 = 0 then some (.fcvtFI64 (BitVec.ofNat 4 (w / 1048576)) (BitVec.ofNat 5 (w / 32768)))
  else if w % 32768 = 4 ∧ w / 524288 % 2 = 0 ∧ w / 16777216 % 2 = 0 then some (.fcvtBfF (BitVec.ofNat 4 (w / 1048576)) (BitVec.ofNat 4 (w / 32768)))
  else if w % 32768 = 5 ∧ w / 524288 % 2 = 0 ∧ w / 16777216 % 2 = 0 then some (.fcvtFBf (BitVec.ofNat 4 (w / 1048576)) (BitVec.ofNat 4 (w / 32768)))
  else if w % 32768 = 6 ∧ w / 524288 % 2 = 0 ∧ w / 16777216 % 2 = 0 then some (.fcvtHfF (BitVec.ofNat 4 (w / 1048576)) (BitVec.ofNat 4 (w / 32768)))
  else if w % 32768 = 7 ∧ w / 524288 % 2 = 0 ∧ w / 16777216 % 2 = 0 then some (.fcvtFHf (BitVec.ofNat 4 (w / 1048576)) (BitVec.ofNat 4 (w / 32768)))
  else none

/-- Major opcode 0x34 (R43). -/
def decodeOp34 (w : Nat) : Option Instr :=
  if w % 32768 = 0 ∧ w / 524288 % 2 = 0 then some (.fmvx (BitVec.ofNat 5 (w / 1048576)) (BitVec.ofNat 4 (w / 32768)))
  else if w % 32768 = 1 ∧ w / 16777216 % 2 = 0 then some (.fmvf (BitVec.ofNat 4 (w / 1048576)) (BitVec.ofNat 5 (w / 32768)))
  else none

/-- Major opcode 0x38 (R43). -/
def decodeOp38 (w : Nat) : Option Instr :=
  if w / 16777216 % 2 = 0 then some (.vld (BitVec.ofNat 4 (w / 1048576)) (BitVec.ofNat 5 (w / 32768)) (BitVec.ofNat 15 w))
  else none

/-- Major opcode 0x39 (R43). -/
def decodeOp39 (w : Nat) : Option Instr :=
  if w / 16777216 % 2 = 0 then some (.vst (BitVec.ofNat 4 (w / 1048576)) (BitVec.ofNat 5 (w / 32768)) (BitVec.ofNat 15 w))
  else none

/-- Major opcode 0x3A (R43). -/
def decodeOp3A (w : Nat) : Option Instr :=
  if w % 256 = 0 ∧ w / 512 % 2 = 0 ∧ w / 16777216 % 2 = 0 then some (.vlds (BitVec.ofNat 4 (w / 1048576)) (BitVec.ofNat 5 (w / 32768)) (BitVec.ofNat 5 (w / 1024)) (BitVec.ofNat 1 (w / 256)))
  else if w % 256 = 1 ∧ w / 512 % 2 = 0 ∧ w / 16777216 % 2 = 0 then some (.vsts (BitVec.ofNat 4 (w / 1048576)) (BitVec.ofNat 5 (w / 32768)) (BitVec.ofNat 5 (w / 1024)) (BitVec.ofNat 1 (w / 256)))
  else none

/-- Major opcode 0x3B (R43). -/
def decodeOp3B (w : Nat) : Option Instr :=
  if w % 256 = 0 ∧ w / 512 % 2 = 0 ∧ w / 16384 % 2 = 0 ∧ w / 16777216 % 2 = 0 then some (.vldx (BitVec.ofNat 4 (w / 1048576)) (BitVec.ofNat 5 (w / 32768)) (BitVec.ofNat 4 (w / 1024)) (BitVec.ofNat 1 (w / 256)))
  else if w % 256 = 1 ∧ w / 512 % 2 = 0 ∧ w / 16384 % 2 = 0 ∧ w / 16777216 % 2 = 0 then some (.vstx (BitVec.ofNat 4 (w / 1048576)) (BitVec.ofNat 5 (w / 32768)) (BitVec.ofNat 4 (w / 1024)) (BitVec.ofNat 1 (w / 256)))
  else none

/-- Major opcode 0x3C (R43). -/
def decodeOp3C (w : Nat) : Option Instr :=
  if w % 32768 = 0 ∧ w / 16777216 % 2 = 0 then some (.vbcast (BitVec.ofNat 4 (w / 1048576)) (BitVec.ofNat 5 (w / 32768)))
  else if w / 32 % 1024 = 1 ∧ w / 524288 % 2 = 0 then some (.vextr (BitVec.ofNat 5 (w / 1048576)) (BitVec.ofNat 4 (w / 32768)) (BitVec.ofNat 5 w))
  else none

/-- Major opcode 0x3D (R43). -/
def decodeOp3D (w : Nat) : Option Instr :=
  if w % 256 = 0 ∧ w / 512 % 16 = 0 then some (.vadd (BitVec.ofNat 4 (w / 2097152)) (BitVec.ofNat 4 (w / 131072)) (BitVec.ofNat 4 (w / 8192)) (BitVec.ofNat 1 (w / 256)))
  else if w % 256 = 1 ∧ w / 512 % 16 = 0 then some (.vsub (BitVec.ofNat 4 (w / 2097152)) (BitVec.ofNat 4 (w / 131072)) (BitVec.ofNat 4 (w / 8192)) (BitVec.ofNat 1 (w / 256)))
  else if w % 256 = 2 ∧ w / 512 % 16 = 0 then some (.vmul (BitVec.ofNat 4 (w / 2097152)) (BitVec.ofNat 4 (w / 131072)) (BitVec.ofNat 4 (w / 8192)) (BitVec.ofNat 1 (w / 256)))
  else if w % 256 = 3 then some (.vfma (BitVec.ofNat 4 (w / 2097152)) (BitVec.ofNat 4 (w / 131072)) (BitVec.ofNat 4 (w / 8192)) (BitVec.ofNat 4 (w / 512)) (BitVec.ofNat 1 (w / 256)))
  else if w % 256 = 4 then some (.vfms (BitVec.ofNat 4 (w / 2097152)) (BitVec.ofNat 4 (w / 131072)) (BitVec.ofNat 4 (w / 8192)) (BitVec.ofNat 4 (w / 512)) (BitVec.ofNat 1 (w / 256)))
  else if w % 256 = 5 ∧ w / 512 % 16 = 0 then some (.vmin (BitVec.ofNat 4 (w / 2097152)) (BitVec.ofNat 4 (w / 131072)) (BitVec.ofNat 4 (w / 8192)) (BitVec.ofNat 1 (w / 256)))
  else if w % 256 = 6 ∧ w / 512 % 16 = 0 then some (.vmax (BitVec.ofNat 4 (w / 2097152)) (BitVec.ofNat 4 (w / 131072)) (BitVec.ofNat 4 (w / 8192)) (BitVec.ofNat 1 (w / 256)))
  else if w % 256 = 7 ∧ w / 512 % 256 = 0 then some (.vabs (BitVec.ofNat 4 (w / 2097152)) (BitVec.ofNat 4 (w / 131072)) (BitVec.ofNat 1 (w / 256)))
  else if w % 256 = 8 ∧ w / 512 % 256 = 0 then some (.vrcp (BitVec.ofNat 4 (w / 2097152)) (BitVec.ofNat 4 (w / 131072)) (BitVec.ofNat 1 (w / 256)))
  else if w % 256 = 9 ∧ w / 512 % 256 = 0 then some (.vrsq (BitVec.ofNat 4 (w / 2097152)) (BitVec.ofNat 4 (w / 131072)) (BitVec.ofNat 1 (w / 256)))
  else if w % 256 = 10 ∧ w / 512 % 256 = 0 then some (.vexp2 (BitVec.ofNat 4 (w / 2097152)) (BitVec.ofNat 4 (w / 131072)) (BitVec.ofNat 1 (w / 256)))
  else if w % 256 = 11 ∧ w / 512 % 256 = 0 then some (.vlog2 (BitVec.ofNat 4 (w / 2097152)) (BitVec.ofNat 4 (w / 131072)) (BitVec.ofNat 1 (w / 256)))
  else none

/-- Major opcode 0x3E (R43). -/
def decodeOp3E (w : Nat) : Option Instr :=
  if w % 256 = 0 ∧ w / 512 % 16 = 0 then some (.viadd (BitVec.ofNat 4 (w / 2097152)) (BitVec.ofNat 4 (w / 131072)) (BitVec.ofNat 4 (w / 8192)) (BitVec.ofNat 1 (w / 256)))
  else if w % 256 = 1 ∧ w / 512 % 16 = 0 then some (.visub (BitVec.ofNat 4 (w / 2097152)) (BitVec.ofNat 4 (w / 131072)) (BitVec.ofNat 4 (w / 8192)) (BitVec.ofNat 1 (w / 256)))
  else if w % 256 = 2 ∧ w / 512 % 16 = 0 then some (.vimul (BitVec.ofNat 4 (w / 2097152)) (BitVec.ofNat 4 (w / 131072)) (BitVec.ofNat 4 (w / 8192)) (BitVec.ofNat 1 (w / 256)))
  else if w % 256 = 3 ∧ w / 512 % 16 = 0 then some (.vand (BitVec.ofNat 4 (w / 2097152)) (BitVec.ofNat 4 (w / 131072)) (BitVec.ofNat 4 (w / 8192)) (BitVec.ofNat 1 (w / 256)))
  else if w % 256 = 4 ∧ w / 512 % 16 = 0 then some (.vor (BitVec.ofNat 4 (w / 2097152)) (BitVec.ofNat 4 (w / 131072)) (BitVec.ofNat 4 (w / 8192)) (BitVec.ofNat 1 (w / 256)))
  else if w % 256 = 5 ∧ w / 512 % 16 = 0 then some (.vxor (BitVec.ofNat 4 (w / 2097152)) (BitVec.ofNat 4 (w / 131072)) (BitVec.ofNat 4 (w / 8192)) (BitVec.ofNat 1 (w / 256)))
  else if w % 256 = 6 ∧ w / 512 % 16 = 0 then some (.vsll (BitVec.ofNat 4 (w / 2097152)) (BitVec.ofNat 4 (w / 131072)) (BitVec.ofNat 4 (w / 8192)) (BitVec.ofNat 1 (w / 256)))
  else if w % 256 = 7 ∧ w / 512 % 16 = 0 then some (.vsrl (BitVec.ofNat 4 (w / 2097152)) (BitVec.ofNat 4 (w / 131072)) (BitVec.ofNat 4 (w / 8192)) (BitVec.ofNat 1 (w / 256)))
  else if w % 256 = 8 ∧ w / 512 % 16 = 0 then some (.vsra (BitVec.ofNat 4 (w / 2097152)) (BitVec.ofNat 4 (w / 131072)) (BitVec.ofNat 4 (w / 8192)) (BitVec.ofNat 1 (w / 256)))
  else none

/-- Major opcode 0x3F (R43). -/
def decodeOp3F (w : Nat) : Option Instr :=
  if w % 256 = 0 ∧ w / 512 % 16 = 0 ∧ w / 2097152 % 16 = 0 then some (.vcmpEq (BitVec.ofNat 4 (w / 131072)) (BitVec.ofNat 4 (w / 8192)) (BitVec.ofNat 1 (w / 256)))
  else if w % 256 = 1 ∧ w / 512 % 16 = 0 ∧ w / 2097152 % 16 = 0 then some (.vcmpNe (BitVec.ofNat 4 (w / 131072)) (BitVec.ofNat 4 (w / 8192)) (BitVec.ofNat 1 (w / 256)))
  else if w % 256 = 2 ∧ w / 512 % 16 = 0 ∧ w / 2097152 % 16 = 0 then some (.vcmpLt (BitVec.ofNat 4 (w / 131072)) (BitVec.ofNat 4 (w / 8192)) (BitVec.ofNat 1 (w / 256)))
  else if w % 256 = 3 ∧ w / 512 % 16 = 0 ∧ w / 2097152 % 16 = 0 then some (.vcmpLtu (BitVec.ofNat 4 (w / 131072)) (BitVec.ofNat 4 (w / 8192)) (BitVec.ofNat 1 (w / 256)))
  else if w % 256 = 4 ∧ w / 512 % 16 = 0 ∧ w / 2097152 % 16 = 0 then some (.vcmpGe (BitVec.ofNat 4 (w / 131072)) (BitVec.ofNat 4 (w / 8192)) (BitVec.ofNat 1 (w / 256)))
  else if w % 256 = 5 ∧ w / 512 % 16 = 0 ∧ w / 2097152 % 16 = 0 then some (.vcmpGeu (BitVec.ofNat 4 (w / 131072)) (BitVec.ofNat 4 (w / 8192)) (BitVec.ofNat 1 (w / 256)))
  else if w % 256 = 8 ∧ w / 512 % 16 = 0 ∧ w / 2097152 % 16 = 0 then some (.vcmpFeq (BitVec.ofNat 4 (w / 131072)) (BitVec.ofNat 4 (w / 8192)) (BitVec.ofNat 1 (w / 256)))
  else if w % 256 = 9 ∧ w / 512 % 16 = 0 ∧ w / 2097152 % 16 = 0 then some (.vcmpFlt (BitVec.ofNat 4 (w / 131072)) (BitVec.ofNat 4 (w / 8192)) (BitVec.ofNat 1 (w / 256)))
  else if w % 256 = 10 ∧ w / 512 % 16 = 0 ∧ w / 2097152 % 16 = 0 then some (.vcmpFle (BitVec.ofNat 4 (w / 131072)) (BitVec.ofNat 4 (w / 8192)) (BitVec.ofNat 1 (w / 256)))
  else if w % 256 = 11 ∧ w / 512 % 16 = 0 ∧ w / 2097152 % 16 = 0 then some (.vcmpFun (BitVec.ofNat 4 (w / 131072)) (BitVec.ofNat 4 (w / 8192)) (BitVec.ofNat 1 (w / 256)))
  else none

/-- Major opcode 0x40 (R43). -/
def decodeOp40 (w : Nat) : Option Instr :=
  if w % 8192 = 0 then some (.vsel (BitVec.ofNat 4 (w / 2097152)) (BitVec.ofNat 4 (w / 131072)) (BitVec.ofNat 4 (w / 8192)))
  else if w % 256 = 1 ∧ w / 512 % 16 = 0 then some (.vshuf (BitVec.ofNat 4 (w / 2097152)) (BitVec.ofNat 4 (w / 131072)) (BitVec.ofNat 4 (w / 8192)) (BitVec.ofNat 1 (w / 256)))
  else if w / 32 % 8 = 4 ∧ w / 512 % 16 = 0 then some (.vslideUp (BitVec.ofNat 4 (w / 2097152)) (BitVec.ofNat 4 (w / 131072)) (BitVec.ofNat 4 (w / 8192)) (BitVec.ofNat 1 (w / 256)) (BitVec.ofNat 5 w))
  else if w / 32 % 8 = 5 ∧ w / 512 % 16 = 0 then some (.vslideDn (BitVec.ofNat 4 (w / 2097152)) (BitVec.ofNat 4 (w / 131072)) (BitVec.ofNat 4 (w / 8192)) (BitVec.ofNat 1 (w / 256)) (BitVec.ofNat 5 w))
  else none

/-- Major opcode 0x41 (R43). -/
def decodeOp41 (w : Nat) : Option Instr :=
  if w / 8 % 32 = 0 ∧ w / 512 % 256 = 0 then some (.vcvtI32F (BitVec.ofNat 4 (w / 2097152)) (BitVec.ofNat 4 (w / 131072)) (BitVec.ofNat 1 (w / 256)) (BitVec.ofNat 3 w))
  else if w / 8 % 32 = 1 ∧ w / 512 % 256 = 0 then some (.vcvtFI32 (BitVec.ofNat 4 (w / 2097152)) (BitVec.ofNat 4 (w / 131072)) (BitVec.ofNat 1 (w / 256)) (BitVec.ofNat 3 w))
  else if w / 8 % 32 = 2 ∧ w / 1024 % 128 = 0 then some (.vcvtBfF (BitVec.ofNat 4 (w / 2097152)) (BitVec.ofNat 4 (w / 131072)) (BitVec.ofNat 1 (w / 512)) (BitVec.ofNat 1 (w / 256)) (BitVec.ofNat 3 w))
  else if w % 256 = 29 ∧ w / 1024 % 128 = 0 then some (.vcvtFBf (BitVec.ofNat 4 (w / 2097152)) (BitVec.ofNat 4 (w / 131072)) (BitVec.ofNat 1 (w / 512)) (BitVec.ofNat 1 (w / 256)))
  else if w / 8 % 32 = 4 ∧ w / 1024 % 128 = 0 then some (.vcvtHfF (BitVec.ofNat 4 (w / 2097152)) (BitVec.ofNat 4 (w / 131072)) (BitVec.ofNat 1 (w / 512)) (BitVec.ofNat 1 (w / 256)) (BitVec.ofNat 3 w))
  else if w % 256 = 45 ∧ w / 1024 % 128 = 0 then some (.vcvtFHf (BitVec.ofNat 4 (w / 2097152)) (BitVec.ofNat 4 (w / 131072)) (BitVec.ofNat 1 (w / 512)) (BitVec.ofNat 1 (w / 256)))
  else if w % 256 = 64 ∧ w / 2048 % 64 = 0 then some (.vencT0 (BitVec.ofNat 4 (w / 2097152)) (BitVec.ofNat 4 (w / 131072)) (BitVec.ofNat 2 (w / 512)) (BitVec.ofNat 1 (w / 256)))
  else if w % 256 = 65 ∧ w / 2048 % 64 = 0 then some (.vencT1 (BitVec.ofNat 4 (w / 2097152)) (BitVec.ofNat 4 (w / 131072)) (BitVec.ofNat 2 (w / 512)) (BitVec.ofNat 1 (w / 256)))
  else if w % 256 = 66 ∧ w / 4096 % 32 = 0 then some (.vencE2 (BitVec.ofNat 4 (w / 2097152)) (BitVec.ofNat 4 (w / 131072)) (BitVec.ofNat 3 (w / 512)) (BitVec.ofNat 1 (w / 256)))
  else if w % 256 = 128 ∧ w / 2048 % 64 = 0 then some (.vdecT0 (BitVec.ofNat 4 (w / 2097152)) (BitVec.ofNat 4 (w / 131072)) (BitVec.ofNat 2 (w / 512)) (BitVec.ofNat 1 (w / 256)))
  else if w % 256 = 129 ∧ w / 2048 % 64 = 0 then some (.vdecT1 (BitVec.ofNat 4 (w / 2097152)) (BitVec.ofNat 4 (w / 131072)) (BitVec.ofNat 2 (w / 512)) (BitVec.ofNat 1 (w / 256)))
  else if w % 256 = 130 ∧ w / 4096 % 32 = 0 then some (.vdecE2 (BitVec.ofNat 4 (w / 2097152)) (BitVec.ofNat 4 (w / 131072)) (BitVec.ofNat 3 (w / 512)) (BitVec.ofNat 1 (w / 256)))
  else none

/-- Major opcode 0x42 (R43). -/
def decodeOp42 (w : Nat) : Option Instr :=
  if w / 2097152 % 16 = 0 then some (.dtabLd (BitVec.ofNat 1 (w / 1048576)) (BitVec.ofNat 5 (w / 32768)) (BitVec.ofNat 15 w))
  else none

/-- Major opcode 0x43 (R43). -/
def decodeOp43 (w : Nat) : Option Instr :=
  if w / 16 % 16 = 0 ∧ w / 512 % 256 = 0 then some (.vred (BitVec.ofNat 4 (w / 2097152)) (BitVec.ofNat 4 (w / 131072)) (BitVec.ofNat 1 (w / 256)) (BitVec.ofNat 4 w))
  else if w / 16 % 16 = 4 ∧ w / 512 % 256 = 0 then some (.vscan (BitVec.ofNat 4 (w / 2097152)) (BitVec.ofNat 4 (w / 131072)) (BitVec.ofNat 1 (w / 256)) (BitVec.ofNat 4 w))
  else if w / 16 % 16 = 8 then some (.vscanl (BitVec.ofNat 4 (w / 2097152)) (BitVec.ofNat 4 (w / 131072)) (BitVec.ofNat 4 (w / 8192)) (BitVec.ofNat 4 (w / 512)) (BitVec.ofNat 1 (w / 256)) (BitVec.ofNat 4 w))
  else none

/-- Major opcode 0x44 (R43). -/
def decodeOp44 (w : Nat) : Option Instr :=
  if w % 4 = 0 ∧ w / 16 % 32 = 0 then some (.vdotbX8 (BitVec.ofNat 4 (w / 2097152)) (BitVec.ofNat 4 (w / 131072)) (BitVec.ofNat 4 (w / 8192)) (BitVec.ofNat 4 (w / 512)) (BitVec.ofNat 2 (w / 4)))
  else if w % 4 = 1 ∧ w / 32 % 16 = 0 then some (.vdotbX4 (BitVec.ofNat 4 (w / 2097152)) (BitVec.ofNat 4 (w / 131072)) (BitVec.ofNat 4 (w / 8192)) (BitVec.ofNat 4 (w / 512)) (BitVec.ofNat 3 (w / 4)))
  else none

/-- Major opcode 0x48 (R43). -/
def decodeOp48 (w : Nat) : Option Instr :=
  if w / 32 % 4096 = 0 then some (.mmaBf (BitVec.ofNat 3 (w / 4194304)) (BitVec.ofNat 5 (w / 131072)) (BitVec.ofNat 1 (w / 16)) (BitVec.ofNat 1 (w / 8)) (BitVec.ofNat 3 w))
  else none

/-- Major opcode 0x49 (R43). -/
def decodeOp49 (w : Nat) : Option Instr :=
  if w / 32 % 4096 = 0 then some (.mmaHf (BitVec.ofNat 3 (w / 4194304)) (BitVec.ofNat 5 (w / 131072)) (BitVec.ofNat 1 (w / 16)) (BitVec.ofNat 1 (w / 8)) (BitVec.ofNat 3 w))
  else none

/-- Major opcode 0x4A (R43). -/
def decodeOp4A (w : Nat) : Option Instr :=
  if w / 32 % 4096 = 0 then some (.mmaE4 (BitVec.ofNat 3 (w / 4194304)) (BitVec.ofNat 5 (w / 131072)) (BitVec.ofNat 1 (w / 16)) (BitVec.ofNat 1 (w / 8)) (BitVec.ofNat 3 w))
  else none

/-- Major opcode 0x4B (R43). -/
def decodeOp4B (w : Nat) : Option Instr :=
  if w / 32 % 4096 = 0 then some (.mmaE45 (BitVec.ofNat 3 (w / 4194304)) (BitVec.ofNat 5 (w / 131072)) (BitVec.ofNat 1 (w / 16)) (BitVec.ofNat 1 (w / 8)) (BitVec.ofNat 3 w))
  else none

/-- Major opcode 0x4C (R43). -/
def decodeOp4C (w : Nat) : Option Instr :=
  if w / 32 % 4096 = 0 then some (.mmaE5 (BitVec.ofNat 3 (w / 4194304)) (BitVec.ofNat 5 (w / 131072)) (BitVec.ofNat 1 (w / 16)) (BitVec.ofNat 1 (w / 8)) (BitVec.ofNat 3 w))
  else none

/-- Major opcode 0x4D (R43). -/
def decodeOp4D (w : Nat) : Option Instr :=
  if w / 32 % 128 = 0 then some (.mmaX8 (BitVec.ofNat 3 (w / 4194304)) (BitVec.ofNat 5 (w / 131072)) (BitVec.ofNat 5 (w / 4096)) (BitVec.ofNat 1 (w / 16)) (BitVec.ofNat 1 (w / 8)) (BitVec.ofNat 3 w))
  else none

/-- Major opcode 0x4E (R43). -/
def decodeOp4E (w : Nat) : Option Instr :=
  if w / 32 % 128 = 0 then some (.mmaX84 (BitVec.ofNat 3 (w / 4194304)) (BitVec.ofNat 5 (w / 131072)) (BitVec.ofNat 5 (w / 4096)) (BitVec.ofNat 1 (w / 16)) (BitVec.ofNat 1 (w / 8)) (BitVec.ofNat 3 w))
  else none

/-- Major opcode 0x4F (R43). -/
def decodeOp4F (w : Nat) : Option Instr :=
  if w / 32 % 128 = 0 then some (.mmaX4 (BitVec.ofNat 3 (w / 4194304)) (BitVec.ofNat 5 (w / 131072)) (BitVec.ofNat 5 (w / 4096)) (BitVec.ofNat 1 (w / 16)) (BitVec.ofNat 1 (w / 8)) (BitVec.ofNat 3 w))
  else none

/-- Major opcode 0x50 (R43). -/
def decodeOp50 (w : Nat) : Option Instr :=
  if w / 32 % 4096 = 0 then some (.mmaI8 (BitVec.ofNat 3 (w / 4194304)) (BitVec.ofNat 5 (w / 131072)) (BitVec.ofNat 1 (w / 16)) (BitVec.ofNat 1 (w / 8)) (BitVec.ofNat 3 w))
  else none

/-- Major opcode 0x51 (R43). -/
def decodeOp51 (w : Nat) : Option Instr :=
  if w % 1048576 = 0 ∧ w / 8388608 % 4 = 0 then some (.acq (BitVec.ofNat 3 (w / 1048576)))
  else if w % 1048576 = 1 ∧ w / 8388608 % 4 = 0 then some (.rel (BitVec.ofNat 3 (w / 1048576)))
  else if w % 1048576 = 2 ∧ w / 8388608 % 4 = 0 then some (.azero (BitVec.ofNat 3 (w / 1048576)))
  else if w % 32768 = 3 ∧ w / 262144 % 4 = 0 then some (.apois (BitVec.ofNat 5 (w / 1048576)) (BitVec.ofNat 3 (w / 32768)))
  else none

/-- Major opcode 0x52 (R43). -/
def decodeOp52 (w : Nat) : Option Instr :=
  if w % 131072 = 0 then some (.ald (BitVec.ofNat 3 (w / 4194304)) (BitVec.ofNat 5 (w / 131072)))
  else if w / 256 % 512 = 8 then some (.ast (BitVec.ofNat 3 (w / 4194304)) (BitVec.ofNat 5 (w / 131072)) (BitVec.ofNat 1 (w / 128)) (BitVec.ofNat 3 (w / 16)) (BitVec.ofNat 4 w))
  else none

/-- Major opcode 0x53 (R43). -/
def decodeOp53 (w : Nat) : Option Instr :=
  if w % 1024 = 0 ∧ w / 262144 % 4 = 0 ∧ w / 16777216 % 2 = 0 then some (.arow (BitVec.ofNat 4 (w / 1048576)) (BitVec.ofNat 3 (w / 32768)) (BitVec.ofNat 5 (w / 1024)))
  else if w % 1024 = 1 ∧ w / 524288 % 2 = 0 ∧ w / 8388608 % 4 = 0 then some (.awr (BitVec.ofNat 3 (w / 1048576)) (BitVec.ofNat 4 (w / 32768)) (BitVec.ofNat 5 (w / 1024)))
  else none

/-- Major opcode 0x54 (R43). -/
def decodeOp54 (w : Nat) : Option Instr :=
  if w % 1024 = 0 ∧ w / 1048576 % 32 = 0 then some (.bld (BitVec.ofNat 5 (w / 32768)) (BitVec.ofNat 5 (w / 1024)))
  else if w % 32768 = 1 ∧ w / 1048576 % 32 = 0 then some (.brot (BitVec.ofNat 5 (w / 32768)))
  else if w % 1048576 = 2 then some (.bstat (BitVec.ofNat 5 (w / 1048576)))
  else if w % 1024 = 3 ∧ w / 1048576 % 32 = 0 then some (.tldt (BitVec.ofNat 5 (w / 32768)) (BitVec.ofNat 5 (w / 1024)))
  else none

/-- Major opcode 0x58 (R43). -/
def decodeOp58 (w : Nat) : Option Instr :=
  some (.spawn (BitVec.ofNat 5 (w / 1048576)) (BitVec.ofNat 20 w))

/-- Major opcode 0x59 (R43). -/
def decodeOp59 (w : Nat) : Option Instr :=
  if w / 1048576 % 32 = 0 then some (.spawnc (BitVec.ofNat 20 w))
  else none

/-- Major opcode 0x5A (R43). -/
def decodeOp5A (w : Nat) : Option Instr :=
  some (.spawnr (BitVec.ofNat 5 (w / 1048576)) (BitVec.ofNat 20 w))

/-- Major opcode 0x5B (R43). -/
def decodeOp5B (w : Nat) : Option Instr :=
  if w / 1048576 % 32 = 0 then some (.nextch (BitVec.ofNat 20 w))
  else none

/-- Major opcode 0x5C (R43). -/
def decodeOp5C (w : Nat) : Option Instr :=
  if w % 33554432 = 0 then some (.await)
  else if w % 33554432 = 1 then some (.exit)
  else if w % 33554432 = 2 then some (.yield)
  else if w % 33554432 = 3 then some (.moor)
  else if w % 33554432 = 4 then some (.unmoor)
  else if w % 1048576 = 5 then some (.frame (BitVec.ofNat 5 (w / 1048576)))
  else if w % 32768 = 6 ∧ w / 1048576 % 32 = 0 then some (.cancel (BitVec.ofNat 5 (w / 32768)))
  else if w % 1024 = 7 then some (.place (BitVec.ofNat 5 (w / 1048576)) (BitVec.ofNat 5 (w / 32768)) (BitVec.ofNat 5 (w / 1024)))
  else none

/-- Major opcode 0x5D (R43). -/
def decodeOp5D (w : Nat) : Option Instr :=
  some (.rankof (BitVec.ofNat 5 (w / 1048576)) (BitVec.ofNat 5 (w / 32768)) (BitVec.ofNat 15 w))

/-- The major opcodes below 0x60; every one without a table is illegal or reserved (R43, R46). -/
def decodeCore (op w : Nat) : Except Reject Instr :=
  if op = 1 then (decodeOp01 w).elim (.error .function) .ok else
  if op = 2 then (decodeOp02 w).elim (.error .function) .ok else
  if op = 3 then (decodeOp03 w).elim (.error .function) .ok else
  if op = 4 then (decodeOp04 w).elim (.error .function) .ok else
  if op = 5 then (decodeOp05 w).elim (.error .function) .ok else
  if op = 6 then (decodeOp06 w).elim (.error .function) .ok else
  if op = 7 then (decodeOp07 w).elim (.error .function) .ok else
  if op = 8 then (decodeOp08 w).elim (.error .function) .ok else
  if op = 9 then (decodeOp09 w).elim (.error .function) .ok else
  if op = 10 then (decodeOp0A w).elim (.error .function) .ok else
  if op = 11 then (decodeOp0B w).elim (.error .function) .ok else
  if op = 12 then (decodeOp0C w).elim (.error .function) .ok else
  if op = 13 then (decodeOp0D w).elim (.error .function) .ok else
  if op = 14 then (decodeOp0E w).elim (.error .function) .ok else
  if op = 15 then (decodeOp0F w).elim (.error .function) .ok else
  if op = 16 then (decodeOp10 w).elim (.error .function) .ok else
  if op = 17 then (decodeOp11 w).elim (.error .function) .ok else
  if op = 18 then (decodeOp12 w).elim (.error .function) .ok else
  if op = 20 then (decodeOp14 w).elim (.error .function) .ok else
  if op = 21 then (decodeOp15 w).elim (.error .function) .ok else
  if op = 22 then (decodeOp16 w).elim (.error .function) .ok else
  if op = 23 then (decodeOp17 w).elim (.error .function) .ok else
  if op = 28 then (decodeOp1C w).elim (.error .function) .ok else
  if op = 29 then (decodeOp1D w).elim (.error .function) .ok else
  if op = 30 then (decodeOp1E w).elim (.error .function) .ok else
  if op = 31 then (decodeOp1F w).elim (.error .function) .ok else
  if op = 32 then (decodeOp20 w).elim (.error .function) .ok else
  if op = 33 then (decodeOp21 w).elim (.error .function) .ok else
  if op = 34 then (decodeOp22 w).elim (.error .function) .ok else
  if op = 35 then (decodeOp23 w).elim (.error .function) .ok else
  if op = 36 then (decodeOp24 w).elim (.error .function) .ok else
  if op = 37 then (decodeOp25 w).elim (.error .function) .ok else
  if op = 38 then (decodeOp26 w).elim (.error .function) .ok else
  if op = 39 then (decodeOp27 w).elim (.error .function) .ok else
  if op = 40 then (decodeOp28 w).elim (.error .function) .ok else
  if op = 41 then (decodeOp29 w).elim (.error .function) .ok else
  if op = 42 then (decodeOp2A w).elim (.error .function) .ok else
  if op = 43 then (decodeOp2B w).elim (.error .function) .ok else
  if op = 44 then (decodeOp2C w).elim (.error .function) .ok else
  if op = 45 then (decodeOp2D w).elim (.error .function) .ok else
  if op = 46 then (decodeOp2E w).elim (.error .function) .ok else
  if op = 47 then (decodeOp2F w).elim (.error .function) .ok else
  if op = 48 then (decodeOp30 w).elim (.error .function) .ok else
  if op = 49 then (decodeOp31 w).elim (.error .function) .ok else
  if op = 50 then (decodeOp32 w).elim (.error .function) .ok else
  if op = 51 then (decodeOp33 w).elim (.error .function) .ok else
  if op = 52 then (decodeOp34 w).elim (.error .function) .ok else
  if op = 56 then (decodeOp38 w).elim (.error .function) .ok else
  if op = 57 then (decodeOp39 w).elim (.error .function) .ok else
  if op = 58 then (decodeOp3A w).elim (.error .function) .ok else
  if op = 59 then (decodeOp3B w).elim (.error .function) .ok else
  if op = 60 then (decodeOp3C w).elim (.error .function) .ok else
  if op = 61 then (decodeOp3D w).elim (.error .function) .ok else
  if op = 62 then (decodeOp3E w).elim (.error .function) .ok else
  if op = 63 then (decodeOp3F w).elim (.error .function) .ok else
  if op = 64 then (decodeOp40 w).elim (.error .function) .ok else
  if op = 65 then (decodeOp41 w).elim (.error .function) .ok else
  if op = 66 then (decodeOp42 w).elim (.error .function) .ok else
  if op = 67 then (decodeOp43 w).elim (.error .function) .ok else
  if op = 68 then (decodeOp44 w).elim (.error .function) .ok else
  if op = 72 then (decodeOp48 w).elim (.error .function) .ok else
  if op = 73 then (decodeOp49 w).elim (.error .function) .ok else
  if op = 74 then (decodeOp4A w).elim (.error .function) .ok else
  if op = 75 then (decodeOp4B w).elim (.error .function) .ok else
  if op = 76 then (decodeOp4C w).elim (.error .function) .ok else
  if op = 77 then (decodeOp4D w).elim (.error .function) .ok else
  if op = 78 then (decodeOp4E w).elim (.error .function) .ok else
  if op = 79 then (decodeOp4F w).elim (.error .function) .ok else
  if op = 80 then (decodeOp50 w).elim (.error .function) .ok else
  if op = 81 then (decodeOp51 w).elim (.error .function) .ok else
  if op = 82 then (decodeOp52 w).elim (.error .function) .ok else
  if op = 83 then (decodeOp53 w).elim (.error .function) .ok else
  if op = 84 then (decodeOp54 w).elim (.error .function) .ok else
  if op = 88 then (decodeOp58 w).elim (.error .function) .ok else
  if op = 89 then (decodeOp59 w).elim (.error .function) .ok else
  if op = 90 then (decodeOp5A w).elim (.error .function) .ok else
  if op = 91 then (decodeOp5B w).elim (.error .function) .ok else
  if op = 92 then (decodeOp5C w).elim (.error .function) .ok else
  if op = 93 then (decodeOp5D w).elim (.error .function) .ok else
  .error .opcode
/-- A word of a major opcode below 0x60, which every word a block may hold has (R50). -/
def decodeBlockWord (w : W32) : Except Reject Instr :=
  match decodeCore (w.toNat / 33554432) w.toNat with
  | .ok i => if i.wf then .ok i else .error .field
  | .error e => .error e
/-- Whether a word is an RPT, and decoupled (R49). -/
def rptForm (w : Nat) : Option Bool :=
  if w / 33554432 ≠ 112 ∨ w / 4096 % 2 ≠ 0 then none else some (w / 16384 % 2 == 1)

noncomputable section

/-- Major opcode 0x60 (R43). -/
def decodeOp60 (w : Nat) : Option Instr :=
  if w % 32768 = 0 then some (.alloc (BitVec.ofNat 5 (w / 1048576)) (BitVec.ofNat 5 (w / 32768)))
  else if w % 32768 = 1 ∧ w / 1048576 % 32 = 0 then some (.free (BitVec.ofNat 5 (w / 32768)))
  else if w % 33554432 = 2 then some (.ruleend)
  else if w % 1048576 = 3 then some (.netaud (BitVec.ofNat 5 (w / 1048576)))
  else if w % 32768 = 4 then some (.nstat (BitVec.ofNat 5 (w / 1048576)) (BitVec.ofNat 5 (w / 32768)))
  else none

/-- Major opcode 0x61 (R43). -/
def decodeOp61 (w : Nat) : Option Instr :=
  if w % 32768 = 0 then some (.portp (BitVec.ofNat 5 (w / 1048576)) (BitVec.ofNat 5 (w / 32768)))
  else if w / 4 % 8192 = 0 then some (.porta (BitVec.ofNat 5 (w / 1048576)) (BitVec.ofNat 5 (w / 32768)) (BitVec.ofNat 2 w))
  else if w % 1024 = 4 then some (.portn (BitVec.ofNat 5 (w / 1048576)) (BitVec.ofNat 5 (w / 32768)) (BitVec.ofNat 5 (w / 1024)))
  else none

/-- Major opcode 0x62 (R43). -/
def decodeOp62 (w : Nat) : Option Instr :=
  if w % 1024 = 0 ∧ w / 1048576 % 32 = 0 then some (.link (BitVec.ofNat 5 (w / 32768)) (BitVec.ofNat 5 (w / 1024)))
  else if w % 1024 = 1 ∧ w / 1048576 % 32 = 0 then some (.join (BitVec.ofNat 5 (w / 32768)) (BitVec.ofNat 5 (w / 1024)))
  else if w % 1024 = 2 ∧ w / 1048576 % 32 = 0 then some (.linkn (BitVec.ofNat 5 (w / 32768)) (BitVec.ofNat 5 (w / 1024)))
  else none

/-- Major opcode 0x63 (R43). -/
def decodeOp63 (w : Nat) : Option Instr :=
  if w % 1024 = 0 ∧ w / 1048576 % 32 = 0 then some (.paydup (BitVec.ofNat 5 (w / 32768)) (BitVec.ofNat 5 (w / 1024)))
  else if w % 32 = 1 ∧ w / 1024 % 32 = 0 then some (.paydrop (BitVec.ofNat 5 (w / 1048576)) (BitVec.ofNat 5 (w / 32768)) (BitVec.ofNat 5 (w / 32)))
  else if w % 32 = 2 ∧ w / 1024 % 32 = 0 ∧ w / 1048576 % 32 = 0 then some (.payown (BitVec.ofNat 5 (w / 32768)) (BitVec.ofNat 5 (w / 32)))
  else none

/-- Major opcode 0x68 (R43). -/
def decodeOp68 (w : Nat) : Option Instr :=
  some (.chbind (BitVec.ofNat 3 (w / 4194304)) (BitVec.ofNat 2 (w / 1048576)) (BitVec.ofNat 5 (w / 32768)) (BitVec.ofNat 15 w))

/-- Major opcode 0x69 (R43). -/
def decodeOp69 (w : Nat) : Option Instr :=
  if w % 32768 = 0 ∧ w / 1048576 % 32 = 0 then some (.chfree (BitVec.ofNat 5 (w / 32768)))
  else if w % 32768 = 1 then some (.chstat (BitVec.ofNat 5 (w / 1048576)) (BitVec.ofNat 5 (w / 32768)))
  else none

/-- Major opcode 0x6A (R43). -/
def decodeOp6A (w : Nat) : Option Instr :=
  if w / 16 % 2097152 = 0 then some (.cbar (BitVec.ofNat 4 w))
  else if w / 16 % 2048 = 16 then some (.cbarcfg (BitVec.ofNat 5 (w / 1048576)) (BitVec.ofNat 5 (w / 32768)) (BitVec.ofNat 4 w))
  else none

/-- Major opcode 0x6B (R43). -/
def decodeOp6B (w : Nat) : Option Instr :=
  if w % 256 = 0 then some (.sluCopy (BitVec.ofNat 5 (w / 1048576)) (BitVec.ofNat 5 (w / 32768)) (BitVec.ofNat 5 (w / 1024)) (BitVec.ofNat 1 (w / 512)) (BitVec.ofNat 1 (w / 256)))
  else if w % 256 = 1 then some (.sluFill (BitVec.ofNat 5 (w / 1048576)) (BitVec.ofNat 5 (w / 32768)) (BitVec.ofNat 5 (w / 1024)) (BitVec.ofNat 1 (w / 512)) (BitVec.ofNat 1 (w / 256)))
  else if w % 32768 = 2 then some (.sluStat (BitVec.ofNat 5 (w / 1048576)) (BitVec.ofNat 5 (w / 32768)))
  else if w % 32768 = 3 ∧ w / 1048576 % 32 = 0 then some (.sluCan (BitVec.ofNat 5 (w / 32768)))
  else none

/-- Major opcode 0x6C (R43). -/
def decodeOp6C (w : Nat) : Option Instr :=
  if w % 1024 = 0 then some (.scOpen (BitVec.ofNat 5 (w / 1048576)) (BitVec.ofNat 5 (w / 32768)) (BitVec.ofNat 5 (w / 1024)))
  else if w % 32 = 1 then some (.scStep (BitVec.ofNat 5 (w / 1048576)) (BitVec.ofNat 5 (w / 32768)) (BitVec.ofNat 5 (w / 1024)) (BitVec.ofNat 5 (w / 32)))
  else if w % 1024 = 2 then some (.scMask (BitVec.ofNat 5 (w / 1048576)) (BitVec.ofNat 5 (w / 32768)) (BitVec.ofNat 5 (w / 1024)))
  else if w % 32768 = 3 then some (.scFork (BitVec.ofNat 5 (w / 1048576)) (BitVec.ofNat 5 (w / 32768)))
  else if w % 1024 = 4 ∧ w / 1048576 % 32 = 0 then some (.scRoll (BitVec.ofNat 5 (w / 32768)) (BitVec.ofNat 5 (w / 1024)))
  else if w % 1024 = 5 ∧ w / 1048576 % 32 = 0 then some (.scSave (BitVec.ofNat 5 (w / 32768)) (BitVec.ofNat 5 (w / 1024)))
  else if w % 32768 = 6 then some (.scLoad (BitVec.ofNat 5 (w / 1048576)) (BitVec.ofNat 5 (w / 32768)))
  else if w % 32768 = 7 ∧ w / 1048576 % 32 = 0 then some (.scClose (BitVec.ofNat 5 (w / 32768)))
  else if w % 1024 = 8 then some (.scStat (BitVec.ofNat 5 (w / 1048576)) (BitVec.ofNat 5 (w / 32768)) (BitVec.ofNat 5 (w / 1024)))
  else none

/-- Major opcode 0x6D (R43). -/
def decodeOp6D (w : Nat) : Option Instr :=
  if w % 1024 = 0 then some (.rng (BitVec.ofNat 5 (w / 1048576)) (BitVec.ofNat 5 (w / 32768)) (BitVec.ofNat 5 (w / 1024)))
  else if w % 1024 = 1 ∧ w / 16777216 % 2 = 0 then some (.rngu (BitVec.ofNat 4 (w / 1048576)) (BitVec.ofNat 5 (w / 32768)) (BitVec.ofNat 5 (w / 1024)))
  else none

/-- Major opcode 0x6E (R43). -/
def decodeOp6E (w : Nat) : Option Instr :=
  if w % 1024 = 0 then some (.smpLoc (BitVec.ofNat 5 (w / 1048576)) (BitVec.ofNat 5 (w / 32768)) (BitVec.ofNat 5 (w / 1024)))
  else if w % 1024 = 1 then some (.smpMrg (BitVec.ofNat 5 (w / 1048576)) (BitVec.ofNat 5 (w / 32768)) (BitVec.ofNat 5 (w / 1024)))
  else if w % 1024 = 2 then some (.smpTopk (BitVec.ofNat 5 (w / 1048576)) (BitVec.ofNat 5 (w / 32768)) (BitVec.ofNat 5 (w / 1024)))
  else none

/-- Major opcode 0x70 (R43). -/
def decodeOp70 (w : Nat) : Option Instr :=
  if w / 4096 % 2 = 0 ∧ w / 16384 % 2 = 0 then some (.rpt (BitVec.ofNat 8 (w / 131072)) (BitVec.ofNat 2 (w / 32768)) (BitVec.ofNat 1 (w / 8192)) (BitVec.ofNat 12 w))
  else if w / 4096 % 2 = 0 ∧ w / 16384 % 2 = 1 then some (.rptD (BitVec.ofNat 8 (w / 131072)) (BitVec.ofNat 2 (w / 32768)) (BitVec.ofNat 1 (w / 8192)) (BitVec.ofNat 12 w))
  else none

/-- Major opcode 0x71 (R43). -/
def decodeOp71 (w : Nat) : Option Instr :=
  if w % 32768 = 0 then some (.borrow (BitVec.ofNat 5 (w / 1048576)) (BitVec.ofNat 5 (w / 32768)))
  else if w % 33554432 = 1 then some (.giveb)
  else none

/-- Major opcode 0x72 (R43). -/
def decodeOp72 (w : Nat) : Option Instr :=
  if w % 1024 = 0 then some (.xmovt (BitVec.ofNat 5 (w / 1048576)) (BitVec.ofNat 5 (w / 32768)) (BitVec.ofNat 5 (w / 1024)))
  else if w % 1024 = 1 then some (.xmovf (BitVec.ofNat 5 (w / 1048576)) (BitVec.ofNat 5 (w / 32768)) (BitVec.ofNat 5 (w / 1024)))
  else none

/-- Major opcode 0x74 (R43). -/
def decodeOp74 (w : Nat) : Option Instr :=
  if w / 4096 % 256 = 1 then some (.csrr (BitVec.ofNat 5 (w / 1048576)) (BitVec.ofNat 12 w))
  else if w / 4096 % 8 = 2 then some (.csrw (BitVec.ofNat 5 (w / 1048576)) (BitVec.ofNat 5 (w / 32768)) (BitVec.ofNat 12 w))
  else if w / 4096 % 8 = 3 then some (.csrs (BitVec.ofNat 5 (w / 1048576)) (BitVec.ofNat 5 (w / 32768)) (BitVec.ofNat 12 w))
  else if w / 4096 % 8 = 4 then some (.csrc (BitVec.ofNat 5 (w / 1048576)) (BitVec.ofNat 5 (w / 32768)) (BitVec.ofNat 12 w))
  else none

/-- Major opcode 0x75 (R43). -/
def decodeOp75 (w : Nat) : Option Instr :=
  if w % 33554432 = 0 then some (.ecall)
  else if w % 33554432 = 1 then some (.ebreak)
  else if w % 33554432 = 2 then some (.tret)
  else if w % 33554432 = 3 then some (.wfi)
  else if w % 33554432 = 4 then some (.isync)
  else none

/-- Major opcode 0x76 (R43). -/
def decodeOp76 (w : Nat) : Option Instr :=
  if w % 32768 = 0 then some (.lnch (BitVec.ofNat 5 (w / 1048576)) (BitVec.ofNat 5 (w / 32768)))
  else if w % 32768 = 1 ∧ w / 1048576 % 32 = 0 then some (.lcancel (BitVec.ofNat 5 (w / 32768)))
  else none

/-- Major opcode 0x77 (R43). -/
def decodeOp77 (w : Nat) : Option Instr :=
  if w % 1024 = 0 then some (.pspill (BitVec.ofNat 5 (w / 1048576)) (BitVec.ofNat 5 (w / 32768)) (BitVec.ofNat 5 (w / 1024)))
  else if w % 1024 = 1 then some (.prest (BitVec.ofNat 5 (w / 1048576)) (BitVec.ofNat 5 (w / 32768)) (BitVec.ofNat 5 (w / 1024)))
  else none

/-- The major opcodes from 0x60 on (R43, R46). -/
def decodeSys (op w : Nat) : Except Reject Instr :=
  if op = 96 then (decodeOp60 w).elim (.error .function) .ok else
  if op = 97 then (decodeOp61 w).elim (.error .function) .ok else
  if op = 98 then (decodeOp62 w).elim (.error .function) .ok else
  if op = 99 then (decodeOp63 w).elim (.error .function) .ok else
  if op = 104 then (decodeOp68 w).elim (.error .function) .ok else
  if op = 105 then (decodeOp69 w).elim (.error .function) .ok else
  if op = 106 then (decodeOp6A w).elim (.error .function) .ok else
  if op = 107 then (decodeOp6B w).elim (.error .function) .ok else
  if op = 108 then (decodeOp6C w).elim (.error .function) .ok else
  if op = 109 then (decodeOp6D w).elim (.error .function) .ok else
  if op = 110 then (decodeOp6E w).elim (.error .function) .ok else
  if op = 112 then (decodeOp70 w).elim (.error .function) .ok else
  if op = 113 then (decodeOp71 w).elim (.error .function) .ok else
  if op = 114 then (decodeOp72 w).elim (.error .function) .ok else
  if op = 116 then (decodeOp74 w).elim (.error .function) .ok else
  if op = 117 then (decodeOp75 w).elim (.error .function) .ok else
  if op = 118 then (decodeOp76 w).elim (.error .function) .ok else
  if op = 119 then (decodeOp77 w).elim (.error .function) .ok else
  .error .opcode
/-- Every listed major opcode has its own table. -/
def decodeMajor (op w : Nat) : Except Reject Instr := if op < 96 then decodeCore op w else decodeSys op w

/-- Bits [31:25] select the table (R38). -/
def decodeRaw (w : Nat) : Except Reject Instr := decodeMajor (w / 33554432) w

/-- The instruction a 32-bit word stands for, or why it is none (R46). -/
def decodeWord (w : W32) : Except Reject Instr :=
  match decodeRaw w.toNat with
  | .ok i => if i.wf then .ok i else .error .field
  | .error e => .error e

/-- The bytes of one instruction, the byte at the lowest address first (R4, R38). -/
def decodeBytes : List Byte → Except Reject Instr
  | [b0, b1, b2, b3] => decodeWord (b3 ++ b2 ++ b1 ++ b0)
  | _ => .error .length

/-- The four bytes of a word in memory order (R4). -/
def wordBytes (w : W32) : List Byte :=
  [w.extractLsb' 0 8, w.extractLsb' 8 8, w.extractLsb' 16 8, w.extractLsb' 24 8]

/-- What the decoder reads from an instruction whose bits are w, numbered as spec/opcode_table.json numbers them. -/
def decodeTableWord (nbits w : Nat) : Option Instr :=
  if nbits ≤ 32 then (decodeBytes (wordBytes (BitVec.ofNat 32 (w % 2 ^ nbits)))).toOption else none

/-- The word of an encoded instruction, as a number; 0, the guard word, for an event of the part, which has no word. -/
def encodeNat : Instr → Nat
  | .add d a b => 33554432 + d.toNat * 1048576 + a.toNat * 32768 + b.toNat * 1024
  | .sub d a b => 33554433 + d.toNat * 1048576 + a.toNat * 32768 + b.toNat * 1024
  | .and d a b => 33554434 + d.toNat * 1048576 + a.toNat * 32768 + b.toNat * 1024
  | .or d a b => 33554435 + d.toNat * 1048576 + a.toNat * 32768 + b.toNat * 1024
  | .xor d a b => 33554436 + d.toNat * 1048576 + a.toNat * 32768 + b.toNat * 1024
  | .andn d a b => 33554437 + d.toNat * 1048576 + a.toNat * 32768 + b.toNat * 1024
  | .orn d a b => 33554438 + d.toNat * 1048576 + a.toNat * 32768 + b.toNat * 1024
  | .sll d a b => 33554440 + d.toNat * 1048576 + a.toNat * 32768 + b.toNat * 1024
  | .srl d a b => 33554441 + d.toNat * 1048576 + a.toNat * 32768 + b.toNat * 1024
  | .sra d a b => 33554442 + d.toNat * 1048576 + a.toNat * 32768 + b.toNat * 1024
  | .ror d a b => 33554443 + d.toNat * 1048576 + a.toNat * 32768 + b.toNat * 1024
  | .addw d a b => 33554444 + d.toNat * 1048576 + a.toNat * 32768 + b.toNat * 1024
  | .subw d a b => 33554445 + d.toNat * 1048576 + a.toNat * 32768 + b.toNat * 1024
  | .mul d a b => 33554448 + d.toNat * 1048576 + a.toNat * 32768 + b.toNat * 1024
  | .mulh d a b => 33554449 + d.toNat * 1048576 + a.toNat * 32768 + b.toNat * 1024
  | .mulhu d a b => 33554450 + d.toNat * 1048576 + a.toNat * 32768 + b.toNat * 1024
  | .mulhsu d a b => 33554451 + d.toNat * 1048576 + a.toNat * 32768 + b.toNat * 1024
  | .div d a b => 33554452 + d.toNat * 1048576 + a.toNat * 32768 + b.toNat * 1024
  | .divu d a b => 33554453 + d.toNat * 1048576 + a.toNat * 32768 + b.toNat * 1024
  | .rem d a b => 33554454 + d.toNat * 1048576 + a.toNat * 32768 + b.toNat * 1024
  | .remu d a b => 33554455 + d.toNat * 1048576 + a.toNat * 32768 + b.toNat * 1024
  | .min d a b => 33554456 + d.toNat * 1048576 + a.toNat * 32768 + b.toNat * 1024
  | .max d a b => 33554457 + d.toNat * 1048576 + a.toNat * 32768 + b.toNat * 1024
  | .minu d a b => 33554458 + d.toNat * 1048576 + a.toNat * 32768 + b.toNat * 1024
  | .maxu d a b => 33554459 + d.toNat * 1048576 + a.toNat * 32768 + b.toNat * 1024
  | .clz d a => 33554464 + d.toNat * 1048576 + a.toNat * 32768
  | .ctz d a => 33554465 + d.toNat * 1048576 + a.toNat * 32768
  | .popc d a => 33554466 + d.toNat * 1048576 + a.toNat * 32768
  | .sextb d a => 33554467 + d.toNat * 1048576 + a.toNat * 32768
  | .sexth d a => 33554468 + d.toNat * 1048576 + a.toNat * 32768
  | .sextw d a => 33554469 + d.toNat * 1048576 + a.toNat * 32768
  | .zextw d a => 33554470 + d.toNat * 1048576 + a.toNat * 32768
  | .addi d a im => 67108864 + d.toNat * 1048576 + a.toNat * 32768 + im.toNat
  | .andi d a im => 100663296 + d.toNat * 1048576 + a.toNat * 32768 + im.toNat
  | .ori d a im => 134217728 + d.toNat * 1048576 + a.toNat * 32768 + im.toNat
  | .xori d a im => 167772160 + d.toNat * 1048576 + a.toNat * 32768 + im.toNat
  | .slli d a n => 201326592 + d.toNat * 1048576 + a.toNat * 32768 + n.toNat
  | .srli d a n => 201330688 + d.toNat * 1048576 + a.toNat * 32768 + n.toNat
  | .srai d a n => 201334784 + d.toNat * 1048576 + a.toNat * 32768 + n.toNat
  | .rori d a n => 201338880 + d.toNat * 1048576 + a.toNat * 32768 + n.toNat
  | .addiw d a im => 234881024 + d.toNat * 1048576 + a.toNat * 32768 + im.toNat
  | .lui d im => 268435456 + d.toNat * 1048576 + im.toNat
  | .auipc d im => 301989888 + d.toNat * 1048576 + im.toNat
  | .cmpEq p a b => 335544320 + p.toNat * 1048576 + a.toNat * 32768 + b.toNat * 1024
  | .cmpNe p a b => 335544321 + p.toNat * 1048576 + a.toNat * 32768 + b.toNat * 1024
  | .cmpLt p a b => 335544322 + p.toNat * 1048576 + a.toNat * 32768 + b.toNat * 1024
  | .cmpLtu p a b => 335544323 + p.toNat * 1048576 + a.toNat * 32768 + b.toNat * 1024
  | .cmpGe p a b => 335544324 + p.toNat * 1048576 + a.toNat * 32768 + b.toNat * 1024
  | .cmpGeu p a b => 335544325 + p.toNat * 1048576 + a.toNat * 32768 + b.toNat * 1024
  | .cmpiEq p a im => 369098752 + p.toNat * 1048576 + a.toNat * 32768 + im.toNat
  | .cmpiNe p a im => 402653184 + p.toNat * 1048576 + a.toNat * 32768 + im.toNat
  | .cmpiLt p a im => 436207616 + p.toNat * 1048576 + a.toNat * 32768 + im.toNat
  | .cmpiLtu p a im => 469762048 + p.toNat * 1048576 + a.toNat * 32768 + im.toNat
  | .cmpiGe p a im => 503316480 + p.toNat * 1048576 + a.toNat * 32768 + im.toNat
  | .cmpiGeu p a im => 536870912 + p.toNat * 1048576 + a.toNat * 32768 + im.toNat
  | .pand d a b => 570425344 + d.toNat * 1048576 + a.toNat * 32768 + b.toNat * 1024
  | .por d a b => 570425345 + d.toNat * 1048576 + a.toNat * 32768 + b.toNat * 1024
  | .pxor d a b => 570425346 + d.toNat * 1048576 + a.toNat * 32768 + b.toNat * 1024
  | .pandn d a b => 570425347 + d.toNat * 1048576 + a.toNat * 32768 + b.toNat * 1024
  | .pmov d a => 570425348 + d.toNat * 1048576 + a.toNat * 32768
  | .pset d a => 570425349 + d.toNat * 1048576 + a.toNat * 32768
  | .psetP a => 570425349 + a.toNat * 32768
  | .sel d a b im => 603979776 + d.toNat * 1048576 + a.toNat * 32768 + b.toNat * 1024 + im.toNat
  | .selP d => 603979776 + d.toNat * 1048576
  | .bpT p o => 671612928 + p.toNat * 1048576 + o.toNat
  | .bpF p o => 671088640 + p.toNat * 1048576 + o.toNat
  | .j o => 704643072 + o.toNat
  | .jal d o => 738197504 + d.toNat * 1048576 + o.toNat
  | .jalr d a im => 771751936 + d.toNat * 1048576 + a.toNat * 32768 + im.toNat
  | .ldb d a im => 939524096 + d.toNat * 1048576 + a.toNat * 32768 + im.toNat
  | .ldbu d a im => 973078528 + d.toNat * 1048576 + a.toNat * 32768 + im.toNat
  | .ldh d a im => 1006632960 + d.toNat * 1048576 + a.toNat * 32768 + im.toNat
  | .ldhu d a im => 1040187392 + d.toNat * 1048576 + a.toNat * 32768 + im.toNat
  | .ldw d a im => 1073741824 + d.toNat * 1048576 + a.toNat * 32768 + im.toNat
  | .ldwu d a im => 1107296256 + d.toNat * 1048576 + a.toNat * 32768 + im.toNat
  | .ldd d a im => 1140850688 + d.toNat * 1048576 + a.toNat * 32768 + im.toNat
  | .stb b a im => 1174405120 + b.toNat * 1048576 + a.toNat * 32768 + im.toNat
  | .sth b a im => 1207959552 + b.toNat * 1048576 + a.toNat * 32768 + im.toNat
  | .stw b a im => 1241513984 + b.toNat * 1048576 + a.toNat * 32768 + im.toNat
  | .std b a im => 1275068416 + b.toNat * 1048576 + a.toNat * 32768 + im.toNat
  | .ldf d a im => 1308622848 + d.toNat * 1048576 + a.toNat * 32768 + im.toNat
  | .stf b a im => 1342177280 + b.toNat * 1048576 + a.toNat * 32768 + im.toNat
  | .ldsync d a im => 1375731712 + d.toNat * 1048576 + a.toNat * 32768 + im.toNat
  | .stfull b a im => 1409286144 + b.toNat * 1048576 + a.toNat * 32768 + im.toNat
  | .feclr a im => 1442840576 + a.toNat * 32768 + im.toNat
  | .ferd d a im => 1476395008 + d.toNat * 1048576 + a.toNat * 32768 + im.toNat
  | .rld d a b => 1509949440 + d.toNat * 1048576 + a.toNat * 32768 + b.toNat * 1024
  | .rst a b => 1509949441 + a.toNat * 32768 + b.toNat * 1024
  | .pfd a => 1509949442 + a.toNat * 32768
  | .icpf a => 1509949443 + a.toNat * 32768
  | .amoAdd d a b w q r => 1543503872 + d.toNat * 1048576 + a.toNat * 32768 + b.toNat * 1024 + w.toNat * 32 + q.toNat * 16 + r.toNat * 8
  | .amoAnd d a b w q r => 1543503936 + d.toNat * 1048576 + a.toNat * 32768 + b.toNat * 1024 + w.toNat * 32 + q.toNat * 16 + r.toNat * 8
  | .amoOr d a b w q r => 1543504000 + d.toNat * 1048576 + a.toNat * 32768 + b.toNat * 1024 + w.toNat * 32 + q.toNat * 16 + r.toNat * 8
  | .amoXor d a b w q r => 1543504064 + d.toNat * 1048576 + a.toNat * 32768 + b.toNat * 1024 + w.toNat * 32 + q.toNat * 16 + r.toNat * 8
  | .amoMin d a b w q r => 1543504128 + d.toNat * 1048576 + a.toNat * 32768 + b.toNat * 1024 + w.toNat * 32 + q.toNat * 16 + r.toNat * 8
  | .amoMax d a b w q r => 1543504192 + d.toNat * 1048576 + a.toNat * 32768 + b.toNat * 1024 + w.toNat * 32 + q.toNat * 16 + r.toNat * 8
  | .amoMinu d a b w q r => 1543504256 + d.toNat * 1048576 + a.toNat * 32768 + b.toNat * 1024 + w.toNat * 32 + q.toNat * 16 + r.toNat * 8
  | .amoMaxu d a b w q r => 1543504320 + d.toNat * 1048576 + a.toNat * 32768 + b.toNat * 1024 + w.toNat * 32 + q.toNat * 16 + r.toNat * 8
  | .amoSwap d a b w q r => 1543504384 + d.toNat * 1048576 + a.toNat * 32768 + b.toNat * 1024 + w.toNat * 32 + q.toNat * 16 + r.toNat * 8
  | .amoCas d a b w q r => 1543504448 + d.toNat * 1048576 + a.toNat * 32768 + b.toNat * 1024 + w.toNat * 32 + q.toNat * 16 + r.toNat * 8
  | .amoFadd d a b q r => 1543504512 + d.toNat * 1048576 + a.toNat * 32768 + b.toNat * 1024 + q.toNat * 16 + r.toNat * 8
  | .cmoClean a b l => 1577058305 + a.toNat * 32768 + b.toNat * 1024 + l.toNat * 4
  | .cmoInv a b l => 1577058306 + a.toNat * 32768 + b.toNat * 1024 + l.toNat * 4
  | .cmoClinv a b l => 1577058307 + a.toNat * 32768 + b.toNat * 1024 + l.toNat * 4
  | .fadd d a b => 1610612736 + d.toNat * 1048576 + a.toNat * 32768 + b.toNat * 1024
  | .fsub d a b => 1610612737 + d.toNat * 1048576 + a.toNat * 32768 + b.toNat * 1024
  | .fmul d a b => 1610612738 + d.toNat * 1048576 + a.toNat * 32768 + b.toNat * 1024
  | .fdiv d a b => 1610612739 + d.toNat * 1048576 + a.toNat * 32768 + b.toNat * 1024
  | .fsqrt d a => 1610612740 + d.toNat * 1048576 + a.toNat * 32768
  | .fmin d a b => 1610612741 + d.toNat * 1048576 + a.toNat * 32768 + b.toNat * 1024
  | .fmax d a b => 1610612742 + d.toNat * 1048576 + a.toNat * 32768 + b.toNat * 1024
  | .fsgnj d a b => 1610612743 + d.toNat * 1048576 + a.toNat * 32768 + b.toNat * 1024
  | .fsgnjn d a b => 1610612744 + d.toNat * 1048576 + a.toNat * 32768 + b.toNat * 1024
  | .fsgnjx d a b => 1610612745 + d.toNat * 1048576 + a.toNat * 32768 + b.toNat * 1024
  | .fclass d a => 1610612746 + d.toNat * 1048576 + a.toNat * 32768
  | .fma d a b c => 1644167168 + d.toNat * 1048576 + a.toNat * 32768 + b.toNat * 1024 + c.toNat
  | .fms d a b c => 1644167184 + d.toNat * 1048576 + a.toNat * 32768 + b.toNat * 1024 + c.toNat
  | .fnma d a b c => 1644167200 + d.toNat * 1048576 + a.toNat * 32768 + b.toNat * 1024 + c.toNat
  | .fcmpEq p a b => 1677721600 + p.toNat * 1048576 + a.toNat * 32768 + b.toNat * 1024
  | .fcmpLt p a b => 1677721601 + p.toNat * 1048576 + a.toNat * 32768 + b.toNat * 1024
  | .fcmpLe p a b => 1677721602 + p.toNat * 1048576 + a.toNat * 32768 + b.toNat * 1024
  | .fcmpUn p a b => 1677721603 + p.toNat * 1048576 + a.toNat * 32768 + b.toNat * 1024
  | .fcvtI32F d a => 1711276032 + d.toNat * 1048576 + a.toNat * 32768
  | .fcvtI64F d a => 1711276033 + d.toNat * 1048576 + a.toNat * 32768
  | .fcvtFI32 d a => 1711276034 + d.toNat * 1048576 + a.toNat * 32768
  | .fcvtFI64 d a => 1711276035 + d.toNat * 1048576 + a.toNat * 32768
  | .fcvtBfF d a => 1711276036 + d.toNat * 1048576 + a.toNat * 32768
  | .fcvtFBf d a => 1711276037 + d.toNat * 1048576 + a.toNat * 32768
  | .fcvtHfF d a => 1711276038 + d.toNat * 1048576 + a.toNat * 32768
  | .fcvtFHf d a => 1711276039 + d.toNat * 1048576 + a.toNat * 32768
  | .fmvx d a => 1744830464 + d.toNat * 1048576 + a.toNat * 32768
  | .fmvf d a => 1744830465 + d.toNat * 1048576 + a.toNat * 32768
  | .vld d a im => 1879048192 + d.toNat * 1048576 + a.toNat * 32768 + im.toNat
  | .vst b a im => 1912602624 + b.toNat * 1048576 + a.toNat * 32768 + im.toNat
  | .vlds d a b m => 1946157056 + d.toNat * 1048576 + a.toNat * 32768 + b.toNat * 1024 + m.toNat * 256
  | .vsts d a b m => 1946157057 + d.toNat * 1048576 + a.toNat * 32768 + b.toNat * 1024 + m.toNat * 256
  | .vldx d a b m => 1979711488 + d.toNat * 1048576 + a.toNat * 32768 + b.toNat * 1024 + m.toNat * 256
  | .vstx d a b m => 1979711489 + d.toNat * 1048576 + a.toNat * 32768 + b.toNat * 1024 + m.toNat * 256
  | .vbcast d a => 2013265920 + d.toNat * 1048576 + a.toNat * 32768
  | .vextr d a n => 2013265952 + d.toNat * 1048576 + a.toNat * 32768 + n.toNat
  | .vadd d a b m => 2046820352 + d.toNat * 2097152 + a.toNat * 131072 + b.toNat * 8192 + m.toNat * 256
  | .vsub d a b m => 2046820353 + d.toNat * 2097152 + a.toNat * 131072 + b.toNat * 8192 + m.toNat * 256
  | .vmul d a b m => 2046820354 + d.toNat * 2097152 + a.toNat * 131072 + b.toNat * 8192 + m.toNat * 256
  | .vfma d a b c m => 2046820355 + d.toNat * 2097152 + a.toNat * 131072 + b.toNat * 8192 + c.toNat * 512 + m.toNat * 256
  | .vfms d a b c m => 2046820356 + d.toNat * 2097152 + a.toNat * 131072 + b.toNat * 8192 + c.toNat * 512 + m.toNat * 256
  | .vmin d a b m => 2046820357 + d.toNat * 2097152 + a.toNat * 131072 + b.toNat * 8192 + m.toNat * 256
  | .vmax d a b m => 2046820358 + d.toNat * 2097152 + a.toNat * 131072 + b.toNat * 8192 + m.toNat * 256
  | .vabs d a m => 2046820359 + d.toNat * 2097152 + a.toNat * 131072 + m.toNat * 256
  | .vrcp d a m => 2046820360 + d.toNat * 2097152 + a.toNat * 131072 + m.toNat * 256
  | .vrsq d a m => 2046820361 + d.toNat * 2097152 + a.toNat * 131072 + m.toNat * 256
  | .vexp2 d a m => 2046820362 + d.toNat * 2097152 + a.toNat * 131072 + m.toNat * 256
  | .vlog2 d a m => 2046820363 + d.toNat * 2097152 + a.toNat * 131072 + m.toNat * 256
  | .viadd d a b m => 2080374784 + d.toNat * 2097152 + a.toNat * 131072 + b.toNat * 8192 + m.toNat * 256
  | .visub d a b m => 2080374785 + d.toNat * 2097152 + a.toNat * 131072 + b.toNat * 8192 + m.toNat * 256
  | .vimul d a b m => 2080374786 + d.toNat * 2097152 + a.toNat * 131072 + b.toNat * 8192 + m.toNat * 256
  | .vand d a b m => 2080374787 + d.toNat * 2097152 + a.toNat * 131072 + b.toNat * 8192 + m.toNat * 256
  | .vor d a b m => 2080374788 + d.toNat * 2097152 + a.toNat * 131072 + b.toNat * 8192 + m.toNat * 256
  | .vxor d a b m => 2080374789 + d.toNat * 2097152 + a.toNat * 131072 + b.toNat * 8192 + m.toNat * 256
  | .vsll d a b m => 2080374790 + d.toNat * 2097152 + a.toNat * 131072 + b.toNat * 8192 + m.toNat * 256
  | .vsrl d a b m => 2080374791 + d.toNat * 2097152 + a.toNat * 131072 + b.toNat * 8192 + m.toNat * 256
  | .vsra d a b m => 2080374792 + d.toNat * 2097152 + a.toNat * 131072 + b.toNat * 8192 + m.toNat * 256
  | .vcmpEq a b m => 2113929216 + a.toNat * 131072 + b.toNat * 8192 + m.toNat * 256
  | .vcmpNe a b m => 2113929217 + a.toNat * 131072 + b.toNat * 8192 + m.toNat * 256
  | .vcmpLt a b m => 2113929218 + a.toNat * 131072 + b.toNat * 8192 + m.toNat * 256
  | .vcmpLtu a b m => 2113929219 + a.toNat * 131072 + b.toNat * 8192 + m.toNat * 256
  | .vcmpGe a b m => 2113929220 + a.toNat * 131072 + b.toNat * 8192 + m.toNat * 256
  | .vcmpGeu a b m => 2113929221 + a.toNat * 131072 + b.toNat * 8192 + m.toNat * 256
  | .vcmpFeq a b m => 2113929224 + a.toNat * 131072 + b.toNat * 8192 + m.toNat * 256
  | .vcmpFlt a b m => 2113929225 + a.toNat * 131072 + b.toNat * 8192 + m.toNat * 256
  | .vcmpFle a b m => 2113929226 + a.toNat * 131072 + b.toNat * 8192 + m.toNat * 256
  | .vcmpFun a b m => 2113929227 + a.toNat * 131072 + b.toNat * 8192 + m.toNat * 256
  | .vsel d a b => 2147483648 + d.toNat * 2097152 + a.toNat * 131072 + b.toNat * 8192
  | .vshuf d a b m => 2147483649 + d.toNat * 2097152 + a.toNat * 131072 + b.toNat * 8192 + m.toNat * 256
  | .vslideUp d a b m n => 2147483776 + d.toNat * 2097152 + a.toNat * 131072 + b.toNat * 8192 + m.toNat * 256 + n.toNat
  | .vslideDn d a b m n => 2147483808 + d.toNat * 2097152 + a.toNat * 131072 + b.toNat * 8192 + m.toNat * 256 + n.toNat
  | .vcvtI32F d a m r => 2181038080 + d.toNat * 2097152 + a.toNat * 131072 + m.toNat * 256 + r.toNat
  | .vcvtFI32 d a m r => 2181038088 + d.toNat * 2097152 + a.toNat * 131072 + m.toNat * 256 + r.toNat
  | .vcvtBfF d a h m r => 2181038096 + d.toNat * 2097152 + a.toNat * 131072 + h.toNat * 512 + m.toNat * 256 + r.toNat
  | .vcvtFBf d a h m => 2181038109 + d.toNat * 2097152 + a.toNat * 131072 + h.toNat * 512 + m.toNat * 256
  | .vcvtHfF d a h m r => 2181038112 + d.toNat * 2097152 + a.toNat * 131072 + h.toNat * 512 + m.toNat * 256 + r.toNat
  | .vcvtFHf d a h m => 2181038125 + d.toNat * 2097152 + a.toNat * 131072 + h.toNat * 512 + m.toNat * 256
  | .vencT0 d a q m => 2181038144 + d.toNat * 2097152 + a.toNat * 131072 + q.toNat * 512 + m.toNat * 256
  | .vencT1 d a q m => 2181038145 + d.toNat * 2097152 + a.toNat * 131072 + q.toNat * 512 + m.toNat * 256
  | .vencE2 d a e m => 2181038146 + d.toNat * 2097152 + a.toNat * 131072 + e.toNat * 512 + m.toNat * 256
  | .vdecT0 d a q m => 2181038208 + d.toNat * 2097152 + a.toNat * 131072 + q.toNat * 512 + m.toNat * 256
  | .vdecT1 d a q m => 2181038209 + d.toNat * 2097152 + a.toNat * 131072 + q.toNat * 512 + m.toNat * 256
  | .vdecE2 d a e m => 2181038210 + d.toNat * 2097152 + a.toNat * 131072 + e.toNat * 512 + m.toNat * 256
  | .dtabLd t a im => 2214592512 + t.toNat * 1048576 + a.toNat * 32768 + im.toNat
  | .vred d a m k => 2248146944 + d.toNat * 2097152 + a.toNat * 131072 + m.toNat * 256 + k.toNat
  | .vscan d a m k => 2248147008 + d.toNat * 2097152 + a.toNat * 131072 + m.toNat * 256 + k.toNat
  | .vscanl d a b c m f => 2248147072 + d.toNat * 2097152 + a.toNat * 131072 + b.toNat * 8192 + c.toNat * 512 + m.toNat * 256 + f.toNat
  | .vdotbX8 d a b sc q => 2281701376 + d.toNat * 2097152 + a.toNat * 131072 + b.toNat * 8192 + sc.toNat * 512 + q.toNat * 4
  | .vdotbX4 d a b sc e => 2281701377 + d.toNat * 2097152 + a.toNat * 131072 + b.toNat * 8192 + sc.toNat * 512 + e.toNat * 4
  | .mmaBf c a n t k => 2415919104 + c.toNat * 4194304 + a.toNat * 131072 + n.toNat * 16 + t.toNat * 8 + k.toNat
  | .mmaHf c a n t k => 2449473536 + c.toNat * 4194304 + a.toNat * 131072 + n.toNat * 16 + t.toNat * 8 + k.toNat
  | .mmaE4 c a n t k => 2483027968 + c.toNat * 4194304 + a.toNat * 131072 + n.toNat * 16 + t.toNat * 8 + k.toNat
  | .mmaE45 c a n t k => 2516582400 + c.toNat * 4194304 + a.toNat * 131072 + n.toNat * 16 + t.toNat * 8 + k.toNat
  | .mmaE5 c a n t k => 2550136832 + c.toNat * 4194304 + a.toNat * 131072 + n.toNat * 16 + t.toNat * 8 + k.toNat
  | .mmaX8 c a sc n t k => 2583691264 + c.toNat * 4194304 + a.toNat * 131072 + sc.toNat * 4096 + n.toNat * 16 + t.toNat * 8 + k.toNat
  | .mmaX84 c a sc n t k => 2617245696 + c.toNat * 4194304 + a.toNat * 131072 + sc.toNat * 4096 + n.toNat * 16 + t.toNat * 8 + k.toNat
  | .mmaX4 c a sc n t k => 2650800128 + c.toNat * 4194304 + a.toNat * 131072 + sc.toNat * 4096 + n.toNat * 16 + t.toNat * 8 + k.toNat
  | .mmaI8 c a n t k => 2684354560 + c.toNat * 4194304 + a.toNat * 131072 + n.toNat * 16 + t.toNat * 8 + k.toNat
  | .acq c => 2717908992 + c.toNat * 1048576
  | .rel c => 2717908993 + c.toNat * 1048576
  | .azero c => 2717908994 + c.toNat * 1048576
  | .apois d c => 2717908995 + d.toNat * 1048576 + c.toNat * 32768
  | .ald c a => 2751463424 + c.toNat * 4194304 + a.toNat * 131072
  | .ast c a sc r f => 2751465472 + c.toNat * 4194304 + a.toNat * 131072 + sc.toNat * 128 + r.toNat * 16 + f.toNat
  | .arow d c b => 2785017856 + d.toNat * 1048576 + c.toNat * 32768 + b.toNat * 1024
  | .awr c a b => 2785017857 + c.toNat * 1048576 + a.toNat * 32768 + b.toNat * 1024
  | .bld a b => 2818572288 + a.toNat * 32768 + b.toNat * 1024
  | .brot a => 2818572289 + a.toNat * 32768
  | .bstat d => 2818572290 + d.toNat * 1048576
  | .tldt a b => 2818572291 + a.toNat * 32768 + b.toNat * 1024
  | .spawn p o => 2952790016 + p.toNat * 1048576 + o.toNat
  | .spawnc o => 2986344448 + o.toNat
  | .spawnr n o => 3019898880 + n.toNat * 1048576 + o.toNat
  | .nextch o => 3053453312 + o.toNat
  | .await => 3087007744
  | .exit => 3087007745
  | .yield => 3087007746
  | .moor => 3087007747
  | .unmoor => 3087007748
  | .frame d => 3087007749 + d.toNat * 1048576
  | .cancel a => 3087007750 + a.toNat * 32768
  | .place d a b => 3087007751 + d.toNat * 1048576 + a.toNat * 32768 + b.toNat * 1024
  | .rankof d a p => 3120562176 + d.toNat * 1048576 + a.toNat * 32768 + p.toNat
  | .alloc d a => 3221225472 + d.toNat * 1048576 + a.toNat * 32768
  | .free a => 3221225473 + a.toNat * 32768
  | .ruleend => 3221225474
  | .netaud d => 3221225475 + d.toNat * 1048576
  | .nstat d a => 3221225476 + d.toNat * 1048576 + a.toNat * 32768
  | .portp d a => 3254779904 + d.toNat * 1048576 + a.toNat * 32768
  | .porta d a k => 3254779904 + d.toNat * 1048576 + a.toNat * 32768 + k.toNat
  | .portn d a b => 3254779908 + d.toNat * 1048576 + a.toNat * 32768 + b.toNat * 1024
  | .link a b => 3288334336 + a.toNat * 32768 + b.toNat * 1024
  | .join a b => 3288334337 + a.toNat * 32768 + b.toNat * 1024
  | .linkn a b => 3288334338 + a.toNat * 32768 + b.toNat * 1024
  | .paydup a b => 3321888768 + a.toNat * 32768 + b.toNat * 1024
  | .paydrop d a im => 3321888769 + d.toNat * 1048576 + a.toNat * 32768 + im.toNat * 32
  | .payown a im => 3321888770 + a.toNat * 32768 + im.toNat * 32
  | .chbind l f a p => 3489660928 + l.toNat * 4194304 + f.toNat * 1048576 + a.toNat * 32768 + p.toNat
  | .chfree a => 3523215360 + a.toNat * 32768
  | .chstat d a => 3523215361 + d.toNat * 1048576 + a.toNat * 32768
  | .cbar im => 3556769792 + im.toNat
  | .cbarcfg d a im => 3556770048 + d.toNat * 1048576 + a.toNat * 32768 + im.toNat
  | .sluCopy d a b f e => 3590324224 + d.toNat * 1048576 + a.toNat * 32768 + b.toNat * 1024 + f.toNat * 512 + e.toNat * 256
  | .sluFill d a b f e => 3590324225 + d.toNat * 1048576 + a.toNat * 32768 + b.toNat * 1024 + f.toNat * 512 + e.toNat * 256
  | .sluStat d a => 3590324226 + d.toNat * 1048576 + a.toNat * 32768
  | .sluCan a => 3590324227 + a.toNat * 32768
  | .scOpen d a b => 3623878656 + d.toNat * 1048576 + a.toNat * 32768 + b.toNat * 1024
  | .scStep d a b im => 3623878657 + d.toNat * 1048576 + a.toNat * 32768 + b.toNat * 1024 + im.toNat * 32
  | .scMask r a b => 3623878658 + r.toNat * 1048576 + a.toNat * 32768 + b.toNat * 1024
  | .scFork d a => 3623878659 + d.toNat * 1048576 + a.toNat * 32768
  | .scRoll a b => 3623878660 + a.toNat * 32768 + b.toNat * 1024
  | .scSave a b => 3623878661 + a.toNat * 32768 + b.toNat * 1024
  | .scLoad d a => 3623878662 + d.toNat * 1048576 + a.toNat * 32768
  | .scClose a => 3623878663 + a.toNat * 32768
  | .scStat d a b => 3623878664 + d.toNat * 1048576 + a.toNat * 32768 + b.toNat * 1024
  | .rng d a b => 3657433088 + d.toNat * 1048576 + a.toNat * 32768 + b.toNat * 1024
  | .rngu d a b => 3657433089 + d.toNat * 1048576 + a.toNat * 32768 + b.toNat * 1024
  | .smpLoc d a b => 3690987520 + d.toNat * 1048576 + a.toNat * 32768 + b.toNat * 1024
  | .smpMrg d a b => 3690987521 + d.toNat * 1048576 + a.toNat * 32768 + b.toNat * 1024
  | .smpTopk d a b => 3690987522 + d.toNat * 1048576 + a.toNat * 32768 + b.toNat * 1024
  | .rpt n l sc m => 3758096384 + n.toNat * 131072 + l.toNat * 32768 + sc.toNat * 8192 + m.toNat
  | .rptD n l sc m => 3758112768 + n.toNat * 131072 + l.toNat * 32768 + sc.toNat * 8192 + m.toNat
  | .borrow d a => 3791650816 + d.toNat * 1048576 + a.toNat * 32768
  | .giveb => 3791650817
  | .xmovt d a c => 3825205248 + d.toNat * 1048576 + a.toNat * 32768 + c.toNat * 1024
  | .xmovf d a c => 3825205249 + d.toNat * 1048576 + a.toNat * 32768 + c.toNat * 1024
  | .csrr d c => 3892318208 + d.toNat * 1048576 + c.toNat
  | .csrw d a c => 3892322304 + d.toNat * 1048576 + a.toNat * 32768 + c.toNat
  | .csrs d a c => 3892326400 + d.toNat * 1048576 + a.toNat * 32768 + c.toNat
  | .csrc d a c => 3892330496 + d.toNat * 1048576 + a.toNat * 32768 + c.toNat
  | .ecall => 3925868544
  | .ebreak => 3925868545
  | .tret => 3925868546
  | .wfi => 3925868547
  | .isync => 3925868548
  | .lnch d a => 3959422976 + d.toNat * 1048576 + a.toNat * 32768
  | .lcancel a => 3959422977 + a.toNat * 32768
  | .pspill d a b => 3992977408 + d.toNat * 1048576 + a.toNat * 32768 + b.toNat * 1024
  | .prest d a b => 3992977409 + d.toNat * 1048576 + a.toNat * 32768 + b.toNat * 1024
  | .repeatBufferWord _ => 0
  | .interruptEntry _ _ => 0
  | .replyArrival _ _ => 0
  | .registerFileDrowse _ _ => 0
  | .docking _ => 0
  | .bargeArrival _ _ => 0
  | .spillReturn _ => 0
  | .frameIncrement _ _ _ => 0
  | .frameDecrement _ => 0
  | .resumeMessage _ _ _ => 0
  | .chunkClaim _ _ _ _ => 0
  | .stealRequest _ => 0
  | .stealServe _ => 0
  | .detectionPass _ => 0
  | .pairMessage _ _ => 0
  | .freeSlotReturn _ _ _ => 0
  | .poolAudit _ _ => 0
  | .channelEntryArrival _ _ _ _ _ _ _ _ => 0
  | .channelFreedNotice _ _ _ _ _ _ => 0
  | .deadlockProbeSend _ _ => 0
  | .deadlockProbeReceive _ _ _ => 0
  | .barrierArrival _ _ _ _ => 0
  | .barrierTimeout _ _ => 0
  | .brotTimeout _ => 0
  | .mmaStep _ => 0
  | .latchFillDone _ _ => 0
  | .ringSend _ => 0
  | .ringTransferDone _ => 0
  | .dtabSortDone _ _ => 0
  | .basinSwitchDone _ _ => 0
  | .sluiceBurst _ => 0
  | .scRequestService _ => 0
  | .walkDone _ _ _ => 0
  | .timerExpiry _ => 0
  | .budgetExpiry _ _ => 0
  | .preemptRequest _ => 0
  | .restoreStart _ _ => 0
  | .heldMessageRelease _ => 0
  | .jobTake => 0
  | .launchAdmission _ => 0
  | .jqtailWrite _ => 0
  | .jqcancel _ => 0
  | .ctxWrite _ _ => 0
  | .tlbinvAsid _ => 0
  | .tlbinvRange _ _ _ => 0
  | .tlbinvAll => 0
  | .shootdownDone => 0
  | .hostBar2Read _ _ => 0
  | .hostBar2Write _ _ => 0
  | .debugHalt _ _ => 0
  | .berthHalted _ _ => 0
  | .debugResume _ _ => 0
  | .debugDataWrite _ _ => 0
  | .corecfgWrite _ _ => 0
  | .hqctlWrite _ _ => 0
  | .bascfgWrite _ _ => 0
  | .timecmpWrite _ _ => 0
  | .registerWrite _ _ => 0
  | .atgoWrite _ => 0
  | .attestReportDone => 0
  | .eccCorrected _ => 0
  | .eccUncorrectable _ => 0
  | .flitCrcError _ => 0
  | .linkFlitError _ => 0
  | .fatalError _ => 0
  | .scrub _ _ => 0
  | .telemetryPoll => 0
  | .clusterRetire _ => 0
  | .powerMeasurement _ => 0
  | .thermalTrip _ => 0
  | .powerOnReset _ => 0
  | .smbusReadPower => 0
  | .smbusReadTemperature => 0
  | .smbusReadReady => 0
  | .smbusWritePlim _ => 0
  | .smbusReadBoot => 0
  | .illegalInstruction _ => 0
  | .fetchFault _ => 0
  | .dumpCopyDone => 0
  | .pcieConfigurationRequest _ => 0

/-- The instruction word (R38, R39). -/
def encode (i : Instr) : W32 := BitVec.ofNat 32 (encodeNat i)

/-- Whether the constructor has a word; the others are the part's own events. -/
def Instr.encoded : Instr → Bool
  | .add _ _ _ => true
  | .sub _ _ _ => true
  | .and _ _ _ => true
  | .or _ _ _ => true
  | .xor _ _ _ => true
  | .andn _ _ _ => true
  | .orn _ _ _ => true
  | .sll _ _ _ => true
  | .srl _ _ _ => true
  | .sra _ _ _ => true
  | .ror _ _ _ => true
  | .addw _ _ _ => true
  | .subw _ _ _ => true
  | .mul _ _ _ => true
  | .mulh _ _ _ => true
  | .mulhu _ _ _ => true
  | .mulhsu _ _ _ => true
  | .div _ _ _ => true
  | .divu _ _ _ => true
  | .rem _ _ _ => true
  | .remu _ _ _ => true
  | .min _ _ _ => true
  | .max _ _ _ => true
  | .minu _ _ _ => true
  | .maxu _ _ _ => true
  | .clz _ _ => true
  | .ctz _ _ => true
  | .popc _ _ => true
  | .sextb _ _ => true
  | .sexth _ _ => true
  | .sextw _ _ => true
  | .zextw _ _ => true
  | .addi _ _ _ => true
  | .andi _ _ _ => true
  | .ori _ _ _ => true
  | .xori _ _ _ => true
  | .slli _ _ _ => true
  | .srli _ _ _ => true
  | .srai _ _ _ => true
  | .rori _ _ _ => true
  | .addiw _ _ _ => true
  | .lui _ _ => true
  | .auipc _ _ => true
  | .cmpEq _ _ _ => true
  | .cmpNe _ _ _ => true
  | .cmpLt _ _ _ => true
  | .cmpLtu _ _ _ => true
  | .cmpGe _ _ _ => true
  | .cmpGeu _ _ _ => true
  | .cmpiEq _ _ _ => true
  | .cmpiNe _ _ _ => true
  | .cmpiLt _ _ _ => true
  | .cmpiLtu _ _ _ => true
  | .cmpiGe _ _ _ => true
  | .cmpiGeu _ _ _ => true
  | .pand _ _ _ => true
  | .por _ _ _ => true
  | .pxor _ _ _ => true
  | .pandn _ _ _ => true
  | .pmov _ _ => true
  | .pset _ _ => true
  | .psetP _ => true
  | .sel _ _ _ _ => true
  | .selP _ => true
  | .bpT _ _ => true
  | .bpF _ _ => true
  | .j _ => true
  | .jal _ _ => true
  | .jalr _ _ _ => true
  | .ldb _ _ _ => true
  | .ldbu _ _ _ => true
  | .ldh _ _ _ => true
  | .ldhu _ _ _ => true
  | .ldw _ _ _ => true
  | .ldwu _ _ _ => true
  | .ldd _ _ _ => true
  | .stb _ _ _ => true
  | .sth _ _ _ => true
  | .stw _ _ _ => true
  | .std _ _ _ => true
  | .ldf _ _ _ => true
  | .stf _ _ _ => true
  | .ldsync _ _ _ => true
  | .stfull _ _ _ => true
  | .feclr _ _ => true
  | .ferd _ _ _ => true
  | .rld _ _ _ => true
  | .rst _ _ => true
  | .pfd _ => true
  | .icpf _ => true
  | .amoAdd _ _ _ _ _ _ => true
  | .amoAnd _ _ _ _ _ _ => true
  | .amoOr _ _ _ _ _ _ => true
  | .amoXor _ _ _ _ _ _ => true
  | .amoMin _ _ _ _ _ _ => true
  | .amoMax _ _ _ _ _ _ => true
  | .amoMinu _ _ _ _ _ _ => true
  | .amoMaxu _ _ _ _ _ _ => true
  | .amoSwap _ _ _ _ _ _ => true
  | .amoCas _ _ _ _ _ _ => true
  | .amoFadd _ _ _ _ _ => true
  | .cmoClean _ _ _ => true
  | .cmoInv _ _ _ => true
  | .cmoClinv _ _ _ => true
  | .fadd _ _ _ => true
  | .fsub _ _ _ => true
  | .fmul _ _ _ => true
  | .fdiv _ _ _ => true
  | .fsqrt _ _ => true
  | .fmin _ _ _ => true
  | .fmax _ _ _ => true
  | .fsgnj _ _ _ => true
  | .fsgnjn _ _ _ => true
  | .fsgnjx _ _ _ => true
  | .fclass _ _ => true
  | .fma _ _ _ _ => true
  | .fms _ _ _ _ => true
  | .fnma _ _ _ _ => true
  | .fcmpEq _ _ _ => true
  | .fcmpLt _ _ _ => true
  | .fcmpLe _ _ _ => true
  | .fcmpUn _ _ _ => true
  | .fcvtI32F _ _ => true
  | .fcvtI64F _ _ => true
  | .fcvtFI32 _ _ => true
  | .fcvtFI64 _ _ => true
  | .fcvtBfF _ _ => true
  | .fcvtFBf _ _ => true
  | .fcvtHfF _ _ => true
  | .fcvtFHf _ _ => true
  | .fmvx _ _ => true
  | .fmvf _ _ => true
  | .vld _ _ _ => true
  | .vst _ _ _ => true
  | .vlds _ _ _ _ => true
  | .vsts _ _ _ _ => true
  | .vldx _ _ _ _ => true
  | .vstx _ _ _ _ => true
  | .vbcast _ _ => true
  | .vextr _ _ _ => true
  | .vadd _ _ _ _ => true
  | .vsub _ _ _ _ => true
  | .vmul _ _ _ _ => true
  | .vfma _ _ _ _ _ => true
  | .vfms _ _ _ _ _ => true
  | .vmin _ _ _ _ => true
  | .vmax _ _ _ _ => true
  | .vabs _ _ _ => true
  | .vrcp _ _ _ => true
  | .vrsq _ _ _ => true
  | .vexp2 _ _ _ => true
  | .vlog2 _ _ _ => true
  | .viadd _ _ _ _ => true
  | .visub _ _ _ _ => true
  | .vimul _ _ _ _ => true
  | .vand _ _ _ _ => true
  | .vor _ _ _ _ => true
  | .vxor _ _ _ _ => true
  | .vsll _ _ _ _ => true
  | .vsrl _ _ _ _ => true
  | .vsra _ _ _ _ => true
  | .vcmpEq _ _ _ => true
  | .vcmpNe _ _ _ => true
  | .vcmpLt _ _ _ => true
  | .vcmpLtu _ _ _ => true
  | .vcmpGe _ _ _ => true
  | .vcmpGeu _ _ _ => true
  | .vcmpFeq _ _ _ => true
  | .vcmpFlt _ _ _ => true
  | .vcmpFle _ _ _ => true
  | .vcmpFun _ _ _ => true
  | .vsel _ _ _ => true
  | .vshuf _ _ _ _ => true
  | .vslideUp _ _ _ _ _ => true
  | .vslideDn _ _ _ _ _ => true
  | .vcvtI32F _ _ _ _ => true
  | .vcvtFI32 _ _ _ _ => true
  | .vcvtBfF _ _ _ _ _ => true
  | .vcvtFBf _ _ _ _ => true
  | .vcvtHfF _ _ _ _ _ => true
  | .vcvtFHf _ _ _ _ => true
  | .vencT0 _ _ _ _ => true
  | .vencT1 _ _ _ _ => true
  | .vencE2 _ _ _ _ => true
  | .vdecT0 _ _ _ _ => true
  | .vdecT1 _ _ _ _ => true
  | .vdecE2 _ _ _ _ => true
  | .dtabLd _ _ _ => true
  | .vred _ _ _ _ => true
  | .vscan _ _ _ _ => true
  | .vscanl _ _ _ _ _ _ => true
  | .vdotbX8 _ _ _ _ _ => true
  | .vdotbX4 _ _ _ _ _ => true
  | .mmaBf _ _ _ _ _ => true
  | .mmaHf _ _ _ _ _ => true
  | .mmaE4 _ _ _ _ _ => true
  | .mmaE45 _ _ _ _ _ => true
  | .mmaE5 _ _ _ _ _ => true
  | .mmaX8 _ _ _ _ _ _ => true
  | .mmaX84 _ _ _ _ _ _ => true
  | .mmaX4 _ _ _ _ _ _ => true
  | .mmaI8 _ _ _ _ _ => true
  | .acq _ => true
  | .rel _ => true
  | .azero _ => true
  | .apois _ _ => true
  | .ald _ _ => true
  | .ast _ _ _ _ _ => true
  | .arow _ _ _ => true
  | .awr _ _ _ => true
  | .bld _ _ => true
  | .brot _ => true
  | .bstat _ => true
  | .tldt _ _ => true
  | .spawn _ _ => true
  | .spawnc _ => true
  | .spawnr _ _ => true
  | .nextch _ => true
  | .await => true
  | .exit => true
  | .yield => true
  | .moor => true
  | .unmoor => true
  | .frame _ => true
  | .cancel _ => true
  | .place _ _ _ => true
  | .rankof _ _ _ => true
  | .alloc _ _ => true
  | .free _ => true
  | .ruleend => true
  | .netaud _ => true
  | .nstat _ _ => true
  | .portp _ _ => true
  | .porta _ _ _ => true
  | .portn _ _ _ => true
  | .link _ _ => true
  | .join _ _ => true
  | .linkn _ _ => true
  | .paydup _ _ => true
  | .paydrop _ _ _ => true
  | .payown _ _ => true
  | .chbind _ _ _ _ => true
  | .chfree _ => true
  | .chstat _ _ => true
  | .cbar _ => true
  | .cbarcfg _ _ _ => true
  | .sluCopy _ _ _ _ _ => true
  | .sluFill _ _ _ _ _ => true
  | .sluStat _ _ => true
  | .sluCan _ => true
  | .scOpen _ _ _ => true
  | .scStep _ _ _ _ => true
  | .scMask _ _ _ => true
  | .scFork _ _ => true
  | .scRoll _ _ => true
  | .scSave _ _ => true
  | .scLoad _ _ => true
  | .scClose _ => true
  | .scStat _ _ _ => true
  | .rng _ _ _ => true
  | .rngu _ _ _ => true
  | .smpLoc _ _ _ => true
  | .smpMrg _ _ _ => true
  | .smpTopk _ _ _ => true
  | .rpt _ _ _ _ => true
  | .rptD _ _ _ _ => true
  | .borrow _ _ => true
  | .giveb => true
  | .xmovt _ _ _ => true
  | .xmovf _ _ _ => true
  | .csrr _ _ => true
  | .csrw _ _ _ => true
  | .csrs _ _ _ => true
  | .csrc _ _ _ => true
  | .ecall => true
  | .ebreak => true
  | .tret => true
  | .wfi => true
  | .isync => true
  | .lnch _ _ => true
  | .lcancel _ => true
  | .pspill _ _ _ => true
  | .prest _ _ _ => true
  | .repeatBufferWord _ => false
  | .interruptEntry _ _ => false
  | .replyArrival _ _ => false
  | .registerFileDrowse _ _ => false
  | .docking _ => false
  | .bargeArrival _ _ => false
  | .spillReturn _ => false
  | .frameIncrement _ _ _ => false
  | .frameDecrement _ => false
  | .resumeMessage _ _ _ => false
  | .chunkClaim _ _ _ _ => false
  | .stealRequest _ => false
  | .stealServe _ => false
  | .detectionPass _ => false
  | .pairMessage _ _ => false
  | .freeSlotReturn _ _ _ => false
  | .poolAudit _ _ => false
  | .channelEntryArrival _ _ _ _ _ _ _ _ => false
  | .channelFreedNotice _ _ _ _ _ _ => false
  | .deadlockProbeSend _ _ => false
  | .deadlockProbeReceive _ _ _ => false
  | .barrierArrival _ _ _ _ => false
  | .barrierTimeout _ _ => false
  | .brotTimeout _ => false
  | .mmaStep _ => false
  | .latchFillDone _ _ => false
  | .ringSend _ => false
  | .ringTransferDone _ => false
  | .dtabSortDone _ _ => false
  | .basinSwitchDone _ _ => false
  | .sluiceBurst _ => false
  | .scRequestService _ => false
  | .walkDone _ _ _ => false
  | .timerExpiry _ => false
  | .budgetExpiry _ _ => false
  | .preemptRequest _ => false
  | .restoreStart _ _ => false
  | .heldMessageRelease _ => false
  | .jobTake => false
  | .launchAdmission _ => false
  | .jqtailWrite _ => false
  | .jqcancel _ => false
  | .ctxWrite _ _ => false
  | .tlbinvAsid _ => false
  | .tlbinvRange _ _ _ => false
  | .tlbinvAll => false
  | .shootdownDone => false
  | .hostBar2Read _ _ => false
  | .hostBar2Write _ _ => false
  | .debugHalt _ _ => false
  | .berthHalted _ _ => false
  | .debugResume _ _ => false
  | .debugDataWrite _ _ => false
  | .corecfgWrite _ _ => false
  | .hqctlWrite _ _ => false
  | .bascfgWrite _ _ => false
  | .timecmpWrite _ _ => false
  | .registerWrite _ _ => false
  | .atgoWrite _ => false
  | .attestReportDone => false
  | .eccCorrected _ => false
  | .eccUncorrectable _ => false
  | .flitCrcError _ => false
  | .linkFlitError _ => false
  | .fatalError _ => false
  | .scrub _ _ => false
  | .telemetryPoll => false
  | .clusterRetire _ => false
  | .powerMeasurement _ => false
  | .thermalTrip _ => false
  | .powerOnReset _ => false
  | .smbusReadPower => false
  | .smbusReadTemperature => false
  | .smbusReadReady => false
  | .smbusWritePlim _ => false
  | .smbusReadBoot => false
  | .illegalInstruction _ => false
  | .fetchFault _ => false
  | .dumpCopyDone => false
  | .pcieConfigurationRequest _ => false

end
end Sys2Proof
end

