-- ==== Sys2Proof/Machine/Fetch.lean ====
section
/-!
DEFINITION. Fetching instruction words (R47, R174): through the core's instruction cache and the cluster cache.
-/
namespace Sys2Proof.Machine
open State

/-- What a fetch brings: a word, the fill of its line and how long it takes, a trap (FETCH, or PLACE at a page of a device
outside the launch's group, R284), or a wait for a walk. -/
inductive Fetched where
  | word (w : W32)
  | filled (s : State) (lat : Nat)
  | fault (c : Cause)
  | wait (y : Why)
deriving DecidableEq, Repr

/-- A fetch by the executing berth under an accessor. Instructions lie in global memory only. A word of a poisoned unit is
never decoded: its fetch traps POISON (DESIGN CHOICE, log 81). -/
def fetchAs (s : State) (w : Who) (va : Word) : Fetched :=
  let a := va.toNat
  if 13 * 2 ^ 48 ≤ a ∨ a % 4 ≠ 0 then .fault .fetch
  else match (s.core w.rank).icache.find? fun l => l.asid == w.asid && l.va == a / 128 with
    | some l =>
      if !permOk w.user .exec l.pte then .fault .fetch
      else if l.pois.getLsbD (a % 128 / 8) then .fault .poison
      else .word (l.data.extractLsb' (8 * (a % 128)) 32)
    | none =>
      match s.translate w .exec va with
      | .ok (p, pa) => .filled (s.fillIcache w.rank w.asid a p pa) (s.fillTime (clusterOf w.rank) true pa)
      | .error (.trap c _) => .fault c
      | .error (.wait y) => .wait y
      | .error (.gone _) => .fault .fetch
def fetchAt (s : State) (va : Word) : Fetched := fetchAs s s.who va

/-- The berth waits for the fill of an instruction line, which takes `lat` cycles, and issues again (R20). -/
def fetchWait (t : State) (lat : Nat) : State := (t.await .slow).reply t.rank t.berth { refetch := true } (lat - 1)
/-- A word wanted by an instruction that reads code itself: whatever stops the fetch traps FETCH, with the word's address
(R50, R297); the berth waits for a line that is not there (R20). -/
def codeWord (s : State) (w : Who) (va : Word) : Run W32 :=
  match fetchAs s w va with
  | .word v => .ok v
  | .fault .poison => stop .poison (unitVa va)
  | .fault _ => stop .fetch va
  | .wait y => waitFor y
  | .filled t lat => gone (fetchWait t lat)
/-- Words 1 to n after a base. -/
def codeWords (s : State) (w : Who) (base : Word) : Nat → Run (List W32)
  | 0 => .ok []
  | n + 1 => do
    let l ← codeWords s w base n
    let v ← codeWord s w (base + w64 (4 * (n + 1)))
    .ok (l ++ [v])

end Sys2Proof.Machine
end

