-- ==== Sys2Proof/Machine/Repeat.lean ====
section
/-!
DEFINITION. RPT and RPT.D (R49 to R53, R93 to R95): a block's checks and stepping, the repetition buffer and the
scoreboard over it; and register borrowing (R96 to R101).
-/
namespace Sys2Proof.Machine
open State

/-! ### The register fields of a word (R39, R41, R43, R49) -/

/-- The class of a register field; `none` for a field that names no register. -/
inductive Cls where
  | none | x | p | f | v | acc | fcsr
deriving DecidableEq, Repr

/-- The classes of the R-format fields d, a, b by opcode and fn. -/
def clsR (op fn : Nat) : Cls × Cls × Cls :=
  match op with
  | 0x01 => (.x, .x, if 0x20 ≤ fn then .none else .x)
  | 0x0A => (.p, .x, .x)
  | 0x11 => if fn = 5 then (.p, .x, .none) else if fn = 4 then (.p, .p, .none) else (.p, .p, .p)
  | 0x2D => if fn = 0 then (.x, .x, .x) else if fn = 1 then (.none, .x, .x) else (.none, .x, .none)
  | 0x2F => (.none, .x, .x)
  | 0x30 => if fn = 10 then (.x, .f, .none) else if fn = 4 then (.f, .f, .none) else (.f, .f, .f)
  | 0x31 => (.f, .f, .f)
  | 0x32 => (.p, .f, .f)
  | 0x33 => if fn ≤ 1 then (.x, .f, .none) else if fn ≤ 3 then (.f, .x, .none) else (.f, .f, .none)
  | 0x34 => if fn = 0 then (.x, .f, .none) else (.f, .x, .none)
  | 0x3A => (.v, .x, .x)
  | 0x3B => (.v, .x, .v)
  | 0x3C => if fn = 0 then (.v, .x, .none) else (.x, .v, .none)
  | 0x51 => if fn = 3 then (.x, .acc, .none) else (.acc, .none, .none)
  | 0x53 => if fn = 0 then (.v, .acc, .x) else (.acc, .v, .x)
  | 0x54 => if fn = 1 then (.none, .x, .none) else if fn = 2 then (.x, .none, .none) else (.none, .x, .x)
  | 0x6D => if fn = 1 then (.f, .x, .x) else (.x, .x, .x)
  | _ => (.x, .x, .x)
/-- The classes of the I-format fields d, a. -/
def clsI (op : Nat) : Cls × Cls :=
  if 0x0B ≤ op ∧ op ≤ 0x10 then (.p, .x) else if op = 0x27 then (.f, .x) else if op = 0x38 then (.v, .x)
  else if op = 0x42 then (.none, .x) else (.x, .x)
/-- The classes of the S-format fields b, a. -/
def clsS (op : Nat) : Cls × Cls :=
  if op = 0x28 then (.f, .x) else if op = 0x2B then (.none, .x) else if op = 0x39 then (.v, .x) else (.x, .x)
/-- The classes of the V-format fields vd, va, vb. -/
def clsV (op fn : Nat) : Cls × Cls × Cls :=
  if op = 0x3D then (.v, .v, if 7 ≤ fn then .none else .v)
  else if op = 0x3F then (.none, .v, .v)
  else if op = 0x41 then (.v, .v, .none)
  else if op = 0x43 then (.v, .v, if fn / 64 = 2 then .v else .none)
  else if op = 0x44 then (.f, .v, .v)
  else (.v, .v, .v)
/-- The classes of the M-format fields accumulator, A, scale. -/
def clsM (op : Nat) : Cls × Cls × Cls := (.acc, .x, if 0x4D ≤ op ∧ op ≤ 0x4F then .x else .none)

/-- The formats a block word may step in. -/
inductive Format where
  | r | i | s | v | m | other
deriving DecidableEq, Repr
def formatOf (op : Nat) : Format :=
  if op = 0x01 ∨ op = 0x0A ∨ op = 0x11 ∨ op = 0x12 ∨ (0x2D ≤ op ∧ op ≤ 0x34) ∨ (0x3A ≤ op ∧ op ≤ 0x3C) ∨ op = 0x51 ∨ op = 0x53 ∨ op = 0x54
  then .r
  else if (0x02 ≤ op ∧ op ≤ 0x07) ∨ (0x0B ≤ op ∧ op ≤ 0x10) ∨ (0x1C ≤ op ∧ op ≤ 0x22) ∨ op = 0x27 ∨ op = 0x29 ∨ op = 0x2C ∨ op = 0x38
    ∨ op = 0x42 ∨ op = 0x17 then .i
  else if (0x23 ≤ op ∧ op ≤ 0x26) ∨ op = 0x28 ∨ op = 0x2A ∨ op = 0x2B ∨ op = 0x39 then .s
  else if (0x3D ≤ op ∧ op ≤ 0x41) ∨ op = 0x43 ∨ op = 0x44 then .v
  else if (0x48 ≤ op ∧ op ≤ 0x50) ∨ op = 0x52 then .m
  else .other

/-- Field j of a word, in the order of R49: class, lowest bit, width. -/
def fieldAt (w j : Nat) : Cls × Nat × Nat :=
  let op := w / 2 ^ 25
  let pick (c : Cls × Cls × Cls) : Cls := if j = 0 then c.1 else if j = 1 then c.2.1 else c.2.2
  match formatOf op with
  | .r => (pick (clsR op (w % 1024)), 20 - 5 * j, 5)
  | .i => (pick ((clsI op).1, (clsI op).2, .none), 20 - 5 * j, 5)
  | .s => (pick ((clsS op).1, (clsS op).2, .none), 20 - 5 * j, 5)
  | .v => (pick (clsV op (w % 256)), 21 - 4 * j, 4)
  | .m => (pick (clsM op), if j = 0 then 22 else 22 - 5 * j, if j = 0 then 3 else 5)
  | .other => (.none, 0, 0)

/-- The least and the greatest register of a class that a stepped field may name (R50). -/
def clsRange : Cls → Nat × Nat
  | .none | .fcsr => (1, 0)
  | .x => (1, 23)
  | .p => (1, 31)
  | .f => (0, 15)
  | .v => (0, 15)
  | .acc => (0, 7)

/-- The word of repetition k: each stepped field advanced (R51). -/
def stepWord (b : Block) (k idx : Nat) : W32 :=
  let w := ((b.words[idx]?).getD 0).toNat
  BitVec.ofNat 32 ((upTo 3).foldl (fun n j =>
    if b.mask / 2 ^ (3 * idx + j) % 2 = 1 then n + k * b.step * 2 ^ (fieldAt w j).2.1 else n) w)

/-- Whether a stepped field stays in its class from repetition 0 to the last (R50). -/
def stepOk (b : Block) (idx w j : Nat) : Bool :=
  if b.mask / 2 ^ (3 * idx + j) % 2 = 0 then true
  else
    let (c, lo, n) := fieldAt w j
    let v := w / 2 ^ lo % 2 ^ n
    let r := clsRange c
    decide (r.1 ≤ v ∧ v + b.cnt * b.step ≤ r.2)

/-- R50's checks of one block word: the failing word, if it fails. -/
def checkWord (dec : Bool) (rw : W32) (b : Block) (idx : Nat) : Option W32 :=
  let w := (b.words[idx]?).getD 0
  let op := w.toNat / 2 ^ 25
  if (0x14 ≤ op ∧ op ≤ 0x1B) ∨ (0x58 ≤ op ∧ op ≤ 0x7E) then some rw
  else match decodeBlockWord w with
  | .error _ => some w
  | .ok _ =>
    if dec && !(decide ((0x38 ≤ op ∧ op ≤ 0x44) ∨ (0x48 ≤ op ∧ op ≤ 0x54)) && op != 0x3B && op != 0x42) then some rw
    else if (upTo 3).all fun j => stepOk b idx w.toNat j then none else some rw
/-- R50: the word an ILL reports, if the block does not run. -/
def checkBlock (dec : Bool) (rw : W32) (b : Block) : Option W32 :=
  if b.mask / 2 ^ (3 * b.words.length) ≠ 0 then some rw
  else (upTo b.words.length).findSome? fun i => checkWord dec rw b i

/-- The block an RPT word at `base` captures (R49, R50). Where several checks fail the spec gives no order; here every word
is fetched first, so that FETCH comes before any ILL, then a mask bit beyond LEN is reported, and then word by word, from
the first, an excluded opcode, an illegal word and a stepping failure (DESIGN CHOICE, log 30). -/
def captureBlock (s : State) (w : Who) (base : Word) (rw : W32) (dec : Bool) (n l sc m : Nat) (k idx : Nat) (keep : Bool) :
    Run Block := do
  let ws ← codeWords s w base (l + 1)
  let b : Block := ⟨base, ws, n, 1 + sc, m, k, idx, keep⟩
  match checkBlock dec rw b with
  | some v => stop .ill (v.setWidth 64)
  | none => .ok b

/-- An RPT word from its fields (R49). -/
def rptWord (n : BitVec 8) (l : BitVec 2) (dec : Bool) (sc : BitVec 1) (m : BitVec 12) : W32 :=
  BitVec.ofNat 32 (0xE0000000 + n.toNat * 2 ^ 17 + l.toNat * 2 ^ 15 + (if dec then 2 ^ 14 else 0) + sc.toNat * 2 ^ 13 + m.toNat)

/-- RPT (R49 to R52, R93): the berth goes on with the block's first word. -/
def execRpt (n : BitVec 8) (l : BitVec 2) (sc : BitVec 1) (m : BitVec 12) (s : State) : Host.Outcome State Fault Refusal :=
  s.finish (do
    let b ← captureBlock s s.who s.me.pc (rptWord n l false sc m) false n.toNat l.toNat sc.toNat m.toNat 0 0 s.me.moored
    .ok (s.next.modMe fun k => { k with rpt := some b, pc := b.base + 4, moored := true }))

/-- RPT.D (R53, R93): the block goes to the repetition buffer; the berth goes on behind it. One that waits for the buffer
has issued, and has moored the barge. -/
def execRptD (n : BitVec 8) (l : BitVec 2) (sc : BitVec 1) (m : BitVec 12) (s : State) : Host.Outcome State Fault Refusal :=
  s.finish (do
    let b ← captureBlock s s.who s.me.pc (rptWord n l true sc m) true n.toNat l.toNat sc.toNat m.toNat 0 0 true
    if s.myCore.buffer.isSome then gone (s.moor.block .board)
    else
      let t1 := s.modMyCore fun c => { c with buffer := some ⟨s.berth, s.startAt, b, none, 0⟩ }
      .ok (t1.next.modMe fun k => { k with pc := b.base + w64 (4 * (b.words.length + 1)), moored := true }))

/-! ### The repetition buffer (R53, R95) -/

/-- The buffer's words are vector and matrix instructions (R50). -/
def execBlockWord (i : Instr) (s : State) : Host.Outcome State Fault Refusal :=
  match i with
  | .vld d a im => Sys2Proof.Machine.execVld d a im s
  | .vst b a im => Sys2Proof.Machine.execVst b a im s
  | .vlds d a b m => Sys2Proof.Machine.execVlds d a b m s
  | .vsts d a b m => Sys2Proof.Machine.execVsts d a b m s
  | .vbcast d a => Sys2Proof.Machine.execVbcast d a s
  | .vextr d a n => Sys2Proof.Machine.execVextr d a n s
  | .vadd d a b m => Sys2Proof.Machine.execVadd d a b m s
  | .vsub d a b m => Sys2Proof.Machine.execVsub d a b m s
  | .vmul d a b m => Sys2Proof.Machine.execVmul d a b m s
  | .vfma d a b c m => Sys2Proof.Machine.execVfma d a b c m s
  | .vfms d a b c m => Sys2Proof.Machine.execVfms d a b c m s
  | .vmin d a b m => Sys2Proof.Machine.execVmin d a b m s
  | .vmax d a b m => Sys2Proof.Machine.execVmax d a b m s
  | .vabs d a m => Sys2Proof.Machine.execVabs d a m s
  | .vrcp d a m => Sys2Proof.Machine.execVrcp d a m s
  | .vrsq d a m => Sys2Proof.Machine.execVrsq d a m s
  | .vexp2 d a m => Sys2Proof.Machine.execVexp2 d a m s
  | .vlog2 d a m => Sys2Proof.Machine.execVlog2 d a m s
  | .viadd d a b m => Sys2Proof.Machine.execViadd d a b m s
  | .visub d a b m => Sys2Proof.Machine.execVisub d a b m s
  | .vimul d a b m => Sys2Proof.Machine.execVimul d a b m s
  | .vand d a b m => Sys2Proof.Machine.execVand d a b m s
  | .vor d a b m => Sys2Proof.Machine.execVor d a b m s
  | .vxor d a b m => Sys2Proof.Machine.execVxor d a b m s
  | .vsll d a b m => Sys2Proof.Machine.execVsll d a b m s
  | .vsrl d a b m => Sys2Proof.Machine.execVsrl d a b m s
  | .vsra d a b m => Sys2Proof.Machine.execVsra d a b m s
  | .vcmpEq a b m => Sys2Proof.Machine.execVcmpEq a b m s
  | .vcmpNe a b m => Sys2Proof.Machine.execVcmpNe a b m s
  | .vcmpLt a b m => Sys2Proof.Machine.execVcmpLt a b m s
  | .vcmpLtu a b m => Sys2Proof.Machine.execVcmpLtu a b m s
  | .vcmpGe a b m => Sys2Proof.Machine.execVcmpGe a b m s
  | .vcmpGeu a b m => Sys2Proof.Machine.execVcmpGeu a b m s
  | .vcmpFeq a b m => Sys2Proof.Machine.execVcmpFeq a b m s
  | .vcmpFlt a b m => Sys2Proof.Machine.execVcmpFlt a b m s
  | .vcmpFle a b m => Sys2Proof.Machine.execVcmpFle a b m s
  | .vcmpFun a b m => Sys2Proof.Machine.execVcmpFun a b m s
  | .vsel d a b => Sys2Proof.Machine.execVsel d a b s
  | .vshuf d a b m => Sys2Proof.Machine.execVshuf d a b m s
  | .vslideUp d a b m n => Sys2Proof.Machine.execVslideUp d a b m n s
  | .vslideDn d a b m n => Sys2Proof.Machine.execVslideDn d a b m n s
  | .vcvtI32F d a m r => Sys2Proof.Machine.execVcvtI32F d a m r s
  | .vcvtFI32 d a m r => Sys2Proof.Machine.execVcvtFI32 d a m r s
  | .vcvtBfF d a h m r => Sys2Proof.Machine.execVcvtBfF d a h m r s
  | .vcvtFBf d a h m => Sys2Proof.Machine.execVcvtFBf d a h m s
  | .vcvtHfF d a h m r => Sys2Proof.Machine.execVcvtHfF d a h m r s
  | .vcvtFHf d a h m => Sys2Proof.Machine.execVcvtFHf d a h m s
  | .vencT0 d a q m => Sys2Proof.Machine.execVencT0 d a q m s
  | .vencT1 d a q m => Sys2Proof.Machine.execVencT1 d a q m s
  | .vencE2 d a e m => Sys2Proof.Machine.execVencE2 d a e m s
  | .vdecT0 d a q m => Sys2Proof.Machine.execVdecT0 d a q m s
  | .vdecT1 d a q m => Sys2Proof.Machine.execVdecT1 d a q m s
  | .vdecE2 d a e m => Sys2Proof.Machine.execVdecE2 d a e m s
  | .vred d a m k => Sys2Proof.Machine.execVred d a m k s
  | .vscan d a m k => Sys2Proof.Machine.execVscan d a m k s
  | .vscanl d a b c m f => Sys2Proof.Machine.execVscanl d a b c m f s
  | .vdotbX8 d a b sc q => Sys2Proof.Machine.execVdotbX8 d a b sc q s
  | .vdotbX4 d a b sc e => Sys2Proof.Machine.execVdotbX4 d a b sc e s
  | .mmaBf c a n t k => Sys2Proof.Machine.execMmaBf c a n t k s
  | .mmaHf c a n t k => Sys2Proof.Machine.execMmaHf c a n t k s
  | .mmaE4 c a n t k => Sys2Proof.Machine.execMmaE4 c a n t k s
  | .mmaE45 c a n t k => Sys2Proof.Machine.execMmaE45 c a n t k s
  | .mmaE5 c a n t k => Sys2Proof.Machine.execMmaE5 c a n t k s
  | .mmaX8 c a sc n t k => Sys2Proof.Machine.execMmaX8 c a sc n t k s
  | .mmaX84 c a sc n t k => Sys2Proof.Machine.execMmaX84 c a sc n t k s
  | .mmaX4 c a sc n t k => Sys2Proof.Machine.execMmaX4 c a sc n t k s
  | .mmaI8 c a n t k => Sys2Proof.Machine.execMmaI8 c a n t k s
  | .acq c => Sys2Proof.Machine.execAcq c s
  | .rel c => Sys2Proof.Machine.execRel c s
  | .azero c => Sys2Proof.Machine.execAzero c s
  | .apois d c => Sys2Proof.Machine.execApois d c s
  | .ald c a => Sys2Proof.Machine.execAld c a s
  | .ast c a sc r f => Sys2Proof.Machine.execAst c a sc r f s
  | .arow d c b => Sys2Proof.Machine.execArow d c b s
  | .awr c a b => Sys2Proof.Machine.execAwr c a b s
  | .bld a b => Sys2Proof.Machine.execBld a b s
  | .brot a => Sys2Proof.Machine.execBrot a s
  | .bstat d => Sys2Proof.Machine.execBstat d s
  | .tldt a b => Sys2Proof.Machine.execTldt a b s
  | _ => .next s

/-- Whether a wait is looked at again in a cycle: not while only a reply ends it, nor before the time it stands for. -/
def waitLooks (now : Nat) (w : Wait) : Bool :=
  !w.hold && (match w.why with
    | .remote t | .cleaning t | .behind t | .wake t | .table _ t | .sequence t _ _ => decide (t ≤ now)
    | _ => true)
/-- Whether a word is a vector instruction (R43). -/
def isVector (w : Nat) : Bool := decide (0x38 ≤ w / 2 ^ 25 ∧ w / 2 ^ 25 ≤ 0x44)
/-- Whether the buffer's next word issues now: a vector word in a cycle after that of a berth's vector instruction (R53). -/
def bufDue (s : State) (r : Nat) : Bool :=
  match (s.core r).buffer with
  | some q =>
    decide (q.due ≤ s.cycle)
      && (!isVector (stepWord q.blk q.blk.k q.blk.idx).toNat || q.wait.isSome || decide ((s.core r).vecAt ≤ s.cycle))
      && (match q.wait with | some w => waitLooks s.cycle w | none => true)
  | none => false
/-- REPEAT_BUFFER_WORD (R53): one word, on the owner's registers; a drowsy file is woken first (R32, log 31); a trap stops the
buffer after it. The word accesses memory in the mode and address space that the owner has then, in a trap handler the
supervisor's (DESIGN CHOICE, log 31). -/
def execRepeatBufferWord (r : Nat) (s : State) : Host.Outcome State Fault Refusal :=
  if !bufDue s r then .next s
  else match (s.core r).buffer with
    | none => .next s
    | some q =>
      if (s.berthAt r q.owner).drowsy then
        .next ((s.modBerth r q.owner fun k => { k with drowsy := false, lastIssue := s.cycle }).modCore r fun c =>
          { c with buffer := c.buffer.map fun q => { q with due := s.cycle + 3 } })
      else match decodeBlockWord (stepWord q.blk q.blk.k q.blk.idx) with
      | .error _ => .next s
      | .ok i => match execBlockWord i { s with rank := r, berth := q.owner, buffered := true } with
        | .next t => .next (t.back s)
        | .fault f => .fault f
        | .refused q => .refused q

/-! ### The scoreboard over the buffer (R20, R53) -/

/-- Registers named, as (class, number). -/
abbrev Refs := List (Cls × Nat)
def xs : Refs := (upTo 24).map fun i => (Cls.x, i)
def fs : Refs := (upTo 16).map fun i => (Cls.f, i)
def ps : Refs := (upTo 32).map fun i => (Cls.p, i)
/-- Whether a vector or matrix word takes FCSR's rounding field or SAT bit, and whether it accrues flags (R64 to R66, R102,
R130). -/
def fcsrUse (w : Nat) : Bool × Bool :=
  let op := w / 2 ^ 25
  let k := w % 256
  if op = 0x3D then (decide (k ≤ 4 ∨ 8 ≤ k), true)
  else if op = 0x3F then (false, decide (8 ≤ k))
  else if op = 0x41 then (decide (k = 5 ∨ k / 8 = 1 ∨ k / 8 = 2 ∨ k / 8 = 4 ∨ k = 66), decide (k < 128))
  else if op = 0x43 then
    if k / 64 = 2 then (true, true) else (decide (k % 16 = 0 ∨ k % 16 = 11), decide (k % 16 ≤ 2 ∨ k % 16 = 11))
  else if op = 0x52 then let narrow := w / 2 ^ 11 % 2 = 1 ∧ w % 16 ≠ 0; (decide (narrow ∧ w / 16 % 8 = 5), decide narrow)
  else (false, false)
/-- What a word does to FCSR that the scoreboard knows. Of the owner's instructions only a CSR instruction that names FCSR
reads or writes it there; the flags that its arithmetic accrues and the rounding field that this uses do not count, and no other
CSR that a word consults, such as TSTAT with its poison trap enable or ASID, is on the scoreboard (DESIGN CHOICE, log 71). -/
def fcsrRefs (w : Nat) : Refs × Refs :=
  if w / 2 ^ 25 = 0x74 then
    if w % 4096 ≠ 6 then ([], []) else ([(.fcsr, 0)], if w / 2 ^ 12 % 8 = 1 ∨ (3 ≤ w / 2 ^ 12 % 8 ∧ w / 2 ^ 15 % 32 = 0) then [] else [(.fcsr, 0)])
  else (if (fcsrUse w).1 || (fcsrUse w).2 then [(.fcsr, 0)] else [], if (fcsrUse w).2 then [(.fcsr, 0)] else [])
/-- The registers and accumulators that the fields of a word touch, and those among them that it writes; x0 and p0 never
conflict. -/
def refs (w : Nat) : Refs × Refs :=
  let op := w / 2 ^ 25
  let fn := w % 1024
  let get (j : Nat) : Refs := let (c, lo, n) := fieldAt w j; if c = .none then [] else [(c, w / 2 ^ lo % 2 ^ n)]
  let r5 (c : Cls) (lo : Nat) : Refs := [(c, w / 2 ^ lo % 32)]
  let keep (l : Refs) : Refs := l.filter fun e => !(e.2 == 0 && (e.1 == .x || e.1 == .p))
  let masked : Refs := if (op = 0x3A ∨ op = 0x3B ∨ (0x3D ≤ op ∧ op ≤ 0x43 ∧ op ≠ 0x42)) ∧ w / 256 % 2 = 1 then ps else []
  let raw : Refs × Refs :=
    match formatOf op with
    | .s => (get 0 ++ get 1, [])
    | .r =>
      let all := get 0 ++ get 1 ++ get 2
      if op = 0x3A ∨ op = 0x3B then (all ++ masked, if fn % 256 = 0 then get 0 else [])
      else if op = 0x31 then (all ++ [(.f, w % 16)], get 0)
      else if op = 0x12 then (all ++ (if w % 32 = 0 then ps else [(.p, w % 32)]), get 0)
      else if op = 0x11 ∧ fn = 5 ∧ w / 2 ^ 20 % 32 = 0 then (all ++ ps, ps)
      else (all, get 0)
    | .i => (get 0 ++ get 1, get 0)
    | .v =>
      let n := w / 512 % 16
      let carry := op = 0x43 ∧ w / 64 % 4 = 2                 -- VSCANL reads f[c] and writes f[c + 1] (R119)
      let c : Refs := if op = 0x44 ∨ carry then [(.f, n), (.f, n + 1)]
        else if op = 0x3D ∧ (w % 256 = 3 ∨ w % 256 = 4) then [(.v, n)] else []
      let all := get 0 ++ get 1 ++ get 2 ++ c ++ masked
      if op = 0x3F then (all ++ ps, ps) else if op = 0x40 ∧ w % 256 = 0 then (all ++ ps, get 0)
      else (all, if carry then get 0 ++ [(.f, n + 1)] else get 0)
    | .m => (get 0 ++ get 1 ++ get 2, if op = 0x52 ∧ w / 2 ^ 11 % 2 = 1 then [] else get 0)   -- AST only reads its accumulator
    | .other =>
      if op = 0x08 ∨ op = 0x09 ∨ op = 0x16 then (r5 .x 20, r5 .x 20)
      else if op = 0x14 then (r5 .p 20, [])
      else if op = 0x58 ∨ op = 0x59 then (xs ++ fs ++ ps, [])       -- the child takes every register (R200)
      else if op = 0x5A then (r5 .x 20 ++ [(.x, w / 2 ^ 20 % 32 + 1)] ++ xs.filter (fun e => decide (4 ≤ e.2)) ++ fs ++ ps, [])   -- SPAWNR (R202)
      else if op = 0x5B then ([], [(.x, 1), (.x, 2)])               -- NEXTCH (R203)
      else if op = 0x63 then (r5 .x 20 ++ r5 .x 15 ++ r5 .x 10 ++ [(.p, fn / 32)], r5 .x 20 ++ [(.p, fn / 32)])
      else if op = 0x6C ∧ fn = 2 then (r5 .x 20 ++ r5 .x 15 ++ r5 .x 10, [])   -- SC.MASK reads d (R322)
      else if op = 0x6C then (r5 .x 20 ++ r5 .x 15 ++ r5 .x 10 ++ [(.p, fn / 32)], r5 .x 20 ++ [(.p, fn / 32)])
      else if op = 0x6D ∧ fn = 1 then (r5 .f 20 ++ r5 .x 15 ++ r5 .x 10, r5 .f 20)
      else if op = 0x72 then
        let k := w / 1024 % 32
        let c : Cls := if k = 0 then .x else if k = 1 then .f else if k = 2 then .v else .p
        let n := if fn = 0 then w / 2 ^ 15 % 32 else w / 2 ^ 20 % 32
        let l : Refs := if c = .p then ps else [(c, n)]
        (l, if fn = 0 then [] else l)
      else if op = 0x68 then (r5 .x 15, [])
      else if op = 0x74 ∨ op = 0x5D then (r5 .x 20 ++ r5 .x 15, r5 .x 20)
      else if op = 0x6E ∧ fn = 2 then (r5 .x 20 ++ r5 .x 15 ++ r5 .x 10, [])   -- SMP.TOPK reads d
      else if 0x5C ≤ op ∧ op ≤ 0x77 ∧ op ≠ 0x70 then (r5 .x 20 ++ r5 .x 15 ++ r5 .x 10, r5 .x 20)
      else ([], [])
  (keep raw.1, keep raw.2)

/-- The words the buffer has still to issue. -/
def remaining (b : Block) : List W32 :=
  let n := b.words.length
  ((upTo (b.cnt + 1)).map fun k => (upTo n).filterMap fun i =>
    if b.k < k ∨ (b.k = k ∧ b.idx ≤ i) then some (stepWord b k i) else none).flatten
/-- Whether an instruction of the buffer's owner waits for a word that is still to issue: it reads or writes a register or
accumulator that such a word writes, or writes a register that one reads (R53). Every instruction and every word reads P (R26). -/
def boardConflict (s : State) (w : W32) : Bool :=
  match s.myCore.buffer with
  | some q => q.owner == s.berth &&
      (let mine := refs w.toNat
       let own := if w.toNat / 2 ^ 25 = 0x74 then fcsrRefs w.toNat else ([], [])
       (remaining q.blk).any fun v =>
        let his := refs v.toNat
        let fc := fcsrRefs v.toNat
        ((mine.1 ++ own.1 ++ ps).any fun e => (his.2 ++ fc.2).contains e)
          || (mine.2 ++ own.2).any fun e => e.1 != .acc && (his.1 ++ fc.1 ++ ps).contains e)
  | none => false

/-! ### Register borrowing (R96 to R101) -/

/-- The berth a request names, if one is eligible: EMPTY (R34, R97). -/
def borrowChoice (now : Nat) (c : Core) (q : Word) : Option Nat :=
  if bit q 4 then (upTo 16).find? fun b => emptyBerth now c b
  else if emptyBerth now c (fld q 0 4) then some (fld q 0 4) else none
/-- BORROW at its write-back (R97, R101): the file it claims is zeroed, the barge is moored, and the answer is written. A
docking that began in that cycle has its berth already. -/
def claimFile (d : BitVec 5) (req : Word) (s : State) : State :=
  match borrowChoice s.cycle s.myCore req with
  | none => s.wx d ones64
  | some c =>
    let t := s.modBerth s.rank c fun k => { k with
      lent := some s.berth
      x := Vector.replicate 24 0
      f := Vector.replicate 16 0
      v := Vector.replicate 16 0
      p := 1
      drowsy := false
      lastIssue := s.cycle }
    ((t.modMe fun k => { k with borrowed := some c }).moor).wx d (w64 c)
/-- BORROW (R97): a barge that holds a file traps before its request is read; the claim is made at write-back. -/
def execBorrow (d a : BitVec 5) (s : State) : Host.Outcome State Fault Refusal :=
  s.finish (
    if s.me.borrowed.isSome then stop .ill (wd 0xE2000000 [(d.toNat, 20), (a.toNat, 15)])
    else do
    s.checkPorts [a] d
    .ok (s.atWriteBack { srcs := [a], borrow := some (d.toNat, s.rx a) }))
/-- GIVEB (R99). -/
def execGiveb (s : State) : Host.Outcome State Fault Refusal :=
  s.finish (if s.me.borrowed.isNone then stop .ill 0xE2000001 else .ok ((s.giveBack s.rank s.berth (s.cycle + s.leaveIn)).next))

/-- A register copied from one file to another (R100). -/
def copyReg (c d a : Nat) (src dst : Berth) : Berth :=
  if c = 0 then (if d = 0 then dst else { dst with x := vset dst.x d (if a = 0 then 0 else vget src.x a 0) })
  else if c = 1 then { dst with f := vset dst.f d (vget src.f a 0) }
  else if c = 2 then { dst with v := vset dst.v d (vget src.v a 0) }
  else { dst with p := src.p ||| 1 }
/-- Whether the executing instruction has waited for a drowsy file to wake. -/
def State.woke (s : State) : Bool := match s.myWait with | some w => (match w.why with | .wake _ => true | _ => false) | none => false
/-- The shared form of XMOVT and XMOVF: a drowsy file is woken first, for 3 cycles, and the copy comes after (R32, R100). -/
def xmov (out : Bool) (d a c : BitVec 5) (s : State) : Host.Outcome State Fault Refusal :=
  s.finish (match s.me.borrowed with
    | none => stop .ill (wd (if out then 0xE4000000 else 0xE4000001) [(d.toNat, 20), (a.toNat, 15), (c.toNat, 10)])
    | some b =>
      let far := s.berthAt s.rank b
      if far.drowsy then
        gone ((s.modBerth s.rank b fun k => { k with drowsy := false, lastIssue := s.cycle }).block (.wake (s.cycle + 3)))
      else
        .ok ((if out then s.modBerth s.rank b fun k => copyReg c.toNat d.toNat a.toNat s.me k
          else s.modMe fun k => copyReg c.toNat d.toNat a.toNat far k).next (if s.woke then 11 else 8)))
/-- XMOVT (R100): borrowed[d] := own[a]. -/
def execXmovt (d a c : BitVec 5) (s : State) : Host.Outcome State Fault Refusal := xmov true d a c s
/-- XMOVF (R100): own[d] := borrowed[a]. -/
def execXmovf (d a c : BitVec 5) (s : State) : Host.Outcome State Fault Refusal := xmov false d a c s

end Sys2Proof.Machine
end

