-- ==== Sys2Proof/Machine/System.lean ====
section
/-!
DEFINITION. Control and status registers (R29 to R31, R290 to R295), basin modes (R172), the system instructions (R296
to R299), interrupts and BUDGET traps (R285 to R288, R292), the words that are no instruction (R46, R47, R380), drowsy
files (R32) and the debugger (R34, R35, R300, R301).
-/
namespace Sys2Proof.Machine
open State

/-! ### CSRs -/

/-- BASCFG (R171). -/
def bascfg (c : Cluster) : Word :=
  w64 ((upTo 16).foldl (fun n i =>
    let b := vget c.banks i ⟨0, none, none, [], 0⟩
    n + b.mode * 4 ^ i + (if b.next.isSome then 2 ^ (48 + i) else 0)) 0)

/-- A CSR of berth b of core r (R29, R30, R171, R236, R290 to R294). -/
def csrGet (s : State) (r b num : Nat) : Word :=
  let c := s.core r
  let k := c.berth b
  match num with
  | 0x000 => setBit k.tstat 7 k.moored
  | 0x001 => k.tcause
  | 0x002 => k.tval
  | 0x003 => k.tpc
  | 0x004 => k.tscr
  | 0x005 => k.budget.setWidth 64
  | 0x006 => k.fcsr
  | 0x007 => w64 (s.lock.dev.toNat * 2 ^ 24 + r * 256 + b)
  | 0x008 => match k.hdr with
    | some h => w64 (h.pri.toNat * 2 ^ 24 + h.asid.toNat * 65536 + h.lid.toNat)
    | none => 0
  | 0x009 => k.rngsrc
  | 0x100 => c.tvec
  | 0x101 => c.corecfg
  | 0x102 => c.timecmp
  | 0x103 => w64 s.cycle
  | 0x104 => c.instret
  | 0x105 => c.pfdrop
  | 0x106 => c.ecccnt
  | 0x107 => c.probecfg
  | 0x108 => netpool s r k.lid
  | 0x109 => c.asid
  | 0x10A => bascfg (s.cluster (clusterOf r))
  | _ => 0

/-- The RW fields of a CSR (R7, R291 to R294). -/
def csrMask (num : Nat) : Word :=
  match num with
  | 0x000 => 0xFFF7E
  | 0x001 => 0x80000000000000FF
  | 0x002 => ones64
  | 0x003 => ones64 - 3
  | 0x004 => ones64
  | 0x005 => 0xFFFFFFFF
  | 0x006 => 0x1FF
  | 0x009 => 0x000FFFFFFFFFFFC1
  | 0x100 => 0x000FFFFFFFFFFF00
  | 0x101 => 0x1FFFF
  | 0x102 => 0x800FFFFFFFFFFFFF
  | 0x105 => 0xFFFFFFFF
  | 0x106 => ones64
  | 0x107 => 0x0000FFFFFFFFFFF3
  | 0x109 => 0x1FF
  | 0x10A => 0xFFFFFFFF
  | _ => 0

/-- The user column of R290: 0 traps ILL, 1 reads, 2 reads and writes. -/
def csrUser (num : Nat) : Nat :=
  match num with
  | 0x006 => 2
  | 0x005 | 0x007 | 0x008 | 0x101 | 0x103 | 0x104 | 0x105 | 0x108 | 0x10A => 1
  | _ => 0

namespace State

/-- A bank's contents go at the start of a switch (R172); of a CACHE way, whichever lines lay in it (log 9). -/
def emptyBank (s : State) (cl n : Nat) : State :=
  let c := s.cluster cl
  let b := s.bankOf cl n
  if b.mode = 0 then
    let k := s.cacheWays cl
    let gone (set : Nat) : Option Nat := (((c.bcache.filter fun l => l.pa % 128 == set)[Config.victim (s.free + set) k % k]?).map BLine.pa)
    (iter (fun _ t => t.fresh) 128 s).modCluster cl fun c => { c with bcache := c.bcache.filter fun l => gone (l.pa % 128) != some l.pa }
  else s.modBank cl n fun b => { b with fifo := [] }
/-- A switch of bank n to a mode begins, in the cycle of the write-back or of the end of an earlier switch (R172). -/
def startSwitch (s : State) (cl n m : Nat) : State :=
  (s.emptyBank cl n).modBank cl n fun b => { b with next := some (m, s.cycle + 128), again := none }
/-- One mode field of a BASCFG write (R172). -/
def writeBank (s : State) (cl n m : Nat) : State :=
  let b := s.bankOf cl n
  if m = 3 then s
  else match b.next with
    | none => if m = b.mode then s else s.startSwitch cl n m
    | some (t, _) => s.modBank cl n fun b => { b with again := if m = t then none else some m }
def writeBascfg (s : State) (cl : Nat) (v : Word) : State := iter (fun n t => t.writeBank cl n (fld v (2 * n) 2)) 16 s

/-- A berth that leaves the gated state: every register zero, p0 reads 1; it is EMPTY from the next cycle on (R31). -/
def ungated (k : Berth) (now : Nat) : Berth :=
  { Berth.reset with pTimer := k.pTimer, pDebug := k.pDebug, halt := k.halt, lastIssue := now, was := 6, readyAt := now + 1 }
/-- A CORECFG write (R31): a berth whose barge has only just left is not gated yet, and stays as it is. -/
def writeCorecfg (s : State) (r : Nat) (v : Word) : State :=
  iter (fun b t =>
    let c := s.core r
    if !c.enabled b && bit v b && (c.berth b).idle && decide ((c.berth b).readyAt ≤ s.cycle) then t.setBerth r b (ungated (c.berth b) s.cycle) else t) 16
    (s.modCore r fun c => { c with corecfg := v })

/-- Writes the RW fields of a CSR, with its side effects (R7, R31, R172, R292, R295). -/
def csrPut (s : State) (r b num : Nat) (v : Word) : State :=
  let m := csrMask num
  let w := (csrGet s r b num &&& ~~~m) ||| (v &&& m)
  match num with
  | 0x000 => s.modBerth r b fun k => { k with tstat := setBit w 7 false }
  | 0x001 => s.modBerth r b fun k => { k with tcause := w }
  | 0x002 => s.modBerth r b fun k => { k with tval := w }
  | 0x003 => s.modBerth r b fun k => { k with tpc := w }
  | 0x004 => s.modBerth r b fun k => { k with tscr := w }
  | 0x005 => s.modBerth r b fun k => { k with budget := w.setWidth 32 }
  | 0x006 => s.modBerth r b fun k => { k with fcsr := w }
  | 0x009 => s.modBerth r b fun k => { k with rngsrc := w }
  | 0x100 => s.modCore r fun c => { c with tvec := w }
  | 0x101 => s.writeCorecfg r w
  | 0x102 => s.modCore r fun c => { c with timecmp := w, berths := c.berths.map fun k => { k with pTimer := false } }
  | 0x105 => s.modCore r fun c => { c with pfdrop := w }
  | 0x106 => s.modCore r fun c => eccWrite s.cycle c w
  | 0x107 => s.modCore r fun c => { c with probecfg := w }
  | 0x109 => s.modCore r fun c => { c with asid := w }
  | 0x10A => s.writeBascfg (clusterOf r) v
  | _ => s

end State

/-- The value a form leaves in a CSR that held `old` (R295). -/
def csrNew (fn3 : Nat) (old v : Word) : Word := if fn3 = 2 then v else if fn3 = 3 then old ||| v else old &&& ~~~v
/-- The shared form of the CSR instructions (R290, R295): the access check; a read of the old value into x[d], or a write, which
acts at its write-back: x[d] takes the value that it replaces there (log 86). -/
def csrOp (s : State) (fn3 : Nat) (d a : BitVec 5) (c : BitVec 12) (writes : Bool) : Host.Outcome State Fault Refusal :=
  let n := c.toNat
  s.finish (do
    s.checkPorts (if writes then [a] else []) d
    if s.me.user && (csrUser n == 0 || (writes && csrUser n == 1)) then
      stop .ill (wd 0xE8000000 [(d.toNat, 20), (a.toNat, 15), (fn3, 12), (n, 0)])
    else if writes then .ok (s.atWriteBack { srcs := [a], csr := some ⟨fn3, n, s.rx a, d.toNat⟩ })
    else .ok (s.done 8 { writes := [(d.toNat, csrGet s s.rank s.berth n)] }))
/-- CSRR (R295). -/
def execCsrr (d : BitVec 5) (c : BitVec 12) (s : State) : Host.Outcome State Fault Refusal := csrOp s 1 d 0 c false
/-- CSRW (R295). -/
def execCsrw (d a : BitVec 5) (c : BitVec 12) (s : State) : Host.Outcome State Fault Refusal := csrOp s 2 d a c true
/-- CSRS (R295): a = x0 writes nothing. -/
def execCsrs (d a : BitVec 5) (c : BitVec 12) (s : State) : Host.Outcome State Fault Refusal := csrOp s 3 d a c (a != 0)
/-- CSRC (R295). -/
def execCsrc (d a : BitVec 5) (c : BitVec 12) (s : State) : Host.Outcome State Fault Refusal := csrOp s 4 d a c (a != 0)

/-! ### Replies (R20) -/

/-- A CSR write at its write-back: the new value from the one that it replaces, which x[d] takes; of ECCCNT the events of this
cycle count after the write (R295, R344). -/
def writeCsr (w : CsrWrite) (s : State) : State :=
  let old := if w.num = 0x106 then eccBefore s.cycle s.myCore else csrGet s s.rank s.berth w.num
  (s.csrPut s.rank s.berth w.num (csrNew w.fn3 old w.val)).wx (BitVec.ofNat 5 w.d) old
/-- What a reply does for BORROW, for a CSR write and for BROT, at write-back (R97, R101, R137, R172, R295). -/
def actLate (q : Reply) (s : State) : State :=
  let t := match q.borrow with | some (d, req) => claimFile (BitVec.ofNat 5 d) req s | none => s
  let u := match q.csr with | some w => writeCsr w t | none => t
  if q.brot then swapHalves u u.rank else u
/-- The outbound port a reply pushes onto. -/
def pushPort (q : Reply) : Option (BitVec 5) :=
  ((q.writes.map Prod.fst ++ (q.borrow.map Prod.fst).toList ++ (q.csr.map CsrWrite.d).toList).find? fun d => decide (24 ≤ d)).map
    fun d => BitVec.ofNat 5 d
/-- The last cycle of an instruction that waited: what the reply brings is written, and the berth, or the buffer, goes on. -/
def finishReply (w : Wait) (q : Reply) (t : State) : State :=
  let t1 := (actLate q t).put q
  let t2 := match q.pc with | some a => t1.jump a | none => t1.next
  match w.issued.acc with | some n => t2.freeAcc t.rank n | none => t2
/-- The reply stands again in the agenda, for `delay` cycles from now: its instruction waits for a release (R179). -/
def replyAgain (t : State) (q : Reply) (delay : Nat) : State :=
  (t.modMyWait fun w => { w with why := .slow }).reply t.rank t.slot q delay
/-- A reply for the executing instruction. One that pushes looks at its port again: a port freed meanwhile traps CHAN (R210);
and the core's release goes before its entry (R179). -/
def takeReply (w : Wait) (q : Reply) (t : State) : State :=
  match q.trap with
  | some (c, v) => t.trapNow c v
  | none =>
    if q.refetch then t.modMe fun x => { x with wait := none, readyAt := t.cycle + 1 }
    else if q.again then
      (t.put q).modMyWait fun w => { w with hold := false, acked := true, reply := none }
    else match pushPort q with
      | none => finishReply w q t
      | some d =>
        match t.checkFreed d with
        | some c => t.trapNow .chan c
        | none =>
          if q.cleaned then finishReply w q t
          else if t.cycle < t.myCore.relEnd then replyAgain t q (t.myCore.relEnd - t.cycle)
          else
            let u := t.release t.rank
            if u.myCore.relEnd ≤ t.cycle then finishReply w q u else replyAgain u { q with cleaned := true } (u.myCore.relEnd - t.cycle)
/-- REPLY_ARRIVAL (R20): the reply writes its registers in this cycle, and the berth rejoins in the next one; berth 16 stands
for the core's repetition buffer. A drowsy file is first woken, for 3 cycles (R32). A reply of the cycle before counts as of
then (R140). -/
def execReplyArrival (r b : Nat) (s : State) : Host.Outcome State Fault Refusal :=
  let t : State := if b = 16 then { s with rank := r, berth := (match (s.core r).buffer with | some q => q.owner | none => 0), buffered := true }
    else s.as r b
  match t.myWait with
  | none => .next s
  | some w => match w.reply with
    | none => .next s
    | some q =>
      if t.me.drowsy then .next ((t.modMe fun k => { k with drowsy := false, lastIssue := s.cycle }).back s |>.later 3 (.replyArrival r b))
      else
        let u := takeReply w q (if q.past then { t with cycle := s.cycle - 1 } else t)
        .next (({ u with cycle := s.cycle } : State).back s)

/-- TIMECMP_WRITE (R292). -/
def execTimecmpWrite (r : Nat) (v : BitVec 64) (s : State) : Host.Outcome State Fault Refusal := .next (s.csrPut r 0 0x102 v)
/-- CORECFG_WRITE (R31). -/
def execCorecfgWrite (r : Nat) (v : BitVec 64) (s : State) : Host.Outcome State Fault Refusal := .next (s.csrPut r 0 0x101 v)
/-- BASCFG_WRITE (R172). -/
def execBascfgWrite (r : Nat) (v : BitVec 64) (s : State) : Host.Outcome State Fault Refusal := .next (s.csrPut r 0 0x10A v)
/-- HQCTL_WRITE (R147): CAP, only while RESID is 0. -/
def execHqctlWrite (r : Nat) (v : BitVec 64) (s : State) : Host.Outcome State Fault Refusal :=
  .next (s.writeByte (.clm r 0x5800) (v.setWidth 8))

/-- Whether a bank's switch has run its 128 cycles. -/
def switchDue (s : State) (cl n : Nat) : Bool := match (s.bankOf cl n).next with | some (_, t) => decide (t ≤ s.cycle) | none => false
/-- The bytes, full bits and poison of a bank are gone (R172). -/
def clearBank (s : State) (cl n : Nat) : State :=
  let lo := (Loc.basin cl (n * 131072)).key
  let inK (k : Nat) : Bool := decide (lo ≤ k ∧ k < lo + 131072)
  { s with basin := s.basin.filter fun e => !inK e.1, full := s.full.filter fun u => !inK (8 * u), poison := s.poison.filter fun u => !inK (8 * u) }
/-- BASIN_SWITCH_DONE (R172): the new mode holds; after a switch into SCRATCH the contents are undefined, every word
empty. A mode written meanwhile starts a second switch. -/
def execBasinSwitchDone (cl bank : Nat) (s : State) : Host.Outcome State Fault Refusal :=
  if !switchDue s cl bank then .next s
  else
    let b := s.bankOf cl bank
    match b.next with
    | none => .next s
    | some (m, _) =>
      let t := (clearBank s cl bank).modBank cl bank fun b => { b with mode := m, next := none, again := none, fifo := [], epoch := s.free }
      .next (match b.again with
        | some m2 => if m2 = m then t.fresh else t.fresh.startSwitch cl bank m2
        | none => t.fresh)

def sortDue (s : State) (r t : Nat) : Bool :=
  let c := s.core r
  let d := if t = 0 then c.sort0 else c.sort1
  d != 0 && decide (d ≤ s.cycle)
/-- DTAB_SORT_DONE (R61). -/
def execDtabSortDone (r t : Nat) (s : State) : Host.Outcome State Fault Refusal :=
  .next (if sortDue s r t then s.modCore r fun c => if t = 0 then { c with sort0 := 0 } else { c with sort1 := 0 } else s)

/-! ### System instructions (R296 to R299) -/

/-- The executing berth is to halt where it stands, at this instruction's write-back (R16, R34). -/
def State.halting (s : State) : State :=
  let at_ := s.readyAfter 8
  s.modMe fun b => { b with halt := .asked, wait := none, readyAt := Nat.max b.readyAt at_ }

/-- ECALL (R296). -/
def execEcall (s : State) : Host.Outcome State Fault Refusal := s.finish (stop .ecall 0)
/-- EBREAK (R296, R301): with DBGCTL.BRKH the berth halts at it instead. -/
def execEbreak (s : State) : Host.Outcome State Fault Refusal :=
  s.finish (if bit s.myCore.dbgctl 33 then gone s.halting else stop .brk 0)
/-- ISYNC (R299). -/
def execIsync (s : State) : Host.Outcome State Fault Refusal := s.finish (.ok ((s.modMyCore fun c => { c with icache := [] }).next))

/-- An interrupt is pending for berth b (R287). -/
def intPending (k : Berth) : Bool := k.pDebug || k.pPreempt || k.pTimer
/-- WFI (R298). -/
def execWfi (s : State) : Host.Outcome State Fault Refusal :=
  s.finish (if s.me.user then stop .ill 0xEA000003 else if intPending s.me then .ok s.next else waitFor .wfi)

namespace State
/-- A berth that a restore started has executed TRET or PSPILL V; with the last of them the restore ends (R305). -/
def endPart (s : State) (r b : Nat) : State :=
  if !(s.berthAt r b).started then s
  else
    let t := s.modBerth r b fun k => { k with started := false }
    if (t.core r).berths.toList.any Berth.started then t
    else t.modCore r fun c => { c with pre := match c.pre with | .restoring => .none | .starting => .stopped | x => x }
/-- The executing barge as an accessor in a given mode (R292). -/
def whoMode (s : State) (user : Bool) : Who := ({ (s.modMe fun b => { b with tstat := setBit b.tstat 0 (!user) }) with rank := s.rank } : State).who
end State

/-- The block TRET resumes (R297): its RPT word is read again and checked. A record with RK above the word's CNT, or RIDX
above its LEN, names no word of the block, and the spec says nothing of it: ILL, with the RPT word (DESIGN CHOICE, log 30).
The block ends with the mooring that RKM records, also where the handler has borrowed a file meanwhile (DESIGN CHOICE,
log 82). -/
def tretBlock (s : State) (dec : Bool) : Run Block := do
  let t := s.me.tstat
  let idx := fld t 10 2
  let k := fld t 12 8
  let w := s.whoMode (!bit t 1)
  let base := (s.me.tpc &&& 0x000FFFFFFFFFFFFC) - w64 (4 * (idx + 1))
  let rw ← codeWord s w base
  let bad : Run Block := stop .ill (rw.setWidth 64)
  let go (n : BitVec 8) (l : BitVec 2) (sc : BitVec 1) (m : BitVec 12) : Run Block :=
    if n.toNat < k ∨ l.toNat < idx then bad
    else captureBlock s w base rw dec n.toNat l.toNat sc.toNat m.toNat k idx (bit t 6)
  if rptForm rw.toNat = some dec then go (rw.extractLsb' 17 8) (rw.extractLsb' 15 2) (rw.extractLsb' 13 1) (rw.extractLsb' 0 12)
  else bad

/-- TRET (R297). -/
def execTret (s : State) : Host.Outcome State Fault Refusal :=
  let t := s.me.tstat
  let back (u : State) : State := (u.modMe fun b => { b with tstat := tretTstat t }).endPart s.rank s.berth
  s.finish (
    if s.me.user then stop .ill 0xEA000002
    else if fld t 8 2 = 1 then do
      let b ← tretBlock s false
      .ok ((back s).modMe (fun k => { k with rpt := some b, moored := true }) |>.jump (wordAt b b.idx))
    else if fld t 8 2 = 2 then do
      let b ← tretBlock s true
      if s.myCore.buffer.isSome then waitFor .board
      else .ok (((back s).modMyCore fun c => { c with buffer := some ⟨s.berth, s.startAt, b, none, 0⟩ }).jump s.me.tscr)
    else .ok ((back s).jump s.me.tpc))

/-! ### Interrupts and BUDGET (R285 to R288, R292) -/

/-- Whether berth k counts its budget (R288). -/
def counting (k : Berth) : Bool := k.hdr.isSome && k.user && bit k.tstat 5
def budgetDue (s : State) (r b : Nat) : Bool := let k := s.berthAt r b; counting k && k.budget == 0 && !k.pBudget
/-- BUDGET_EXPIRY (R288). -/
def execBudgetExpiry (r b : Nat) (s : State) : Host.Outcome State Fault Refusal :=
  .next (if budgetDue s r b then s.modBerth r b fun k => { k with pBudget := true } else s)
def timerBerth (c : Core) : Nat := fld c.timecmp 48 4
def timerDue (s : State) (r : Nat) : Bool :=
  let c := s.core r
  bit c.timecmp 63 && decide (fld c.timecmp 0 48 ≤ s.cycle % 2 ^ 48) && !(c.berth (timerBerth c)).pTimer
/-- TIMER_EXPIRY (R292). -/
def execTimerExpiry (r : Nat) (s : State) : Host.Outcome State Fault Refusal :=
  .next (if timerDue s r then s.modBerth r (timerBerth (s.core r)) fun k => { k with pTimer := true } else s)

/-- Whether the matrix unit starts no further step of its queue (R302). -/
def unitStopped (c : Core) : Bool :=
  match c.mq with
  | [] => false
  | m :: _ => m.due == 0 && !mmaMayStart c c.mq
/-- The waits of R186, not yet served; `pre` adds those PREEMPT withdraws: a BROT, and what waits for a step that the
matrix unit leaves unrun (R302). -/
def withdrawable (c : Core) (k : Berth) (pre : Bool) : Bool :=
  match k.wait with
  | none => true
  | some w => w.reply.isNone && (match w.why with
    | .full _ | .fifo _ _ _ | .chan _ | .barrier _ _ | .await | .slot _ => true
    | .brot => pre
    | .work | .mma _ _ _ | .fill _ => pre && !w.hold && unitStopped c
    | _ => false)
/-- What berth b of core r takes at its next boundary (R287); PREEMPT only after its block in the buffer has drained
(R95), TIMER only while it holds a barge (R292). -/
def pendingOf (s : State) (r b : Nat) : Option Cause :=
  let k := s.berthAt r b
  let ie := bit k.tstat 2
  if k.pBudget && counting k && k.budget == 0 then some .budget
  else if ie && k.pDebug then some .debug
  else if ie && k.pPreempt && !s.inBuffer r b then some .preempt
  else if ie && k.pTimer && k.hdr.isSome then some .timer
  else none
/-- Berth b of core r stands at an instruction boundary, or waits where the wait can be withdrawn. -/
def atBoundary (s : State) (r b : Nat) (free : Berth → Bool) : Bool :=
  let k := s.berthAt r b
  (k.hdr.isSome || k.started) && k.lent.isNone && k.halt != .halted && decide (k.readyAt ≤ s.cycle) && free k
/-- A berth that waits for the repetition buffer (R95): the buffer's trap ends that wait (log 71). -/
def forBuffer (k : Berth) : Bool := match k.wait with | some w => w.why == .board | none => false
/-- What an entry at berth b of core r delivers now, if anything: the buffer's trap first, then R287's order. -/
def entryDue (s : State) (r b : Nat) : Option Cause :=
  let k := s.berthAt r b
  match k.bufTrap with
  | some t => if atBoundary s r b (fun k => withdrawable (s.core r) k false || forBuffer k) then some t.cause else none
  | none => match pendingOf s r b with
    | some c => if k.halt == .no && atBoundary s r b (fun k => withdrawable (s.core r) k (c == .preempt)) then some c else none
    | none => none
/-- Withdraws a wait at an entry or a halt (R186, R302): a barrier's arrival is subtracted, a BROT's request is taken
back, or its running send leaves SDONE. -/
def withdraw (s : State) (r b : Nat) : State :=
  let k := s.berthAt r b
  let t := match k.wait with
    | some w => (match w.why with
      | .barrier cl id => withdrawBarrier s cl id r b
      | .brot => (match (s.core r).brot with
          | some q => if q.berth == b && !q.buffered then closeBrot s r else s
          | none => s)
      | _ => s)
    | none => s
  (t.modBerth r b fun k => { k with wait := none }).drainAfter r k.wait
/-- The lowest enabled berth that is not BORROWED (R302). -/
def leadBerth (c : Core) : Option Nat := (upTo 16).find? fun b => c.enabled b && (c.berth b).lent.isNone
/-- INTERRUPT_ENTRY (R285, R287): the first of what is pending. TSTAT has one block record: a trap of the repetition buffer
that its owner takes inside a coupled block records the buffer's word, TSCR the coupled block's next word, and that
block's position is lost; an instruction that waits for the buffer is withdrawn (DESIGN CHOICE, log 71). -/
def execInterruptEntry (r b : Nat) (s : State) : Host.Outcome State Fault Refusal :=
  match entryDue s r b with
  | none => .next s
  | some c =>
    let u := (withdraw s r b).as r b
    let k := u.me
    let pc := k.pc
    let (rpts, kk, idx, rkm) := match k.rpt with
      | some q => (1, q.k, q.idx, q.keep)
      | none => (0, 0, 0, false)
    .next ((match k.bufTrap with
      | some t =>
        ((u.modMe fun k => { k with tscr := pc, bufTrap := none }).enter t.cause t.tval t.addr 2 t.k t.idx rkm)
      | none =>
        let v : Word := if c == Cause.preempt then k.preTval else if c == Cause.timer then w64 s.cycle else 0
        (u.modMe fun k => { k with
          pBudget := if c == Cause.budget then false else k.pBudget
          pDebug := if c == Cause.debug then false else k.pDebug
          pPreempt := if c == Cause.preempt then false else k.pPreempt
          pTimer := if c == Cause.timer then false else k.pTimer }).enter c v pc rpts kk idx rkm).back s)

/-! ### Words that are no instruction, faulting fetches, drowsy files -/

/-- ILLEGAL_INSTRUCTION (R46). -/
def execIllegalInstruction (w : BitVec 32) (s : State) : Host.Outcome State Fault Refusal := s.finish (stop .ill (w.setWidth 64))
/-- FETCH_FAULT (R47, R380): the first fetch after an entry halts the berth instead. -/
def execFetchFault (va : BitVec 64) (s : State) : Host.Outcome State Fault Refusal :=
  if s.me.entry then .next s.halting
  else s.finish (stop .fetch va)

def drowseDue (s : State) (r b : Nat) : Bool :=
  let c := s.core r
  let k := c.berth b
  !bit c.corecfg 16 && !k.drowsy && decide (1024 < s.cycle - k.lastIssue) && (c.enabled b || k.hdr.isSome || k.lent.isSome)
/-- REGISTER_FILE_DROWSE (R32). -/
def execRegisterFileDrowse (r b : Nat) (s : State) : Host.Outcome State Fault Refusal :=
  .next (if drowseDue s r b then s.modBerth r b fun k => { k with drowsy := true } else s)

/-! ### The debugger (R34, R35, R300, R301) -/

/-- DEBUG_HALT (R301): a halt, or the DEBUG interrupt when TRAPD is set. -/
def execDebugHalt (r : Nat) (m : BitVec 16) (s : State) : Host.Outcome State Fault Refusal :=
  let trapd := bit (s.core r).dbgctl 32
  let t := s.modCore r fun c => { c with dbgctl := c.dbgctl ||| m.setWidth 64 }
  .next (iter (fun b u =>
    if m.getLsbD b then u.modBerth r b fun k =>
      if trapd then { k with pDebug := true } else if k.halt = .no then { k with halt := .asked } else k
    else u) 16 t)
/-- DEBUG_RESUME (R301): the berth issues from its PC. -/
def execDebugResume (r : Nat) (m : BitVec 16) (s : State) : Host.Outcome State Fault Refusal :=
  let t := s.modCore r fun c => { c with dbgctl := c.dbgctl &&& ~~~(m.setWidth 64) }
  .next (iter (fun b u => if m.getLsbD b then u.modBerth r b fun k => { k with halt := .no } else u) 16 t)

/-- Whether berth b of core r halts now (R34): at a boundary, its block drained, the MMA steps into its accumulators done. -/
def haltDue (s : State) (r b : Nat) : Bool :=
  let c := s.core r
  let k := c.berth b
  k.halt == .asked && (k.hdr.isSome || k.started) && decide (k.readyAt ≤ s.cycle) && k.bufTrap.isNone
    && (withdrawable c k false || (match k.wait with | some w => w.why == .wfi | none => true))
    && !s.inBuffer r b && !(c.mq.any fun m => (c.acc m.acc).owner == some b)
/-- BERTH_HALTED (R34, R186). -/
def execBerthHalted (r b : Nat) (s : State) : Host.Outcome State Fault Refusal :=
  .next (if haltDue s r b then (withdraw s r b).modBerth r b fun k => { k with halt := .halted } else s)

/-- DBGSTAT.BSTATES (R300). -/
def bstates (s : State) (r : Nat) : Word := w64 ((upTo 16).foldl (fun n b => n + stateCode s r b * 2 ^ (3 * b)) 0)
/-- What the selection reads; a gated berth's registers read 0 (R33, R35, R300). -/
def debugValue (s : State) (r : Nat) : Word :=
  let sel := (s.core r).dbgsel
  let b := fld sel 8 4
  let n := fld sel 0 5
  let k := s.berthAt r b
  if stateCode s r b = 6 then 0
  else match fld sel 5 3 with
    | 0 => if n = 0 ∨ 24 ≤ n then 0 else vget k.x n 0
    | 1 => (vget k.f n 0).setWidth 64
    | 2 => (lane (vget k.v (s.core r).dbgv 0) n).setWidth 64
    | 3 => (k.p ||| 1).setWidth 64
    | 4 => k.pc
    | 5 => if n ≤ 9 then csrGet s r b n else 0
    | _ => 0
/-- The selected berth's file is awake for the debugger: a drowsy one takes 3 cycles, and its berth issues nothing before
(R32). A gated berth has no file to wake (R33). -/
def debugWake (s : State) (r : Nat) : State :=
  let sel := (s.core r).dbgsel
  let b := fld sel 8 4
  if stateCode s r b = 6 ∨ 4 ≤ fld sel 5 3 then s
  else s.modBerth r b fun k =>
    if k.drowsy then { k with drowsy := false, lastIssue := s.cycle, fileAt := s.cycle + 3 } else k
/-- A read of DATA: the file is woken, and the value that the read returns after the wake (R32, R35, R300). The v register of a lane is the one that DATA[35:32]
last wrote (log 72). -/
def debugRead (s : State) (r : Nat) : State × Word := (debugWake s r, debugValue s r)
/-- DEBUG_DATA_WRITE (R35, R300): the selected register of a halted berth; x0, p0 and the port registers stay. A berth whose
PC is written issues from it: a coupled block it stood in is over (R301). The write of a drowsy file completes after its wake;
nothing reads the file before. -/
def execDebugDataWrite (r : Nat) (v : BitVec 64) (s : State) : Host.Outcome State Fault Refusal :=
  let sel := (s.core r).dbgsel
  let b := fld sel 8 4
  let n := fld sel 0 5
  let s0 := s.modCore r fun c => { c with dbgv := fld v 32 4 }
  if stateCode s r b ≠ 4 then .next s0
  else
    let t := debugWake s0 r
    .next (match fld sel 5 3 with
      | 0 => if n = 0 ∨ 24 ≤ n then t else t.modBerth r b fun k => { k with x := vset k.x n v }
      | 1 => t.modBerth r b fun k => { k with f := vset k.f n (v.setWidth 32) }
      | 2 => t.modBerth r b fun k =>
          let i := fld v 32 4
          { k with v := vset k.v i (ofLanes fun j => if j = n then v.setWidth 32 else lane (vget k.v i 0) j) }
      | 3 => t.modBerth r b fun k => { k with p := v.setWidth 32 ||| 1 }
      | 4 => t.modBerth r b fun k => { k with pc := v &&& pcMask, rpt := none }
      | 5 => if n ≤ 9 then t.csrPut r b n v else t
      | _ => t)

end Sys2Proof.Machine
end

