-- ==== Sys2Proof/Machine/Lockhouse.lean ====
section
/-!
DEFINITION. The lockhouse at work: jobs and launches (R262 to R270), the job queue and contexts (R271, R272), LNCH and
LCANCEL (R309), quiescence (R164), shootdowns (R277), the host's window (R273) and held messages (R266).
-/
namespace Sys2Proof.Machine
open State

/-! ### Device memory as the lockhouse and the host see it -/

/-- n bytes at the LLC; outside HBM they read all ones, and writes are discarded (R273). -/
def llcGet (s : State) (pa n : Nat) : Nat := if pa + n ≤ 2 ^ 39 then s.readN (.hbm pa) n else 2 ^ (8 * n) - 1
def llcPut (s : State) (pa n v : Nat) : State := if pa + n ≤ 2 ^ 39 then s.storeAt (.hbm pa) n v else s
/-- Whether some unit of n bytes of HBM is poisoned. What the lockhouse does with a poisoned job record, descriptor or record of
one, the spec does not say: see the readers (R339; DESIGN CHOICE, log 81). -/
def llcPoison (s : State) (pa n : Nat) : Bool := decide (pa + n ≤ 2 ^ 39) && s.anyPoison (.hbm pa) n
/-- The lockhouse's own translation of a virtual address of a launch's context: the leaf and the byte's place, on this device or,
over a link that is up, on another one of the launch's group (R282 to R284). -/
def lhPa (s : State) (l : Launch) (va : Nat) : Option (Word × Nat) :=
  if 13 * 2 ^ 48 ≤ va then none
  else match s.walk l.asid va with
    | some (p, big, _) =>
      let pa := leafPa big p va
      if (pteRmt p && (s.lock.links == 0 || !l.devs.contains (fld p 51 12))) || !paOk pa then none else some (p, pa)
    | none => none
/-- n bytes at a virtual address, if every one is mapped. -/
def lhGet (s : State) (l : Launch) (va : Nat) : Nat → Option Nat
  | 0 => some 0
  | n + 1 =>
    match lhGet s l va n, lhPa s l (va + n) with
    | some lo, some (_, pa) => some (lo + (s.readByte (.hbm pa)).toNat * 256 ^ n)
    | _, _ => none
/-- Whether an 8-byte unit at a virtual address is poisoned. -/
def lhPoison (s : State) (l : Launch) (va : Nat) : Bool := match lhPa s l va with | some (_, pa) => s.poisoned (.hbm pa) | none => false
/-- Whether each of n 64 KiB granules from an address has a leaf with property p. -/
def granules (s : State) (l : Launch) (va : Nat) (p : Word → Bool) : Nat → Bool
  | 0 => true
  | n + 1 => granules s l va p n && (match lhPa s l (va + 65536 * n) with | some (e, _) => p e | none => false)

/-! ### Launch descriptors (R262) -/

/-- The descriptor at a physical address, as launch number 0 of a job; it has no field for the launch's device group (R284,
log 18). -/
def descOf (s : State) (job pa : Nat) : Launch :=
  let f (off n : Nat) : Nat := llcGet s (pa + off) n
  ⟨0, job, pa, f 20 1, f 21 1 % 4, f 22 1 % 2 == 1, f 24 1, f 25 1, f 26 1 + 1, f 27 1 + 1, w64 (f 0 8), w64 (f 8 8),
    f 16 2, f 28 2, f 30 2, w64 (f 32 8), w64 (f 64 8), 0, s.cycle, none, s.cycle, false, [],
    Config.deviceGroup pa⟩
namespace Launch
def cores (l : Launch) : Nat := l.rows * l.cols
def rankAt (l : Launch) (i : Nat) : Nat := (l.row0 + i / l.cols) * 96 + l.col0 + i % l.cols
/-- The clusters the rectangle meets. -/
def clusters (l : Launch) : List Nat := (l.ranks.map clusterOf).eraseDups
end Launch

/-- A root record: entry, row, column, x3 to x5. -/
structure Root where
  entry : Nat
  row : Nat
  col : Nat
  x3 : Nat
  x4 : Nat
  x5 : Nat
deriving DecidableEq, Repr
/-- A net image record: a node slot of a core, or, with dword bit 32 set, a 64-byte block of its CLM (R366); and which of
its eight words are poisoned (R339). -/
structure ImgRec where
  clm : Bool
  idx : Nat
  slot : Nat
  words : List Nat
  pois : List Bool
deriving DecidableEq, Repr

/-- A record whose words tell the lockhouse what to do is none where they are poisoned. -/
def rootAt (s : State) (l : Launch) (va : Nat) : Option Root :=
  if (upTo 4).any fun i => lhPoison s l (va + 8 * i) then none
  else match lhGet s l va 32 with
  | some v => some ⟨v % 2 ^ 32, v / 2 ^ 32 % 256, v / 2 ^ 40 % 256, v / 2 ^ 64 % 2 ^ 64, v / 2 ^ 128 % 2 ^ 64, v / 2 ^ 192⟩
  | none => none
def imgAt (s : State) (l : Launch) (va : Nat) : Option ImgRec :=
  if lhPoison s l va then none
  else match lhGet s l va 72 with
  | some v => some ⟨v / 2 ^ 32 % 2 == 1, v % 2 ^ 16, v / 2 ^ 16 % 2 ^ 16, (upTo 8).map fun i => v / 2 ^ (64 * (i + 1)) % 2 ^ 64,
      (upTo 8).map fun i => lhPoison s l (va + 8 * (i + 1))⟩
  | none => none
/-- n records from an address. -/
def records {α : Type} (f : Nat → Option α) (va size : Nat) : Nat → Option (List α)
  | 0 => some []
  | n + 1 => match records f va size n, f (va + size * n) with
    | some l, some a => some (l ++ [a])
    | _, _ => none
def rootsOf (s : State) (l : Launch) : Option (List Root) :=
  records (rootAt s l) (llcGet s (l.desc + 56) 8) 32 (llcGet s (l.desc + 52) 4)
def imageOf (s : State) (l : Launch) : Option (List ImgRec) :=
  let va := llcGet s (l.desc + 40) 8
  records (imgAt s l) va 72 (if va = 0 then 0 else llcGet s (l.desc + 48) 4)

/-! ### Admission (R263, R357) -/

/-- A port word of an image record: well formed, no link sequence in progress, and an index of the rectangle. -/
def imgPortOk (l : Launch) (v : Nat) : Bool :=
  let w := w64 v
  !badWord w && portTag w != 5 && portTag w != 6 && (!(portTag w == 1 || portTag w == 2) || decide (fld w 17 14 < l.cores))
/-- What admission asks of an image record; a poisoned header or port word is malformed (R343, log 81). -/
def imgOk (l : Launch) (r : ImgRec) : Bool :=
  decide (r.idx < l.cores) &&
    (if r.clm then decide (0x8000 + 64 * r.slot + 64 ≤ 0x20000)
     else decide (r.slot < l.nsslots) && !(r.pois.take 5).contains true && (upTo 4).all fun k => imgPortOk l (r.words[k + 1]?.getD 0))
/-- A rank marked invalid because no spare was left (R351). -/
def rankGone (s : State) (cl : Nat) : Bool := match alGet s.lock.ranks cl with | some e => !e.valid | none => false
def rectOk (s : State) (l : Launch) : Bool :=
  decide (l.row0 + l.rows ≤ 96 ∧ l.col0 + l.cols ≤ 96) && l.clusters.all fun cl => !rankGone s cl
/-- The first check of R263 that fails, in the table's order; 0 when all hold. A descriptor with a poisoned unit fails the first
one (log 81). -/
def admitCode (s : State) (l : Launch) : Nat :=
  let steady := (match lhPa s l l.rules.toNat with | some (p, _) => pteStdy p | none => false)
  if llcPoison s l.desc 128 || !rectOk s l then 1
  else if !(if l.rules = 0 then l.k == 0 else decide (2 ≤ l.k ∧ l.k ≤ 4093) && steady) then 2
  else if l.nsslots = 0 ∨ 1536 < l.nsslots ∨ 64 * l.nsoff < 0x8000 ∨ 0x20000 < 64 * (l.nsoff + l.nsslots) then 3
  else if !(s.ctx l.asid).getLsbD 63 then 4
  else if !granules s l l.code.toNat pteX 1 then 5
  else if !(match rootsOf s l, imageOf s l with
      | some rs, some is => (rs.all fun r => decide (r.row < l.rows ∧ r.col < l.cols)) && is.all (imgOk l)
      | _, _ => false) then 6
  else if !granules s l l.area.toNat (fun p => pteW p && !pteStdy p) (36 * l.cores) then 7
  else 0

/-- What keeps a launch PENDING: a cluster not ready (R357), or a net store that meets a live launch's (R263). -/
def admitWaits (s : State) (l : Launch) : Bool :=
  (l.clusters.any fun cl => !s.lock.ready.contains cl) ||
  s.launches.any fun o => o.live && decide (l.nsoff < o.nsoff + o.nsslots ∧ o.nsoff < l.nsoff + l.nsslots) && l.ranks.any o.inRect

/-- The job whose next launch may be admitted now (R270). -/
def admitDue (s : State) (id : Nat) : Option (Job × Launch) :=
  match s.lock.jobs.find? fun j => j.id == id with
  | none => none
  | some j =>
    if j.nl ≤ j.next then none
    else
      let l := descOf s id (j.pa + 64 + 128 * j.next)
      let free := j.next == 0 || l.conc || (match (s.launches.filter fun o => o.job == id).getLast? with
        | some o => !o.live
        | none => true)
      if !free then none
      else if admitCode s l = 0 ∧ admitWaits s l then none
      else some (j, l)

/-! ### Final states (R267, R269, R270) -/

/-- The launch STATUS word. -/
def statusWord (cyc fail state : Nat) : Nat := Nat.min cyc 0xFFFFFFFF * 2 ^ 32 + fail * 65536 + state
/-- The end of a job whose launches are all final: JSTAT, then the MSI-X message. -/
def jobEnd (s : State) (id : Nat) : State :=
  match s.lock.jobs.find? fun j => j.id == id with
  | none => s
  | some j =>
    let ls := s.launches.filter fun l => l.job == id
    if j.next < j.nl ∨ ls.any Launch.live then s
    else
      let st := match ls.find? fun l => l.state != 2 with | some l => l.state | none => 2
      let t := llcPut s j.pa 8 (ls.length * 256 + st)
      let u := { t with
        launches := t.launches.filter fun l => l.job != id
        lock := { t.lock with jobs := t.lock.jobs.filter fun k => k.id != id } }
      if j.noirq then u else u.out (.msix j.vec)
/-- A live launch reaches its final state: its pools, counts and staircase slots go. -/
def endLaunch (s : State) (lid st : Nat) : State :=
  match s.launch lid with
  | none => s
  | some l =>
    let s1 := llcPut s (l.desc + 120) 8 (statusWord (s.cycle - l.start) 0 st)
    let s2 := s1.modLaunch lid fun l => { l with state := st, pass := none, parked := [] }
    let s3 := l.ranks.foldl (fun t r => t.modCore r fun c =>
      { c with pools := c.pools.filter fun p => p.lid != lid, counts := c.counts.filter fun k => k.lid != lid }) s2
    jobEnd { s3 with clusters := s3.clusters.map fun e => (e.1, closeLaunchStair e.2 lid) } l.job

/-! ### Shootdowns (R277) -/

/-- Whether a page meets a range. -/
def meets (range : Option (Nat × Nat)) (page size : Nat) : Bool :=
  match range with
  | none => true
  | some (va, len) => decide (0 < len ∧ va < page + size ∧ page < va + len)
/-- Whether an L1 line's page meets a range. -/
def lineMeets (range : Option (Nat × Nat)) (l : Line) : Bool :=
  let va := l.va * 1024
  if l.big then meets range (va / 2 ^ 28 * 2 ^ 28) (2 ^ 28) else meets range (va / 65536 * 65536) 65536
/-- The waits of a core without the translations that a shootdown meets (log 85). -/
def forgetXl (entry : TlbEnt → Bool) (c : Core) : Core :=
  let f (w : Wait) : Wait := { w with issued := { w.issued with xl := w.issued.xl.filter fun e => !entry e } }
  { c with berths := c.berths.map fun b => { b with wait := b.wait.map f }, buffer := c.buffer.map fun q => { q with wait := q.wait.map f } }
/-- Every unit drops its matching entries, with what they have given waiting instructions; every core cleans and invalidates
its matching lines; a matching walk's result is discarded. -/
def shoot (s : State) (asid : Option Nat) (range : Option (Nat × Nat)) : State :=
  let same (a : Nat) : Bool := match asid with | some n => a == n | none => true
  let entry (e : TlbEnt) : Bool :=
    same e.asid && (if e.big then meets range (e.gran / 4096 * 2 ^ 28) (2 ^ 28) else meets range (e.gran * 65536) 65536)
  let line (l : Line) : Bool := same l.asid && lineMeets range l
  let s1 := { s with clusters := s.clusters.map fun e => (e.1, { e.2 with
    tlb := e.2.tlb.filter fun t => !entry t
    walks := e.2.walks.filter fun w => !(same w.1 && meets range (w.2 * 65536) 65536) }) }
  s.cores.foldl (fun t e =>
    let u := if e.2.waits.any fun w => w.issued.xl.any entry then t.modCore e.1 (forgetXl entry) else t
    if (u.core e.1).l1.any line then
      (((u.core e.1).l1.filter line).foldl cleanLine u).modCore e.1 fun c => { c with l1 := c.l1.filter fun l => !line l }
    else u) s1
/-- A write of TLBINV (R271, R277): RANGE, ALL and ASIDN are kept, and with GO set the shootdown starts. One while GO reads 1
is discarded. -/
def writeTlbinv (s : State) (v : Word) : State :=
  if s.lock.tlbinv.getLsbD 31 then s
  else
    let t := s.withLock fun k => { k with tlbinv := v &&& 0x800003FF }
    if !bit v 31 then t
    else
      let range := if bit v 9 then some (t.lock.tlbva.toNat, t.lock.tlblen.toNat) else none
      (shoot t (if bit v 8 then none else some (fld v 0 8)) range).later 220 .shootdownDone
/-- TLBINV_ASID (R277). -/
def execTlbinvAsid (asid : BitVec 8) (s : State) : Host.Outcome State Fault Refusal :=
  .next (writeTlbinv s (w64 (2 ^ 31 + asid.toNat)))
/-- TLBINV_RANGE (R277): TLBVA and TLBLEN hold the range. -/
def execTlbinvRange (asid : BitVec 8) (va len : BitVec 64) (s : State) : Host.Outcome State Fault Refusal :=
  .next (writeTlbinv (s.withLock fun k => { k with tlbva := va, tlblen := len }) (w64 (2 ^ 31 + 512 + asid.toNat)))
/-- TLBINV_ALL (R277). -/
def execTlbinvAll (s : State) : Host.Outcome State Fault Refusal := .next (writeTlbinv s (w64 (2 ^ 31 + 256)))
/-- SHOOTDOWN_DONE (R277). -/
def execShootdownDone (s : State) : Host.Outcome State Fault Refusal :=
  .next (s.withLock fun k => { k with tlbinv := setBit k.tlbinv 31 false })

/-! ### Admission of a launch (R264) -/

/-- The first of `fuel` LIDs from n on, wrapping from 0xFFFF to 1, that no live launch holds. -/
def lidFrom (s : State) : Nat → Nat → Nat
  | 0, n => n
  | fuel + 1, n =>
    let m := if 65535 < n then 1 else n
    if (s.launch m).isSome then lidFrom s fuel (m + 1) else m
/-- An image word with the rank in place of its index. -/
def placeWord (l : Launch) (w : Word) : Word :=
  (w &&& ~~~(0x7FFE0000 : Word)) ||| w64 (l.rankAt (fld w 17 14) * 131072)
/-- Where an image record goes, and its eight words. -/
def recAddr (l : Launch) (r : ImgRec) : Nat :=
  l.rankAt r.idx * 131072 + (if r.clm then 0x8000 + 64 * r.slot else 64 * (l.nsoff + r.slot))
def recData (l : Launch) (r : ImgRec) (k : Nat) : Word :=
  let w := w64 (r.words[k]?.getD 0)
  if r.clm then w
  else if k = 0 then (w &&& ~~~(0xFFFF0000 : Word)) ||| w64 (l.lid * 65536)
  else if k ≤ 4 ∧ (portTag w = 1 ∨ portTag w = 2) then placeWord l w
  else w
/-- A record's eight words written with their poison and set full (R170, R339). -/
def loadRecord (l : Launch) (s : State) (r : ImgRec) : State :=
  iter (fun k t =>
    let a := recAddr l r + 8 * k
    ((t.netWrite a (recData l r k)).setPoison (netLoc a) (r.pois[k]?.getD false)).setFull (netLoc a) true) 8 s
/-- The launch's pool on a core: the image's slots allocated, the lowest free slot on top (R236, R250). Its first scheduled
audit comes 2^20 cycles after the pool is made, a phase that R239 does not give (DESIGN CHOICE, log 83). -/
def newPool (s : State) (l : Launch) (recs : List ImgRec) (i : Nat) : Pool :=
  let used := (recs.filter fun r => !r.clm && r.idx == i).foldl (fun u r => nsAdd u r.slot) []
  ⟨l.lid, l.nsoff, l.nsslots, freshFree l.nsslots used, used, l.nsslots - used.length, 0, s.cycle + 1048576, 0, 0, false⟩
/-- A core joins the launch: its pool, whose free slots are clear, and its decode tables where no other live launch lies
(R62, R236). What it still holds of steady and instruction lines goes, whatever the ASID they were filled under: the launch reads
what stood in memory when it started (R182, R274, R292, log 74). -/
def joinCore (l : Launch) (recs : List ImgRec) (s : State) (i : Nat) : State :=
  let r := l.rankAt i
  let alone := !(s.launches.any fun o => o.live && o.lid != l.lid && o.inRect r)
  let p := newPool s l recs i
  (p.free.foldl (fun t n => clearSlot t (slotAt p r n)) s).modCore r fun c =>
    let c1 := { c with
      pools := p :: c.pools
      counts := c.counts.filter fun k => k.lid != l.lid
      l1 := c.l1.filter fun o => !o.steady
      icache := [] }
    if alone then { c1 with dt0 := dtabT0, dt1 := dtabT1, sort0 := s.cycle + 256, sort1 := s.cycle + 256 } else c1
/-- The side of a pair that a node makes. -/
def nodeSide (s : State) (a : Nat) : Nat × Nat × Word := (fld (s.netRead a) 52 12, a, w64 (2 ^ 61 + a))
/-- Whether a node's header or its principal port is poisoned: it makes no pair (R343, log 81). -/
def deadNode (s : State) (a : Nat) : Bool := s.poisoned (netLoc a) || s.poisoned (netLoc (a + 8))
/-- The active pair a node record begins, if any; a pair of two nodes begins at the earlier record. -/
def recPair (s : State) (addrs : List Nat) (a : Nat) : Option ((Nat × Nat × Word) × (Nat × Nat × Word)) :=
  let w := s.netRead (a + 8)
  let x := nodeSide s a
  let mate : Option (Nat × Nat × Word) :=
    if portTag w = 3 then some (0xFFD, 0, w)
    else if portTag w = 4 then some (fld w 48 12, 0, w)
    else if portTag w = 1 then
      let b := placeBits w
      let v := s.netRead (b + 8)
      if addrs.contains b ∧ portTag v = 1 ∧ placeBits v = a ∧ addrs.idxOf a ≤ addrs.idxOf b ∧ !deadNode s b then some (nodeSide s b) else none
    else none
  if deadNode s a then none else mate.map fun y => if sideLe x y then (x, y) else (y, x)
/-- The rule entry of a pair, as the lockhouse reads it; a read that faults or meets poison gives none (R225). -/
def lhEntry (s : State) (l : Launch) (x y : Nat × Nat × Word) : Option Word :=
  (ruleAddr l x.1 y.1).bind fun va => match lhPa s l va with
    | some (_, pa) => if s.poisoned (.hbm pa) then none else some (w64 (s.readN (.hbm pa) 4))
    | none => none
/-- The messages held for a rank (R266). -/
def heldFor (s : State) (r : Nat) : List (Nat × Instr) := s.held.filter fun e => e.1 == r
/-- The lockhouse as the sender of a barge, which is no rank. -/
def lockRank : Nat := 9216
/-- A barge of an admitted launch enters the queue of its core; for a core that takes no messages, or behind such, it is held as
any message (R251, R266). -/
def admitBarge (r lid : Nat) (pair : Bool) (pk : Packet) (s : State) : State :=
  if s.rankHeld r || !(heldFor s r).isEmpty then
    let t := s.incSent r lid
    { t with held := t.held ++ [(r, if pair then .pairMessage r ⟨pk, lockRank⟩ else .bargeArrival r ⟨pk, lockRank⟩)] }
  else (s.incLive r lid).enqueue r pk none
/-- The image's pair barges, each at its left node's home. Their order, that of the .wire lines in R251, is that of the
records, since the image keeps no other (DESIGN CHOICE, log 73). -/
def queuePairs (l : Launch) (addrs : List Nat) (s : State) : State :=
  addrs.foldl (fun t a => match recPair s addrs a with
    | some (x, y) =>
      let (pk, r) := pairPacket l (netRank a) x y (lhEntry s l x y)
      admitBarge r l.lid true pk (t.incPend r l.lid)
    | none => t) s
/-- A root barge's packet (R12, R262). -/
def rootPacket (l : Launch) (r : Root) : Packet :=
  let x := vset (vset (vset (Vector.replicate 24 (0 : Word)) 3 (w64 r.x3)) 4 (w64 r.x4)) 5 (w64 r.x5)
  ⟨⟨0, BitVec.ofNat 16 l.lid, BitVec.ofNat 8 l.asid, BitVec.ofNat 2 l.pri, false, .ordinary, false⟩,
    l.code + w64 (4 * r.entry), 1, 0, x, Vector.replicate 16 0, false, false, []⟩
def queueRoots (l : Launch) (rs : List Root) (s : State) : State :=
  rs.foldl (fun t r =>
    let rank := (l.row0 + r.row) * 96 + l.col0 + r.col
    admitBarge rank l.lid false (rootPacket l r) t) s

/-- The launch enters the device: LID, pools and image, queues, RUNNING (R264); the LID of a group launch is the one its
lockhouses agree on (R284). Its clusters' caches keep no line of a page as it was before (R182, R274). -/
def admitLaunch (s : State) (l0 : Launch) : State :=
  let recs := (imageOf s l0).getD []
  let rs := (rootsOf s l0).getD []
  let lid := lidFrom s 65535 (if l0.devs.isEmpty then s.lock.lastLid + 1 else Config.groupLid l0.desc % 65535 + 1)
  let l := { l0 with lid := lid, state := 1, start := s.cycle, nextPass := s.cycle }
  let s1 := llcPut (s.withLock fun k => { k with lastLid := lid }) (l.desc + 18) 2 lid
  let s2 := { s1 with launches := s1.launches ++ [l] }
  let s2 := l.clusters.foldl (fun t cl => t.modCluster cl fun c => { c with bcache := [] }) s2
  let s3 := (upTo l.cores).foldl (joinCore l recs) s2
  let s4 := recs.foldl (loadRecord l) s3
  let s5 := queueRoots l rs (queuePairs l ((recs.filter fun r => !r.clm).map (recAddr l)) s4)
  llcPut s5 (l.desc + 120) 8 1

/-- LAUNCH_ADMISSION (R263, R264, R270, R272): the next launch of a job is admitted, or fails and touches no core. -/
def execLaunchAdmission (job : Nat) (s : State) : Host.Outcome State Fault Refusal :=
  match admitDue s job with
  | none => .next s
  | some (j, l) =>
    let s1 := s.withLock fun k => { k with jobs := k.jobs.map fun x => if x.id == job then { j with next := j.next + 1 } else x }
    let s2 := if s1.lock.needShoot.contains l.asid then
        (shoot s1 (some l.asid) none).withLock fun k => { k with needShoot := nsDel k.needShoot l.asid }
      else s1
    let code := admitCode s2 l
    if code = 0 then .next (admitLaunch s2 l)
    else
      let s3 := llcPut s2 (l.desc + 120) 8 (statusWord 0 code 4)
      .next (jobEnd { s3 with launches := s3.launches ++ [{ l with state := 4 }] } job)

/-! ### Jobs (R269 to R271, R309) -/

/-- JQSIZE is a power of two from 16 to 65,536 (R271). -/
def jqRuns (k : Lock) : Bool := (upTo 13).any fun i => k.jqsize == w64 (2 ^ (i + 4))
/-- The address of a job record whose entry of the ring is poisoned: none. -/
def noRecord : Nat := 2 ^ 64 - 1
/-- The next job record: from the inbox first, then from the ring. -/
def nextRecord (s : State) : Option (Nat × State) :=
  match s.lock.inbox with
  | pa :: rest => some (pa, s.withLock fun k => { k with inbox := rest })
  | [] =>
    let k := s.lock
    if jqRuns k && k.jqhead != k.jqtail then
      let at_ := k.jqbase.toNat / 4096 * 4096 + 8 * (k.jqhead.toNat % k.jqsize.toNat)
      some (if llcPoison s at_ 8 then noRecord else llcGet s at_ 8,
        s.withLock fun k => { k with jqhead := k.jqhead + 1 })
    else none
/-- A job begins when every launch of the previous one has been admitted. -/
def takeDue (s : State) : Bool :=
  s.lock.running && (s.lock.jobs.all fun j => decide (j.nl ≤ j.next)) && (nextRecord s).isSome
/-- JOB_TAKE (R270). A record whose header or whose entry in the ring is poisoned has no launches (log 81). -/
def execJobTake (s : State) : Host.Outcome State Fault Refusal :=
  if !takeDue s then .next s
  else match nextRecord s with
    | none => .next s
    | some (pa, t) =>
      let v := llcGet s (pa + 10) 2
      let j : Job := ⟨t.lock.nextJob, pa, if pa = noRecord ∨ llcPoison s pa 64 then 0 else Nat.min 64 (llcGet s (pa + 8) 2), v % 64, v / 32768 == 1, 0⟩
      .next (jobEnd (t.withLock fun k => { k with jobs := k.jobs ++ [j], nextJob := k.nextJob + 1 }) j.id)
/-- JQTAIL_WRITE (R271). -/
def execJqtailWrite (v : BitVec 64) (s : State) : Host.Outcome State Fault Refusal :=
  .next (if s.lock.jqsize < v - s.lock.jqhead then s else s.withLock fun k => { k with jqtail := v })
/-- LNCH (R309): a release; the job record goes to the lockhouse's inbox of 16, whose answer the berth waits for. -/
def execLnch (d a : BitVec 5) (s : State) : Host.Outcome State Fault Refusal :=
  s.finish (do
    s.checkPorts [a] d
    let pa := s.rx a
    if s.me.user then stop .ill (wd 0xEC000000 [(d.toNat, 20), (a.toNat, 15)])
    else if pa.toNat % 64 ≠ 0 then stop .align pa
    else
      let t ← s.releasing
      let full := decide (16 ≤ t.lock.inbox.length)
      let u := if full then t else t.withLock fun k => { k with inbox := k.inbox ++ [pa.toNat] }
      .ok (u.done 110 { srcs := [a], writes := [(d.toNat, b64 full)] }))

/-! ### Cancelling (R268) -/

/-- Packets of a cancelled launch leave a core's queue and overflow; of a core that a pre-emption has stopped, the saved packets
and the vacated barges are dropped too, and no restore brings them back (R268, R306). -/
def cancelCore (lid : Nat) (s : State) (r : Nat) : State :=
  let c := s.core r
  let mine (pk : Packet) : Bool := pk.hdr.lid.toNat == lid
  let gone := (c.queue.filter fun e => mine e.pk).map QEnt.pk ++ (c.spillq.filter fun e => mine e.1).map Prod.fst ++ c.overq.filter mine
    ++ (c.kept.filterMap id).filterMap fun e => if mine e.pk then some e.pk else none
  let vac := c.vacated.filter fun e => e.2.hdr.lid.toNat == lid
  if gone.isEmpty && vac.isEmpty then s
  else
    let s1 := s.modCore r fun c => { c with
      queue := c.queue.filter fun e => !mine e.pk
      spillq := c.spillq.filter fun e => !mine e.1
      overq := c.overq.filter fun e => !mine e
      kept := c.kept.map fun e => e.filter fun e => !mine e.pk
      vacated := c.vacated.filter fun e => e.2.hdr.lid.toNat != lid }
    let s2 := gone.foldl (fun t pk => (if pk.pend then t.decPend r lid else t).decLive r lid) s1
    vac.foldl (fun t _ => t.decLive r lid) s2
def cancelSlu (lid : Nat) (c : Cluster) : Cluster :=
  { c with slu := c.slu.map fun e => if e.2.lid == lid && !sluFinal e.2 then (e.1, { e.2 with st := .cancelled }) else e }
/-- A live launch is cancelled: its waiting barges go, its commands stop; those in berths go at their next boundary. -/
def cancelLaunch (s : State) (lid : Nat) : State :=
  match s.launch lid with
  | none => s
  | some l =>
    if l.cancel then s
    else
      let s1 := l.parked.foldl (fun t e => t.decLive e.1 lid) s
      let s2 := s1.modLaunch lid fun l => { l with cancel := true, parked := [] }
      let s3 := l.ranks.foldl (cancelCore lid) s2
      { s3 with clusters := s3.clusters.map fun e => (e.1, cancelSlu lid e.2) }
/-- JQCANCEL (R268, R271). -/
def execJqcancel (v : BitVec 64) (s : State) : Host.Outcome State Fault Refusal := .next (cancelLaunch s (fld v 0 16))
/-- LCANCEL (R268, R309). -/
def execLcancel (a : BitVec 5) (s : State) : Host.Outcome State Fault Refusal :=
  s.finish (do
    s.checkIns [a]
    if s.me.user then stop .ill (wd 0xEC000001 [(a.toNat, 15)])
    else .ok (((cancelLaunch s (fld (s.rx a) 0 16)).pops [a]).next))
/-- Whether berth b of core r holds a cancelled launch's barge that stands at a boundary (R268). -/
def removalDue (s : State) (r b : Nat) : Bool :=
  let k := s.berthAt r b
  k.hdr.isSome && s.dropsBarges k.lid && !s.inBuffer r b &&
    (atBoundary s r b (fun k => withdrawable (s.core r) k false) || (match k.wait with | some w => w.why == .wfi && w.reply.isNone | none => false))
/-- Its barge is removed: accumulators, channels and borrowed file freed as at EXIT, no release and no decrement. -/
def removeBarge (s : State) (r b : Nat) : State :=
  let lid := (s.berthAt r b).lid
  ((((withdraw s r b).letGo relAcc freePort r b s.cycle).decLive r lid).endPart r b).leave r b

/-! ### Quiescence (R164) -/

/-- LIVE, PEND, SENT and RECV summed over the rectangle, and for a group launch over the group's other devices, through the
lockhouses (R284). -/
def sums (s : State) (l : Launch) : Nat × Nat × Nat × Nat :=
  l.ranks.foldl (fun t r => let c := s.counts r l.lid; (t.1 + c.live, t.2.1 + c.pend, t.2.2.1 + c.sent, t.2.2.2 + c.recv))
    (if l.devs.isEmpty then (0, 0, 0, 0) else Config.groupCounts l.lid s.cycle)
/-- A cluster whose cores of the rectangle all hold LIVE = 0 and PEND = 0 starts a pass, once in 1,024 cycles at most (R164), which
the model counts for the launch as a whole and not for each cluster (DESIGN CHOICE, log 87). -/
def passDue (s : State) (l : Launch) : Bool :=
  l.live && decide (l.nextPass ≤ s.cycle) && l.clusters.any fun cl =>
    (ringRanks cl).all fun r => !l.inRect r || (let c := s.counts r l.lid; c.live == 0 && c.pend == 0)
/-- DETECTION_PASS (R164): two consecutive balanced passes with equal sums end the launch. -/
def execDetectionPass (lid : Nat) (s : State) : Host.Outcome State Fault Refusal :=
  match s.launch lid with
  | none => .next s
  | some l =>
    if !passDue s l then .next s
    else
      let v := sums s l
      if v.1 = 0 ∧ v.2.1 = 0 ∧ v.2.2.1 = v.2.2.2 ∧ l.pass = some v then .next (endLaunch s lid (if l.cancel then 3 else 2))
      else .next (s.modLaunch lid fun l => { l with pass := some v, nextPass := s.cycle + 1024 })

/-! ### Contexts and the host (R272, R273) -/

/-- CTX_WRITE (R272): discarded while a launch of the ASID lives; a later admission first shoots it down. -/
def execCtxWrite (n : Nat) (v : BitVec 64) (s : State) : Host.Outcome State Fault Refusal :=
  .next (if 256 ≤ n ∨ s.launches.any (fun l => l.live && l.asid == n) then s
    else s.withLock fun k => { k with
      ctx := alSet k.ctx n (v &&& 0x8000FFFFFFFF8000), needShoot := nsAdd k.needShoot n })

/-- A byte for the host: all ones outside HBM, and until every stack is ready (R273, R357). -/
def hostByte (s : State) (pa : Nat) : Byte := if s.lock.hbm = 0xFF ∧ pa < 2 ^ 39 then s.readByte (.hbm pa) else 0xFF
/-- HOST_BAR2_READ (R273, R341): a poisoned unit sets EP. -/
def execHostBar2Read (off n : Nat) (s : State) : Host.Outcome State Fault Refusal :=
  let pa := s.lock.bar2off.toNat + off
  let ep := s.lock.hbm == 0xFF && (upTo n).any fun i => decide (pa + i < 2 ^ 39) && s.poisoned (.hbm (pa + i))
  .next (s.out (.host ((upTo n).map fun i => hostByte s (pa + i)) ep))
/-- Bytes written in order from a place; a unit wholly written loses its poison. -/
def hostPut (s : State) (lo pa : Nat) : List Byte → State
  | [] => s
  | b :: rest =>
    let t := if pa < 2 ^ 39 then
        (let u := s.writeByte (.hbm pa) b
         if pa % 8 = 7 ∧ lo + 7 ≤ pa then u.setPoison (.hbm pa) false else u)
      else s
    hostPut t lo (pa + 1) rest
/-- HOST_BAR2_WRITE (R273, R341). -/
def execHostBar2Write (off : Nat) (bytes : List (BitVec 8)) (s : State) : Host.Outcome State Fault Refusal :=
  let pa := s.lock.bar2off.toNat + off
  .next (if s.lock.hbm = 0xFF then hostPut s pa pa bytes else s)

/-! ### Held messages (R266) -/

/-- The rank a message in flight goes to; an entry pushed to the same core takes effect there and goes through no mesh (R210). -/
def msgRank (i : Instr) : Option Nat :=
  match i with
  | .bargeArrival r _ => some r
  | .frameIncrement h _ _ => some (frank h.toNat)
  | .frameDecrement h => some (frank h.val.toNat)
  | .resumeMessage r _ _ => some r
  | .chunkClaim h _ _ _ => some (frank h.toNat)
  | .pairMessage r _ => some r
  | .freeSlotReturn r _ _ => some r
  | .channelEntryArrival r _ _ fr _ _ _ _ => if fr = r then none else some r
  | .channelFreedNotice r _ _ _ _ _ => some r
  | .deadlockProbeReceive r _ _ => some r
  | _ => none
/-- The rank that sent it. -/
def msgFrom (i : Instr) : Option Nat :=
  match i with
  | .bargeArrival _ m | .pairMessage _ m => some m.src
  | .resumeMessage _ _ m | .freeSlotReturn _ _ m => some m.src
  | .frameDecrement m => some m.src
  | .frameIncrement _ r _ | .chunkClaim _ r _ _ => some r
  | .channelEntryArrival _ _ _ fr _ _ _ _ | .channelFreedNotice _ _ _ fr _ _ => some fr
  | .deadlockProbeReceive _ _ ids => ids.getLast?.map fun v => v.toNat / 16
  | _ => none
/-- The launch of the barge that a message carries. -/
def msgBarge (i : Instr) : Option Nat :=
  match i with
  | .bargeArrival _ m | .pairMessage _ m => some m.val.hdr.lid.toNat
  | .resumeMessage _ _ l => some l.val
  | _ => none
def releaseDue (s : State) (r : Nat) : Bool := !(heldFor s r).isEmpty && !s.rankHeld r
/-- HELD_MESSAGE_RELEASE (R266): they go on in their original order, before any message that came later (log 44). -/
def execHeldMessageRelease (r : Nat) (s : State) : Host.Outcome State Fault Refusal :=
  .next (if releaseDue s r then
    (heldFor s r).foldl (fun t e => t.later 0 e.2) { s with held := s.held.filter fun e => e.1 != r }
  else s)

end Sys2Proof.Machine
end

