-- ==== Sys2Proof/Machine/Preempt.lean ====
section
/-!
DEFINITION. Pre-empting and restoring a core (R302 to R308): the lockhouse's request and start, the context buffer, and
PSPILL and PREST.
-/
namespace Sys2Proof.Machine
open State

/-! ### The request (R302) -/

/-- The sluice's commands of a core stop (R302, R219). -/
def pauseSlu (r : Nat) (c : Cluster) : Cluster :=
  { c with slu := c.slu.map fun e =>
      if e.2.rank == r && (e.2.st == .running || e.2.st == .queued) then (e.1, { e.2 with st := .paused }) else e }
/-- They go on from their cursors (R307). -/
def resumeSlu (r : Nat) (c : Cluster) : Cluster :=
  { c with slu := c.slu.map fun e => if e.2.rank == r && e.2.st == .paused then (e.1, { e.2 with st := .queued }) else e }
/-- PREEMPT becomes pending for berth b where it holds a barge, and for the lead berth in any case. TSTAT of a lead berth that
holds no barge, which its entry saves in PM and PIE, is IE = 1 and M = U (R302 does not say it; DESIGN CHOICE, log 84). -/
def askBerth (lead : Option Nat) (b : Nat) (k : Berth) : Berth :=
  let first := lead == some b
  if k.hdr.isSome then { k with pPreempt := true, preTval := b64 first }
  else if first then { k with pPreempt := true, preTval := 3, started := true, tstat := 4, wait := none, rpt := none }
  else k
/-- PREEMPT_REQUEST (R302). The spec does not say what a request does to a core whose pre-emption or restore is in progress: it
is dropped (DESIGN CHOICE, log 84). -/
def execPreemptRequest (r : Nat) (s : State) : Host.Outcome State Fault Refusal :=
  let c := s.core r
  if c.pre ≠ .none then .next s
  else
    let lead := leadBerth c
    let t := s.modCore r fun c => { c with pre := .asked, vac := 0, saved := none }
    let u := iter (fun b t => t.modBerth r b (askBerth lead b)) 16 t
    .next (u.modCluster (clusterOf r) (pauseSlu r))

/-! ### Starting a restore (R307) -/

/-- A berth started at the restore vector: supervisor mode, every register zero but x3. -/
def startBerth (s : State) (r b : Nat) (lead : Bool) (x3 : Word) : State :=
  let base := tvecBase (s.core r).tvec
  s.modBerth r b fun k => { k with
    hdr := none
    x := vset (Vector.replicate 24 (0 : Word)) 3 x3
    f := Vector.replicate 16 0
    v := Vector.replicate 16 0
    p := 1
    fr := 0
    fcsr := 0
    pc := base + 0x80
    tstat := 1
    tcause := Cause.preempt.word
    tval := b64 lead
    moored := false
    wait := none
    rpt := none
    bufTrap := none
    entry := true
    started := true
    drowsy := false
    lastIssue := s.cycle
    readyAt := s.cycle + 8 }
/-- Whether a core that PSPILL Q has stopped is free for its lead berth to start. -/
def stopReady (c : Core) : Bool :=
  c.pre == .stopped && (match leadBerth c with | some b => (c.berth b).hdr.isNone && !(c.berth b).started | none => false)
/-- Whether a core is in use: its rank is valid and not in TRANSIT, and its cluster is ready (R266, R356, R357). -/
def coreUsable (s : State) (r : Nat) : Bool :=
  s.lock.ready.contains (clusterOf r) && (match alGet s.lock.ranks (clusterOf r) with | some e => e.valid && !e.transit | none => false)
def startReady (s : State) (r : Nat) : Bool := stopReady (s.core r) && coreUsable s r
/-- RESTORE_START (R307): it waits for a pre-emption that still runs, and does nothing on a core that none has stopped. No berth
starts on a core that is not in use (R357). -/
def execRestoreStart (r : Nat) (buf : BitVec 64) (s : State) : Host.Outcome State Fault Refusal :=
  let c := s.core r
  if startReady s r then
    match leadBerth c with
    | some b => .next ((startBerth s r b true buf).modCore r fun c => { c with pre := .starting, waiting := none })
    | none => .next s
  else if c.pre = .asked ∨ c.pre = .stopped then .next (s.modCore r fun c => { c with waiting := some buf })
  else .next s
/-- A restore that has waited for its core to stop. -/
def waitedRestore (s : State) (r : Nat) : Option Word := if startReady s r then (s.core r).waiting else none

/-! ### The context buffer (R304) -/

/-- The buffer's three 64 KiB granules in HBM. -/
structure CtxBuf where
  g0 : Nat
  g1 : Nat
  g2 : Nat
deriving DecidableEq, Repr
namespace CtxBuf
def loc (b : CtxBuf) (off : Nat) : Loc :=
  .hbm ((if off < 65536 then b.g0 else if off < 131072 then b.g1 else b.g2) + off % 65536)
end CtxBuf
/-- The buffer at an address, wholly checked under the executing berth's context (R305); it leaves the core's L1. -/
def openBuf (s : State) (k : Kind) (va : Word) : Run (State × CtxBuf) :=
  let w := s.who
  let part (t : State) (i : Nat) : Run (State × Nat) :=
    let a := va + w64 (65536 * i)
    if 13 * 2 ^ 48 ≤ a.toNat then stop k.cause a
    else match t.xlate (clusterOf s.rank) w k a.toNat with
      | (u, some (_, pa)) => .ok (u, pa)
      | (_, none) => stop k.cause a
  if va.toNat % 65536 ≠ 0 then stop .align va
  else do
    let (t0, g0) ← part s 0
    let (t1, g1) ← part t0 1
    let (t2, g2) ← part t1 2
    let mine (l : Line) : Bool := l.asid == w.asid && decide (va.toNat ≤ l.va * 1024 ∧ l.va * 1024 < va.toNat + 196608)
    let t3 := (((t2.core s.rank).l1.filter mine).foldl cleanLine t2).modMyCore fun c => { c with l1 := c.l1.filter fun l => !mine l }
    .ok (t3, ⟨g0, g1, g2⟩)
/-- A dword of the buffer. -/
def bufGet (s : State) (b : CtxBuf) (off : Nat) : Word := w64 (s.readN (b.loc off) 8)
def bufPut (s : State) (b : CtxBuf) (off : Nat) (v : Word) : State := s.storeAt (b.loc off) 8 v.toNat
/-- n KiB of the buffer as one number. -/
def bufBig (s : State) (b : CtxBuf) (off : Nat) : Nat → Nat
  | 0 => 0
  | n + 1 => bufBig s b off n + s.readN (b.loc (off + 1024 * n)) 1024 * 2 ^ (8192 * n)
/-- The offsets of the buffer's poisoned units. -/
def bufPoison (s : State) (b : CtxBuf) : List Nat :=
  (s.poison.map fun u =>
    let at_ (g lo : Nat) : List Nat := if g ≤ 8 * u ∧ 8 * u < g + 65536 then [lo + 8 * u - g] else []
    at_ b.g0 0 ++ at_ b.g1 65536 ++ at_ b.g2 131072).flatten
def bufFill (b : CtxBuf) (off v n : Nat) (s : State) : State :=
  iter (fun i t => t.storeAt (b.loc (off + 1024 * i)) 1024 (v / 2 ^ (8192 * i) % 2 ^ 8192)) n s
/-- Units copied from one run of places to another, poison and all (R341). -/
def copyUnits (src dst : Nat → Loc) (n : Nat) (s : State) : State :=
  iter (fun i t => (t.storeAt (dst i) 8 (s.readN (src i) 8)).setPoison (dst i) (s.poisoned (src i))) n s

/-! ### PSPILL (R305, R306) -/

/-- The accumulators a berth owns, and those of them that are release-pending. -/
def ownMask (c : Core) (b : Nat) : Nat := (upTo 8).foldl (fun n i => n + if (c.acc i).owner == some b then 2 ^ i else 0) 0
def relMask (c : Core) (b : Nat) : Nat :=
  (upTo 8).foldl (fun n i => n + if (c.acc i).owner == some b && (c.acc i).relp then 2 ^ i else 0) 0
/-- The berth state word (R306). -/
def berthWord (c : Core) (b : Nat) : Word :=
  let k := c.berth b
  let ports := (upTo 8).foldl (fun n i => n + if (port k i).bound then 2 ^ i else 0) 0
  w64 ((if k.borrowed.isSome then 2 ^ 25 else 0) + (if k.moored then 2 ^ 24 else 0) + ports * 65536 + relMask c b * 256 + ownMask c b)
/-- Part B: owned accumulators and their masks. -/
def spillB (buf : CtxBuf) (s : State) : State :=
  iter (fun n t =>
    let a := s.myCore.acc n
    if a.owner = some s.berth then
      bufPut (bufFill buf (0x18000 + 4096 * n) a.data.toNat 4 t) buf (0xEE00 + 8 * n) (a.pois.setWidth 64)
    else t) 8 s
/-- A decode table as 256 words (R60), each entry in bits [18:0]. -/
def tableBig (t : DTab) : Nat := (upTo 256).foldl (fun n i => n + dtabEntry t i * 2 ^ (32 * i)) 0
def tableFrom (v : Nat) : DTab := tableOf fun i => BitVec.ofNat 32 (v / 2 ^ (32 * i) % 2 ^ 32)
/-- The latch state as one word, and the ring sends asked for (R304): the spec gives these 512 bytes no layout, and the fields
of this and of the two functions after it are the model's (DESIGN CHOICE, log 20). -/
def latchWord (c : Core) : Word :=
  let half (h : Half) : Nat := halfCode h.st + (if h.pois then 4 else 0) + 8 * h.desc.toNat
  w64 (c.curh + (if c.sdone then 2 else 0) + half (c.half 0) * 2 ^ 8 + half (c.half 1) * 2 ^ 20 + c.mq.length % 16 * 2 ^ 32 + c.sends.length % 16 * 2 ^ 36)
def sendsWord (l : List Send) : Word :=
  w64 ((upTo 8).foldl (fun n i => match l[i]? with
    | some e => n + (e.half + if e.full then 2 else 0) * 256 ^ i
    | none => n) 0)
/-- An entry of the matrix queue as four words, and a fifth for the block word it comes from. -/
def mmaWord (m : Mma) (i : Nat) : Word :=
  match i with
  | 0 => m.a
  | 1 => m.sc
  | 2 => m.first.getD 0
  | 3 => w64 (m.pois.toNat + m.fmt % 16 * 2 ^ 32 + m.acc % 8 * 2 ^ 36 + m.berth % 16 * 2 ^ 39 + m.n % 16 * 2 ^ 43 + m.st % 16 * 2 ^ 47
      + m.half % 2 * 2 ^ 51 + (if m.ta then 2 ^ 52 else 0) + (if m.neg then 2 ^ 53 else 0) + (if m.wide then 2 ^ 54 else 0)
      + (if m.first.isSome then 2 ^ 55 else 0))
  | _ => match m.bufAt with
    | some (a, k, idx) => w64 (2 ^ 63 + a.toNat / 4 % 2 ^ 50 * 1024 + k % 256 * 4 + idx % 4)
    | none => 0
/-- Where word i of entry n stands in the buffer. -/
def mmaOff (n i : Nat) : Nat := if i < 4 then 0xEC20 + 32 * n + 8 * i else 0xED40 + 8 * n
def putMma (buf : CtxBuf) (n : Nat) (m : Mma) (s : State) : State := iter (fun i t => bufPut t buf (mmaOff n i) (mmaWord m i)) 5 s
/-- Part L (R304, R306). -/
def spillL (buf : CtxBuf) (s : State) : State :=
  let c := s.myCore
  let half (h : Half) (off : Nat) (t : State) : State := bufFill buf (off + 16384) (scaleBits h.scales.toNat 256) 1 (bufFill buf off h.data.toNat 16 t)
  let s0 := bufPut (bufPut s buf 0xEC00 (latchWord c)) buf 0xEC08 (sendsWord c.sends)
  let s1 := (upTo c.mq.length).foldl (fun t n => match c.mq[n]? with | some m => putMma buf n m t | none => t) s0
  let s2 := half (c.half 1) (0xF000 + 17408) (half (c.half 0) 0xF000 s1)
  let s3 := bufFill buf 0x17C00 (tableBig c.dt1) 1 (bufFill buf 0x17800 (tableBig c.dt0) 1 s2)
  s3.modMyCore fun c => { c with saved := some ⟨c.mq.map fun m => (m.t0, m.t1)⟩ }
/-- The queue in docking order (R150). -/
def dockOrder (now : Nat) : Nat → List QEnt → List QEnt
  | 0, _ => []
  | n + 1, q => match minBy (fun e => ((3 - qLevel now e) * 2 ^ 64 + qEntry now e) * 64 + e.slot) q with
    | some e => e :: dockOrder now n (q.filter fun x => x.slot != e.slot)
    | none => []
/-- Whether a message is one of core r's own. -/
def sentBy (r : Nat) (i : Instr) : Bool := msgFrom i == some r
/-- Whether something in flight is a message of core r to a core that takes none. -/
def waitsOut (s : State) (r : Nat) (i : Instr) : Bool := sentBy r i && (match msgRank i with | some d => s.rankHeld d | none => false)
/-- Core r's own messages that are held, in the order sent: up to 64 go into its snapshot (R304, R306). -/
def ownHeld (s : State) (r : Nat) : List Instr :=
  ((s.held.filter fun e => sentBy r e.2).map Prod.snd ++ (s.agenda.filter fun e => waitsOut s r e.2).map Prod.snd).take 64
/-- A list without the first n of its elements that p chooses. -/
def dropFirst {α : Type} (p : α → Bool) : Nat → List α → List α
  | _, [] => []
  | 0, l => l
  | n + 1, a :: l => if p a then dropFirst p n l else a :: dropFirst p (n + 1) l
/-- The first n of core r's own held messages leave what is held and what is in flight. -/
def takeOut (s : State) (r n : Nat) : State :=
  let k := (s.held.filter fun e => sentBy r e.2).length
  { s with
    held := dropFirst (fun e => sentBy r e.2) n s.held
    agenda := dropFirst (fun e => waitsOut s r e.2) (n - k) s.agenda }
/-- The 320 bytes of a held message, for which R304 gives no layout (DESIGN CHOICE, log 20): a header of 32 bytes, with the kind of
the message, the ranks it is for and comes from, a berth, a port, a byte and two dwords; then a packet, or a probe's
identities. -/
def msgNum (i : Instr) : Nat :=
  let head (kind dst src berth port byte a b : Nat) : Nat :=
    kind + dst * 2 ^ 8 + src * 2 ^ 24 + berth * 2 ^ 40 + port * 2 ^ 48 + byte * 2 ^ 56 + a % 2 ^ 64 * 2 ^ 64 + b % 2 ^ 64 * 2 ^ 128
  let carry (kind r : Nat) (m : Sent Packet) : Nat :=
    let pk := m.val
    head kind r m.src 0 0 ((if pk.norule then 1 else 0) + (if pk.pend then 2 else 0) + 4 * (pk.nodes.length % 4)) (pk.nodes[0]?.getD 0) (pk.nodes[1]?.getD 0)
      + ofBytes (packetBytes pk 0) * 2 ^ 256
  match i with
  | .bargeArrival r m => carry 1 r m
  | .frameIncrement h r b => head 2 0 r b 0 0 h.toNat 0
  | .frameDecrement m => head 3 0 m.src 0 0 0 m.val.toNat 0
  | .resumeMessage r slot m => head 4 r m.src 0 0 0 slot m.val
  | .chunkClaim h r b t => head 5 0 r b 0 0 h.toNat t.toNat
  | .pairMessage r m => carry 6 r m
  | .freeSlotReturn r slot m => head 7 r m.src 0 0 0 slot m.val
  | .channelEntryArrival r b p fr fb fp lid v => head 8 r fr b p (8 * fb + fp) lid v.toNat
  | .channelFreedNotice r b p fr fb fp => head 9 r fr b p (8 * fb + fp) 0 0
  | .deadlockProbeReceive r b ids =>
    head 10 r 0 b 0 ids.length 0 0 + (ids.foldr (fun v n => v.toNat + 2 ^ 32 * n) 0) * 2 ^ 256
  | _ => 0
/-- Part Q, after its release: the snapshot, and the core stops. -/
def spillQ (buf : CtxBuf) (pas : List Nat) (a : BitVec 5) (s : State) : State :=
  let r := s.rank
  let c := s.myCore
  let vac := c.vac.toNat ||| (if s.me.hdr.isSome then 2 ^ s.berth else 0)
  let own := ownHeld s r
  let head := w64 (vac % 65536 * 2 ^ 48 + r * 2 ^ 32 + own.length * 65536 + c.queue.length % 256 * 256
    + (if c.saved.isSome then 2 else 0) + 1)
  let s1 := iter (fun i t => bufPut t buf (8 * i) (if i = 0 then head else if i = 1 then hqctl c else if i = 2 then w64 s.cycle else 0)) 8 s
  let s2 := copyUnits (fun i => .clm r (8 * i)) (fun i => buf.loc (0x400 + 8 * i)) 512 s1
  let s3 := iter (fun i t =>
    let b := i / 8
    let p := i % 8
    let q := port (c.berth b) p
    let base := 0x1400 + 1024 * b + 128 * p
    iter (fun j u => bufPut u buf (base + 8 * (j + 1)) (q.q[j]?.getD 0)) 8 (bufPut t buf base (chanWord s r b p))) 128 s2
  let q := dockOrder s.cycle 64 c.queue
  let s4 := (upTo q.length).foldl (fun t i => match q[i]? with
    | some e => t.storeAt (buf.loc (0x5400 + 288 * i)) 288 (ofBytes (packetBytes e.pk e.arr))
    | none => t) s3
  let s5 := (upTo own.length).foldl (fun t i => match own[i]? with
    | some m => t.storeAt (buf.loc (0x9C00 + 320 * i)) 320 (msgNum m)
    | none => t) s4
  (takeOut s5 r own.length).modMyCore fun c => { c with queue := [], kept := q.map some, pre := .stopped, bufAt := s.rx a, bufPas := pas }
/-- Part V, `lat` cycles from issue to its end: the berth is free; its ports and counts stay, and the header and the pair,
for which its slot has no place, are kept (log 45). -/
def vacate (s : State) (lat : Nat) : State :=
  let b := s.berth
  let k := s.me
  let s1 := s.modMyCore fun c => { c with
    accs := c.accs.map fun a => if a.owner = some b then { a with owner := none, relp := false } else a
    vac := if k.hdr.isSome then setBit c.vac b true else c.vac
    vacated := match k.hdr with | some h => alSet c.vacated b ⟨h, k.pair, k.arr⟩ | none => c.vacated }
  let till := s.readyAfter lat - 1
  let s2 := (s1.endPart s.rank b).giveBack s.rank b till
  s2.modMe fun t => { t.emptied till with ports := k.ports, was := 2 }

/-- Whether part B, L or Q has still to wait. -/
def spillWaits (s : State) (parts : Word) : Bool :=
  let c := s.myCore
  let busyB := c.mq.any fun m => m.due != 0 && (c.acc m.acc).owner == some s.berth
  let busyL := (c.berths.toList.any fun k => k.hdr.isSome && k.pPreempt) || (c.halves.toList.any fun h => h.fill.isSome)
    || c.recv || c.sends.any fun e => e.till.isSome
  let busyQ := (upTo 16).any fun b => b != s.berth && (c.berth b).hdr.isSome
  (bit parts 2 && busyB) || (bit parts 1 && busyL) || (bit parts 0 && busyQ)
/-- The bytes a set of parts moves (R304 to R306): of part B the accumulators of a set, 4 KiB each with the 8 bytes of its
mask. -/
def partBytes (parts : Word) (accs : Nat) : Nat :=
  (if bit parts 0 then 59392 else 0) + (if bit parts 1 then 37376 else 0)
    + (if bit parts 2 then 4104 * ((upTo 8).filter fun n => accs / 2 ^ n % 2 == 1).length else 0)
/-- The cycles that this takes, at 32 bytes a cycle, with those of the final acknowledgement (R305). -/
def partTime (parts : Word) (accs : Nat) : Nat := (partBytes parts accs + 31) / 32 + 110
/-- PSPILL (R305, R306): B, L, Q, V, once nothing of them has to wait. -/
def execPspill (d a b : BitVec 5) (s : State) : Host.Outcome State Fault Refusal :=
  s.finish (do
    s.checkPorts [a, b] d
    let parts := s.rx b
    let pre := s.myCore.pre
    if s.me.user || pre == .none || ((pre == .starting || pre == .restoring) && fld parts 0 4 != 8) then
      stop .ill (wd 0xEE000000 [(d.toNat, 20), (a.toNat, 15), (b.toNat, 10)])
    else
      let (t, buf) ← openBuf s .write (s.rx a)
      if spillWaits s parts then waitFor .spill
      else
        let t0 ← if bit parts 0 then t.releasing else .ok t
        let word := berthWord s.myCore s.berth
        let t1 := if bit parts 2 then spillB buf t0 else t0
        let t2 := if bit parts 1 then spillL buf t1 else t1
        let t3 := if bit parts 0 then spillQ buf [buf.g0, buf.g1, buf.g2] a t2 else t2
        let q : Reply := { srcs := [a, b], writes := if bit parts 2 then [(d.toNat, word)] else [] }
        let lat := partTime parts (ownMask s.myCore s.berth)
        if bit parts 3 then gone (vacate (t3.put q).retire lat) else .ok (t3.done lat q))

/-! ### PREST (R307) -/

/-- A packet of the buffer, with its ARR. What its 288 bytes have no place for comes from the packet the core has kept; of a
packet it has not kept, a pair barge's VALID is looked up again, and it counts as one that has not docked (log 45). -/
def packetFrom (s : State) (kept : Option QEnt) (v : Nat) : Packet × Nat :=
  let w (i : Nat) : Nat := v / 2 ^ (64 * i) % 2 ^ 64
  let h := w 0
  let kind : BKind := if h / 8 % 4 = 1 then .pair else if h / 8 % 4 = 2 then .continuation else .ordinary
  let hdr : Hdr := ⟨BitVec.ofNat 32 (h / 2 ^ 32), BitVec.ofNat 16 (h / 65536), BitVec.ofNat 8 (h / 256), BitVec.ofNat 2 (h / 64),
    h / 32 % 2 == 1, kind, h / 4 % 2 == 1⟩
  let x : Vector Word 24 := Vector.ofFn fun i => if i.val = 0 then 0 else w64 (w (4 + i.val))
  let l := (s.launch hdr.lid.toNat).getD (noLaunch hdr.lid.toNat hdr.asid.toNat)
  let kinds := (vget x 3 0).toNat
  let side (k : Nat) (a : Word) : Nat × Nat × Word := (k, placeBits a, a)
  let valid := match lhEntry s l (side (kinds / 65536 % 65536) 0) (side (kinds % 65536) 0) with | some e => bit e 31 | none => false
  let pair := kind == .pair
  let nodes := ([vget x 1 0, vget x 2 0].filter fun a => a != 0).map placeBits
  (⟨hdr, w64 (w 2), BitVec.ofNat 32 (w 3), w64 (w 4), x,
    Vector.ofFn fun i => BitVec.ofNat 32 (v / 2 ^ (64 * 28 + 32 * i.val)),
    (match kept with | some e => e.pk.norule | none => pair && !valid),
    (match kept with | some e => e.pk.pend | none => pair),
    (match kept with | some e => e.pk.nodes | none => if pair then nodes else [])⟩, w 1 % 2 ^ 32)
/-- Port p of berth b from its word and entries (R211); what it has in flight is the network interface's own count. -/
def portFrom (s : State) (buf : CtxBuf) (b p : Nat) : Port :=
  let base := 0x1400 + 1024 * b + 128 * p
  let w := bufGet s buf base
  let old := port (s.berthAt s.rank b) p
  if !bit w 25 then Port.reset
  else
    let n := if p < 4 then Nat.min 8 (fld w 28 4) else 0
    ⟨true, fld w 0 14, fld w 20 4, (if p < 4 then 4 else 0) + fld w 18 2, bit w 27,
      (upTo n).map fun j => bufGet s buf (base + 8 * (j + 1)), old.undel, []⟩
/-- The save slot of berth b, as CLM holds it (R303). -/
def slotWord (s : State) (b i : Nat) : Word := w64 (s.readN (.clm s.rank (256 * b + 8 * i)) 8)
def slotValid (s : State) (b : Nat) : Bool := bit (slotWord s b 31) 63
/-- The message that 320 bytes of the buffer hold. -/
def msgFromNum (s : State) (v : Nat) : Option Instr :=
  let f (lo n : Nat) : Nat := v / 2 ^ lo % 2 ^ n
  let dst := f 8 16
  let src := f 24 16
  let b := f 40 8
  let p := f 48 8
  let x := f 56 8
  let h : BitVec 32 := BitVec.ofNat 32 (f 64 64)
  let carried : Sent Packet := ⟨{ (packetFrom s none (f 256 2304)).1 with
    norule := x % 2 == 1, pend := x / 2 % 2 == 1, nodes := [f 64 64, f 128 64].take (x / 4) }, src⟩
  match v % 256 with
  | 1 => some (.bargeArrival dst carried)
  | 2 => some (.frameIncrement h src b)
  | 3 => some (.frameDecrement ⟨h, src⟩)
  | 4 => some (.resumeMessage dst (f 64 64) ⟨f 128 64, src⟩)
  | 5 => some (.chunkClaim h src b (w64 (f 128 64)))
  | 6 => some (.pairMessage dst carried)
  | 7 => some (.freeSlotReturn dst (f 64 64) ⟨f 128 64, src⟩)
  | 8 => some (.channelEntryArrival dst b p src (x / 8) (x % 8) (f 64 64) (w64 (f 128 64)))
  | 9 => some (.channelFreedNotice dst b p src (x / 8) (x % 8))
  | 10 => some (.deadlockProbeReceive dst b ((upTo x).map fun i => BitVec.ofNat 32 (f (256 + 32 * i) 32)))
  | _ => none
/-- The n messages of a buffer are sent again from core r (R307); the barges of a launch that has ended meanwhile are not (R268). -/
def resend (buf : CtxBuf) (r n : Nat) (s : State) : State :=
  (upTo n).foldl (fun t i => match msgFromNum s (s.readN (buf.loc (0x9C00 + 320 * i)) 320) with
    | some m =>
      let ended := match msgBarge m with | some lid => (s.launch lid).isNone | none => false
      (match msgRank m with | some d => if ended then t else t.later (travel r d) m | none => t)
    | none => t) s
/-- The core whose context a buffer holds (R304). -/
def savedRank (s : State) (buf : CtxBuf) : Nat :=
  let r := fld (bufGet s buf 0) 32 14
  if r < 9216 then r else s.rank
/-- A barge saved on core `src` is counted where it comes back (R163). -/
def moveCounts (src r lid : Nat) (pend : Bool) (s : State) : State :=
  if src = r then s
  else
    let t := (s.decLive src lid).incLive r lid
    if pend then (t.decPend src lid).incPend r lid else t
/-- Part Q: CLM, ports, queue; messages and commands go on; the vacated berths start, and docking resumes. `same` says that the
buffer is the one the core has spilled into. What a cancel has dropped meanwhile does not come back (R268). Packets that another
core saved are counted here from now on (R163). -/
def restQ (buf : CtxBuf) (same : Bool) (s : State) : State :=
  let r := s.rank
  let src := savedRank s buf
  let head := bufGet s buf 0
  let snap := (bufGet s buf 16).toNat
  let n := Nat.min 64 (fld head 8 8)
  let s1 := copyUnits (fun i => buf.loc (0x400 + 8 * i)) (fun i => .clm r (8 * i)) 512 s
  let s2 := iter (fun i t => t.modPort r (i / 8) (i % 8) fun _ => portFrom s buf (i / 8) (i % 8)) 128 s1
  let q := (upTo n).map fun i =>
    let old := if same then (s.myCore.kept[i]?).join else none
    let (pk, arr) := packetFrom s old (s.readN (buf.loc (0x5400 + 288 * i)) 288)
    (⟨i, pk, s.cycle - (snap - arr) % 2 ^ 32, old.bind QEnt.hold⟩ : QEnt)
  let back (e : QEnt) : Bool :=
    let lid := e.pk.hdr.lid.toNat
    (!same || ((s.myCore.kept[e.slot]?).join).isSome) && (s.launch lid).isSome && !s.dropsBarges lid
  let cap := fld (bufGet s buf 8) 0 8
  let s3 := s2.modCore r fun c => { c with
    queue := q.filter back
    cap := if cap = 16 ∨ cap = 32 ∨ cap = 48 then cap else 64
    kept := [] }
  let s3 := (q.filter back).foldl (fun t e => moveCounts src r e.pk.hdr.lid.toNat e.pk.pend t) s3
  let s3 := if src = r then s3 else s3.modCore src fun c => { c with kept := [] }
  let s4 := ((resend buf r (Nat.min 64 (fld head 16 8)) s3).modCluster (clusterOf r) (resumeSlu r)).acquire r
  let s5 : State := iter (fun b (t : State) =>
    if b ≠ s.berth ∧ bit head (48 + b) ∧ slotValid s4 b ∧ (t.berthAt r b).hdr.isNone ∧ (!same || (alGet s.myCore.vacated b).isSome)
    then startBerth t r b false 0 else t) 16 s4
  let any := (s5.core r).berths.toList.any Berth.started
  s5.modCore r fun c => { c with pre := if any then .restoring else .none }
/-- Entry n of the matrix queue as the buffer holds it, with the decode tables of its issue. -/
def mmaFrom (s : State) (buf : CtxBuf) (n : Nat) (t : DTab × DTab) : Mma :=
  let w (i : Nat) : Word := bufGet s buf (mmaOff n i)
  let p := w 3
  let o := w 4
  { fmt := fld p 32 4, acc := fld p 36 3, berth := fld p 39 4, a := w 0, sc := w 1, n := fld p 43 4, ta := bit p 52, neg := bit p 53
    half := fld p 51 1, seq := s.ticket + n, ready := s.cycle, st := fld p 47 4, due := 0, pois := p.setWidth 32
    first := if bit p 55 then some (w 2) else none, t0 := t.1, t1 := t.2
    bufAt := if bit o 63 then some (w64 (4 * fld o 10 50), fld o 2 8, fld o 0 2) else none
    wide := bit p 54 }
/-- A half as the buffer holds it, its 12 bits of latch state in `v`. -/
def halfFrom (s : State) (buf : CtxBuf) (off v : Nat) : Half :=
  let st : HalfSt := match v % 4 with | 0 => .empty | 1 => .filling | 2 => .full | _ => .draining
  ⟨BitVec.ofNat 131072 (bufBig s buf off 16), BitVec.ofNat 8192 (scaleBits (bufBig s buf (off + 16384) 1) 256), st, BitVec.ofNat 6 (v / 8),
    v / 4 % 2 == 1, none⟩
/-- Part L: latch and matrix queue, and the tables, whose sorted orders are rebuilt (R61). -/
def restL (buf : CtxBuf) (same : Bool) (s : State) : State :=
  let t0 := tableFrom (bufBig s buf 0x17800 1)
  let t1 := tableFrom (bufBig s buf 0x17C00 1)
  let w := bufGet s buf 0xEC00
  let snd := bufGet s buf 0xEC08
  let tables := if same then (match s.myCore.saved with | some l => l.tables | none => []) else []
  let s1 := s.modMyCore fun c => { c with
    curh := fld w 0 1
    sdone := bit w 1
    mq := (upTo (fld w 32 4)).map fun n => mmaFrom s buf n (tables[n]?.getD (t0, t1))
    sends := (upTo (fld w 36 4)).map fun i => ⟨fld snd (8 * i) 1, s.ticket + 16 + i, bit snd (8 * i + 1), none⟩
    halves := vset (vset c.halves 0 (halfFrom s buf 0xF000 (fld w 8 12))) 1 (halfFrom s buf (0xF000 + 17408) (fld w 20 12))
    saved := none }
  setTable (setTable { s1 with ticket := s.ticket + 32 } s.rank 0 t0) s.rank 1 t1
/-- The header of a barge that no core keeps any more: the save slot and the buffer have no place for it, so it is
undefined (R303, log 45). -/
def freeHdr (n : Nat) : Hdr :=
  let w := Config.freeWord n
  ⟨w.setWidth 32, w.extractLsb' 32 16, w.extractLsb' 48 8, w.extractLsb' 56 2, bit w 58, .ordinary, bit w 59⟩
/-- What the barge that part B brings back had beside its slot, kept by the core that saved it, if no cancel has dropped it
(R268). A barge that comes back on another core has entered no queue of that one: its ARR is undefined (R144, log 45). -/
def restHdr (buf : CtxBuf) (same : Bool) (s : State) : Option Vacated :=
  let src := savedRank s buf
  match alGet (s.core src).vacated s.berth, s.me.hdr with
  | some e, _ => some (if src = s.rank then e else { e with arr := (Config.freeWord (s.free + 1)).toNat })
  | none, some h => some ⟨h, s.me.pair, s.me.arr⟩
  | none, none => if same then none else some ⟨freeHdr s.free, s.me.pair, (Config.freeWord (s.free + 1)).toNat⟩
/-- VALID of the executing berth's slot is cleared, and the core that saved the barge keeps nothing more of it. -/
def clearValid (buf : CtxBuf) (s : State) : State :=
  let b := s.berth
  ((s.modCore (savedRank s buf) fun c => { c with vacated := alDel c.vacated b, vac := setBit c.vac b false }).storeAt (.clm s.rank (256 * b + 248)) 8
    (setBit (slotWord s b 31) 63 false).toNat).fresh.fresh
/-- Part B: the barge of the executing berth's slot. -/
def bringBack (buf : CtxBuf) (h : Vacated) (s : State) : State :=
  let b := s.berth
  let w := slotWord s b
  let own := fld (w 31) 0 8
  let s1 := iter (fun n t =>
    if own / 2 ^ n % 2 = 1 then
      t.modMyCore fun c => c.setAcc n ⟨BitVec.ofNat 32768 (bufBig s buf (0x18000 + 4096 * n) 4),
        (bufGet s buf (0xEE00 + 8 * n)).setWidth 32, some b, bit (w 30) (8 + n)⟩
    else t) 8 s
  let s2 := s1.modMe fun k => { k with
    hdr := some h.hdr
    pair := h.pair
    arr := h.arr
    fr := (w 23).setWidth 32
    p := (w 24).setWidth 32 ||| 1
    tpc := w 25 &&& (ones64 - 3)
    tstat := w 26 &&& 0xFFF7F
    fcsr := w 27 &&& 0x1FF
    budget := (w 28).setWidth 32
    moored := bit (w 29) 24 || own != 0 || !zeroBits (w 29) 16 8
    rpt := k.rpt }
  clearValid buf (moveCounts (savedRank s buf) s.rank h.hdr.lid.toNat false s2)
def restB (buf : CtxBuf) (same : Bool) (s : State) : State :=
  match restHdr buf same s with
  | some h => bringBack buf h s
  | none => clearValid buf s

/-- The address of the first poisoned unit, of the buffer at va or of the berth's slot, that parts of PREST read into what can
carry no poison. -/
def restPoison (s : State) (buf : CtxBuf) (va parts : Word) (accs : Nat) : Option Word :=
  let read (o : Nat) : Bool :=
    (bit parts 0 && (decide (o < 64) || decide (0x1400 ≤ o ∧ o < 0xEC00)
        || (decide (0x400 ≤ o ∧ o < 0x1400 ∧ o % 256 = 248 ∧ (o - 0x400) / 256 ≠ s.berth) && bit (bufGet s buf 0) (48 + (o - 0x400) / 256))))
      || (bit parts 1 && (decide (0xEC00 ≤ o ∧ o < 0xEE00) || decide (0xF000 ≤ o ∧ o < 0x18000)))
      || (bit parts 2 && ((decide (0xEE00 ≤ o ∧ o < 0xEE40) && accs / 2 ^ ((o - 0xEE00) / 8) % 2 == 1)
        || (decide (0x18000 ≤ o ∧ o < 0x20000) && accs / 2 ^ ((o - 0x18000) / 4096) % 2 == 1)
        || (bit parts 0 && decide (0x400 + 256 * s.berth ≤ o ∧ o < 0x500 + 256 * s.berth))))
  match minBy (fun o => o) ((bufPoison s buf).filter read) with
  | some o => some (va + w64 o)
  | none =>
    if bit parts 2 && !bit parts 0 && s.anyPoison (.clm s.rank (256 * s.berth)) 256 then some (w64 (14 * 2 ^ 48 + 256 * s.berth)) else none
/-- The address of the poisoned unit, if it is poisoned, that holds VALID of the executing berth's slot: in the buffer, or in the
slot itself. -/
def validPoison (s : State) (buf : CtxBuf) (va : Word) (q : Bool) : Option Word :=
  let off := 256 * s.berth + 248
  if q then (if s.poisoned (buf.loc (0x400 + off)) then some (va + w64 (0x400 + off)) else none)
  else if s.poisoned (.clm s.rank off) then some (w64 (14 * 2 ^ 48 + off)) else none
/-- PREST (R305, R307): Q, L, B. A poisoned unit of the buffer or of the slot that would go where no poison can be kept traps
POISON, whatever PTE says, and the instruction has no effect (R339; DESIGN CHOICE, log 81). -/
def execPrest (d a b : BitVec 5) (s : State) : Host.Outcome State Fault Refusal :=
  s.finish (do
    s.checkPorts [a, b] d
    let parts := s.rx b
    let c := s.myCore
    let q := bit parts 0
    let l := bit parts 1
    let bb := bit parts 2
    let bad : Run State := stop .ill (wd 0xEE000001 [(d.toNat, 20), (a.toNat, 15), (b.toNat, 10)])
    if s.me.user || ((q || l) && !c.shut) || (bb && !(c.pre == .starting || c.pre == .restoring)) then bad
    else
      let (t, buf) ← openBuf s .read (s.rx a)
      let valid := if q then bit (bufGet t buf (0x400 + 256 * s.berth + 248)) 63 else slotValid t s.berth
      let accs := (if q then bufGet t buf (0x400 + 256 * s.berth + 248) else slotWord t s.berth 31).toNat % 256
      match if bb then validPoison t buf (s.rx a) q else none with
      | some v => stop .poison v
      | none =>
      if bb && !valid then bad
      else match restPoison t buf (s.rx a) parts accs with
      | some v => stop .poison v
      | none =>
        let same := s.rx a == c.bufAt
        let t1 := if q then restQ buf same t else t
        let t2 := if l then restL buf same t1 else t1
        let word := slotWord t2 s.berth 29
        let t3 := if bb then restB buf same t2 else t2
        .ok (t3.done (partTime parts accs) { srcs := [a, b], writes := if bb then [(d.toNat, word)] else [] }))

end Sys2Proof.Machine
end

