-- ==== Sys2Proof/Machine/Errors.lean ====
section
/-!
DEFINITION. Errors and repairs: checks and poison (R338 to R341), the error log (R346), counters and scrubbing (R344),
fatal errors and dumps (R342, R347 to R349), and the retirement of a cluster (R350, R351).
-/
namespace Sys2Proof.Machine
open State

/-! ### The error log and the counters (R344, R346) -/

/-- The first live launch whose rectangle holds a core, or 0. -/
def lidAt (s : State) (r : Nat) : Nat := match s.launches.find? fun l => l.live && l.inRect r with | some l => l.lid | none => 0
/-- The home slice of a physical address (R174). -/
def sliceOf (pa : Nat) : Nat := (pa / 2 ^ 10 % 512) ^^^ (pa / 2 ^ 19 % 512) ^^^ (pa / 2 ^ 28 % 512) ^^^ (pa / 2 ^ 37 % 512)
/-- The stack that holds a physical address (log 11). -/
def stackNo (pa : Nat) : Nat := Config.stackOf pa % 8
/-- Keys of the unit counters: three of a slice, three of a stack, two of a link; one for the corrections of each basin,
L1, instruction cache, translation unit, staircase store and pool, which R338 counts without naming a counter. -/
def sliceKey (n i : Nat) : Nat := 4 * n + i
def stackKey (n i : Nat) : Nat := 4096 + 4 * n + i
def linkKey (n i : Nat) : Nat := 8192 + 4 * n + i
def otherKey (kind n : Nat) : Nat := 131072 + 16384 * kind + n
def unitCount (s : State) (k : Nat) : Nat := (alGet s.lock.units k).getD 0
def countUnit (s : State) (k : Nat) : State := s.withLock fun l => { l with units := alSet l.units k ((alGet l.units k).getD 0 + 1) }

/-- Unit kind, number, launch and address of an error's place (R346). -/
def site (s : State) (un : ErrUnit) : Nat × Nat × Nat × Nat :=
  match un with
  | .clm r off => (0, r, lidAt s r, off)
  | .mem pa => (2, sliceOf pa, 0, pa)
  | .hbm pa => (3, stackNo pa, 0, pa)
  | .basin cl off => (1, cl, 0, off)
  | .l1 r asid va => (0, r, lidAt s r, match s.lineOf r asid va with | some l => l.pa * 1024 + va % 1024 | none => 0)
  | .icache r asid va => (0, r, lidAt s r, match (s.core r).icache.find? fun l => l.asid == asid && l.va == va / 128 with
    | some l => l.pa * 128 + va % 128 | none => 0)
  | .tlb cl asid gran => (1, cl, 0, match (s.cluster cl).tlb.find? fun e => e.asid == asid && e.gran == gran with
    | some e => leafPa e.big e.pte (gran * 65536) | none => 0)
  | .stair cl slot => (6, cl, match alGet (s.cluster cl).sslots slot with | some k => k.lid | none => 0, slot)
  | .acc r n _ => (0, r, lidAt s r, n)
  | .latch r h => (0, r, lidAt s r, h)
  | .reg r b => (0, r, (s.berthAt r b).lid, 0)
  | .pool r lid => (7, r, lid, 0)
  | .state r => (0, r, lidAt s r, 0)
  | .rankEntry r => (7, r, 0, 0)
  | .mesh r => (4, r, lidAt s r, 0)
  | .stack n => (3, n, 0, 0)
  | .package => (0, 0, 0, 0)
/-- An error of class cls at a place is logged. -/
def logAt (s : State) (cls : Nat) (un : ErrUnit) : State :=
  let (k, n, l, a) := site s un
  logErr s ⟨s.cycle, cls, k, n, l, a, 0⟩

/-! ### Dumps (R347 to R349) -/

/-- The unit-ready registers (R355). -/
def fixrdy (k : Lock) : Word :=
  w64 (k.nvme.toNat * 2 ^ 26 + k.links.toNat * 2 ^ 10 + k.hbm.toNat * 4 + (if k.pcie then 2 else 0) + (if k.running then 1 else 0))
def clcount (k : Lock) : Word := w64 (k.spares % 1024 * 2 ^ 32 + k.scReady.length % 1024 * 65536 + k.ready.length % 1024)
def bootst (k : Lock) : Word := w64 (k.slot * 16 + k.stage)
def fwverWord (k : Lock) : Word := k.fwver.setWidth 64
def readyWord (k : Lock) (i : Nat) : Word :=
  if i = 0 then fixrdy k else if i = 1 then clcount k else if i = 2 then bootst k else if i = 3 then fwverWord k else 0
/-- The rank table's entry of a rank (R266). -/
def rankWord (s : State) (r : Nat) : Nat :=
  match alGet s.lock.ranks (clusterOf r) with
  | some e => (if e.valid then 2 ^ 31 else 0) + (if e.transit then 2 ^ 30 else 0) + e.pcl * 2 ^ 20
      + (rowOf r % 4 * 4 + colOf r % 4) * 65536
  | none => 0
/-- Words 1 to 3 of a log record (R346). -/
def errWord (e : ErrRec) (i : Nat) : Word :=
  if i = 0 then w64 e.cycle
  else if i = 1 then w64 (e.lid % 65536 * 2 ^ 32 + e.num % 65536 * 65536 + e.unit * 256 + e.cls)
  else if i = 2 then w64 e.addr
  else w64 e.count

def dumpBase : Nat := 0x7FFC000000
/-- n dwords of a dump from an offset. -/
def dumpWords (off : Nat) (f : Nat → Word) (n : Nat) (s : State) : State :=
  iter (fun i t => llcPut t (dumpBase + off + 8 * i) 8 (f i).toNat) n s
/-- Dword i of a cluster record. -/
def clusterWord (s : State) (cl i : Nat) : Word :=
  let c := s.cluster cl
  if i = 0 then bascfg c
  else if i = 1 then engineWord s.cycle c
  else if i < 18 then barWord (barrier c (i - 2))
  else if i < 82 then (match alGet c.slu (i - 18) with | some k => sluWord k | none => 0)
  else if i = 82 then w64 c.walks.length
  else 0
/-- A per-berth CSR as a dump shows it; a gated berth's read 0 (R33, R348). -/
def dumpCsr (s : State) (r b n : Nat) : Word := if stateCode s r b = 6 then 0 else csrGet s r b n
/-- Dword i of a core record (R348). -/
def coreWord (s : State) (r i : Nat) : Word :=
  let c := s.core r
  if i < 160 then dumpCsr s r (i / 10) (i % 10)
  else if i < 171 then csrGet s r 0 (0x100 + (i - 160))
  else if i = 171 then hqctl c
  else if i = 172 then bstates s r
  else if i = 173 then bstatWord c
  else if i < 182 then
    let occ (b : Nat) : Nat := (upTo 8).foldl (fun n p =>
      let q := port (c.berth b) p
      n + (if p < 4 then q.q.length else q.undel) % 16 * 16 ^ p) 0
    w64 (occ (2 * (i - 174)) + occ (2 * (i - 174) + 1) * 2 ^ 32)
  else if i = 182 then
    (match c.pools with
     | p :: _ => w64 (p.used.length + p.free.length * 65536 + p.reclaimed % 65536 * 2 ^ 32 + p.audits.toNat * 2 ^ 48)
     | [] => 0)
  else if i < 187 then w64 ((c.acc (2 * (i - 183))).pois.toNat + (c.acc (2 * (i - 183) + 1)).pois.toNat * 2 ^ 32)
  else 0
/-- A dump of the whole device, with the record of the error that caused it. With the dump of a thermal trip core power goes,
and no cluster is ready any more; the lockhouse goes on (R359, log 78). -/
def writeDump (e : ErrRec) (s : State) : State :=
  let k := s.lock
  let seq := k.dumpSeq + 1
  let head (i : Nat) : Word :=
    if i = 0 then 0x1444D5031 else if i = 1 then w64 seq else if i = 2 then w64 e.cycle
    else if i < 6 then errWord e (i - 2) else if 8 ≤ i ∧ i < 16 then readyWord k (i - 8) else 0
  let stack (n i : Nat) : Word :=
    if i < 3 then w64 (unitCount s (stackKey n i)) else if i = 3 then b64 (k.hbm.getLsbD n) else 0
  let link (n i : Nat) : Word :=
    if i < 2 then w64 (unitCount s (linkKey n i)) else if i = 2 then b64 (k.links.getLsbD n) else 0
  let s1 := dumpWords 0 head 512 s
  let s2 := dumpWords 0x1000 (fun i => w64 (rankWord s (2 * i) + rankWord s (2 * i + 1) * 2 ^ 32)) 4608 s1
  let s3 := iter (fun cl => dumpWords (0x10000 + 1024 * cl) (clusterWord s cl) 128) 576 s2
  let s4 := iter (fun n => dumpWords (0xA0000 + 64 * n) (fun i => if i < 3 then w64 (unitCount s (sliceKey n i)) else 0) 8) 512 s3
  let s5 := iter (fun n => dumpWords (0xB0000 + 256 * n) (if n < 8 then stack n else link (n - 8)) 32) 24 s4
  let s6 := iter (fun r => dumpWords (0x100000 + 2048 * r) (coreWord s r) 256) 9216 s5
  let s7 := (upTo k.errs.length).foldl (fun t i => match k.errs[i]? with
    | some x => dumpWords (0x1300000 + 32 * i) (errWord x) 4 t
    | none => t) s6
  let wake (b : Berth) : Berth := if b.drowsy then { b with drowsy := false, lastIssue := s.cycle } else b
  let s8 : State := { s7 with cores := s7.cores.map fun e => (e.1, { e.2 with berths := e.2.berths.map wake }) }
  let s9 := (s8.withLock fun l => { l with dumpSeq := seq, dumping := true }).later 8388608 .dumpCopyDone
  if s.lock.trip = some e then { s9.withLock (fun l => { l with ready := [], scReady := [] }) with powerOff := true } else s9
/-- A dump once per fatal error; one that strikes during a dump or its copy waits (R349). -/
def takeDump (e : ErrRec) (s : State) : State :=
  if s.lock.dumping then s.withLock fun k => { k with dumpPend := k.dumpPend ++ [e] } else writeDump e s
/-- DUMP_COPY_DONE (R349). -/
def execDumpCopyDone (s : State) : Host.Outcome State Fault Refusal :=
  if !s.lock.dumping then .next s
  else
    let t := (s.withLock fun k => { k with dumping := false }).out (.nvme s.lock.dumpSeq s.lock.dumpDrive)
    match s.lock.dumpPend with
    | [] => .next t
    | e :: rest => .next (writeDump e (t.withLock fun k => { k with dumpPend := rest }))

/-! ### Fatal errors (R342) -/

/-- The cluster a fatal error strikes. -/
def fatalCluster (un : ErrUnit) : Option Nat :=
  match un with
  | .clm r _ | .l1 r _ _ | .icache r _ _ | .acc r _ _ | .latch r _ | .reg r _ | .pool r _ | .state r | .rankEntry r | .mesh r => some (clusterOf r)
  | .basin cl _ | .tlb cl _ _ | .stair cl _ => some cl
  | .mem _ | .hbm _ | .stack _ | .package => none
/-- Whether f holds below n. -/
def anyBelow (f : Nat → Bool) : Nat → Bool
  | 0 => false
  | n + 1 => f n || anyBelow f n
/-- Whether a table at PA t, of some level, maps a page that lies in part on stack n. -/
def tableMaps (s : State) (n t level : Nat) : Nat → Bool
  | 0 => false
  | fuel + 1 => anyBelow (fun i =>
      let e := w64 (llcGet s (t + 8 * i) 8)
      !s.poisoned (.hbm (t + 8 * i)) && pteV e && !pteBad s.lock.dev level e &&
        (if ptePointer e then tableMaps s n (fld e 15 33 * 2 ^ 15) (level + 1) fuel
         else !pteRmt e && anyBelow (fun k => stackNo (fld e 16 32 * 65536 + 1024 * k) == n)
           (if level = 2 then 262144 else 64))) 4096
def mapsStack (s : State) (asid n : Nat) : Bool :=
  let c := s.ctx asid
  c.getLsbD 63 && tableMaps s n (fld c 15 33 * 2 ^ 15) 1 3
/-- Whether a fatal error brings a live launch to ABORTED. -/
def struck (s : State) (un : ErrUnit) (l : Launch) : Bool :=
  l.live && (match un with
    | .package => true
    | .stack n => mapsStack s l.asid n
    | _ => match fatalCluster un with | some cl => l.clusters.contains cl | none => false)
/-- Whether a message in flight carries a barge of the launch. -/
def carries (lid : Nat) (i : Instr) : Bool := msgBarge i == some lid
/-- A launch is stopped at once: its barges go from berths, queues and the mesh. -/
def abortLaunch (s : State) (l : Launch) : State :=
  let s1 := cancelLaunch s l.lid
  let s2 := { s1 with
    agenda := s1.agenda.filter fun e => !carries l.lid e.2
    held := s1.held.filter fun e => !carries l.lid e.2 }
  let gone (r b : Nat) (t : State) : State :=
    if (t.berthAt r b).hdr.isSome && (t.berthAt r b).lid == l.lid then
      removeBarge (if t.inBuffer r b then (t.modCore r fun c => { c with buffer := none }).drainAfter r (t.waitOf r 16) else t) r b
    else t
  endLaunch (l.ranks.foldl (fun t r => iter (gone r) 16 t) s2) l.lid 5
/-- The record of a fatal error at a place (R346). -/
def fatalRec (s : State) (un : ErrUnit) : ErrRec :=
  let (k, n, l, a) := site s un
  ⟨s.cycle, 4, k, n, l, a, 0⟩
/-- A fatal error that strikes `un`, found at the place `found`: launches ABORTED, a dump, and the cluster's repair. -/
def fatalAt (s : State) (un found : ErrUnit) : State :=
  let e := fatalRec s found
  let s1 := logErr s e
  let s2 := (s1.launches.filter (struck s un)).foldl abortLaunch s1
  let s3 := takeDump e s2
  match fatalCluster un with
  | some cl => s3.withLock fun k => { k with failing := alSet k.failing cl true }
  | none => s3
def fatal (s : State) (un : ErrUnit) : State := fatalAt s un un
/-- FATAL_ERROR (R342). -/
def execFatalError (un : ErrUnit) (s : State) : Host.Outcome State Fault Refusal := .next (fatal s un)

/-! ### Errors in arrays and on links (R338 to R341, R345) -/

/-- A cluster is to be retired, its state moved (R350). -/
def markFailing (s : State) (cl : Nat) : State :=
  s.withLock fun k => { k with failing := if (alGet k.failing cl).isSome then k.failing else alSet k.failing cl false }
/-- A corrected CLM error counts toward CORRMAX (R350). -/
def clmCorrected (s : State) (r : Nat) : State :=
  let recent := (s.lock.corr ++ [(r, s.cycle)]).filter fun e => decide (s.cycle - e.2 ≤ 2 ^ 32)
  let s1 := (s.countField r 48).withLock fun k => { k with corr := recent }
  if s.lock.corrMax < (recent.filter fun e => e.1 == r).length then markFailing s1 (clusterOf r) else s1
/-- ECC_CORRECTED (R338): the data stands; it is counted and logged. An instruction-cache line is fetched again, a
translation is walked again. -/
def execEccCorrected (un : ErrUnit) (s : State) : Host.Outcome State Fault Refusal :=
  let t := logAt s 1 un
  .next (match un with
    | .clm r _ => clmCorrected t r
    | .mem pa => countUnit t (sliceKey (sliceOf pa) 0)
    | .hbm pa => countUnit t (stackKey (stackNo pa) 0)
    | .basin cl _ => countUnit t (otherKey 0 cl)
    | .l1 r _ _ => countUnit t (otherKey 1 r)
    | .icache r asid va => (countUnit t (otherKey 2 r)).modCore r fun c =>
        { c with icache := c.icache.filter fun l => !(l.asid == asid && l.va == va / 128) }
    | .tlb cl asid gran => (countUnit t (otherKey 3 cl)).modCluster cl fun c =>
        { c with tlb := c.tlb.filter fun e => !(e.asid == asid && e.gran == gran) }
    | .stair cl _ => countUnit t (otherKey 4 cl)
    | .pool r _ => countUnit t (otherKey 5 r)
    | _ => s)
/-- The parts of a core's CLM whose loss poison cannot carry: save area, queue, its control words and frame records (R147,
R342). -/
def clmFatal (off : Nat) : Bool := decide (off < 0x8000)
/-- Whether a unit of HBM lies in a packet's 288 bytes at an address of a launch. -/
def packetAt (s : State) (l : Launch) (pa va : Nat) : Bool :=
  (upTo 36).any fun i => match lhPa s l (va + 8 * i) with | some (_, p) => p / 8 == pa / 8 | none => false
/-- The core whose spilled or parked packet, or whose context buffer, holds a unit of HBM (R342, log 77). -/
def hbmOwner (s : State) (pa : Nat) : Option Nat :=
  let packets (l : Launch) : Option Nat :=
    match l.parked.find? fun e => packetAt s l pa (parkAt l e.1 + 288 * e.2.1) with
    | some e => some e.1
    | none => l.ranks.find? fun r => (s.core r).spillq.any fun e => e.1.hdr.lid.toNat == l.lid && packetAt s l pa (overflowAt l r + 288 * e.2.2)
  match (s.launches.filter Launch.live).findSome? packets with
  | some r => some r
  | none => (s.cores.find? fun e => e.2.pre != .none && e.2.bufPas.any fun g => decide (g ≤ pa ∧ pa < g + 65536)).map fun e => e.1
/-- A unit of an L1 is lost: of a clean one the copy is poisoned, of a dirty one the stored bytes are (R338, R341). -/
def loseUnit (u : Nat) (l : Line) : Line :=
  if fld l.dirty (8 * u) 8 != 0 then { l with lost := setBit l.lost u true }
  else if fld l.valid (8 * u) 8 != 0 then { l with pois := setBit l.pois u true } else l
/-- A unit of a basin bank is lost (R338): a word of SCRATCH, an entry of a FIFO, or a unit of a line of the cluster cache. R171
does not say where an entry or a line lies in its bank: here unit n of a FIFO is its n-th entry from the oldest, and a CACHE
bank holds the line of each set that its place among the CACHE banks numbers (DESIGN CHOICE, log 9). -/
def poisonBank (s : State) (cl off : Nat) : State :=
  let n := off / 131072
  let u := off % 131072 / 8
  let b := s.bankOf cl n
  if b.next.isSome then s
  else if b.mode = 1 then s.setPoison (.basin cl off) true
  else if b.mode = 2 then s.modBank cl n fun b => { b with fifo := b.fifo.zipIdx.map fun e => (e.1.1, e.1.2 || e.2 == u) }
  else
    let way := ((upTo n).filter fun i => (s.bankOf cl i).mode == 0 && (s.bankOf cl i).next.isNone).length
    match ((s.cluster cl).bcache.filter fun l => l.pa % 128 == u / 128)[way]? with
    | none => s
    | some o => s.modCluster cl fun c => { c with bcache := c.bcache.map fun l =>
        if l.pa = o.pa then { l with pois := setBit l.pois (u % 128) true } else l }
/-- A unit of memory is lost (R338): a packet or a context buffer there is a fatal error (R342), any other unit is poisoned. -/
def loseMem (s : State) (counted : State → State) (un : ErrUnit) (pa : Nat) : State :=
  match hbmOwner s pa with
  | some r => fatalAt (counted s) (.state r) un
  | none => (counted (logAt s 2 un)).setPoison (.hbm pa) true
/-- ECC_UNCORRECTABLE (R338, R341, R342, R345, R350). Parity-protected clean copies never meet one. -/
def execEccUncorrectable (un : ErrUnit) (s : State) : Host.Outcome State Fault Refusal :=
  let t := logAt s 2 un
  .next (match un with
    | .clm r off =>
      if clmFatal off then fatal (s.countField r 32) un
      else markFailing ((t.countField r 32).setPoison (.clm r off) true) (clusterOf r)
    | .mem pa => loseMem s (fun t => countUnit (countUnit t (sliceKey (sliceOf pa) 1)) (sliceKey (sliceOf pa) 2)) un pa
    | .hbm pa => loseMem s (fun t => countUnit t (stackKey (stackNo pa) 1)) un pa
    | .basin cl off => markFailing (poisonBank t cl off) cl
    | .l1 r asid va =>
      let hit (l : Line) : Line := if l.asid = asid ∧ l.va = va / 1024 then loseUnit (va % 1024 / 8) l else l
      (t.countField r 32).modCore r fun c => { c with l1 := c.l1.map hit }
    | .icache _ _ _ | .tlb _ _ _ => s
    | .stair cl slot => markFailing (t.modCluster cl fun c => { c with scBad := nsAdd c.scBad slot }) cl
    | .acc r n row => (t.countField r 32).modCore r fun c =>
        let a := c.acc n
        c.setAcc n { a with data := setRow a.data row nanRow, pois := setBit a.pois row true }
    | .latch r h => (t.countField r 32).modCore r fun c => c.setHalf h { c.half h with pois := true }
    | .pool r lid => (t.countField r 32).modPool r lid fun p => { p with bad := true }
    | .reg r _ | .state r | .rankEntry r => fatal (s.countField r 32) un
    | .mesh _ | .stack _ | .package => fatal s un)

/-- Whether something in flight is a mesh message. -/
def inMesh (i : Instr) : Bool := (msgRank i).isSome || (match i with | .replyArrival _ _ => true | _ => false)
/-- FLIT_CRC_ERROR (R338, R340): the hop resends, until the eighth failure; a free-slot return is dropped and counted in
RECV of its launch. -/
def execFlitCrcError (fl : FlitErr) (s : State) : Host.Outcome State Fault Refusal :=
  .next (match s.agenda[fl.idx]? with
    | none => s
    | some (_, i) =>
      let dropped := { s with agenda := s.agenda.eraseIdx fl.idx }
      match i with
      | .freeSlotReturn r _ lid => dropped.incRecv r lid.val
      | _ =>
        if !inMesh i then s
        else if fl.fails < 8 then s
        else fatal dropped (.mesh fl.rank))
/-- LINK_FLIT_ERROR (R281, R338): a flit of the link fails, in a retry of the last one that did when the second
component says so; the error is corrected by the retry and logged so (log 79). A link that fails 16 retries of one flit goes down. -/
def execLinkFlitError (link : Nat × Bool) (s : State) : Host.Outcome State Fault Refusal :=
  let again := link.2
  let link := link.1
  if 16 ≤ link ∨ !s.lock.links.getLsbD link then .next s
  else
    let n := (if again then (alGet s.lock.linkTry link).getD 0 else 0) + 1
    let t := countUnit (logErr s ⟨s.cycle, 1, 5, link, 0, 0, 0⟩) (linkKey link 0)
    .next (if n ≤ 16 then t.withLock fun k => { k with linkTry := alSet k.linkTry link n }
      else (countUnit t (linkKey link 1)).withLock fun k =>
        { k with linkTry := alDel k.linkTry link, links := setBit k.links link false })

/-! ### Scrubbing and telemetry (R344) -/

/-- The line whose scrub is due: the stacks in turn, one line every 2,048 cycles, a pass in 2^40. -/
def scrubNext (s : State) : Option (Nat × Nat) :=
  if s.lock.running && s.lock.hbm != 0 && decide (s.lock.scrubAt ≤ s.cycle) then
    some (s.lock.scrubAt / 2048 % 8, s.lock.scrubAt / 16384 % 2 ^ 26)
  else none
/-- SCRUB (R344): a line is read and written back corrected; the last line of a stack ends a pass. -/
def execScrub (stack line : Nat) (s : State) : Host.Outcome State Fault Refusal :=
  if scrubNext s ≠ some (stack, line) then .next s
  else
    let t := s.withLock fun k => { k with scrubAt := k.scrubAt + 2048 }
    .next (if line = 2 ^ 26 - 1 then countUnit t (stackKey stack 2) else t)
/-- A reading added to a 64-bit total. -/
def addTotal (k : Lock) (i v : Nat) : Lock :=
  if v = 0 then k else { k with telem := alSet k.telem i (((alGet k.telem i).getD 0 + v) % 2 ^ 64) }
/-- A core's counters are read: four totals. -/
def readCore (s : State) (r : Nat) : State :=
  let e := (s.core r).ecccnt
  s.withLock fun k => iter (fun i k => addTotal k (65536 + 4 * r + i) (fld e (16 * i) 16)) 4 k
def pollDue (s : State) : Bool := s.lock.running && decide (s.lock.pollAt ≤ s.cycle)
/-- TELEMETRY_POLL (R344). -/
def execTelemetryPoll (s : State) : Host.Outcome State Fault Refusal :=
  if !pollDue s then .next s
  else
    let t := s.cores.foldl (fun t e => readCore t e.1) s
    .next (t.withLock fun k => { (k.units.foldl (fun k e => addTotal k e.1 e.2) k) with pollAt := s.cycle + 16777216 })

/-! ### Retiring a cluster (R350, R351) -/

/-- Whether no berth of a core holds a barge, or runs for a request or a restore. -/
def vacant (c : Core) : Bool := c.buffer.isNone && c.berths.toList.all fun k => k.hdr.isNone && !k.started
/-- A core of a cluster that is to be moved: stopped by its pre-emption. One with no berth that could take the pre-emption
(R302) runs on until its disabled berths hold no barge (R31, DEDUCED, log 44). -/
def stillCore (c : Core) : Bool := stopReady c || ((leadBerth c).isNone && vacant c)
/-- Whether the lockhouse can retire cluster cl now, or end the move of its state. -/
def retireDue (s : State) (cl : Nat) : Bool :=
  match alGet s.lock.failing cl with
  | none => false
  | some true => true
  | some false => match alGet s.lock.moving cl with
    | some t => decide (t ≤ s.cycle)
    | none => (ringRanks cl).all fun r => stillCore (s.core r)
/-- A core whose pre-emption the repair still needs. -/
def retireAsk (s : State) (cl : Nat) : Option Nat :=
  match alGet s.lock.failing cl with
  | some false => (ringRanks cl).find? fun r => (s.core r).pre == .none && (leadBerth (s.core r)).isSome
  | _ => none
/-- A core moved to a spare, its berths' registers with it (R351): its caches start empty. -/
def movedCore (c : Core) : Core := { c with l1 := [], icache := [], l1Busy := 0 }
def movedCluster (c : Cluster) : Cluster := { c with bcache := [], tlb := [], walks := [] }
/-- A core's CLM, full bits and poison are gone. -/
def clearClm (s : State) (r : Nat) : State :=
  let lo := clmBase + r * 131072
  let inK (k : Nat) : Bool := decide (lo ≤ k ∧ k < lo + 131072)
  { s with mem := s.mem.filter fun e => !inK e.1, full := s.full.filter fun u => !inK (8 * u), poison := s.poison.filter fun u => !inK (8 * u) }
/-- Every rank of a cluster, its basin and units empty. -/
def emptyCluster (s : State) (cl : Nat) : State :=
  let t := (ringRanks cl).foldl (fun t r => (clearClm t r).setCore r Core.reset) s
  (iter (fun n t => clearBank t cl n) 16 t).setCluster cl Cluster.reset
/-- The cluster is no longer to be retired, and its corrected errors count anew. -/
def repaired (cl : Nat) (k : Lock) : Lock :=
  { k with failing := alDel k.failing cl, moving := alDel k.moving cl, corr := k.corr.filter fun e => clusterOf e.1 != cl }
/-- The spare's entry for the ranks of a cluster. -/
def onSpare (cl : Nat) (k : Lock) : Lock :=
  { k with spares := k.spares - 1, ranks := alSet k.ranks cl ⟨true, false, Config.spareCluster (k.spares - 1)⟩ }
/-- A moved core is restored by R307. -/
def restored (s : State) (r : Nat) : State :=
  let c := movedCore (s.core r)
  let u := s.setCore r c
  if c.pre = .stopped then
    match leadBerth c with
    | some b => (startBerth u r b true c.bufAt).modCore r fun c => { c with pre := .starting, waiting := none }
    | none => u
  else u
/-- CLUSTER_RETIRE (R350, R351): after a fatal error the spare takes the ranks empty. Else, once its cores are stopped, the
ranks are in TRANSIT while the state is copied, and then stand on the spare, the cores restored. Without a spare the ranks
become invalid, and their cores stay stopped (R357). -/
def execClusterRetire (cl : Nat) (s : State) : Host.Outcome State Fault Refusal :=
  if !retireDue s cl then .next s
  else
    let hard := (alGet s.lock.failing cl).getD false
    let s0 := if hard then emptyCluster s cl else s
    if s.lock.spares = 0 then
      .next (s0.withLock fun k => { repaired cl k with
        ranks := alSet k.ranks cl ⟨false, false, 0⟩, ready := nsDel k.ready cl, scReady := nsDel k.scReady cl })
    else if hard then .next (s0.withLock fun k => onSpare cl (repaired cl k))
    else if (alGet s.lock.moving cl).isNone then
      -- what a core without an enabled berth has left dirty reaches the LLC as PSPILL Q's release would (R306)
      let t := (ringRanks cl).foldl State.release s
      .next (t.withLock fun k => { k with
        moving := alSet k.moving cl (s.cycle + 139264)
        ranks := match alGet k.ranks cl with | some e => alSet k.ranks cl { e with transit := true } | none => k.ranks })
    else
      .next (((ringRanks cl).foldl restored (s.withLock fun k => onSpare cl (repaired cl k))).modCluster cl movedCluster)

end Sys2Proof.Machine
end

