-- ==== Sys2Proof/Machine/Boot.lean ====
section
/-!
DEFINITION. Bring-up (R353 to R357), attestation (R358), power and temperature (R359), the board port (R360), and the
writes of registers that have no step of their own (R271, R295, R300, R358).
-/
namespace Sys2Proof.Machine
open State

/-! ### Boot -/

/-- A number as n bytes, low first. -/
def bytesOf (n : Nat) {w : Nat} (x : BitVec w) : List Byte := toBytes n x.toNat
/-- Bytes 0 to 47 of a slot's header (R354). -/
def slotHead (f : FwSlot) : List Byte := bytesOf 4 f.magic ++ bytesOf 4 f.ver ++ bytesOf 4 f.len ++ toBytes 4 0 ++ bytesOf 32 f.dig
/-- Whether the ROM accepts a slot (R354): the LEN bytes after its header are the image, which fits in the SRAM. -/
def slotOk (f : FwSlot) : Bool :=
  f.image.length == f.len.toNat && decide (f.len.toNat ≤ 8 * 2 ^ 20 - 256)
    && Config.sm3 (bytesOf 64 f.pub) == Config.fusedKey && Config.sm3 f.image == f.dig
    && Config.sm2Verify (slotHead f) f.sig f.pub && decide (Config.fusedMinVer ≤ f.ver.toNat)
/-- The slot booted: the valid one of the higher version, A of equals. -/
def bootSlot (a b : Option FwSlot) : Option (Nat × FwSlot) :=
  match a.filter slotOk, b.filter slotOk with
  | some x, some y => if x.ver.toNat < y.ver.toNat then some (0xB, y) else some (0xA, x)
  | some x, none => some (0xA, x)
  | none, some y => some (0xB, y)
  | none, none => none
/-- A cluster that passes its tests: its rank entries, then its ready bits (R353, R356). -/
def bringUp (stairs : List Nat) (k : Lock) (cl : Nat) : Lock :=
  if 576 ≤ cl then k
  else { k with
    ranks := alSet k.ranks cl ⟨true, false, cl⟩
    ready := nsAdd k.ready cl
    scReady := if stairs.contains cl then nsAdd k.scReady cl else k.scReady }
/-- What slot n of drive d holds: what the firmware has written there, else what the drive came with (R354). -/
def slotOn (k : Lock) (d n : Nat) (f : Option FwSlot) : Option FwSlot := match alGet k.written (2 * d + n) with | some g => some g | none => f
/-- The drive the ROM reads, and its slots: drive 0, or drive 1 when drive 0 does not answer (R353). -/
def bootDrive (k : Lock) (bt : BootInput) : Option (Nat × Option FwSlot × Option FwSlot) :=
  match bt.drive0, bt.drive1 with
  | some (a, b), _ => some (0, slotOn k 0 0 a, slotOn k 0 1 b)
  | none, some (a, b) => some (1, slotOn k 1 0 a, slotOn k 1 1 b)
  | none, none => none
/-- The boot stops (R353, R356). -/
def bootFails (k : Lock) : Lock := { k with stage := 0xF, boot := none }
/-- The next of the boot's steps (R353 to R356): the ROM verifies and loads an image; the firmware trains the stacks, then the
links; it tests the clusters, one after the other, and brings up the endpoint. How long a step takes is not modelled; one is
made in a cycle (log 52). -/
def bootStep (now : Nat) (bt : BootInput) (k0 : Lock) : Lock :=
  let k := { k0 with bootAt := now + 1 }
  match k.stage with
  | 1 =>
    let bits : BitVec 2 := BitVec.ofNat 2 ((if bt.drive0.isSome then 1 else 0) + if bt.drive1.isSome then 2 else 0)
    let k1 := { k with nvme := bits }
    match bootDrive k bt with
    | none => bootFails k1
    | some (d, a, b) => match bootSlot a b with
      | none => bootFails k1
      | some (n, f) => { k1 with
          drive := d, slot := n, fwver := f.ver, fwdig := f.dig, sram := f.image, running := true, stage := 2
          plim := bt.plim.getD 3600, plimNext := bt.plim.getD 3600, corrMax := bt.corrMax.getD 256, dumpDrive := bt.dumpDrive.getD d
          scrubAt := now + 2048, pollAt := now + 16777216 }
  | 2 => if bt.hbm = 0xFF then { k with hbm := bt.hbm, stage := 3 } else bootFails { k with hbm := bt.hbm }
  | 3 => { k with links := bt.links, dev := bt.dev, spares := bt.spares, toTest := bt.clusters, stage := 4 }
  | _ => match k.toTest with
    | cl :: rest => { bringUp bt.stairs k cl with toTest := rest }
    | [] => { k with stage := 5, pcie := true, boot := none }
/-- Whether a step of the boot is due. -/
def bootDue (s : State) : Option BootInput := if s.lock.bootAt ≤ s.cycle then s.lock.boot else none
/-- POWER_ON_RESET (R353): the device at its reset contents, and the ROM starts. What the firmware has written to the drives
stands. -/
def execPowerOnReset (bt : BootInput) (s : State) : Host.Outcome State Fault Refusal :=
  .next { State.reset with
    lock := { Lock.reset with stage := 1, boot := some bt, written := s.lock.written }, inputs := s.inputs, outs := s.outs, free := s.free }
/-- A firmware image is updated (R354): verified, it goes into the slot that the firmware does not run from. -/
def updateImage (s : State) (f : FwSlot) : State :=
  if s.lock.running && slotOk f then
    s.withLock fun k => { k with written := alSet k.written (2 * k.drive + if k.slot = 0xA then 1 else 0) f }
  else s
/-- PCIE_CONFIGURATION_REQUEST (R353): retry status until the endpoint is ready. -/
def execPcieConfigurationRequest (rq : Nat) (s : State) : Host.Outcome State Fault Refusal :=
  .next (s.out (if s.lock.pcie then .config false (Config.configReply rq) else .config true 0))

/-! ### Reading BAR0 (R271, R300, R355, R358) -/

/-- Word w of an array of ready bits: bit j belongs to logical cluster 64w + j. -/
def readyBits (l : List Nat) (w : Nat) : Word := w64 ((upTo 64).foldl (fun n j => n + if l.contains (64 * w + j) then 2 ^ j else 0) 0)
/-- The registers of the job queue and of shootdowns, from offset 0 (R271). -/
def queueWord (k : Lock) (i : Nat) : Word :=
  match i with
  | 0 => k.jqbase | 1 => k.jqsize | 2 => k.jqtail | 3 => k.jqhead | 5 => k.bar2off | 6 => k.tlbinv | 7 => k.tlbva | 8 => k.tlblen
  | _ => 0
/-- Word i of a core's debug block (R300); reading DATA wakes a drowsy file. -/
def debugBlock (s : State) (r i : Nat) : State × Word :=
  match i with
  | 0 => (s, bstates s r) | 1 => (s, (s.core r).dbgctl) | 2 => (s, (s.core r).dbgsel) | 3 => debugRead s r
  | _ => (s, 0)
/-- What an 8-byte read of BAR0 returns. The opcode table has no step for it. -/
def bar0Read (s : State) (off : Nat) : State × Word :=
  let k := s.lock
  let i := off / 8
  if i < 9 then (s, queueWord k i)
  else if 0x20 ≤ i ∧ i < 0x28 then (s, readyWord k (i - 0x20))
  else if 0x40 ≤ i ∧ i < 0x49 then (s, readyBits k.ready (i - 0x40))
  else if 0x50 ≤ i ∧ i < 0x59 then (s, readyBits k.scReady (i - 0x50))
  else if 0x80 ≤ i ∧ i < 0x84 then (s, vget k.atnonce (i - 0x80) 0)
  else if i = 0x84 then (s, k.ataddr)
  else if i = 0x85 then (s, b64 k.atgo)
  else if 0x200 ≤ i ∧ i < 0x300 then (s, s.ctx (i - 0x200))
  else if 0x20000 ≤ i ∧ i < 0x20000 + 8 * 9216 then debugBlock s ((i - 0x20000) / 8) (i % 8)
  else (s, 0)

/-! ### Attestation (R358) -/

/-- ATGO_WRITE (R358). -/
def execAtgoWrite (v : BitVec 64) (s : State) : Host.Outcome State Fault Refusal :=
  .next (if bit v 0 && !s.lock.atgo then (s.withLock fun k => { k with atgo := true }).later 1000000 .attestReportDone else s)
/-- Bytes 0 to 191 of the report. -/
def reportBody (k : Lock) : List Byte :=
  bytesOf 32 Config.romDigest ++ bytesOf 32 k.fwdig ++ ((upTo 4).map fun i => bytesOf 8 (vget k.atnonce i 0)).flatten
    ++ bytesOf 4 k.fwver ++ bytesOf 4 (bootst k) ++ toBytes 88 0
def report (k : Lock) : List Byte := reportBody k ++ bytesOf 64 (Config.sm2Sign (reportBody k))
/-- ATTEST_REPORT_DONE (R358): the report stands at the LLC, and ATGO clears. -/
def execAttestReportDone (s : State) : Host.Outcome State Fault Refusal :=
  if !s.lock.atgo then .next s
  else
    let pa := s.lock.ataddr.toNat / 256 * 256
    .next ((llcPut s pa 256 (ofBytes (report s.lock))).withLock fun k => { k with atgo := false })

/-! ### Power and temperature (R359) -/

def total (l : List Nat) : Nat := l.foldl (fun a b => a + b) 0
/-- POWER_MEASUREMENT (R359, R360): the new PLIM takes effect; the clock follows the average of the last 10 ms. -/
def execPowerMeasurement (watts : Nat) (s : State) : Host.Outcome State Fault Refusal :=
  .next (s.withLock fun k =>
    let l := (watts :: k.samples).take 10
    let n := l.length
    let lim := k.plimNext
    let low := decide (100 * total l ≤ 95 * lim * n)
    let k1 := { k with plim := lim, samples := l, power := watts }
    if lim * n < total l then { k1 with clock := Nat.max 1200 (k.clock - 100), lowFor := 0 }
    else if low && decide (99 ≤ k.lowFor) then { k1 with clock := Nat.min 1800 (k.clock + 100), lowFor := 0 }
    else { k1 with lowFor := if low then k.lowFor + 1 else 0 })
/-- THERMAL_TRIP (R359), with the hottest junction in eighths of a degree (R360): at 105 degrees a fatal error of the package;
core power goes after the dump. -/
def execThermalTrip (temp : Int) (s : State) : Host.Outcome State Fault Refusal :=
  let t := s.withLock fun k => { k with temp := temp }
  .next (if temp < 840 then t
    else fatal (t.withLock fun k => { k with trip := k.trip <|> some (fatalRec s .package) }) .package)

/-! ### The board port (R360) -/

/-- One bit step of the Packet Error Code, SMBus's CRC-8 with polynomial x^8 + x^2 + x + 1 (PRESUMED: R360 names the code of
SMBus 3.1 and does not give it, log 76). -/
def pecBit (c : Byte) : Byte := if c.getLsbD 7 then (c <<< 1) ^^^ 7 else c <<< 1
def pec (l : List Byte) : Byte := l.foldl (fun c b => iter (fun _ c => pecBit c) 8 (c ^^^ b)) 0
/-- The target's address byte, for a write and for a read (R360). -/
def smbusAddr (read : Bool) : Byte := if read then 0x99 else 0x98
/-- The answer to a read command: its data, and the code over the whole transaction. -/
def smbusAnswer (s : State) (cmd : Byte) (data : List Byte) : State :=
  s.out (.smbus (data ++ [pec ([smbusAddr false, cmd, smbusAddr true] ++ data)]))
/-- A block's data follow their count. -/
def smbusBlock (data : List Byte) : List Byte := BitVec.ofNat 8 data.length :: data
/-- SMBUS_READ_POWER (R360). -/
def execSmbusReadPower (s : State) : Host.Outcome State Fault Refusal := .next (smbusAnswer s 1 (toBytes 2 s.lock.power))
/-- SMBUS_READ_TEMPERATURE (R360): in eighths of a degree, signed. -/
def execSmbusReadTemperature (s : State) : Host.Outcome State Fault Refusal :=
  .next (smbusAnswer s 2 (bytesOf 2 (BitVec.ofInt 16 s.lock.temp)))
/-- SMBUS_READ_READY (R360). -/
def execSmbusReadReady (s : State) : Host.Outcome State Fault Refusal :=
  .next (smbusAnswer s 3 (smbusBlock (bytesOf 8 (fixrdy s.lock) ++ bytesOf 8 (clcount s.lock))))
/-- The code of a write of PLIM. -/
def plimPec (w : Nat) : Byte := pec ([smbusAddr false, 4] ++ toBytes 2 w)
/-- SMBUS_WRITE_PLIM (R360), with its code: in force at the next measurement; other values, and a transaction whose code fails, are answered
with NACK. -/
def execSmbusWritePlim (w : Nat × BitVec 8) (s : State) : Host.Outcome State Fault Refusal :=
  .next (if 1000 ≤ w.1 ∧ w.1 ≤ 3600 ∧ w.2 = plimPec w.1 then s.withLock fun k => { k with plimNext := w.1 } else s.out .nack)
/-- SMBUS_READ_BOOT (R360). -/
def execSmbusReadBoot (s : State) : Host.Outcome State Fault Refusal :=
  .next (smbusAnswer s 5 (smbusBlock (bytesOf 4 (bootst s.lock) ++ bytesOf 4 s.lock.fwver)))

/-! ### Other registers (R271, R295, R300, R358) -/

/-- A DBGCTL write: BRKH and TRAPD, then the halts, then the resumes (R300, R301). -/
def writeDbgctl (s : State) (r : Nat) (v : Word) : State :=
  let t := s.modCore r fun c => { c with dbgctl := v &&& 0x300000000 }
  let u := match execDebugHalt r (v.setWidth 16) t with | .next u => u | _ => t
  match execDebugResume r (v.extractLsb' 16 16) u with | .next w => w | _ => u
/-- REGISTER_WRITE (R271, R277, R295, R300, R354, R358, R360). -/
def execRegisterWrite (reg : DevReg) (v : BitVec 64) (s : State) : Host.Outcome State Fault Refusal :=
  .next (match reg with
    | .jqbase => s.withLock fun k => { k with jqbase := v &&& 0xFFFFFFFFFFFFF000 }
    | .jqsize => s.withLock fun k => { k with jqsize := v }
    | .bar2off => s.withLock fun k => { k with bar2off := v }
    | .tlbva => s.withLock fun k => { k with tlbva := v }
    | .tlblen => s.withLock fun k => { k with tlblen := v }
    | .atnonce n => if s.lock.atgo then s else s.withLock fun k => { k with atnonce := vset k.atnonce n v }
    | .ataddr => if s.lock.atgo then s else s.withLock fun k => { k with ataddr := v }
    | .dbgctl r => if r < 9216 then writeDbgctl s r v else s
    | .dbgsel r => if r < 9216 then s.modCore r fun c => { c with dbgsel := v &&& 0xFFF } else s
    | .csr r b n => if r < 9216 ∧ b < 16 then s.csrPut r b n v else s
    | .tlbinv => writeTlbinv s v
    | .plim => s.withLock fun k => { k with plimNext := v.toNat }
    | .image f => updateImage s f)

end Sys2Proof.Machine
end

