-- ==== Sys2Proof/Machine/Sample.lean ====
section
/-!
DEFINITION. Counter-based draws and the override table (R328 to R330), and sampling (R331 to R333).
-/
namespace Sys2Proof.Machine
open State

/-! ### The override table (R329) -/

/-- Reads of the table, at the LLC; a fault traps LOADF. A poisoned unit is met as a load meets it: POISON, or without PTE
it reads 0 and counts once (R339, R188; DESIGN CHOICE, log 81). -/
abbrev Tbl := StateT State Run
def tblByte (w : Who) (va : Nat) : Tbl Nat := fun t =>
  if 13 * 2 ^ 48 ≤ va then stop .loadf (w64 va)
  else match t.xlate (clusterOf w.rank) w .read va with
    | (u, some (_, pa)) =>
      if !u.poisoned (.hbm pa) then .ok ((u.readByte (.hbm pa)).toNat, u)
      else if u.me.pte then stop .poison (unitVa (w64 va))
      else .ok (0, if va % 8 = 0 then u.countPoison w.rank u.me.lid pa else u)
    | (_, none) => stop .loadf (w64 va)
def tblRead (w : Who) (va : Nat) : Nat → Tbl Nat
  | 0 => pure 0
  | n + 1 => do
    let lo ← tblRead w va n
    let b ← tblByte w (va + n)
    pure (lo + b * 256 ^ n)
/-- The binary search for a counter: its entry's w3:w2:w1:w0. -/
def tblFind (w : Who) (base key : Nat) : Nat → Nat → Nat → Tbl (Option Nat)
  | 0, _, _ => pure none
  | f + 1, lo, hi =>
    if hi ≤ lo then pure none
    else do
      let mid := (lo + hi) / 2
      let e ← tblRead w (base + 64 + 32 * mid) 32
      if e % 2 ^ 128 = key then pure (some (e / 2 ^ 128))
      else if e % 2 ^ 128 < key then tblFind w base key f (mid + 1) hi
      else tblFind w base key f lo mid

def rngOvr (b : Berth) : Bool := bit b.rngsrc 0
/-- ceil(log2(N + 1)). -/
def bitLen (n : Nat) : Nat := if n = 0 then 0 else log2 n + 1
/-- The block of a counter, and what its lookup costs (R328, R329). -/
def drawBlock (b : Berth) (w : Who) (seed : Word) (c0 c1 c2 c3 : W32) : Tbl (W32 × W32 × W32 × W32 × Nat) := do
  let (p0, p1, p2, p3) := philox seed c0 c1 c2 c3
  if !rngOvr b then pure (p0, p1, p2, p3, 0)
  else do
    let base := fld b.rngsrc 6 46 * 64
    let n ← tblRead w base 4
    let key := c3.toNat * 2 ^ 96 + c2.toNat * 2 ^ 64 + c1.toNat * 2 ^ 32 + c0.toNat
    let cost := 110 * (1 + bitLen n)
    match ← tblFind w base key 33 0 n with
    | some v => pure (BitVec.ofNat 32 v, BitVec.ofNat 32 (v / 2 ^ 32), BitVec.ofNat 32 (v / 2 ^ 64), BitVec.ofNat 32 (v / 2 ^ 96), cost)
    | none => pure (p0, p1, p2, p3, cost)

/-- The block RNG and RNGU draw: x[a] holds c1:c0, x[b] c3:c2 (R330). -/
def rngBlock (s : State) (a b : BitVec 5) : Run ((W32 × W32 × W32 × W32 × Nat) × State) :=
  (drawBlock s.me s.who s.seed ((s.rx a).setWidth 32) ((s.rx a).extractLsb' 32 32) ((s.rx b).setWidth 32)
    ((s.rx b).extractLsb' 32 32)).run s
/-- RNG (R330). -/
def execRng (d a b : BitVec 5) (s : State) : Host.Outcome State Fault Refusal :=
  s.finish (do
    s.checkPorts [a, b] d
    let ((w0, w1, _, _, cost), t) ← rngBlock s a b
    .ok (t.done (8 + cost) { srcs := [a, b], writes := [(d.toNat, (w1 ++ w0 : Word))] }))
/-- RNGU (R330): w0[31:8] * 2^-24, exact. -/
def execRngu (d : BitVec 4) (a b : BitVec 5) (s : State) : Host.Outcome State Fault Refusal :=
  s.finish (do
    s.checkIns [a, b]
    let ((w0, _, _, _, cost), t) ← rngBlock s a b
    .ok (t.done (8 + cost) { srcs := [a, b], fw := some (d.toNat, BitVec.ofNat 32 (roundTo fp32 .rne false false (fld w0 8 24) (-24)).1) }))

/-! ### Candidates (R331, R333) -/

def candNone (w : Word) : Bool := bit w 31
def noneWord : Word := 0x800FFFFF
def candWord (score : W32) (t : Nat) : Word := w64 (score.toNat * 2 ^ 32 + t)
/-- A score as a number in the order of R333: -0 equals +0. -/
def scoreKey (w : Word) : Int := sgn (bit w 63) (fld w 32 31)
/-- Whether x is greater than y by R333; between two NONE candidates neither is. -/
def candGt (x y : Word) : Bool :=
  if candNone x then false
  else if candNone y then true
  else decide (scoreKey y < scoreKey x) || (scoreKey x == scoreKey y && decide (fld x 0 20 < fld y 0 20))
/-- A candidate whose score is NaN has no place in the order. -/
def candNan (w : Word) : Bool := !candNone w && (f32 (w.extractLsb' 32 32)).isNan

/-- SMP.MRG (R333): x[b] where it is greater, else x[a]. The order does not place a NaN score: a free choice (log 8). -/
def execSmpMrg (d a b : BitVec 5) (s : State) : Host.Outcome State Fault Refusal :=
  let x := s.rx a
  let y := s.rx b
  if (candNan x && !candNone y) || (candNan y && !candNone x) then
    s.fresh.putX [a, b] d (if bit (Config.freeWord s.free) 0 then x else y)
  else s.putX [a, b] d (if candGt y x then y else x)

/-- Inserts into candidates in decreasing order. -/
def insertCand (w : Word) : List Word → List Word
  | [] => [w]
  | a :: r => if candGt w a then w :: a :: r else a :: insertCand w r

/-! ### SMP.LOC and SMP.TOPK (R332) -/

/-- -RN32(ln(-RN32(ln u'))) for u' = (2m + 1) * 2^-25. -/
def gumbel (m : Nat) : W32 :=
  let v := 2 * logFix false (2 * m + 1) (-25) + 1
  let l1 := BitVec.ofNat 32 (roundTo fp32 .rne false (v < 0) v.natAbs (-serP - 1)).1
  (fLn envRne (l1 ^^^ 0x80000000)).1 ^^^ 0x80000000

/-- An operand in the executing core's CLM: n bytes at an address, or ALIGN or PLACE (R332). -/
def ownClm (s : State) (k : Kind) (va : Word) (align n : Nat) : Run Nat := do
  match ← s.decodeAddr s.who k va align with
  | .clm r off =>
    if r ≠ s.rank ∨ 131072 < off + n then stop .place va
    else match clmBad s.me.user (k == .write) off n with
      | some o => stop k.cause (va + w64 (o - off))
      | none => .ok off
  | _ => stop .place va

/-- The parameter block (R331). -/
structure SmpParams where
  seq : W32
  pos : W32
  temp : W32
  n : Nat
  purp : Nat
  base : Nat
  k : Nat
  msk : Bool
  mask : Word
deriving DecidableEq, Repr
def smpParams (v : Nat) : SmpParams :=
  ⟨BitVec.ofNat 32 v, BitVec.ofNat 32 (v / 2 ^ 32), BitVec.ofNat 32 (v / 2 ^ 64), v / 2 ^ 96 % 65536, v / 2 ^ 112 % 65536,
    v / 2 ^ 128 % 2 ^ 32, v / 2 ^ 160 % 65536, v / 2 ^ 176 % 2 == 1, w64 (v / 2 ^ 192)⟩
/-- Malformed parameters (R332). -/
def smpBad (topk : Bool) (v : Nat) : Bool :=
  let p := smpParams v
  p.n == 0 || decide (4096 < p.n) || (topk && (p.k == 0 || decide (64 < p.k))) || decide (2 ^ 20 ≤ p.base)
    || decide (2 ^ 20 < p.base + p.n) || v / 2 ^ 177 % 2 ^ 15 != 0
    || (match f32 p.temp with | .num neg m _ => neg && m != 0 | _ => true)

/-- The block's four dwords, read as the barge's own loads. -/
def readParams (s : State) (va : Word) (off : Nat) : Nat → Run (State × Nat)
  | 0 => .ok (s, 0)
  | i + 1 => do
    let (t, v) ← readParams s va off i
    let l := Loc.clm s.rank (off + 8 * i)
    let (u, w) ← t.settle (va + w64 (8 * i)) (t.readN l 8) (t.poisoned l) 0
    .ok (u, v + w * 2 ^ (64 * i))
/-- A mask dword: its value, or none where it is poisoned and does not trap. -/
def readMask (s : State) (va : Word) : Run (State × Option Nat) := do
  let w := s.who
  let got (v : Nat) (p : Bool) : Run (State × Option Nat) :=
    if !p then .ok (s, some v) else if s.me.pte then stop .poison (unitVa va) else .ok (s.consume va, none)
  match ← s.decodeAddr w .read va 8 with
  | .global => stop .loadf va
  | .basin bank off => do
    let (_, v, p, _) ← s.basinLoad w va bank off 8 false
    got v p
  | .clm r off =>
    if !clmOk w.user false off then stop .loadf va
    else do
      s.atHome r
      got (s.readN (.clm r off) 8) (s.poisoned (.clm r off))

/-- The state of the scan over the logits: the mask dword in hand, the candidates, the lookups' cycles, and the poisoned
unit last consumed, which counts once (R341). -/
structure SmpAcc where
  st : State
  word : Option Nat
  cands : List Word
  cost : Nat
  unit : Nat
deriving DecidableEq, Repr
/-- Logits 0 to n - 1 in order. -/
def smpScan (p : SmpParams) (va : Word) (off : Nat) (s : State) : Nat → Run SmpAcc
  | 0 => .ok ⟨s, none, [], 0, 131072⟩
  | i + 1 => do
    let a ← smpScan p va off s i
    let (t, word) ← if p.msk ∧ i % 64 = 0 then readMask a.st (p.mask + w64 (8 * (i / 64))) else .ok (a.st, a.word)
    let skip := p.msk && (match word with | some v => v / 2 ^ (i % 64) % 2 == 0 | none => true)
    let l := Loc.clm s.rank (off + 4 * i)
    if skip then .ok { a with st := t, word := word }
    else if t.poisoned l then
      (if t.me.pte then stop .poison (unitVa (va + w64 (4 * i)))
      else .ok { a with st := if a.unit = (off + 4 * i) / 8 then t else t.consume (va + w64 (4 * i)), word := word, unit := (off + 4 * i) / 8 })
    else
      let x : W32 := BitVec.ofNat 32 (t.readN l 4)
      let id := p.base + i
      if (f32 x).isNan then .ok { a with st := t, word := word }
      else if (f32 p.temp).isZero then .ok { a with st := t, word := word, cands := insertCand (candWord x id) a.cands }
      else do
        let ((w0, _, _, _, cost), u) ← (drawBlock t.me t.who t.seed p.seq p.pos (BitVec.ofNat 32 (p.purp * 65536 + id % 65536))
          (BitVec.ofNat 32 (id / 65536))).run t
        let y := (fAdd envRne (fDiv envRne x p.temp).1 (gumbel (fld w0 8 24))).1
        .ok { a with st := u, word := word, cands := insertCand (candWord y id) a.cands, cost := a.cost + cost }
/-- The cycles of a scan (R332). -/
def smpCost (p : SmpParams) : Nat := 40 + if (f32 p.temp).isZero then (p.n + 3) / 4 else 2 * p.n

/-- SMP.LOC (R332). -/
def execSmpLoc (d a b : BitVec 5) (s : State) : Host.Outcome State Fault Refusal :=
  s.finish (do
    s.checkPorts [a, b] d
    let pb ← ownClm s .read (s.rx b) 8 32
    let (t, v) ← readParams s (s.rx b) pb 4
    let p := smpParams v
    if smpBad false v then scStop 6 none
    else
      let lg ← ownClm t .read (s.rx a) 4 (4 * p.n)
      let r ← smpScan p (s.rx a) lg t p.n
      .ok (r.st.done (smpCost p + r.cost) { srcs := [a, b], writes := [(d.toNat, r.cands.headD noneWord)] }))
/-- SMP.TOPK (R332): the K greatest candidates, in decreasing order. -/
def execSmpTopk (d a b : BitVec 5) (s : State) : Host.Outcome State Fault Refusal :=
  s.finish (do
    s.checkIns [a, b, d]
    let pb ← ownClm s .read (s.rx b) 8 32
    let (t, v) ← readParams s (s.rx b) pb 4
    let p := smpParams v
    if smpBad true v then scStop 6 none
    else
      let lg ← ownClm t .read (s.rx a) 4 (4 * p.n)
      let dst ← ownClm t .write (s.rx d) 8 (8 * p.k)
      if t.matrixReads dst (8 * p.k) then waitFor .work
      else
        let r ← smpScan p (s.rx a) lg t p.n
        let u := iter (fun i t => t.storeClm s.rank (dst + 8 * i) 8 ((r.cands[i]?).getD noneWord).toNat) p.k r.st
        .ok (u.done (smpCost p + r.cost + 8 * p.k) { srcs := [a, b, d] }))

end Sys2Proof.Machine
end

