-- ==== Sys2Proof/Machine/Scalar.lean ====
section
/-!
DEFINITION. The scalar instructions (R77 to R92): integer, immediate, compare, predicate, select, branch, jump and
scalar floating point. Repetition and borrowing have files of their own.
-/
namespace Sys2Proof.Machine
open State

/-- The 32-bit results of ADDW, SUBW and ADDIW, sign-extended (R77, R79). -/
def sx32 (w : Word) : Word := (w.extractLsb' 0 32).signExtend 64
/-- Bits [127:64] of an exact product (R77). -/
def highHalf (p : Int) : Word := (BitVec.ofInt 128 p).extractLsb' 64 64
/-- Leading and trailing zero counts and population count of a 64-bit value (R77). -/
def clz64 (a : Word) : Nat := if a = 0 then 64 else 63 - log2 a.toNat
def ctz64 (a : Word) : Nat := if a = 0 then 64 else log2 (a &&& -a).toNat
def popCount : Nat → Nat → Nat
  | 0, _ => 0
  | n + 1, v => v % 2 + popCount n (v / 2)
/-- R78's quotients and remainders. -/
def divS (a b : Word) : Word := if b = 0 then ones64 else BitVec.ofInt 64 (a.toInt.tdiv b.toInt)
def remS (a b : Word) : Word := if b = 0 then a else BitVec.ofInt 64 (a.toInt.tmod b.toInt)
def divU (a b : Word) : Word := if b = 0 then ones64 else w64 (a.toNat / b.toNat)
def remU (a b : Word) : Word := if b = 0 then a else w64 (a.toNat % b.toNat)
/-- Shift amounts are B[5:0] (R77). -/
def shamt (b : Word) : Nat := fld b 0 6
def ror64 (a : Word) (n : Nat) : Word := a.rotateRight n

/-! ### Integer register operations (R77, R78) -/

/-- ADD (R77). -/
def execAdd (d a b : BitVec 5) (s : State) : Host.Outcome State Fault Refusal :=
  s.putX [a, b] d ((s.rx a) + (s.rx b))

/-- SUB (R77). -/
def execSub (d a b : BitVec 5) (s : State) : Host.Outcome State Fault Refusal :=
  s.putX [a, b] d ((s.rx a) - (s.rx b))

/-- AND (R77). -/
def execAnd (d a b : BitVec 5) (s : State) : Host.Outcome State Fault Refusal :=
  s.putX [a, b] d ((s.rx a) &&& (s.rx b))

/-- OR (R77). -/
def execOr (d a b : BitVec 5) (s : State) : Host.Outcome State Fault Refusal :=
  s.putX [a, b] d ((s.rx a) ||| (s.rx b))

/-- XOR (R77). -/
def execXor (d a b : BitVec 5) (s : State) : Host.Outcome State Fault Refusal :=
  s.putX [a, b] d ((s.rx a) ^^^ (s.rx b))

/-- ANDN (R77). -/
def execAndn (d a b : BitVec 5) (s : State) : Host.Outcome State Fault Refusal :=
  s.putX [a, b] d ((s.rx a) &&& ~~~(s.rx b))

/-- ORN (R77). -/
def execOrn (d a b : BitVec 5) (s : State) : Host.Outcome State Fault Refusal :=
  s.putX [a, b] d ((s.rx a) ||| ~~~(s.rx b))

/-- SLL (R77). -/
def execSll (d a b : BitVec 5) (s : State) : Host.Outcome State Fault Refusal :=
  s.putX [a, b] d ((s.rx a) <<< shamt (s.rx b))

/-- SRL (R77). -/
def execSrl (d a b : BitVec 5) (s : State) : Host.Outcome State Fault Refusal :=
  s.putX [a, b] d ((s.rx a) >>> shamt (s.rx b))

/-- SRA (R77). -/
def execSra (d a b : BitVec 5) (s : State) : Host.Outcome State Fault Refusal :=
  s.putX [a, b] d ((s.rx a).sshiftRight (shamt (s.rx b)))

/-- ROR (R77). -/
def execRor (d a b : BitVec 5) (s : State) : Host.Outcome State Fault Refusal :=
  s.putX [a, b] d (ror64 (s.rx a) (shamt (s.rx b)))

/-- ADDW (R77). -/
def execAddw (d a b : BitVec 5) (s : State) : Host.Outcome State Fault Refusal :=
  s.putX [a, b] d (sx32 ((s.rx a) + (s.rx b)))

/-- SUBW (R77). -/
def execSubw (d a b : BitVec 5) (s : State) : Host.Outcome State Fault Refusal :=
  s.putX [a, b] d (sx32 ((s.rx a) - (s.rx b)))

/-- MUL (R77). -/
def execMul (d a b : BitVec 5) (s : State) : Host.Outcome State Fault Refusal :=
  s.putX [a, b] d ((s.rx a) * (s.rx b))

/-- MULH (R77). -/
def execMulh (d a b : BitVec 5) (s : State) : Host.Outcome State Fault Refusal :=
  s.putX [a, b] d (highHalf ((s.rx a).toInt * (s.rx b).toInt))

/-- MULHU (R77). -/
def execMulhu (d a b : BitVec 5) (s : State) : Host.Outcome State Fault Refusal :=
  s.putX [a, b] d (highHalf (((s.rx a).toNat : Int) * (s.rx b).toNat))

/-- MULHSU (R77). -/
def execMulhsu (d a b : BitVec 5) (s : State) : Host.Outcome State Fault Refusal :=
  s.putX [a, b] d (highHalf ((s.rx a).toInt * (s.rx b).toNat))

/-- DIV (R78). -/
def execDiv (d a b : BitVec 5) (s : State) : Host.Outcome State Fault Refusal :=
  s.putX [a, b] d (divS (s.rx a) (s.rx b))

/-- DIVU (R78). -/
def execDivu (d a b : BitVec 5) (s : State) : Host.Outcome State Fault Refusal :=
  s.putX [a, b] d (divU (s.rx a) (s.rx b))

/-- REM (R78). -/
def execRem (d a b : BitVec 5) (s : State) : Host.Outcome State Fault Refusal :=
  s.putX [a, b] d (remS (s.rx a) (s.rx b))

/-- REMU (R78). -/
def execRemu (d a b : BitVec 5) (s : State) : Host.Outcome State Fault Refusal :=
  s.putX [a, b] d (remU (s.rx a) (s.rx b))

/-- MIN (R77). -/
def execMin (d a b : BitVec 5) (s : State) : Host.Outcome State Fault Refusal :=
  s.putX [a, b] d (if (s.rx a).slt (s.rx b) then (s.rx a) else (s.rx b))

/-- MAX (R77). -/
def execMax (d a b : BitVec 5) (s : State) : Host.Outcome State Fault Refusal :=
  s.putX [a, b] d (if (s.rx a).slt (s.rx b) then (s.rx b) else (s.rx a))

/-- MINU (R77). -/
def execMinu (d a b : BitVec 5) (s : State) : Host.Outcome State Fault Refusal :=
  s.putX [a, b] d (if (s.rx a) < (s.rx b) then (s.rx a) else (s.rx b))

/-- MAXU (R77). -/
def execMaxu (d a b : BitVec 5) (s : State) : Host.Outcome State Fault Refusal :=
  s.putX [a, b] d (if (s.rx a) < (s.rx b) then (s.rx b) else (s.rx a))

/-- CLZ (R77). -/
def execClz (d a : BitVec 5) (s : State) : Host.Outcome State Fault Refusal :=
  s.putX [a] d (w64 (clz64 (s.rx a)))

/-- CTZ (R77). -/
def execCtz (d a : BitVec 5) (s : State) : Host.Outcome State Fault Refusal :=
  s.putX [a] d (w64 (ctz64 (s.rx a)))

/-- POPC (R77). -/
def execPopc (d a : BitVec 5) (s : State) : Host.Outcome State Fault Refusal :=
  s.putX [a] d (w64 (popCount 64 (s.rx a).toNat))

/-- SEXTB (R77). -/
def execSextb (d a : BitVec 5) (s : State) : Host.Outcome State Fault Refusal :=
  s.putX [a] d (((s.rx a).extractLsb' 0 8).signExtend 64)

/-- SEXTH (R77). -/
def execSexth (d a : BitVec 5) (s : State) : Host.Outcome State Fault Refusal :=
  s.putX [a] d (((s.rx a).extractLsb' 0 16).signExtend 64)

/-- SEXTW (R77). -/
def execSextw (d a : BitVec 5) (s : State) : Host.Outcome State Fault Refusal :=
  s.putX [a] d (sx32 (s.rx a))

/-- ZEXTW (R77). -/
def execZextw (d a : BitVec 5) (s : State) : Host.Outcome State Fault Refusal :=
  s.putX [a] d (((s.rx a).extractLsb' 0 32).setWidth 64)

/-! ### Immediates (R79, R80) -/

/-- ADDI (R79). -/
def execAddi (d a : BitVec 5) (im : BitVec 15) (s : State) : Host.Outcome State Fault Refusal :=
  s.putX [a] d ((s.rx a) + immS im)

/-- ANDI (R79). -/
def execAndi (d a : BitVec 5) (im : BitVec 15) (s : State) : Host.Outcome State Fault Refusal :=
  s.putX [a] d ((s.rx a) &&& immZ im)

/-- ORI (R79). -/
def execOri (d a : BitVec 5) (im : BitVec 15) (s : State) : Host.Outcome State Fault Refusal :=
  s.putX [a] d ((s.rx a) ||| immZ im)

/-- XORI (R79). -/
def execXori (d a : BitVec 5) (im : BitVec 15) (s : State) : Host.Outcome State Fault Refusal :=
  s.putX [a] d ((s.rx a) ^^^ immZ im)

/-- ADDIW (R79). -/
def execAddiw (d a : BitVec 5) (im : BitVec 15) (s : State) : Host.Outcome State Fault Refusal :=
  s.putX [a] d (sx32 ((s.rx a) + immS im))

/-- SLLI (R80). -/
def execSlli (d a : BitVec 5) (n : BitVec 6) (s : State) : Host.Outcome State Fault Refusal :=
  s.putX [a] d ((s.rx a) <<< n.toNat)

/-- SRLI (R80). -/
def execSrli (d a : BitVec 5) (n : BitVec 6) (s : State) : Host.Outcome State Fault Refusal :=
  s.putX [a] d ((s.rx a) >>> n.toNat)

/-- SRAI (R80). -/
def execSrai (d a : BitVec 5) (n : BitVec 6) (s : State) : Host.Outcome State Fault Refusal :=
  s.putX [a] d ((s.rx a).sshiftRight n.toNat)

/-- RORI (R80). -/
def execRori (d a : BitVec 5) (n : BitVec 6) (s : State) : Host.Outcome State Fault Refusal :=
  s.putX [a] d (ror64 (s.rx a) n.toNat)

/-- LUI (R79). -/
def execLui (d : BitVec 5) (im : BitVec 20) (s : State) : Host.Outcome State Fault Refusal := s.putX [] d (immU im)

/-- AUIPC (R79): the address of the AUIPC plus the immediate. -/
def execAuipc (d : BitVec 5) (im : BitVec 20) (s : State) : Host.Outcome State Fault Refusal := s.putX [] d (s.me.pc + immU im)

/-! ### Compares and predicates (R81 to R83) -/

/-- CMP.EQ (R81). -/
def execCmpEq (p a b : BitVec 5) (s : State) : Host.Outcome State Fault Refusal :=
  s.putS [a, b] (fun t => t.wp p ((s.rx a) == (s.rx b)))

/-- CMP.NE (R81). -/
def execCmpNe (p a b : BitVec 5) (s : State) : Host.Outcome State Fault Refusal :=
  s.putS [a, b] (fun t => t.wp p ((s.rx a) != (s.rx b)))

/-- CMP.LT (R81). -/
def execCmpLt (p a b : BitVec 5) (s : State) : Host.Outcome State Fault Refusal :=
  s.putS [a, b] (fun t => t.wp p ((s.rx a).slt (s.rx b)))

/-- CMP.LTU (R81). -/
def execCmpLtu (p a b : BitVec 5) (s : State) : Host.Outcome State Fault Refusal :=
  s.putS [a, b] (fun t => t.wp p ((s.rx a).ult (s.rx b)))

/-- CMP.GE (R81). -/
def execCmpGe (p a b : BitVec 5) (s : State) : Host.Outcome State Fault Refusal :=
  s.putS [a, b] (fun t => t.wp p (!((s.rx a).slt (s.rx b))))

/-- CMP.GEU (R81). -/
def execCmpGeu (p a b : BitVec 5) (s : State) : Host.Outcome State Fault Refusal :=
  s.putS [a, b] (fun t => t.wp p (!((s.rx a).ult (s.rx b))))

/-- CMPI.EQ (R81). -/
def execCmpiEq (p a : BitVec 5) (im : BitVec 15) (s : State) : Host.Outcome State Fault Refusal :=
  s.putS [a] (fun t => t.wp p ((s.rx a) == (immS im)))

/-- CMPI.NE (R81). -/
def execCmpiNe (p a : BitVec 5) (im : BitVec 15) (s : State) : Host.Outcome State Fault Refusal :=
  s.putS [a] (fun t => t.wp p ((s.rx a) != (immS im)))

/-- CMPI.LT (R81). -/
def execCmpiLt (p a : BitVec 5) (im : BitVec 15) (s : State) : Host.Outcome State Fault Refusal :=
  s.putS [a] (fun t => t.wp p ((s.rx a).slt (immS im)))

/-- CMPI.LTU (R81). -/
def execCmpiLtu (p a : BitVec 5) (im : BitVec 15) (s : State) : Host.Outcome State Fault Refusal :=
  s.putS [a] (fun t => t.wp p ((s.rx a).ult (immS im)))

/-- CMPI.GE (R81). -/
def execCmpiGe (p a : BitVec 5) (im : BitVec 15) (s : State) : Host.Outcome State Fault Refusal :=
  s.putS [a] (fun t => t.wp p (!((s.rx a).slt (immS im))))

/-- CMPI.GEU (R81). -/
def execCmpiGeu (p a : BitVec 5) (im : BitVec 15) (s : State) : Host.Outcome State Fault Refusal :=
  s.putS [a] (fun t => t.wp p (!((s.rx a).ult (immS im))))

/-- PAND (R82). -/
def execPand (d a b : BitVec 5) (s : State) : Host.Outcome State Fault Refusal :=
  s.putS [] (fun t => t.wp d ((s.rp a) && (s.rp b)))

/-- POR (R82). -/
def execPor (d a b : BitVec 5) (s : State) : Host.Outcome State Fault Refusal :=
  s.putS [] (fun t => t.wp d ((s.rp a) || (s.rp b)))

/-- PXOR (R82). -/
def execPxor (d a b : BitVec 5) (s : State) : Host.Outcome State Fault Refusal :=
  s.putS [] (fun t => t.wp d ((s.rp a) != (s.rp b)))

/-- PANDN (R82). -/
def execPandn (d a b : BitVec 5) (s : State) : Host.Outcome State Fault Refusal :=
  s.putS [] (fun t => t.wp d ((s.rp a) && !s.rp b))

/-- PMOV (R82). -/
def execPmov (d a : BitVec 5) (s : State) : Host.Outcome State Fault Refusal := s.putS [] (fun t => t.wp d (s.rp a))

/-- PSET pd, xa (R82). -/
def execPset (d a : BitVec 5) (s : State) : Host.Outcome State Fault Refusal := s.putS [a] (fun t => t.wp d (s.rx a != 0))

/-- PSET P, xa (R82): p1 to p31 at once; p0 stays 1. -/
def execPsetP (a : BitVec 5) (s : State) : Host.Outcome State Fault Refusal :=
  s.putS [a] (fun t => t.modMe fun b => { b with p := (s.rx a).extractLsb' 0 32 ||| 1 })

/-- SEL (R83). -/
def execSel (d a b im : BitVec 5) (s : State) : Host.Outcome State Fault Refusal :=
  s.putX [a, b] d (if s.rp im then s.rx a else s.rx b)

/-- SEL xd, P (R83): bit 0 reads 1. -/
def execSelP (d : BitVec 5) (s : State) : Host.Outcome State Fault Refusal := s.putX [] d ((s.me.p ||| 1).setWidth 64)

/-! ### Branches and jumps (R84) -/

/-- A target with bits [63:52] set traps FETCH, with TVAL the target (R84). -/
def goTo (s : State) (t : Word) : Run State := if fld t 52 12 ≠ 0 then stop .fetch t else .ok (s.jump t)
/-- A jump to t with the address of the next word as its link in x[d] (R84). -/
def goLinked (s : State) (srcs : List (BitVec 5)) (d : BitVec 5) (t : Word) : Run State :=
  if fld t 52 12 ≠ 0 then stop .fetch t
  else .ok (s.done 8 { srcs := srcs, writes := [(d.toNat, s.me.pc + 4)], pc := some t })

/-- BP.T (R84). -/
def execBpT (p : BitVec 5) (o : BitVec 19) (s : State) : Host.Outcome State Fault Refusal :=
  s.finish (if s.rp p then goTo s (targetB s.me.pc o) else .ok s.next)

/-- BP.F (R84). -/
def execBpF (p : BitVec 5) (o : BitVec 19) (s : State) : Host.Outcome State Fault Refusal :=
  s.finish (if s.rp p then .ok s.next else goTo s (targetB s.me.pc o))

/-- J (R84). -/
def execJ (o : BitVec 20) (s : State) : Host.Outcome State Fault Refusal := s.finish (goTo s (targetJ s.me.pc o))

/-- JAL (R84): the link is not written when the target is out of range. -/
def execJal (d : BitVec 5) (o : BitVec 20) (s : State) : Host.Outcome State Fault Refusal :=
  s.finish (match s.checkOut d with
    | .ok _ => goLinked s [] d (targetJ s.me.pc o)
    | .error e => .error e)

/-- JALR (R84): alignment is judged before the range; the target comes from x[a] as read before the link's write. -/
def execJalr (d a : BitVec 5) (im : BitVec 15) (s : State) : Host.Outcome State Fault Refusal :=
  s.finish (match s.checkPorts [a] d with
    | .ok _ =>
      let t := s.rx a + immS im
      if fld t 0 2 ≠ 0 then stop .align t
      else goLinked s [a] d t
    | .error e => .error e)

/-! ### Scalar floating point (R85 to R92) -/

/-- An f destination with flags. -/
def putF (s : State) (d : BitVec 4) (r : W32 × Flags) : Host.Outcome State Fault Refusal := s.putS [] (fun t => (t.wf d r.1).flag r.2)
/-- A predicate destination with flags. -/
def putP (s : State) (p : BitVec 5) (r : Bool × Flags) : Host.Outcome State Fault Refusal := s.putS [] (fun t => (t.wp p r.1).flag r.2)

/-- FADD (R85). -/
def execFadd (d a b : BitVec 4) (s : State) : Host.Outcome State Fault Refusal := putF s d (fAdd s.env (s.rf a) (s.rf b))

/-- FSUB (R85). -/
def execFsub (d a b : BitVec 4) (s : State) : Host.Outcome State Fault Refusal := putF s d (fSub s.env (s.rf a) (s.rf b))

/-- FMUL (R85). -/
def execFmul (d a b : BitVec 4) (s : State) : Host.Outcome State Fault Refusal := putF s d (fMul s.env (s.rf a) (s.rf b))

/-- FDIV (R85). -/
def execFdiv (d a b : BitVec 4) (s : State) : Host.Outcome State Fault Refusal := putF s d (fDiv s.env (s.rf a) (s.rf b))

/-- FMIN (R86). -/
def execFmin (d a b : BitVec 4) (s : State) : Host.Outcome State Fault Refusal := putF s d (fMinMax false (s.rf a) (s.rf b))

/-- FMAX (R86). -/
def execFmax (d a b : BitVec 4) (s : State) : Host.Outcome State Fault Refusal := putF s d (fMinMax true (s.rf a) (s.rf b))

/-- FSGNJ (R87). -/
def execFsgnj (d a b : BitVec 4) (s : State) : Host.Outcome State Fault Refusal := putF s d (fSgnj (fun _ y => y) (s.rf a) (s.rf b))

/-- FSGNJN (R87). -/
def execFsgnjn (d a b : BitVec 4) (s : State) : Host.Outcome State Fault Refusal := putF s d (fSgnj (fun _ y => !y) (s.rf a) (s.rf b))

/-- FSGNJX (R87). -/
def execFsgnjx (d a b : BitVec 4) (s : State) : Host.Outcome State Fault Refusal := putF s d (fSgnj (fun x y => x != y) (s.rf a) (s.rf b))

/-- FSQRT (R85). -/
def execFsqrt (d a : BitVec 4) (s : State) : Host.Outcome State Fault Refusal := putF s d (fSqrt s.env (s.rf a))

/-- FCLASS (R88). -/
def execFclass (d : BitVec 5) (a : BitVec 4) (s : State) : Host.Outcome State Fault Refusal := s.putX [] d (w64 (2 ^ fClass (s.rf a)))

/-- FMA (R89). -/
def execFma (d a b c : BitVec 4) (s : State) : Host.Outcome State Fault Refusal := putF s d (fFma s.env (s.rf a) (s.rf b) (s.rf c))

/-- FMS (R89). -/
def execFms (d a b c : BitVec 4) (s : State) : Host.Outcome State Fault Refusal := putF s d (fFms s.env (s.rf a) (s.rf b) (s.rf c))

/-- FNMA (R89). -/
def execFnma (d a b c : BitVec 4) (s : State) : Host.Outcome State Fault Refusal := putF s d (fFnma s.env (s.rf a) (s.rf b) (s.rf c))

/-- FCMP.EQ (R90). -/
def execFcmpEq (p : BitVec 5) (a b : BitVec 4) (s : State) : Host.Outcome State Fault Refusal := putP s p (fCmpEq (s.rf a) (s.rf b))

/-- FCMP.LT (R90). -/
def execFcmpLt (p : BitVec 5) (a b : BitVec 4) (s : State) : Host.Outcome State Fault Refusal := putP s p (fCmpLt (s.rf a) (s.rf b))

/-- FCMP.LE (R90). -/
def execFcmpLe (p : BitVec 5) (a b : BitVec 4) (s : State) : Host.Outcome State Fault Refusal := putP s p (fCmpLe (s.rf a) (s.rf b))

/-- FCMP.UN (R90). -/
def execFcmpUn (p : BitVec 5) (a b : BitVec 4) (s : State) : Host.Outcome State Fault Refusal := putP s p (fCmpUn (s.rf a) (s.rf b))

/-- FCVT.I32.F (R91, R67). -/
def execFcvtI32F (d : BitVec 5) (a : BitVec 4) (s : State) : Host.Outcome State Fault Refusal :=
  let r := toInt 32 s.env.mode (s.rf a)
  s.putX [] d (BitVec.ofInt 64 r.1) r.2

/-- FCVT.I64.F (R91, R67). -/
def execFcvtI64F (d : BitVec 5) (a : BitVec 4) (s : State) : Host.Outcome State Fault Refusal :=
  let r := toInt 64 s.env.mode (s.rf a)
  s.putX [] d (BitVec.ofInt 64 r.1) r.2

/-- FCVT.F.I32 (R91). -/
def execFcvtFI32 (d : BitVec 4) (a : BitVec 5) (s : State) : Host.Outcome State Fault Refusal :=
  let r := ofInt s.env ((s.rx a).extractLsb' 0 32).toInt
  s.putS [a] (fun t => (t.wf d r.1).flag r.2)

/-- FCVT.F.I64 (R91). -/
def execFcvtFI64 (d : BitVec 4) (a : BitVec 5) (s : State) : Host.Outcome State Fault Refusal :=
  let r := ofInt s.env (s.rx a).toInt
  s.putS [a] (fun t => (t.wf d r.1).flag r.2)

/-- FCVT.BF.F (R91). -/
def execFcvtBfF (d a : BitVec 4) (s : State) : Host.Outcome State Fault Refusal := putF s d (w32 (convert bf16 s.env.mode s.env.sat (f32 (s.rf a))))

/-- FCVT.F.BF (R91). -/
def execFcvtFBf (d a : BitVec 4) (s : State) : Host.Outcome State Fault Refusal := putF s d (w32 (widen bf16 (fld (s.rf a) 0 16)))

/-- FCVT.HF.F (R91). -/
def execFcvtHfF (d a : BitVec 4) (s : State) : Host.Outcome State Fault Refusal := putF s d (w32 (convert fp16 s.env.mode s.env.sat (f32 (s.rf a))))

/-- FCVT.F.HF (R91). -/
def execFcvtFHf (d a : BitVec 4) (s : State) : Host.Outcome State Fault Refusal := putF s d (w32 (widen fp16 (fld (s.rf a) 0 16)))

/-- FMVX (R92): the bit pattern, unchanged. -/
def execFmvx (d : BitVec 5) (a : BitVec 4) (s : State) : Host.Outcome State Fault Refusal := s.putX [] d ((s.rf a).setWidth 64)

/-- FMVF (R92). -/
def execFmvf (d : BitVec 4) (a : BitVec 5) (s : State) : Host.Outcome State Fault Refusal := s.putS [a] (fun t => t.wf d ((s.rx a).extractLsb' 0 32))

end Sys2Proof.Machine
end

