-- ==== Sys2Proof/Machine/Dispatch.lean ====
section
/-!
DEFINITION. One arm per constructor of Instr: a direct call of its meaning.
-/
namespace Sys2Proof.Machine

def exec (i : Instr) (s : State) : Host.Outcome State Fault Refusal :=
  match i with
  | .add d a b => Sys2Proof.Machine.execAdd d a b s
  | .sub d a b => Sys2Proof.Machine.execSub d a b s
  | .and d a b => Sys2Proof.Machine.execAnd d a b s
  | .or d a b => Sys2Proof.Machine.execOr d a b s
  | .xor d a b => Sys2Proof.Machine.execXor d a b s
  | .andn d a b => Sys2Proof.Machine.execAndn d a b s
  | .orn d a b => Sys2Proof.Machine.execOrn d a b s
  | .sll d a b => Sys2Proof.Machine.execSll d a b s
  | .srl d a b => Sys2Proof.Machine.execSrl d a b s
  | .sra d a b => Sys2Proof.Machine.execSra d a b s
  | .ror d a b => Sys2Proof.Machine.execRor d a b s
  | .addw d a b => Sys2Proof.Machine.execAddw d a b s
  | .subw d a b => Sys2Proof.Machine.execSubw d a b s
  | .mul d a b => Sys2Proof.Machine.execMul d a b s
  | .mulh d a b => Sys2Proof.Machine.execMulh d a b s
  | .mulhu d a b => Sys2Proof.Machine.execMulhu d a b s
  | .mulhsu d a b => Sys2Proof.Machine.execMulhsu d a b s
  | .div d a b => Sys2Proof.Machine.execDiv d a b s
  | .divu d a b => Sys2Proof.Machine.execDivu d a b s
  | .rem d a b => Sys2Proof.Machine.execRem d a b s
  | .remu d a b => Sys2Proof.Machine.execRemu d a b s
  | .min d a b => Sys2Proof.Machine.execMin d a b s
  | .max d a b => Sys2Proof.Machine.execMax d a b s
  | .minu d a b => Sys2Proof.Machine.execMinu d a b s
  | .maxu d a b => Sys2Proof.Machine.execMaxu d a b s
  | .clz d a => Sys2Proof.Machine.execClz d a s
  | .ctz d a => Sys2Proof.Machine.execCtz d a s
  | .popc d a => Sys2Proof.Machine.execPopc d a s
  | .sextb d a => Sys2Proof.Machine.execSextb d a s
  | .sexth d a => Sys2Proof.Machine.execSexth d a s
  | .sextw d a => Sys2Proof.Machine.execSextw d a s
  | .zextw d a => Sys2Proof.Machine.execZextw d a s
  | .addi d a im => Sys2Proof.Machine.execAddi d a im s
  | .andi d a im => Sys2Proof.Machine.execAndi d a im s
  | .ori d a im => Sys2Proof.Machine.execOri d a im s
  | .xori d a im => Sys2Proof.Machine.execXori d a im s
  | .slli d a n => Sys2Proof.Machine.execSlli d a n s
  | .srli d a n => Sys2Proof.Machine.execSrli d a n s
  | .srai d a n => Sys2Proof.Machine.execSrai d a n s
  | .rori d a n => Sys2Proof.Machine.execRori d a n s
  | .addiw d a im => Sys2Proof.Machine.execAddiw d a im s
  | .lui d im => Sys2Proof.Machine.execLui d im s
  | .auipc d im => Sys2Proof.Machine.execAuipc d im s
  | .cmpEq p a b => Sys2Proof.Machine.execCmpEq p a b s
  | .cmpNe p a b => Sys2Proof.Machine.execCmpNe p a b s
  | .cmpLt p a b => Sys2Proof.Machine.execCmpLt p a b s
  | .cmpLtu p a b => Sys2Proof.Machine.execCmpLtu p a b s
  | .cmpGe p a b => Sys2Proof.Machine.execCmpGe p a b s
  | .cmpGeu p a b => Sys2Proof.Machine.execCmpGeu p a b s
  | .cmpiEq p a im => Sys2Proof.Machine.execCmpiEq p a im s
  | .cmpiNe p a im => Sys2Proof.Machine.execCmpiNe p a im s
  | .cmpiLt p a im => Sys2Proof.Machine.execCmpiLt p a im s
  | .cmpiLtu p a im => Sys2Proof.Machine.execCmpiLtu p a im s
  | .cmpiGe p a im => Sys2Proof.Machine.execCmpiGe p a im s
  | .cmpiGeu p a im => Sys2Proof.Machine.execCmpiGeu p a im s
  | .pand d a b => Sys2Proof.Machine.execPand d a b s
  | .por d a b => Sys2Proof.Machine.execPor d a b s
  | .pxor d a b => Sys2Proof.Machine.execPxor d a b s
  | .pandn d a b => Sys2Proof.Machine.execPandn d a b s
  | .pmov d a => Sys2Proof.Machine.execPmov d a s
  | .pset d a => Sys2Proof.Machine.execPset d a s
  | .psetP a => Sys2Proof.Machine.execPsetP a s
  | .sel d a b im => Sys2Proof.Machine.execSel d a b im s
  | .selP d => Sys2Proof.Machine.execSelP d s
  | .bpT p o => Sys2Proof.Machine.execBpT p o s
  | .bpF p o => Sys2Proof.Machine.execBpF p o s
  | .j o => Sys2Proof.Machine.execJ o s
  | .jal d o => Sys2Proof.Machine.execJal d o s
  | .jalr d a im => Sys2Proof.Machine.execJalr d a im s
  | .ldb d a im => Sys2Proof.Machine.execLdb d a im s
  | .ldbu d a im => Sys2Proof.Machine.execLdbu d a im s
  | .ldh d a im => Sys2Proof.Machine.execLdh d a im s
  | .ldhu d a im => Sys2Proof.Machine.execLdhu d a im s
  | .ldw d a im => Sys2Proof.Machine.execLdw d a im s
  | .ldwu d a im => Sys2Proof.Machine.execLdwu d a im s
  | .ldd d a im => Sys2Proof.Machine.execLdd d a im s
  | .stb b a im => Sys2Proof.Machine.execStb b a im s
  | .sth b a im => Sys2Proof.Machine.execSth b a im s
  | .stw b a im => Sys2Proof.Machine.execStw b a im s
  | .std b a im => Sys2Proof.Machine.execStd b a im s
  | .ldf d a im => Sys2Proof.Machine.execLdf d a im s
  | .stf b a im => Sys2Proof.Machine.execStf b a im s
  | .ldsync d a im => Sys2Proof.Machine.execLdsync d a im s
  | .stfull b a im => Sys2Proof.Machine.execStfull b a im s
  | .feclr a im => Sys2Proof.Machine.execFeclr a im s
  | .ferd d a im => Sys2Proof.Machine.execFerd d a im s
  | .rld d a b => Sys2Proof.Machine.execRld d a b s
  | .rst a b => Sys2Proof.Machine.execRst a b s
  | .pfd a => Sys2Proof.Machine.execPfd a s
  | .icpf a => Sys2Proof.Machine.execIcpf a s
  | .amoAdd d a b w q r => Sys2Proof.Machine.execAmoAdd d a b w q r s
  | .amoAnd d a b w q r => Sys2Proof.Machine.execAmoAnd d a b w q r s
  | .amoOr d a b w q r => Sys2Proof.Machine.execAmoOr d a b w q r s
  | .amoXor d a b w q r => Sys2Proof.Machine.execAmoXor d a b w q r s
  | .amoMin d a b w q r => Sys2Proof.Machine.execAmoMin d a b w q r s
  | .amoMax d a b w q r => Sys2Proof.Machine.execAmoMax d a b w q r s
  | .amoMinu d a b w q r => Sys2Proof.Machine.execAmoMinu d a b w q r s
  | .amoMaxu d a b w q r => Sys2Proof.Machine.execAmoMaxu d a b w q r s
  | .amoSwap d a b w q r => Sys2Proof.Machine.execAmoSwap d a b w q r s
  | .amoCas d a b w q r => Sys2Proof.Machine.execAmoCas d a b w q r s
  | .amoFadd d a b q r => Sys2Proof.Machine.execAmoFadd d a b q r s
  | .cmoClean a b l => Sys2Proof.Machine.execCmoClean a b l s
  | .cmoInv a b l => Sys2Proof.Machine.execCmoInv a b l s
  | .cmoClinv a b l => Sys2Proof.Machine.execCmoClinv a b l s
  | .fadd d a b => Sys2Proof.Machine.execFadd d a b s
  | .fsub d a b => Sys2Proof.Machine.execFsub d a b s
  | .fmul d a b => Sys2Proof.Machine.execFmul d a b s
  | .fdiv d a b => Sys2Proof.Machine.execFdiv d a b s
  | .fsqrt d a => Sys2Proof.Machine.execFsqrt d a s
  | .fmin d a b => Sys2Proof.Machine.execFmin d a b s
  | .fmax d a b => Sys2Proof.Machine.execFmax d a b s
  | .fsgnj d a b => Sys2Proof.Machine.execFsgnj d a b s
  | .fsgnjn d a b => Sys2Proof.Machine.execFsgnjn d a b s
  | .fsgnjx d a b => Sys2Proof.Machine.execFsgnjx d a b s
  | .fclass d a => Sys2Proof.Machine.execFclass d a s
  | .fma d a b c => Sys2Proof.Machine.execFma d a b c s
  | .fms d a b c => Sys2Proof.Machine.execFms d a b c s
  | .fnma d a b c => Sys2Proof.Machine.execFnma d a b c s
  | .fcmpEq p a b => Sys2Proof.Machine.execFcmpEq p a b s
  | .fcmpLt p a b => Sys2Proof.Machine.execFcmpLt p a b s
  | .fcmpLe p a b => Sys2Proof.Machine.execFcmpLe p a b s
  | .fcmpUn p a b => Sys2Proof.Machine.execFcmpUn p a b s
  | .fcvtI32F d a => Sys2Proof.Machine.execFcvtI32F d a s
  | .fcvtI64F d a => Sys2Proof.Machine.execFcvtI64F d a s
  | .fcvtFI32 d a => Sys2Proof.Machine.execFcvtFI32 d a s
  | .fcvtFI64 d a => Sys2Proof.Machine.execFcvtFI64 d a s
  | .fcvtBfF d a => Sys2Proof.Machine.execFcvtBfF d a s
  | .fcvtFBf d a => Sys2Proof.Machine.execFcvtFBf d a s
  | .fcvtHfF d a => Sys2Proof.Machine.execFcvtHfF d a s
  | .fcvtFHf d a => Sys2Proof.Machine.execFcvtFHf d a s
  | .fmvx d a => Sys2Proof.Machine.execFmvx d a s
  | .fmvf d a => Sys2Proof.Machine.execFmvf d a s
  | .vld d a im => Sys2Proof.Machine.execVld d a im s
  | .vst b a im => Sys2Proof.Machine.execVst b a im s
  | .vlds d a b m => Sys2Proof.Machine.execVlds d a b m s
  | .vsts d a b m => Sys2Proof.Machine.execVsts d a b m s
  | .vldx d a b m => Sys2Proof.Machine.execVldx d a b m s
  | .vstx d a b m => Sys2Proof.Machine.execVstx d a b m s
  | .vbcast d a => Sys2Proof.Machine.execVbcast d a s
  | .vextr d a n => Sys2Proof.Machine.execVextr d a n s
  | .vadd d a b m => Sys2Proof.Machine.execVadd d a b m s
  | .vsub d a b m => Sys2Proof.Machine.execVsub d a b m s
  | .vmul d a b m => Sys2Proof.Machine.execVmul d a b m s
  | .vfma d a b c m => Sys2Proof.Machine.execVfma d a b c m s
  | .vfms d a b c m => Sys2Proof.Machine.execVfms d a b c m s
  | .vmin d a b m => Sys2Proof.Machine.execVmin d a b m s
  | .vmax d a b m => Sys2Proof.Machine.execVmax d a b m s
  | .vabs d a m => Sys2Proof.Machine.execVabs d a m s
  | .vrcp d a m => Sys2Proof.Machine.execVrcp d a m s
  | .vrsq d a m => Sys2Proof.Machine.execVrsq d a m s
  | .vexp2 d a m => Sys2Proof.Machine.execVexp2 d a m s
  | .vlog2 d a m => Sys2Proof.Machine.execVlog2 d a m s
  | .viadd d a b m => Sys2Proof.Machine.execViadd d a b m s
  | .visub d a b m => Sys2Proof.Machine.execVisub d a b m s
  | .vimul d a b m => Sys2Proof.Machine.execVimul d a b m s
  | .vand d a b m => Sys2Proof.Machine.execVand d a b m s
  | .vor d a b m => Sys2Proof.Machine.execVor d a b m s
  | .vxor d a b m => Sys2Proof.Machine.execVxor d a b m s
  | .vsll d a b m => Sys2Proof.Machine.execVsll d a b m s
  | .vsrl d a b m => Sys2Proof.Machine.execVsrl d a b m s
  | .vsra d a b m => Sys2Proof.Machine.execVsra d a b m s
  | .vcmpEq a b m => Sys2Proof.Machine.execVcmpEq a b m s
  | .vcmpNe a b m => Sys2Proof.Machine.execVcmpNe a b m s
  | .vcmpLt a b m => Sys2Proof.Machine.execVcmpLt a b m s
  | .vcmpLtu a b m => Sys2Proof.Machine.execVcmpLtu a b m s
  | .vcmpGe a b m => Sys2Proof.Machine.execVcmpGe a b m s
  | .vcmpGeu a b m => Sys2Proof.Machine.execVcmpGeu a b m s
  | .vcmpFeq a b m => Sys2Proof.Machine.execVcmpFeq a b m s
  | .vcmpFlt a b m => Sys2Proof.Machine.execVcmpFlt a b m s
  | .vcmpFle a b m => Sys2Proof.Machine.execVcmpFle a b m s
  | .vcmpFun a b m => Sys2Proof.Machine.execVcmpFun a b m s
  | .vsel d a b => Sys2Proof.Machine.execVsel d a b s
  | .vshuf d a b m => Sys2Proof.Machine.execVshuf d a b m s
  | .vslideUp d a b m n => Sys2Proof.Machine.execVslideUp d a b m n s
  | .vslideDn d a b m n => Sys2Proof.Machine.execVslideDn d a b m n s
  | .vcvtI32F d a m r => Sys2Proof.Machine.execVcvtI32F d a m r s
  | .vcvtFI32 d a m r => Sys2Proof.Machine.execVcvtFI32 d a m r s
  | .vcvtBfF d a h m r => Sys2Proof.Machine.execVcvtBfF d a h m r s
  | .vcvtFBf d a h m => Sys2Proof.Machine.execVcvtFBf d a h m s
  | .vcvtHfF d a h m r => Sys2Proof.Machine.execVcvtHfF d a h m r s
  | .vcvtFHf d a h m => Sys2Proof.Machine.execVcvtFHf d a h m s
  | .vencT0 d a q m => Sys2Proof.Machine.execVencT0 d a q m s
  | .vencT1 d a q m => Sys2Proof.Machine.execVencT1 d a q m s
  | .vencE2 d a e m => Sys2Proof.Machine.execVencE2 d a e m s
  | .vdecT0 d a q m => Sys2Proof.Machine.execVdecT0 d a q m s
  | .vdecT1 d a q m => Sys2Proof.Machine.execVdecT1 d a q m s
  | .vdecE2 d a e m => Sys2Proof.Machine.execVdecE2 d a e m s
  | .dtabLd t a im => Sys2Proof.Machine.execDtabLd t a im s
  | .vred d a m k => Sys2Proof.Machine.execVred d a m k s
  | .vscan d a m k => Sys2Proof.Machine.execVscan d a m k s
  | .vscanl d a b c m f => Sys2Proof.Machine.execVscanl d a b c m f s
  | .vdotbX8 d a b sc q => Sys2Proof.Machine.execVdotbX8 d a b sc q s
  | .vdotbX4 d a b sc e => Sys2Proof.Machine.execVdotbX4 d a b sc e s
  | .mmaBf c a n t k => Sys2Proof.Machine.execMmaBf c a n t k s
  | .mmaHf c a n t k => Sys2Proof.Machine.execMmaHf c a n t k s
  | .mmaE4 c a n t k => Sys2Proof.Machine.execMmaE4 c a n t k s
  | .mmaE45 c a n t k => Sys2Proof.Machine.execMmaE45 c a n t k s
  | .mmaE5 c a n t k => Sys2Proof.Machine.execMmaE5 c a n t k s
  | .mmaX8 c a sc n t k => Sys2Proof.Machine.execMmaX8 c a sc n t k s
  | .mmaX84 c a sc n t k => Sys2Proof.Machine.execMmaX84 c a sc n t k s
  | .mmaX4 c a sc n t k => Sys2Proof.Machine.execMmaX4 c a sc n t k s
  | .mmaI8 c a n t k => Sys2Proof.Machine.execMmaI8 c a n t k s
  | .acq c => Sys2Proof.Machine.execAcq c s
  | .rel c => Sys2Proof.Machine.execRel c s
  | .azero c => Sys2Proof.Machine.execAzero c s
  | .apois d c => Sys2Proof.Machine.execApois d c s
  | .ald c a => Sys2Proof.Machine.execAld c a s
  | .ast c a sc r f => Sys2Proof.Machine.execAst c a sc r f s
  | .arow d c b => Sys2Proof.Machine.execArow d c b s
  | .awr c a b => Sys2Proof.Machine.execAwr c a b s
  | .bld a b => Sys2Proof.Machine.execBld a b s
  | .brot a => Sys2Proof.Machine.execBrot a s
  | .bstat d => Sys2Proof.Machine.execBstat d s
  | .tldt a b => Sys2Proof.Machine.execTldt a b s
  | .spawn p o => Sys2Proof.Machine.execSpawn p o s
  | .spawnc o => Sys2Proof.Machine.execSpawnc o s
  | .spawnr n o => Sys2Proof.Machine.execSpawnr n o s
  | .nextch o => Sys2Proof.Machine.execNextch o s
  | .await => Sys2Proof.Machine.execAwait s
  | .exit => Sys2Proof.Machine.execExit s
  | .yield => Sys2Proof.Machine.execYield s
  | .moor => Sys2Proof.Machine.execMoor s
  | .unmoor => Sys2Proof.Machine.execUnmoor s
  | .frame d => Sys2Proof.Machine.execFrame d s
  | .cancel a => Sys2Proof.Machine.execCancel a s
  | .place d a b => Sys2Proof.Machine.execPlace d a b s
  | .rankof d a p => Sys2Proof.Machine.execRankof d a p s
  | .alloc d a => Sys2Proof.Machine.execAlloc d a s
  | .free a => Sys2Proof.Machine.execFree a s
  | .ruleend => Sys2Proof.Machine.execRuleend s
  | .netaud d => Sys2Proof.Machine.execNetaud d s
  | .nstat d a => Sys2Proof.Machine.execNstat d a s
  | .portp d a => Sys2Proof.Machine.execPortp d a s
  | .porta d a k => Sys2Proof.Machine.execPorta d a k s
  | .portn d a b => Sys2Proof.Machine.execPortn d a b s
  | .link a b => Sys2Proof.Machine.execLink a b s
  | .join a b => Sys2Proof.Machine.execJoin a b s
  | .linkn a b => Sys2Proof.Machine.execLinkn a b s
  | .paydup a b => Sys2Proof.Machine.execPaydup a b s
  | .paydrop d a im => Sys2Proof.Machine.execPaydrop d a im s
  | .payown a im => Sys2Proof.Machine.execPayown a im s
  | .chbind l f a p => Sys2Proof.Machine.execChbind l f a p s
  | .chfree a => Sys2Proof.Machine.execChfree a s
  | .chstat d a => Sys2Proof.Machine.execChstat d a s
  | .cbar im => Sys2Proof.Machine.execCbar im s
  | .cbarcfg d a im => Sys2Proof.Machine.execCbarcfg d a im s
  | .sluCopy d a b f e => Sys2Proof.Machine.execSluCopy d a b f e s
  | .sluFill d a b f e => Sys2Proof.Machine.execSluFill d a b f e s
  | .sluStat d a => Sys2Proof.Machine.execSluStat d a s
  | .sluCan a => Sys2Proof.Machine.execSluCan a s
  | .scOpen d a b => Sys2Proof.Machine.execScOpen d a b s
  | .scStep d a b im => Sys2Proof.Machine.execScStep d a b im s
  | .scMask r a b => Sys2Proof.Machine.execScMask r a b s
  | .scFork d a => Sys2Proof.Machine.execScFork d a s
  | .scRoll a b => Sys2Proof.Machine.execScRoll a b s
  | .scSave a b => Sys2Proof.Machine.execScSave a b s
  | .scLoad d a => Sys2Proof.Machine.execScLoad d a s
  | .scClose a => Sys2Proof.Machine.execScClose a s
  | .scStat d a b => Sys2Proof.Machine.execScStat d a b s
  | .rng d a b => Sys2Proof.Machine.execRng d a b s
  | .rngu d a b => Sys2Proof.Machine.execRngu d a b s
  | .smpLoc d a b => Sys2Proof.Machine.execSmpLoc d a b s
  | .smpMrg d a b => Sys2Proof.Machine.execSmpMrg d a b s
  | .smpTopk d a b => Sys2Proof.Machine.execSmpTopk d a b s
  | .rpt n l sc m => Sys2Proof.Machine.execRpt n l sc m s
  | .rptD n l sc m => Sys2Proof.Machine.execRptD n l sc m s
  | .borrow d a => Sys2Proof.Machine.execBorrow d a s
  | .giveb => Sys2Proof.Machine.execGiveb s
  | .xmovt d a c => Sys2Proof.Machine.execXmovt d a c s
  | .xmovf d a c => Sys2Proof.Machine.execXmovf d a c s
  | .csrr d c => Sys2Proof.Machine.execCsrr d c s
  | .csrw d a c => Sys2Proof.Machine.execCsrw d a c s
  | .csrs d a c => Sys2Proof.Machine.execCsrs d a c s
  | .csrc d a c => Sys2Proof.Machine.execCsrc d a c s
  | .ecall => Sys2Proof.Machine.execEcall s
  | .ebreak => Sys2Proof.Machine.execEbreak s
  | .tret => Sys2Proof.Machine.execTret s
  | .wfi => Sys2Proof.Machine.execWfi s
  | .isync => Sys2Proof.Machine.execIsync s
  | .lnch d a => Sys2Proof.Machine.execLnch d a s
  | .lcancel a => Sys2Proof.Machine.execLcancel a s
  | .pspill d a b => Sys2Proof.Machine.execPspill d a b s
  | .prest d a b => Sys2Proof.Machine.execPrest d a b s
  | .repeatBufferWord r => Sys2Proof.Machine.execRepeatBufferWord r s
  | .interruptEntry r b => Sys2Proof.Machine.execInterruptEntry r b s
  | .replyArrival r b => Sys2Proof.Machine.execReplyArrival r b s
  | .registerFileDrowse r b => Sys2Proof.Machine.execRegisterFileDrowse r b s
  | .docking r => Sys2Proof.Machine.execDocking r s
  | .bargeArrival r pk => Sys2Proof.Machine.execBargeArrival r pk s
  | .spillReturn r => Sys2Proof.Machine.execSpillReturn r s
  | .frameIncrement h r b => Sys2Proof.Machine.execFrameIncrement h r b s
  | .frameDecrement h => Sys2Proof.Machine.execFrameDecrement h s
  | .resumeMessage r slot lid => Sys2Proof.Machine.execResumeMessage r slot lid s
  | .chunkClaim h r b target => Sys2Proof.Machine.execChunkClaim h r b target s
  | .stealRequest r => Sys2Proof.Machine.execStealRequest r s
  | .stealServe cl => Sys2Proof.Machine.execStealServe cl s
  | .detectionPass lid => Sys2Proof.Machine.execDetectionPass lid s
  | .pairMessage r pk => Sys2Proof.Machine.execPairMessage r pk s
  | .freeSlotReturn r slot lid => Sys2Proof.Machine.execFreeSlotReturn r slot lid s
  | .poolAudit r lid => Sys2Proof.Machine.execPoolAudit r lid s
  | .channelEntryArrival r b port fr fb fp lid v => Sys2Proof.Machine.execChannelEntryArrival r b port fr fb fp lid v s
  | .channelFreedNotice r b port fr fb fp => Sys2Proof.Machine.execChannelFreedNotice r b port fr fb fp s
  | .deadlockProbeSend r b => Sys2Proof.Machine.execDeadlockProbeSend r b s
  | .deadlockProbeReceive r b ids => Sys2Proof.Machine.execDeadlockProbeReceive r b ids s
  | .barrierArrival cl id r b => Sys2Proof.Machine.execBarrierArrival cl id r b s
  | .barrierTimeout cl id => Sys2Proof.Machine.execBarrierTimeout cl id s
  | .brotTimeout r => Sys2Proof.Machine.execBrotTimeout r s
  | .mmaStep r => Sys2Proof.Machine.execMmaStep r s
  | .latchFillDone r h => Sys2Proof.Machine.execLatchFillDone r h s
  | .ringSend r => Sys2Proof.Machine.execRingSend r s
  | .ringTransferDone r => Sys2Proof.Machine.execRingTransferDone r s
  | .dtabSortDone r t => Sys2Proof.Machine.execDtabSortDone r t s
  | .basinSwitchDone cl bank => Sys2Proof.Machine.execBasinSwitchDone cl bank s
  | .sluiceBurst cl => Sys2Proof.Machine.execSluiceBurst cl s
  | .scRequestService cl => Sys2Proof.Machine.execScRequestService cl s
  | .walkDone cl asid gran => Sys2Proof.Machine.execWalkDone cl asid gran s
  | .timerExpiry r => Sys2Proof.Machine.execTimerExpiry r s
  | .budgetExpiry r b => Sys2Proof.Machine.execBudgetExpiry r b s
  | .preemptRequest r => Sys2Proof.Machine.execPreemptRequest r s
  | .restoreStart r buf => Sys2Proof.Machine.execRestoreStart r buf s
  | .heldMessageRelease r => Sys2Proof.Machine.execHeldMessageRelease r s
  | .jobTake => Sys2Proof.Machine.execJobTake s
  | .launchAdmission job => Sys2Proof.Machine.execLaunchAdmission job s
  | .jqtailWrite v => Sys2Proof.Machine.execJqtailWrite v s
  | .jqcancel v => Sys2Proof.Machine.execJqcancel v s
  | .ctxWrite n v => Sys2Proof.Machine.execCtxWrite n v s
  | .tlbinvAsid asid => Sys2Proof.Machine.execTlbinvAsid asid s
  | .tlbinvRange asid va len => Sys2Proof.Machine.execTlbinvRange asid va len s
  | .tlbinvAll => Sys2Proof.Machine.execTlbinvAll s
  | .shootdownDone => Sys2Proof.Machine.execShootdownDone s
  | .hostBar2Read off n => Sys2Proof.Machine.execHostBar2Read off n s
  | .hostBar2Write off bytes => Sys2Proof.Machine.execHostBar2Write off bytes s
  | .debugHalt r m => Sys2Proof.Machine.execDebugHalt r m s
  | .berthHalted r b => Sys2Proof.Machine.execBerthHalted r b s
  | .debugResume r m => Sys2Proof.Machine.execDebugResume r m s
  | .debugDataWrite r v => Sys2Proof.Machine.execDebugDataWrite r v s
  | .corecfgWrite r v => Sys2Proof.Machine.execCorecfgWrite r v s
  | .hqctlWrite r v => Sys2Proof.Machine.execHqctlWrite r v s
  | .bascfgWrite r v => Sys2Proof.Machine.execBascfgWrite r v s
  | .timecmpWrite r v => Sys2Proof.Machine.execTimecmpWrite r v s
  | .registerWrite reg v => Sys2Proof.Machine.execRegisterWrite reg v s
  | .atgoWrite v => Sys2Proof.Machine.execAtgoWrite v s
  | .attestReportDone => Sys2Proof.Machine.execAttestReportDone s
  | .eccCorrected un => Sys2Proof.Machine.execEccCorrected un s
  | .eccUncorrectable un => Sys2Proof.Machine.execEccUncorrectable un s
  | .flitCrcError fl => Sys2Proof.Machine.execFlitCrcError fl s
  | .linkFlitError link => Sys2Proof.Machine.execLinkFlitError link s
  | .fatalError un => Sys2Proof.Machine.execFatalError un s
  | .scrub stack line => Sys2Proof.Machine.execScrub stack line s
  | .telemetryPoll => Sys2Proof.Machine.execTelemetryPoll s
  | .clusterRetire cl => Sys2Proof.Machine.execClusterRetire cl s
  | .powerMeasurement watts => Sys2Proof.Machine.execPowerMeasurement watts s
  | .thermalTrip temp => Sys2Proof.Machine.execThermalTrip temp s
  | .powerOnReset bt => Sys2Proof.Machine.execPowerOnReset bt s
  | .smbusReadPower => Sys2Proof.Machine.execSmbusReadPower s
  | .smbusReadTemperature => Sys2Proof.Machine.execSmbusReadTemperature s
  | .smbusReadReady => Sys2Proof.Machine.execSmbusReadReady s
  | .smbusWritePlim w => Sys2Proof.Machine.execSmbusWritePlim w s
  | .smbusReadBoot => Sys2Proof.Machine.execSmbusReadBoot s
  | .illegalInstruction w => Sys2Proof.Machine.execIllegalInstruction w s
  | .fetchFault va => Sys2Proof.Machine.execFetchFault va s
  | .dumpCopyDone => Sys2Proof.Machine.execDumpCopyDone s
  | .pcieConfigurationRequest rq => Sys2Proof.Machine.execPcieConfigurationRequest rq s

end Sys2Proof.Machine
end

