-- ==== Sys2Proof/Machine/Issue.lean ====
section
/-!
DEFINITION. What one step does: the order of what happens in a cycle, the autonomous steps that are due, the choice of
the berth that issues (R18, R19), its fetch (R47, R174) and decoding (R46), and the clock's tick (R288).
-/
namespace Sys2Proof.Machine
open State

noncomputable section

/-! ### What is due of its own accord -/

/-- The first of a list that is there. -/
def firstSome {α β : Type} (f : α → Option β) : List α → Option β
  | [] => none
  | a :: l => match f a with
    | some b => some b
    | none => firstSome f l
def onlyIf (c : Bool) (i : Instr) : Option Instr := if c then some i else none

/-- A berth's steps. -/
def berthAuto (s : State) (r b : Nat) : Option Instr :=
  firstSome id
    [ onlyIf (budgetDue s r b) (.budgetExpiry r b)
    , onlyIf (haltDue s r b) (.berthHalted r b)
    , onlyIf (entryDue s r b).isSome (.interruptEntry r b)
    , onlyIf (probeDue s r b) (.deadlockProbeSend r b)
    , onlyIf (drowseDue s r b) (.registerFileDrowse r b) ]
/-- The half whose fill has run its time. -/
def fillDue (s : State) (r h : Nat) : Bool :=
  match ((s.core r).half h).fill with | some (_, _, _, t, _) => decide (t ≤ s.cycle) | none => false
/-- A ring transfer that has run its time. -/
def transferDue (s : State) (r : Nat) : Bool :=
  match (s.core r).sends.head? with | some e => (match e.till with | some t => decide (t ≤ s.cycle) | none => false) | none => false
/-- A core's steps. -/
def coreAuto (s : State) (r : Nat) : Option Instr :=
  firstSome id
    [ onlyIf (mmaDue s r) (.mmaStep r)
    , onlyIf (fillDue s r 0) (.latchFillDone r 0)
    , onlyIf (fillDue s r 1) (.latchFillDone r 1)
    , onlyIf (transferDue s r) (.ringTransferDone r)
    , onlyIf (ringSendReady s r) (.ringSend r)
    , onlyIf (sortDue s r 0) (.dtabSortDone r 0)
    , onlyIf (sortDue s r 1) (.dtabSortDone r 1)
    , onlyIf (timerDue s r) (.timerExpiry r)
    , firstSome (berthAuto s r) (upTo 16)
    , onlyIf (spillReady s r) (.spillReturn r)
    , onlyIf (dockReady s r) (.docking r)
    , onlyIf (stealReady s r) (.stealRequest r)
    , onlyIf (brotStalled s r).isSome (.brotTimeout r)
    , firstSome (fun p => onlyIf (auditDue s r p.lid) (.poolAudit r p.lid)) (s.core r).pools
    , (waitedRestore s r).map fun v => .restoreStart r v ]
/-- A cluster's steps; a core without any state of its own yet can still be a thief (R161). -/
def clusterAuto (s : State) (cl : Nat) : Option Instr :=
  firstSome id
    [ firstSome (fun n => onlyIf (switchDue s cl n) (.basinSwitchDone cl n)) (upTo 16)
    , onlyIf (sluDue s cl) (.sluiceBurst cl)
    , onlyIf (scDue s cl) (.scRequestService cl)
    , firstSome (fun id => onlyIf (barrierStalled s cl id) (.barrierTimeout cl id)) (upTo 16)
    , onlyIf (stealServeReady s cl) (.stealServe cl) ]
/-- A retirement's steps: the pre-emption of a core that still runs, then the move (R350). -/
def retireAuto (s : State) (cl : Nat) : Option Instr :=
  match retireAsk s cl with
  | some r => some (.preemptRequest r)
  | none => onlyIf (retireDue s cl) (.clusterRetire cl)
/-- The lockhouse's steps. -/
def lockAuto (s : State) : Option Instr :=
  firstSome id
    [ firstSome (fun l => onlyIf (passDue s l) (.detectionPass l.lid)) s.launches
    , firstSome (fun e => onlyIf (releaseDue s e.1) (.heldMessageRelease e.1)) s.held
    , firstSome (fun e => retireAuto s e.1) s.lock.failing
    , onlyIf (takeDue s) .jobTake
    , firstSome (fun j => onlyIf (admitDue s j.id).isSome (.launchAdmission j.id)) s.lock.jobs
    , (scrubNext s).map fun e => .scrub e.1 e.2
    , onlyIf (pollDue s) .telemetryPoll ]
/-- The cores that may take part in stealing without having any state of their own: those of a cluster in which some
core has packets queued. -/
def idleThieves (s : State) : List Nat :=
  ((s.cores.filter fun e => !e.2.queue.isEmpty).map fun e => (ringRanks (clusterOf e.1)).filter fun r => (alGet s.cores r).isNone).flatten
/-- The first autonomous step that is due: of the cores by rank and then the clusters by number, then of the lockhouse. -/
def nextAuto (s : State) : Option Instr :=
  firstSome id
    [ firstSome (fun e => coreAuto s e.1) s.cores
    , firstSome (fun r => onlyIf (stealReady s r) (.stealRequest r)) (idleThieves s)
    , firstSome (fun e => clusterAuto s e.1) s.clusters
    , lockAuto s ]

/-! ### The berth that issues (R18, R19) -/

/-- Whether berth b of core r is alive: it holds a barge, or a request or restore has started it. -/
def alive (k : Berth) : Bool := (k.hdr.isSome || k.started) && k.lent.isNone
/-- Ready but for a drowsy file (R18). -/
def berthReady (s : State) (r b : Nat) : Bool :=
  let k := s.berthAt r b
  alive k && k.halt == .no && k.wait.isNone && decide (k.readyAt ≤ s.cycle ∧ k.fileAt ≤ s.cycle)
/-- A waiting berth looks again at what it waits for, once a cycle (R20); one that waits for a reply or for a time does not. -/
def pollReady (s : State) (r b : Nat) : Bool :=
  let k := s.berthAt r b
  alive k && k.halt != .halted &&
    (match k.wait with | some w => waitLooks s.cycle w && w.reply.isNone && decide (w.polled < s.cycle) | none => false)
/-- The order of the wait of a berth. -/
def ticketOf (k : Berth) : Nat := match k.wait with | some w => w.ticket | none => 0
/-- The waiting berths to look at, in the order in which they began to wait. -/
def nextPoll (s : State) : Option (Nat × Nat) :=
  minBy (fun e => ticketOf (s.berthAt e.1 e.2))
    ((s.cores.map fun e => ((upTo 16).filter fun b => pollReady s e.1 b).map fun b => (e.1, b)).flatten)
/-- Whether a wait is that of a request which was held and is performed now. -/
def wasHeld (w : Option Wait) : Bool :=
  match w with
  | some w => (match w.why with | .held _ => true | .sequence _ _ _ => w.acked | _ => false)
  | none => false
/-- A request that was held at its core and is released is performed in the order of its arrival, before what comes later
(R169, R266). -/
def nextHeld (s : State) : Option (Nat × Nat) :=
  firstSome (fun e =>
    match (upTo 16).find? fun b => pollReady s e.1 b && wasHeld (s.berthAt e.1 b).wait with
    | some b => some (e.1, b)
    | none => if bufDue s e.1 && (match e.2.buffer with | some q => wasHeld q.wait | none => false) then some (e.1, 16) else none) s.cores
/-- The first core whose release that waited behind another one starts now (R179). -/
def nextRelease (s : State) : Option Nat := (s.cores.find? fun e => s.releaseStarts e.1).map fun e => e.1
/-- R19: the search starts behind the berth chosen last. -/
def chooseBerth (s : State) (r : Nat) : Option Nat :=
  let c := s.core r
  if c.issueAt ≤ s.cycle then ((upTo 16).map fun i => (c.last + 1 + i) % 16).find? fun b => berthReady s r b else none
/-- The core that issues next of those that have not issued in this cycle and have a ready berth: by cluster, and in B-ring
order within one (R134, R172). -/
def nextIssue (s : State) : Option (Nat × Nat) :=
  minBy (fun e => clusterOf e.1 * 16 + ringPos e.1) (s.cores.filterMap fun e => (chooseBerth s e.1).map fun b => (e.1, b))
/-- The lowest core whose repetition buffer issues now, after the berths' instructions of the cycle (R53). -/
def nextBufWord (s : State) : Option Nat := (s.cores.find? fun e => bufDue s e.1).map fun e => e.1
/-- The first berth whose cancelled barge leaves at its boundary (R268). -/
def nextRemoval (s : State) : Option (Nat × Nat) :=
  firstSome (fun e => ((upTo 16).find? fun b => removalDue s e.1 b).map fun b => (e.1, b)) s.cores

/-! ### Fetching and running a word -/

/-- A vector instruction that a berth issues now, for the first time, takes the vector unit's cycle (R53). -/
def State.noteVector (t : State) (w : W32) : State :=
  if isVector w.toNat && t.me.wait.isNone then t.modMyCore fun c => { c with vecAt := t.cycle + 1 } else t

/-- A fetched or repeated word: an illegal one traps (R46), one that meets the repetition buffer's registers waits
(R53), any other has its meaning; the buffer's next vector word follows one of a berth by a cycle (R53). -/
def runWord (w : W32) (t : State) : Host.Outcome State Fault Refusal :=
  match decodeWord w with
  | .error _ => exec (.illegalInstruction w) t
  | .ok i => if boardConflict t w then .next (t.block .board) else exec i (t.noteVector w)
/-- The executing berth fetches at its PC and runs what it finds, or waits until its line is there; in a coupled block it
repeats the block's word. -/
def runBerth (t : State) : Host.Outcome State Fault Refusal :=
  match t.me.rpt with
  | some b => runWord (stepWord b b.k b.idx) t
  | none => match fetchAt t t.me.pc with
    | .word w => runWord w (t.modMe fun k => { k with entry := false })
    | .filled u lat => .next (fetchWait u lat)
    | .wait y => .next (t.block y)
    | .fault .fetch => exec (.fetchFault t.me.pc) t
    | .fault c => if t.me.entry then .next t.halting else t.finish (stop c (if c = .poison then unitVa t.me.pc else t.me.pc))
/-- The core's issue slot goes to berth b, which acts from here on (R19). -/
def takeSlot (s : State) (r b : Nat) : State :=
  ((s.modCore r fun c => { c with last := b, issueAt := s.cycle + 1 }).modBerth r b fun k => { k with lastIssue := s.cycle }).as r b
/-- A ready berth issues; one whose file is drowsy wakes first, for 3 cycles (R32). -/
def issue (s : State) (r b : Nat) : Host.Outcome State Fault Refusal :=
  if (s.berthAt r b).drowsy then
    .next (s.modBerth r b fun k => { k with drowsy := false, lastIssue := s.cycle, readyAt := s.cycle + 3 })
  else runBerth (takeSlot s r b)
/-- The next cycle: every budget that counts goes down by one (R288). -/
def tickBerth (k : Berth) : Berth := if counting k && k.budget != 0 then { k with budget := k.budget - 1 } else k
def tick (s : State) : State :=
  { s with cycle := s.cycle + 1, cores := s.cores.map fun e => (e.1, { e.2 with berths := e.2.berths.map tickBerth }) }

/-! ### One step -/

/-- What happens next. -/
inductive Act where
  | lost                         -- something from outside for the cores, whose power is gone (R359)
  | drop                         -- a message for them
  | boot (bt : BootInput)        -- a step of the boot (R353)
  | input (i : Instr)            -- something from outside, at the head of `inputs`
  | hold (r : Nat) (i : Instr)   -- a message that is due at a rank for which messages are held (R266)
  | join (r : Nat) (i : Instr)   -- a unit's request that would go to such a rank
  | due (i : Instr)              -- a message or event that is due
  | auto (i : Instr)             -- an autonomous step
  | clean (r : Nat)              -- a release that waited behind another one starts (R179)
  | remove (r b : Nat)           -- a cancelled barge leaves (R268)
  | poll (r b : Nat)             -- a waiting berth looks again
  | issue (r b : Nat)
  | tick
deriving DecidableEq, Repr

/-- The rank for which a sluice's burst or an engine's request is held (R266, R378). -/
def joinsAt (s : State) (i : Instr) : Option Nat :=
  match i with | .sluiceBurst cl => sluHeld s cl | .scRequestService cl => scHeld s cl | _ => none
/-- The rank at which a message is due and held: so is one behind others that are still held (R266, R306). -/
def holdsAt (s : State) (i : Instr) : Option Nat :=
  match msgRank i with
  | some r => if s.rankHeld r || !(heldFor s r).isEmpty then some r else none
  | none => joinsAt s i
/-- What the lockhouse, the host and the board can still do once core power is gone (R359, log 78). -/
def lockOnly (i : Instr) : Bool :=
  match i with
  | .dumpCopyDone | .attestReportDone | .shootdownDone | .jqtailWrite _ | .jqcancel _ | .ctxWrite _ _ | .tlbinvAsid _
  | .tlbinvRange _ _ _ | .tlbinvAll | .hostBar2Read _ _ | .hostBar2Write _ _ | .atgoWrite _ | .eccCorrected (.hbm _)
  | .eccUncorrectable (.hbm _) | .linkFlitError _ | .fatalError (.stack _) | .powerMeasurement _ | .thermalTrip _ | .powerOnReset _
  | .smbusReadPower | .smbusReadTemperature | .smbusReadReady | .smbusWritePlim _ | .smbusReadBoot | .pcieConfigurationRequest _ => true
  | .registerWrite reg _ => (match reg with | .dbgctl _ | .dbgsel _ | .csr _ _ _ => false | _ => true)
  | _ => false
/-- What comes next when core power is gone: the lockhouse goes on, jobs may be taken and wait. -/
def offAct (s : State) (arrived : Option Instr) : Act :=
  match arrived with
  | some i => if lockOnly i then .due i else .drop
  | none => if takeDue s then .auto .jobTake else match firstSome (fun j => onlyIf (admitDue s j.id).isSome (.launchAdmission j.id)) s.lock.jobs with
    | some i => .auto i
    | none => .tick
/-- What the berths and the repetition buffers do in a cycle. -/
def berthAct (s : State) : Act :=
  match nextRemoval s with
  | some (r, b) => .remove r b
  | none => match nextPoll s with
    | some (r, b) => .poll r b
    | none => match nextIssue s with
      | some (r, b) => .issue r b
      | none => match nextBufWord s with
        | some r => .auto (.repeatBufferWord r)
        | none => .tick
/-- What the units and then the berths do in a cycle in which nothing more arrives. -/
def innerAct (s : State) : Act :=
  match bootDue s with
  | some bt => .boot bt
  | none => match nextRelease s with
    | some r => .clean r
    | none => match nextAuto s with
      | some i => (match joinsAt s i with | some r => .join r i | none => .auto i)
      | none => berthAct s
/-- The message or event at the head of the agenda, if it is due. -/
def arrived (s : State) : Option Instr :=
  match s.agenda with
  | (t, i) :: _ => if t ≤ s.cycle then some i else none
  | [] => none
/-- The order within a cycle: what comes from outside, what arrives, the boot, what units do of themselves, then berths. -/
def cycleAct (s : State) : Act :=
  match s.inputs with
  | i :: _ => if s.powerOff && !lockOnly i then .lost else .input i
  | [] =>
    if s.powerOff then offAct s (arrived s)
    else match nextHeld s with
      | some (r, b) => if b = 16 then .auto (.repeatBufferWord r) else .poll r b
      | none => match arrived s with
        | some i => (match holdsAt s i with | some r => .hold r i | none => .due i)
        | none => innerAct s
/-- What happens next: what the write-backs of the cycle before have still to do, then what the cycle brings. -/
def nextAct (s : State) : Act :=
  match arrived s with
  | some i => if !s.powerOff && s.pastReply i then .due i else cycleAct s
  | none => cycleAct s
/-- One step. -/
def perform (s : State) : Act → Host.Outcome State Fault Refusal
  | .lost => .next { s with inputs := s.inputs.tail }
  | .drop => .next { s with agenda := s.agenda.tail }
  | .boot bt => .next (s.withLock (bootStep s.cycle bt))
  | .input i => exec i { s with inputs := s.inputs.tail }
  | .hold r i => .next { s with agenda := s.agenda.tail, held := s.held ++ [(r, i)] }
  | .join r i => .next { s with held := s.held ++ [(r, i)] }
  | .due i => exec i { s with agenda := s.agenda.tail }
  | .auto i => exec i s
  | .clean r => .next (s.startRelease r)
  | .remove r b => .next (removeBarge s r b)
  | .poll r b => runBerth (s.as r b)
  | .issue r b => issue s r b
  | .tick => .next (tick s)

/-! ### A program word for the next step -/

/-- The icache line that holds a word at an address, zeros about it; any barge may fetch from it. -/
def wordLine (asid : Nat) (va w : Nat) : ILine :=
  ⟨asid, va / 128, 0, 0x1F, BitVec.ofNat 1024 (w * 2 ^ (8 * (va % 128))), 0⟩
/-- A berth with a barge that can issue now. -/
def awake (now : Nat) (k : Berth) : Berth :=
  { k with
    hdr := some (k.hdr.getD noHdr)
    lent := none
    wait := none
    rpt := none
    bufTrap := none
    halt := .no
    drowsy := false
    readyAt := Nat.min k.readyAt now
    lastIssue := now }
/-- The executing core and berth, with a barge there that fetches w next. -/
def placeWord32 (s : State) (w : Nat) : State :=
  let s1 := s.modMe (awake s.cycle)
  let asid := s1.who.asid
  let va := s1.me.pc.toNat
  s1.modMyCore fun c => { c with
    issueAt := Nat.min c.issueAt s.cycle
    icache := wordLine asid va w :: c.icache.filter fun o => !(o.asid == asid && o.va == va / 128) }

end
end Sys2Proof.Machine
end

