-- ==== Sys2Proof/Machine/Step.lean ====
section
/-!
DEFINITION. One step of the whole device, and a program word placed for the next one.
-/
namespace Sys2Proof.Machine

/-- One step: what comes next in the order of `nextAct`, performed. -/
noncomputable def step (s : State) : Host.Outcome State Fault Refusal := perform s (nextAct s)

/-- s with the instruction whose bits are w where its executing berth fetches next. -/
noncomputable def State.withFetchWord (s : State) (nbits w : Nat) : State := placeWord32 s (w % 2 ^ Nat.min nbits 32)

end Sys2Proof.Machine
end

