-- ==== Sys2Proof/Safety.lean ====
section
/-!
DEFINITION. What counts as a sound state and a safe run, in the terms the claims use, and the words the statements share.
-/
namespace Sys2Proof.Machine

/-- The invariant of memory: one canonical form, so equal memories are equal lists. -/
def State.memOk (s : State) : Prop := Memory.wf s.mem = true

/-- A step is safe when it neither faults nor refuses. -/
def safeStep (s : State) : Prop := ∃ t, step s = .next t

/-- A run of n safe steps. -/
def safeRun : Nat → State → Prop
  | 0, _ => True
  | n + 1, s => ∃ t, step s = .next t ∧ safeRun n t

end Sys2Proof.Machine

/-! ### The words of the statements -/

namespace Sys2Proof.Spec
open Sys2Proof.Machine Sys2Proof.Machine.State

/-- A source field may be read (R25, R210): an x register, or an inbound port that is bound, holds an entry, and whose
core is not stopped by a pre-emption (R306). -/
def InReady (s : State) (r : BitVec 5) : Prop :=
  r.toNat < 24 ∨ ((port s.me (r.toNat - 24)).bound = true ∧ s.myCore.shut = false ∧ (port s.me (r.toNat - 24)).q ≠ [])
/-- A destination field may be written (R25, R210): an x register, or an outbound port that is bound, not freed, whose
peer is bound back, with fewer than 8 entries held and in transit. -/
def OutReady (s : State) (d : BitVec 5) : Prop :=
  d.toNat < 24 ∨ ((port s.me (d.toNat - 24)).bound = true ∧ s.myCore.shut = false ∧ (port s.me (d.toNat - 24)).freed = false ∧
    s.peer s.rank s.berth (d.toNat - 24) = true ∧ s.room (port s.me (d.toNat - 24)) = true)
/-- Every port an instruction names is ready. -/
def Ready (s : State) (srcs : List (BitVec 5)) (d : BitVec 5) : Prop := (∀ r ∈ srcs, InReady s r) ∧ OutReady s d

/-- The state after an instruction whose effect is to write v to x[d], `lat` cycles from its issue to the berth's next: one
of class F pops the ports among its sources, writes and moves on; a longer one waits for the reply that does so (R36). -/
noncomputable def wrote (s : State) (srcs : List (BitVec 5)) (d : BitVec 5) (v : Word) (lat : Nat := 8) : State :=
  s.done lat { srcs := srcs, writes := [(d.toNat, v)] }
/-- The same for a predicate bit, and for an f register; `fl` are the flags raised. -/
noncomputable def marked (s : State) (srcs : List (BitVec 5)) (p : BitVec 5) (v : Bool) (fl : Flags := 0) : State :=
  (((s.pops srcs).wp p v).flag fl).next
noncomputable def floated (s : State) (srcs : List (BitVec 5)) (d : BitVec 4) (r : W32 × Flags) : State :=
  (((s.pops srcs).wf d r.1).flag r.2).next
/-- The trap the executing instruction takes. -/
noncomputable def trapped (s : State) (c : Cause) (tval : Word) : State := s.takeTrap c tval

/-- No coupled block is in progress at the executing berth, and it is not a word of the repetition buffer. -/
def Plain (s : State) : Prop := s.me.rpt = none ∧ s.buffered = false

end Sys2Proof.Spec
end

