-- ==== Sys2Proof/Certificates/Slice0/Obligations.lean ====
section
/-!
DEFINITION. The statements for the provers, family by family; the words they share stand in Safety.lean.
-/
open Sys2Proof Sys2Proof.Machine Sys2Proof.Machine.State Sys2Proof.Spec

/-! ### Registers, predicates and ports -/

/-- R24, R23: a write to x0 is discarded and x0 reads zero; a write to x1 to x23 is what the register then reads, and
every other x register keeps its value; no other part of the berth changes. -/
def Sys2Proof.Spec.XRegisterWrite : Prop :=
  ∀ (s : State) (d r : BitVec 5) (v : Word), d.toNat < 24 →
    s.rx 0 = 0 ∧ (s.wx 0 v = s) ∧ (d ≠ 0 → (s.wx d v).rx d = v) ∧ (r.toNat < 24 → r ≠ d → (s.wx d v).rx r = s.rx r) ∧
    { (s.wx d v).me with x := s.me.x } = s.me ∧ (s.wx d v).mem = s.mem ∧
    (∀ q b, (q ≠ s.rank ∨ b % 16 ≠ s.berth % 16) → (s.wx d v).berthAt q b = s.berthAt q b)

/-- R26: p0 always reads 1 and a write to it is discarded; a write to another predicate bit leaves the rest of P. -/
def Sys2Proof.Spec.PredicateWrite : Prop :=
  ∀ (s : State) (i k : BitVec 5) (v : Bool),
    s.rp 0 = true ∧ s.wp 0 v = s ∧ (i ≠ 0 → (s.wp i v).rp i = v) ∧ (k ≠ i → (s.wp i v).rp k = s.rp k) ∧
    { (s.wp i v).me with p := s.me.p } = s.me

/-- The register forms of R77 to R83, each with the x registers it reads, in field order, and the one it writes. -/
def Sys2Proof.Spec.portForms (d a b p : BitVec 5) (im : BitVec 15) (n : BitVec 6) (u : BitVec 20) : List (Instr × List (BitVec 5) × BitVec 5) :=
  ([.add d a b, .sub d a b, .and d a b, .or d a b, .xor d a b, .andn d a b, .orn d a b, .sll d a b, .srl d a b, .sra d a b, .ror d a b,
    .addw d a b, .subw d a b, .mul d a b, .mulh d a b, .mulhu d a b, .mulhsu d a b, .min d a b, .max d a b, .minu d a b, .maxu d a b,
    .div d a b, .divu d a b, .rem d a b, .remu d a b, .sel d a b p].map fun i => (i, [a, b], d)) ++
  ([.clz d a, .ctz d a, .popc d a, .sextb d a, .sexth d a, .sextw d a, .zextw d a, .addi d a im, .andi d a im, .ori d a im, .xori d a im,
    .addiw d a im, .slli d a n, .srli d a n, .srai d a n, .rori d a n].map fun i => (i, [a], d)) ++
  ([.lui d u, .auipc d u, .selP d].map fun i => (i, [], d)) ++
  ([.cmpEq p a b, .cmpNe p a b, .cmpLt p a b, .cmpLtu p a b, .cmpGe p a b, .cmpGeu p a b].map fun i => (i, [a, b], 0)) ++
  ([.cmpiEq p a im, .cmpiNe p a im, .cmpiLt p a im, .cmpiLtu p a im, .cmpiGe p a im, .cmpiGeu p a im, .pset p a, .psetP a].map fun i => (i, [a], 0))

/-- R25, R210: an instruction checks the ports it names in field order, its sources before its destination. One that comes to
an unbound port, to an empty inbound port whose partner has freed its end, to a freed outbound port, or to any port of a
stopped core, traps CHAN with the register's number in TVAL; one that comes otherwise to an empty inbound port, or to an
outbound port without room or whose peer is not bound back, waits; one whose ports are all ready is not held up by them. -/
def Obligations.PortChecks : Prop :=
  ∀ (s : State) (d a b p : BitVec 5) (im : BitVec 15) (n : BitVec 6) (u : BitVec 20), s.buffered = false →
    ∀ e ∈ Spec.portForms d a b p im n u,
      (Ready s e.2.1 e.2.2 → s.checkPorts e.2.1 e.2.2 = .ok () ∧ (e.2.2.toNat < 24 → ∃ t, exec e.1 s = .next t ∧ t.myCore.instret = s.myCore.instret + 1)) ∧
      (∀ pre r post, e.2.1 = pre ++ r :: post → (∀ q ∈ pre, InReady s q) → 24 ≤ r.toNat →
        let q := port s.me (r.toNat - 24)
        (q.bound = false ∨ s.myCore.shut = true ∨ (q.q = [] ∧ q.freed = true) → exec e.1 s = .next (trapped s .chan (w64 r.toNat))) ∧
        (q.bound = true → s.myCore.shut = false → q.q = [] → q.freed = false → exec e.1 s = .next (s.block (.chan (r.toNat - 24))))) ∧
      ((∀ q ∈ e.2.1, InReady s q) → 24 ≤ e.2.2.toNat →
        let i := e.2.2.toNat - 24
        let q := port s.me i
        (q.bound = false ∨ s.myCore.shut = true ∨ q.freed = true → exec e.1 s = .next (trapped s .chan (w64 e.2.2.toNat))) ∧
        (q.bound = true → s.myCore.shut = false → q.freed = false → ¬ (s.peer s.rank s.berth i = true ∧ s.room q = true) →
          exec e.1 s = .next (s.block (.chan i))))

/-! ### Exact numbers and their rounding -/

namespace Sys2Proof.Spec
/-- m * 2^e as a whole number of units of 2^c, for c at most e. -/
def units (m : Nat) (e c : Int) : Nat := m * 2 ^ (e - c).toNat
/-- The whole number of a sign and a magnitude. -/
def signed (neg : Bool) (k : Nat) : Int := if neg then -(k : Int) else k
/-- x is a smaller number than y; with a NaN neither is. -/
def Below : FVal → FVal → Prop
  | .inf a, .inf b => a = true ∧ b = false
  | .inf a, .num _ _ _ => a = true
  | .num _ _ _, .inf b => b = false
  | .num n m e, .num k p q => signed n (units m e (min e q)) < signed k (units p q (min e q))
  | _, _ => False
/-- Whether a mode rounds a magnitude toward zero. -/
def towardZero (mode : Rm) (neg : Bool) : Bool := match mode with | .rtz => true | .rdn => !neg | .rup => neg | _ => false
/-- r is the number of sign neg whose magnitude lies as `low` and `high` say, rounded once into f under a mode and SAT, with its
flags (R64 to R66): `low n q` says that n * 2^q is not above that magnitude, `high n q` that it is not below. Toward zero, r is
the greatest value of f not above it; away from it, the least not below; to nearest, no other value is nearer, and at a tie r is
even. Below a power of two the values lie half as far apart as above it. It overflows only beyond the largest finite magnitude
by the mode's measure, and then gives the value R65 names. -/
def RoundedBy (f : Fmt) (mode : Rm) (sat neg : Bool) (low high : Nat → Int → Prop) (r : Nat × Flags) : Prop :=
  let sign := if neg then 2 ^ (f.ew + f.mw) else 0
  (r.2 &&& 4 = 0 → ∃ (n : Nat) (q : Int), f.decode r.1 = .num neg n q ∧ r.1 < 2 ^ f.width ∧
    let k : Nat := if n = 2 ^ f.mw ∧ f.qmin < q then 1 else 0
    (towardZero mode neg = true → low n q ∧ ¬ low (n + 1) q) ∧
    (towardZero mode neg = false → mode ≠ .rne → high n q ∧ (n ≠ 0 → ¬ high (2 ^ k * n - 1) (q - k))) ∧
    (mode = .rne → high (2 * n + 1) (q - 1) ∧ (n ≠ 0 → low (2 ^ (k + 1) * n - 1) (q - k - 1)) ∧
      (low (2 * n + 1) (q - 1) ∨ (n ≠ 0 ∧ high (2 ^ (k + 1) * n - 1) (q - k - 1)) → n % 2 = 0)) ∧
    (low n q ∧ high n q → r.2 = 0) ∧ (¬ (low n q ∧ high n q) → r.2 = if n ≠ 0 ∧ n < 2 ^ f.mw then 3 else 1)) ∧
  (r.2 &&& 4 ≠ 0 → r.2 = 5 ∧
    let max : Bool := sat || towardZero mode neg
    (f.special = .ieee → r.1 = sign + if max then f.maxBits else (2 ^ f.ew - 1) * 2 ^ f.mw) ∧
    (f.special = .oneNan → r.1 = if max then sign + f.maxBits else 2 ^ (f.ew + f.mw) - 1) ∧
    (f.special = .none → r.1 = sign + f.maxBits)) ∧
  (∀ (m : Nat) (q : Int), f.decode f.maxBits = .num false m q →
    (high m q ∨ (mode = .rne ∧ (¬ low (2 * m + 1) (q - 1) ∨ (m % 2 = 0 ∧ high (2 * m + 1) (q - 1)))) ∨
      (towardZero mode neg = true ∧ ¬ low (m + 1) q) → r.2 &&& 4 = 0))
/-- r is the exact value (-1)^neg * (num / den) * 2^e, rounded once. -/
def Rounded (f : Fmt) (mode : Rm) (sat neg : Bool) (num den : Nat) (e : Int) (r : Nat × Flags) : Prop :=
  RoundedBy f mode sat neg (fun n q => units n q (min e q) * den ≤ units num e (min e q))
    (fun n q => units num e (min e q) ≤ units n q (min e q) * den) r
/-- An FP32 result as a number, with its flags. -/
def bits (r : W32 × Flags) : Nat × Flags := (r.1.toNat, r.2)
end Sys2Proof.Spec

/-! ### Scalar instructions -/

/-- R77: the integer register operations complete on every value of their operands, and x[d] takes the tabled result. -/
def Sys2Proof.Spec.IntegerResults : Prop :=
  ∀ (s : State) (d a b : BitVec 5), Ready s [a, b] d →
    let x := s.rx a
    let y := s.rx b
    let n := y.toNat % 64
    let put (v : Word) : Host.Outcome State Fault Refusal := .next (wrote s [a, b] d v)
    exec (.add d a b) s = put (x + y) ∧ exec (.sub d a b) s = put (x - y) ∧
    exec (.and d a b) s = put (x &&& y) ∧ exec (.or d a b) s = put (x ||| y) ∧ exec (.xor d a b) s = put (x ^^^ y) ∧
    exec (.andn d a b) s = put (x &&& ~~~y) ∧ exec (.orn d a b) s = put (x ||| ~~~y) ∧
    exec (.sll d a b) s = put (x <<< n) ∧ exec (.srl d a b) s = put (x >>> n) ∧ exec (.sra d a b) s = put (x.sshiftRight n) ∧
    exec (.ror d a b) s = put ((x >>> n) ||| (x <<< ((64 - n) % 64))) ∧
    exec (.addw d a b) s = put (((x + y).setWidth 32).signExtend 64) ∧
    exec (.subw d a b) s = put (((x - y).setWidth 32).signExtend 64) ∧
    exec (.mul d a b) s = put (x * y) ∧
    exec (.mulh d a b) s = put (BitVec.ofInt 64 (x.toInt * y.toInt / 2 ^ 64)) ∧
    exec (.mulhu d a b) s = put (BitVec.ofNat 64 (x.toNat * y.toNat / 2 ^ 64)) ∧
    exec (.mulhsu d a b) s = put (BitVec.ofInt 64 (x.toInt * y.toNat / 2 ^ 64)) ∧
    exec (.min d a b) s = put (if x.toInt ≤ y.toInt then x else y) ∧
    exec (.max d a b) s = put (if x.toInt ≤ y.toInt then y else x) ∧
    exec (.minu d a b) s = put (if x.toNat ≤ y.toNat then x else y) ∧
    exec (.maxu d a b) s = put (if x.toNat ≤ y.toNat then y else x)

/-- R77: the unary operations. CLZ counts the zero bits above the highest one bit, CTZ those below the lowest, POPC the
one bits. -/
def Sys2Proof.Spec.UnaryResults : Prop :=
  ∀ (s : State) (d a : BitVec 5), Ready s [a] d →
    let x := s.rx a
    let put (v : Word) : Host.Outcome State Fault Refusal := .next (wrote s [a] d v)
    (∃ n, exec (.clz d a) s = put (w64 n) ∧ n ≤ 64 ∧ (∀ i < n, x.getLsbD (63 - i) = false) ∧ (n < 64 → x.getLsbD (63 - n) = true)) ∧
    (∃ n, exec (.ctz d a) s = put (w64 n) ∧ n ≤ 64 ∧ (∀ i < n, x.getLsbD i = false) ∧ (n < 64 → x.getLsbD n = true)) ∧
    exec (.popc d a) s = put (w64 ((List.range 64).filter fun i => x.getLsbD i).length) ∧
    exec (.sextb d a) s = put ((x.setWidth 8).signExtend 64) ∧ exec (.sexth d a) s = put ((x.setWidth 16).signExtend 64) ∧
    exec (.sextw d a) s = put ((x.setWidth 32).signExtend 64) ∧ exec (.zextw d a) s = put ((x.setWidth 32).setWidth 64)

/-- R78: the quotient is rounded toward zero, the remainder has the dividend's sign, and the corners are the tabled ones;
none of the four traps, and no flag is raised. -/
def Obligations.DivisionResults : Prop :=
  ∀ (s : State) (d a b : BitVec 5), Ready s [a, b] d →
    let x := s.rx a
    let y := s.rx b
    let put (v : Word) : Host.Outcome State Fault Refusal := .next (wrote s [a, b] d v)
    let low : Word := 0x8000000000000000
    let ones : Word := 0xFFFFFFFFFFFFFFFF
    exec (.div d a b) s = put (if y = 0 then ones else if x = low ∧ y = ones then x else BitVec.ofInt 64 (x.toInt.tdiv y.toInt)) ∧
    exec (.rem d a b) s = put (if y = 0 then x else if x = low ∧ y = ones then 0
      else BitVec.ofInt 64 (x.toInt - x.toInt.tdiv y.toInt * y.toInt)) ∧
    exec (.divu d a b) s = put (if y = 0 then ones else BitVec.ofNat 64 (x.toNat / y.toNat)) ∧
    exec (.remu d a b) s = put (if y = 0 then x else BitVec.ofNat 64 (x.toNat - x.toNat / y.toNat * y.toNat))

/-- R79, R80: the immediate operations and shifts; LUI and AUIPC take no source. -/
def Sys2Proof.Spec.ImmediateResults : Prop :=
  ∀ (s : State) (d a : BitVec 5) (im : BitVec 15) (n : BitVec 6) (u : BitVec 20), Ready s [a] d →
    let x := s.rx a
    let put (v : Word) : Host.Outcome State Fault Refusal := .next (wrote s [a] d v)
    let sxi : Word := im.signExtend 64
    let zxi : Word := im.setWidth 64
    let up : Word := ((u.setWidth 32) <<< 12).signExtend 64
    exec (.addi d a im) s = put (x + sxi) ∧ exec (.andi d a im) s = put (x &&& zxi) ∧ exec (.ori d a im) s = put (x ||| zxi) ∧
    exec (.xori d a im) s = put (x ^^^ zxi) ∧ exec (.addiw d a im) s = put (((x + sxi).setWidth 32).signExtend 64) ∧
    exec (.slli d a n) s = put (x <<< n.toNat) ∧ exec (.srli d a n) s = put (x >>> n.toNat) ∧
    exec (.srai d a n) s = put (x.sshiftRight n.toNat) ∧
    exec (.rori d a n) s = put ((x >>> n.toNat) ||| (x <<< ((64 - n.toNat) % 64))) ∧
    exec (.lui d u) s = .next (wrote s [] d up) ∧ exec (.auipc d u) s = .next (wrote s [] d (s.me.pc + up))

/-- R81: the compares write pd := 1 when the condition holds, else 0. -/
def Sys2Proof.Spec.CompareResults : Prop :=
  ∀ (s : State) (p a b : BitVec 5) (im : BitVec 15),
    let x := s.rx a
    (Ready s [a, b] 0 →
      let y := s.rx b
      let put (v : Bool) : Host.Outcome State Fault Refusal := .next (marked s [a, b] p v)
      exec (.cmpEq p a b) s = put (decide (x = y)) ∧ exec (.cmpNe p a b) s = put (decide (x ≠ y)) ∧
      exec (.cmpLt p a b) s = put (decide (x.toInt < y.toInt)) ∧ exec (.cmpLtu p a b) s = put (decide (x.toNat < y.toNat)) ∧
      exec (.cmpGe p a b) s = put (decide (y.toInt ≤ x.toInt)) ∧ exec (.cmpGeu p a b) s = put (decide (y.toNat ≤ x.toNat))) ∧
    (Ready s [a] 0 →
      let y : Word := im.signExtend 64
      let put (v : Bool) : Host.Outcome State Fault Refusal := .next (marked s [a] p v)
      exec (.cmpiEq p a im) s = put (decide (x = y)) ∧ exec (.cmpiNe p a im) s = put (decide (x ≠ y)) ∧
      exec (.cmpiLt p a im) s = put (decide (x.toInt < y.toInt)) ∧ exec (.cmpiLtu p a im) s = put (decide (x.toNat < y.toNat)) ∧
      exec (.cmpiGe p a im) s = put (decide (y.toInt ≤ x.toInt)) ∧ exec (.cmpiGeu p a im) s = put (decide (y.toNat ≤ x.toNat)))

/-- R82, R83: the predicate group and selection. PSET P writes p1 to p31 at once; SEL xd, P reads bit 0 as 1. -/
def Sys2Proof.Spec.PredicateResults : Prop :=
  ∀ (s : State) (pd pa pb : BitVec 5) (d a b i : BitVec 5),
    exec (.pand pd pa pb) s = .next (marked s [] pd (s.rp pa && s.rp pb)) ∧
    exec (.por pd pa pb) s = .next (marked s [] pd (s.rp pa || s.rp pb)) ∧
    exec (.pxor pd pa pb) s = .next (marked s [] pd (xor (s.rp pa) (s.rp pb))) ∧
    exec (.pandn pd pa pb) s = .next (marked s [] pd (s.rp pa && !s.rp pb)) ∧
    exec (.pmov pd pa) s = .next (marked s [] pd (s.rp pa)) ∧
    (Ready s [a] 0 →
      exec (.pset pd a) s = .next (marked s [a] pd (decide (s.rx a ≠ 0))) ∧
      ∃ t, exec (.psetP a) s = .next t ∧ (∀ k : BitVec 5, k ≠ 0 → t.rp k = (s.rx a).getLsbD k.toNat) ∧ t.me.p.getLsbD 0 = true) ∧
    (Ready s [a, b] d → exec (.sel d a b i) s = .next (wrote s [a, b] d (if s.rp i then s.rx a else s.rx b))) ∧
    (Ready s [] d → exec (.selP d) s = .next (wrote s [] d ((s.me.p ||| 1).setWidth 64)))

/-- R84: a branch or jump whose target has bits [63:52] zero goes there, an untaken branch goes on; the link is the
address of the next word, and JALR's target comes from x[a] as read before the link is written. A link that is pushed leaves
at the write-back, with which the jump is made (R25). -/
def Sys2Proof.Spec.Jumps : Prop :=
  ∀ (s : State) (d a p : BitVec 5) (ob : BitVec 19) (oj : BitVec 20) (im : BitVec 15),
    let tb := s.me.pc + 4 * ob.signExtend 64
    let tj := s.me.pc + 4 * oj.signExtend 64
    let tr := s.rx a + im.signExtend 64
    (s.rp p = true → tb.toNat < 2 ^ 52 → exec (.bpT p ob) s = .next (s.jump tb)) ∧
    (s.rp p = false → exec (.bpT p ob) s = .next s.next) ∧
    (s.rp p = false → tb.toNat < 2 ^ 52 → exec (.bpF p ob) s = .next (s.jump tb)) ∧
    (s.rp p = true → exec (.bpF p ob) s = .next s.next) ∧
    (tj.toNat < 2 ^ 52 → exec (.j oj) s = .next (s.jump tj)) ∧
    (Ready s [] d → tj.toNat < 2 ^ 52 →
      exec (.jal d oj) s = .next (s.done 8 { writes := [(d.toNat, s.me.pc + 4)], pc := some tj }) ∧
      (d.toNat < 24 → exec (.jal d oj) s = .next ((s.wx d (s.me.pc + 4)).jump tj))) ∧
    (Ready s [a] d → tr.toNat % 4 = 0 → tr.toNat < 2 ^ 52 →
      exec (.jalr d a im) s = .next (s.done 8 { srcs := [a], writes := [(d.toNat, s.me.pc + 4)], pc := some tr }) ∧
      (d.toNat < 24 → exec (.jalr d a im) s = .next (((s.pops [a]).wx d (s.me.pc + 4)).jump tr)))

/-- R84: a taken branch or jump out of range traps FETCH with the target in TVAL; JALR's alignment is judged first. -/
def Sys2Proof.Spec.JumpTraps : Prop :=
  ∀ (s : State) (d a p : BitVec 5) (ob : BitVec 19) (oj : BitVec 20) (im : BitVec 15), s.buffered = false →
    let tb := s.me.pc + 4 * ob.signExtend 64
    let tj := s.me.pc + 4 * oj.signExtend 64
    let tr := s.rx a + im.signExtend 64
    (s.rp p = true → 2 ^ 52 ≤ tb.toNat → exec (.bpT p ob) s = .next (trapped s .fetch tb)) ∧
    (s.rp p = false → 2 ^ 52 ≤ tb.toNat → exec (.bpF p ob) s = .next (trapped s .fetch tb)) ∧
    (2 ^ 52 ≤ tj.toNat → exec (.j oj) s = .next (trapped s .fetch tj)) ∧
    (Ready s [] d → 2 ^ 52 ≤ tj.toNat → exec (.jal d oj) s = .next (trapped s .fetch tj)) ∧
    (Ready s [a] d → tr.toNat % 4 ≠ 0 → exec (.jalr d a im) s = .next (trapped s .align tr)) ∧
    (Ready s [a] d → tr.toNat % 4 = 0 → 2 ^ 52 ≤ tr.toNat → exec (.jalr d a im) s = .next (trapped s .fetch tr))

/-- R85 to R91: the scalar floating-point instructions complete on every operand, with the result and the flags of the
exact operation rounded under FCSR (R64, R65). -/
def Sys2Proof.Spec.FloatResults : Prop :=
  ∀ (s : State) (d a b c : BitVec 4) (p : BitVec 5),
    let x := s.rf a
    let y := s.rf b
    let z := s.rf c
    let e := s.env
    let put (r : W32 × Flags) : Host.Outcome State Fault Refusal := .next (floated s [] d r)
    let yes (r : Bool × Flags) : Host.Outcome State Fault Refusal := .next (marked s [] p r.1 r.2)
    exec (.fadd d a b) s = put (fAdd e x y) ∧ exec (.fsub d a b) s = put (fSub e x y) ∧ exec (.fmul d a b) s = put (fMul e x y) ∧
    exec (.fdiv d a b) s = put (fDiv e x y) ∧ exec (.fsqrt d a) s = put (fSqrt e x) ∧
    exec (.fmin d a b) s = put (fMinMax false x y) ∧ exec (.fmax d a b) s = put (fMinMax true x y) ∧
    exec (.fsgnj d a b) s = put (fSgnj (fun _ v => v) x y) ∧ exec (.fsgnjn d a b) s = put (fSgnj (fun _ v => !v) x y) ∧
    exec (.fsgnjx d a b) s = put (fSgnj (fun u v => u != v) x y) ∧
    exec (.fma d a b c) s = put (fFma e x y z) ∧ exec (.fms d a b c) s = put (fFms e x y z) ∧ exec (.fnma d a b c) s = put (fFnma e x y z) ∧
    exec (.fcmpEq p a b) s = yes (fCmpEq x y) ∧ exec (.fcmpLt p a b) s = yes (fCmpLt x y) ∧
    exec (.fcmpLe p a b) s = yes (fCmpLe x y) ∧ exec (.fcmpUn p a b) s = yes (fCmpUn x y) ∧
    exec (.fcvtBfF d a) s = put (w32 (convert bf16 e.mode e.sat (f32 x))) ∧ exec (.fcvtFBf d a) s = put (w32 (widen bf16 (x.toNat % 65536))) ∧
    exec (.fcvtHfF d a) s = put (w32 (convert fp16 e.mode e.sat (f32 x))) ∧ exec (.fcvtFHf d a) s = put (w32 (widen fp16 (x.toNat % 65536)))

/-- R88, R91, R92: the floating-point instructions that read or write an x register. FMVX and FMVF copy bit patterns. -/
def Sys2Proof.Spec.FloatMoves : Prop :=
  ∀ (s : State) (fd fa : BitVec 4) (d a : BitVec 5),
    (Ready s [] d →
      exec (.fclass d fa) s = .next (wrote s [] d (w64 (2 ^ fClass (s.rf fa)))) ∧
      exec (.fmvx d fa) s = .next (wrote s [] d ((s.rf fa).setWidth 64)) ∧
      exec (.fcvtI32F d fa) s = .next (wrote (s.flag (toInt 32 s.env.mode (s.rf fa)).2) [] d (BitVec.ofInt 64 (toInt 32 s.env.mode (s.rf fa)).1)) ∧
      exec (.fcvtI64F d fa) s = .next (wrote (s.flag (toInt 64 s.env.mode (s.rf fa)).2) [] d (BitVec.ofInt 64 (toInt 64 s.env.mode (s.rf fa)).1))) ∧
    (Ready s [a] 0 →
      exec (.fmvf fd a) s = .next (floated s [a] fd ((s.rx a).setWidth 32, 0)) ∧
      exec (.fcvtFI32 fd a) s = .next (floated s [a] fd (ofInt s.env ((s.rx a).setWidth 32).toInt)) ∧
      exec (.fcvtFI64 fd a) s = .next (floated s [a] fd (ofInt s.env (s.rx a).toInt)))

/-- R55, R66, R86, R90: FCMP's LT, LE and EQ compare as numbers, -0 equal to +0, and are false with a NaN; UN is true with one; LT
and LE raise NV at any NaN, EQ and UN at a signalling one. FMIN and FMAX give the lesser and the greater operand, -0 below +0; the
other operand where one is a NaN, and the canonical NaN where both are, with NV where one is signalling. -/
def Sys2Proof.Spec.Comparisons : Prop :=
  ∀ (a b : W32) (mx : Bool),
    let x := f32 a
    let y := f32 b
    let nan := x.isNan || y.isNan
    let nv : Flags := if x.isSig || y.isSig then 16 else 0
    ((fCmpLt a b).1 = true ↔ Below x y) ∧ ((fCmpLe a b).1 = true ↔ nan = false ∧ ¬ Below y x) ∧
    ((fCmpEq a b).1 = true ↔ nan = false ∧ ¬ Below x y ∧ ¬ Below y x) ∧ (fCmpUn a b).1 = nan ∧
    (fCmpLt a b).2 = (if nan then 16 else 0) ∧ (fCmpLe a b).2 = (if nan then 16 else 0) ∧ (fCmpEq a b).2 = nv ∧ (fCmpUn a b).2 = nv ∧
    (x.isNan = true → y.isNan = true → fMinMax mx a b = (0x7FC00000, nv)) ∧
    (x.isNan = true → y.isNan = false → fMinMax mx a b = (b, nv) ∧ fMinMax mx b a = (b, nv)) ∧
    (Below x y → fMinMax false a b = (a, 0) ∧ fMinMax false b a = (a, 0) ∧ fMinMax true a b = (b, 0) ∧ fMinMax true b a = (b, 0)) ∧
    (x.isNan = false → fMinMax mx a a = (a, 0)) ∧
    fMinMax mx 0 0x80000000 = (if mx then 0 else 0x80000000, 0) ∧ fMinMax mx 0x80000000 0 = (if mx then 0 else 0x80000000, 0)

/-- R55, R65 to R67: a number to an integer is rounded to a whole number under the mode, and held to the integer's range, with NV and no
NX beyond it; a NaN gives 0 with NV. An integer to FP32 is rounded once. Widening to FP32 is exact, and gives a NaN as the
canonical one, with NV when it was signalling. Into a narrow format a number is rounded once, an infinity stays one where the format
has it and SAT is clear, and else counts as an overflow, and a NaN is the format's own; E2M1, which has neither, raises NV. -/
def Sys2Proof.Spec.Conversions : Prop :=
  (∀ (w : Nat) (mode : Rm) (a : W32), (w = 32 ∨ w = 64) → mode ≠ .sr →
    let lo : Int := -(2 ^ (w - 1) : Nat)
    let hi : Int := (2 ^ (w - 1) : Nat) - 1
    ((f32 a).isNan = true → toInt w mode a = (0, 16)) ∧
    (∀ n, f32 a = .inf n → toInt w mode a = (if n then lo else hi, 16)) ∧
    (∀ n m e, f32 a = .num n m e →
      let X := units m e (min e 0)
      let U := units 1 0 (min e 0)
      ∃ k : Nat,
        (towardZero mode n = true → k * U ≤ X ∧ X < (k + 1) * U) ∧
        (towardZero mode n = false → mode ≠ .rne → X ≤ k * U ∧ k * U < X + U) ∧
        (mode = .rne → 2 * X ≤ (2 * k + 1) * U ∧ 2 * k * U ≤ 2 * X + U ∧ (2 * X = (2 * k + 1) * U ∨ 2 * k * U = 2 * X + U → k % 2 = 0)) ∧
        toInt w mode a = if signed n k < lo then (lo, 16) else if hi < signed n k then (hi, 16) else (signed n k, if X = k * U then 0 else 1))) ∧
  (∀ (env : FpEnv) (v : Int), env.mode ≠ .sr → Rounded fp32 env.mode env.sat (decide (v < 0)) v.natAbs 1 0 (bits (ofInt env v))) ∧
  (∀ (f : Fmt) (b : Nat), f ∈ [fp16, bf16, e4m3, e5m2, e2m1] → b < 2 ^ f.width →
    ((f.decode b).isNan = true → widen f b = (0x7FC00000, if (f.decode b).isSig then 16 else 0)) ∧
    (∀ n, f.decode b = .inf n → widen f b = (if n then 0xFF800000 else 0x7F800000, 0)) ∧
    (∀ n m e, f.decode b = .num n m e → (widen f b).2 = 0 ∧
      ∃ k p, fp32.decode (widen f b).1 = .num n k p ∧ units k p (min e p) = units m e (min e p))) ∧
  (∀ (f : Fmt) (mode : Rm) (sat : Bool) (draw : Nat), f ∈ [fp16, bf16, e4m3, e5m2, e2m1] →
    let sign (n : Bool) : Nat := if n then 2 ^ (f.ew + f.mw) else 0
    let nan : Nat := match f.special with
      | .ieee => (2 ^ f.ew - 1) * 2 ^ f.mw + 2 ^ (f.mw - 1)
      | .oneNan => 2 ^ (f.ew + f.mw) - 1
      | .none => 0
    (∀ g, convert f mode sat (.nan g) draw = (nan, if g = true ∨ f.special = .none then 16 else 0)) ∧
    (∀ n, convert f mode sat (.inf n) draw =
      if f.special = .none then (sign n + f.maxBits, 21)
      else if sat = true then (sign n + f.maxBits, 5)
      else if f.special = .ieee then (sign n + (2 ^ f.ew - 1) * 2 ^ f.mw, 0) else (nan, 5)) ∧
    (∀ n m e, let r := roundTo f mode sat n m e draw
      convert f mode sat (.num n m e) draw = (r.1, if f.special = .none ∧ r.2 &&& 4 ≠ 0 then r.2 ||| 16 else r.2)))

def Obligations.RegisterWrites : Prop := Spec.XRegisterWrite ∧ Spec.PredicateWrite
def Obligations.IntegerResults : Prop := Spec.IntegerResults ∧ Spec.UnaryResults ∧ Spec.ImmediateResults ∧ Spec.CompareResults ∧ Spec.PredicateResults
def Obligations.JumpTargetsAndTraps : Prop := Spec.Jumps ∧ Spec.JumpTraps
def Obligations.FloatResults : Prop := Spec.FloatResults ∧ Spec.FloatMoves ∧ Spec.Comparisons ∧ Spec.Conversions

/-! ### Repetition and borrowing -/

/-- R51, R52, R93: inside a coupled block an instruction that completes moves to the block's next word, then to the next
repetition's first word, then behind the block, where the barge's mooring is what the block has kept. That the PC stands at the
block's current word is the model's reading (DEDUCED, log 32), and that the block's end leaves the mooring it has kept in every
state, also while a borrowed file is held, where R98 has the barge moored, is the model's choice (DESIGN CHOICE, log 82). -/
def Sys2Proof.Spec.BlockAdvance : Prop :=
  ∀ (s : State) (k : Block) (lat : Nat), s.me.rpt = some k → s.buffered = false →
    (k.idx + 1 < k.words.length →
      (s.next lat).me.rpt = some { k with idx := k.idx + 1 } ∧ (s.next lat).me.pc = s.me.pc + 4) ∧
    (k.words.length ≤ k.idx + 1 → k.k < k.cnt →
      (s.next lat).me.rpt = some { k with idx := 0, k := k.k + 1 } ∧ (s.next lat).me.pc = k.base + 4) ∧
    (k.words.length ≤ k.idx + 1 → k.cnt ≤ k.k →
      (s.next lat).me.rpt = none ∧ (s.next lat).me.pc = k.base + w64 (4 * (k.words.length + 1)) ∧ (s.next lat).me.moored = k.keep)

/-- R49, R52, R93: RPT whose block passes its checks goes on with the block's first word, moored; RPT.D gives the block to
a free repetition buffer and goes on behind it, and waits, moored, for a buffer that is in use (R53). -/
def Sys2Proof.Spec.RepeatStarts : Prop :=
  ∀ (s : State) (n : BitVec 8) (l : BitVec 2) (sc : BitVec 1) (m : BitVec 12) (b : Block),
    (captureBlock s s.who s.me.pc (rptWord n l false sc m) false n.toNat l.toNat sc.toNat m.toNat 0 0 s.me.moored = .ok b →
      exec (.rpt n l sc m) s = .next (s.next.modMe fun k => { k with rpt := some b, pc := b.base + 4, moored := true })) ∧
    (captureBlock s s.who s.me.pc (rptWord n l true sc m) true n.toNat l.toNat sc.toNat m.toNat 0 0 true = .ok b →
      (s.myCore.buffer = none → exec (.rptD n l sc m) s = .next (((s.modMyCore fun c => { c with
          buffer := some ⟨s.berth, s.startAt, b, none, 0⟩ }).next).modMe fun k =>
            { k with pc := b.base + w64 (4 * (b.words.length + 1)), moored := true })) ∧
      (s.myCore.buffer ≠ none → exec (.rptD n l sc m) s = .next (s.moor.block .board)))

/-- R50: RPT and RPT.D trap ILL, and the block does not run, where a check of the block fails: a mask bit beyond LEN, an
excluded opcode, a stepped field that would leave its class or names x0 or p0, or in RPT.D a word that is no vector or matrix
word or is VLDX, VSTX or DTAB.LD report the RPT word, an illegal word reports itself. Which of several failing checks is
reported is the model's choice (DESIGN CHOICE, log 30): the mask bit, then the first word that fails. -/
def Sys2Proof.Spec.RepeatRefusals : Prop :=
  ∀ (s : State) (n : BitVec 8) (l : BitVec 2) (sc : BitVec 1) (m : BitVec 12) (ws : List W32) (b : Block) (dec : Bool) (rw v w : W32)
    (i j : Nat),
    (s.buffered = false → codeWords s s.who s.me.pc (l.toNat + 1) = .ok ws →
      (checkBlock false (rptWord n l false sc m) ⟨s.me.pc, ws, n.toNat, 1 + sc.toNat, m.toNat, 0, 0, s.me.moored⟩ = some v →
        exec (.rpt n l sc m) s = .next (trapped s .ill (v.setWidth 64))) ∧
      (checkBlock true (rptWord n l true sc m) ⟨s.me.pc, ws, n.toNat, 1 + sc.toNat, m.toNat, 0, 0, true⟩ = some v →
        exec (.rptD n l sc m) s = .next (trapped s .ill (v.setWidth 64)))) ∧
    (2 ^ (3 * b.words.length) ≤ b.mask → checkBlock dec rw b = some rw) ∧
    (b.mask < 2 ^ (3 * b.words.length) →
      ((∀ k < b.words.length, checkWord dec rw b k = none) → checkBlock dec rw b = none) ∧
      (i < b.words.length → (∀ k < i, checkWord dec rw b k = none) → checkWord dec rw b i = some v → checkBlock dec rw b = some v)) ∧
    (b.words[i]? = some w →
      let op := w.toNat / 2 ^ 25
      let barred : Prop := (0x14 ≤ op ∧ op ≤ 0x1B) ∨ (0x58 ≤ op ∧ op ≤ 0x7E)
      (barred → checkWord dec rw b i = some rw) ∧
      (¬ barred → (∃ e, decodeBlockWord w = .error e) → checkWord dec rw b i = some w) ∧
      (¬ barred → (∃ x, decodeBlockWord w = .ok x) →
        (dec = true → op < 0x38 ∨ (0x44 < op ∧ op < 0x48) ∨ 0x54 < op ∨ op = 0x3B ∨ op = 0x42 → checkWord dec rw b i = some rw) ∧
        (j < 3 → b.mask / 2 ^ (3 * i + j) % 2 = 1 →
          let f := fieldAt w.toNat j
          let v := w.toNat / 2 ^ f.2.1 % 2 ^ f.2.2
          v < (clsRange f.1).1 ∨ (clsRange f.1).2 < v + b.cnt * b.step → checkWord dec rw b i = some rw)))

/-- R53: the repetition buffer issues its next word on its owner's registers. A word that completes leaves every berth as
it is but for its own effect, and moves the block on to its next word, to the next repetition, or out of the buffer; a word
that traps stops the buffer, and its owner takes the trap at its next boundary. Whatever vector or matrix word it is, the step
is made; one that is a lane addition, in full: the owner's lanes, the count of instructions, and the buffer's next word. An owner's
drowsy file is first woken, for 3 cycles (R32; that a buffer's word does so is the model's reading, DEDUCED, log 31). -/
def Sys2Proof.Spec.BufferWord : Prop :=
  ∀ (s : State) (r : Nat) (q : Buf) (i : Instr) (lat due : Nat) (c : Cause) (v : Word) (vd va vb : BitVec 4) (m : BitVec 1),
    let o : State := { s with rank := r, berth := q.owner, buffered := true }
    let awake : Prop := (s.berthAt r q.owner).drowsy = false
    (bufDue s r = true → (s.core r).buffer = some q → (s.berthAt r q.owner).drowsy = true →
      ∃ t, exec (.repeatBufferWord r) s = .next t ∧ (t.berthAt r q.owner).drowsy = false ∧
        (t.core r).buffer = some { q with due := s.cycle + 3 }) ∧
    (bufDue s r = true → (s.core r).buffer = some q → awake → decodeBlockWord (stepWord q.blk q.blk.k q.blk.idx) = .ok i →
      ∃ t, execBlockWord i o = .next t ∧ exec (.repeatBufferWord r) s = .next (t.back s)) ∧
    (bufDue s r = true → (s.core r).buffer = some q → awake → decodeBlockWord (stepWord q.blk q.blk.k q.blk.idx) = .ok (.viadd vd va vb m) →
      ∃ t, exec (.repeatBufferWord r) s = .next t ∧ (t.core r).buffer = stepBuf q (max q.readyAt (o.readyAfter 8)) ∧
        (t.core r).instret = (s.core r).instret + 1 ∧ (t.berthAt r q.owner).pc = (s.berthAt r q.owner).pc ∧
        t.rank = s.rank ∧ t.berth = s.berth ∧ t.buffered = s.buffered ∧
        ∀ k < 32, lane (vget (t.berthAt r q.owner).v vd.toNat 0) k =
          if m = 0 ∨ k = 0 ∨ (s.berthAt r q.owner).p.getLsbD k = true then lane (o.rv va) k + lane (o.rv vb) k else lane (o.rv vd) k) ∧
    (s.buffered = true → s.myCore.buffer = some q →
      (s.next lat).myCore.buffer = stepBuf q (max q.readyAt (s.readyAfter lat)) ∧ (s.next lat).me = s.me ∧
      (s.bufTrap c v).myCore.buffer = none ∧
      (s.bufTrap c v).me = { s.me with bufTrap := some ⟨c, v, wordAt q.blk q.blk.idx, q.blk.k, q.blk.idx⟩ }) ∧
    (q.blk.idx + 1 < q.blk.words.length →
      stepBuf q due = some { q with blk := { q.blk with idx := q.blk.idx + 1 }, due := due, wait := none }) ∧
    (q.blk.words.length ≤ q.blk.idx + 1 → q.blk.k < q.blk.cnt →
      stepBuf q due = some { q with blk := { q.blk with idx := 0, k := q.blk.k + 1 }, due := due, wait := none }) ∧
    (q.blk.words.length ≤ q.blk.idx + 1 → q.blk.cnt ≤ q.blk.k → stepBuf q due = none)

/-- R97, R99, R101: BORROW with no file held acts at its write-back: by then the berth its request names is taken, zeroed, and
the barge moored, or all ones are answered. With a file held it traps ILL before it looks at its ports. GIVEB gives the file
back, or traps ILL. TVAL is the instruction's word. -/
def Sys2Proof.Spec.Borrowing : Prop :=
  ∀ (s : State) (d a : BitVec 5) (req : Word),
    (Ready s [a] d → s.me.borrowed = none →
      exec (.borrow d a) s = .next (s.atWriteBack { srcs := [a], borrow := some (d.toNat, s.rx a) })) ∧
    (∀ c, borrowChoice s.cycle s.myCore req = some c → claimFile d req s =
      ((((s.modBerth s.rank c fun k => { k with
          lent := some s.berth, x := Vector.replicate 24 0, f := Vector.replicate 16 0, v := Vector.replicate 16 0, p := 1,
          drowsy := false, lastIssue := s.cycle }).modMe fun k => { k with borrowed := some c }).moor).wx d (w64 c))) ∧
    (borrowChoice s.cycle s.myCore req = none → claimFile d req s = s.wx d 0xFFFFFFFFFFFFFFFF) ∧
    (∀ r b w, b ≠ 16 → (s.berthAt r b).drowsy = false → (s.berthAt r b).wait = some w → d.toNat < 24 →
      w.reply = some { srcs := [a], borrow := some (d.toNat, req), past := true } → w.issued.acc = none →
      let t : State := { s.as r b with cycle := s.cycle - 1 }
      exec (.replyArrival r b) s = .next (({ ((claimFile d req t).pops [a]).next with cycle := s.cycle } : State).back s)) ∧
    (s.buffered = false →
      (∀ c, s.me.borrowed = some c → exec (.borrow d a) s = .next (trapped s .ill ((encode (.borrow d a)).setWidth 64))) ∧
      (∀ c, s.me.borrowed = some c → ∃ t, exec .giveb s = .next t ∧ t = (s.giveBack s.rank s.berth (s.cycle + s.leaveIn)).next ∧
        (c % 16 ≠ s.berth % 16 → (t.berthAt s.rank c).lent = none) ∧ t.me.borrowed = none) ∧
      (s.me.borrowed = none → exec .giveb s = .next (trapped s .ill ((encode .giveb).setWidth 64))))

/-- R100: XMOVT and XMOVF of a berth that holds no borrowed file trap ILL with their word, whatever register they name. -/
def Sys2Proof.Spec.NoBorrowedFile : Prop :=
  ∀ (s : State) (d a c : BitVec 5), s.buffered = false → s.me.borrowed = none →
    exec (.xmovt d a c) s = .next (trapped s .ill ((encode (.xmovt d a c)).setWidth 64)) ∧
    exec (.xmovf d a c) s = .next (trapped s .ill ((encode (.xmovf d a c)).setWidth 64))

/-- R32, R100: XMOVT copies one register of the berth's own file to the borrowed one and XMOVF the other way; x0 is not
written and reads zero, and p0 stays 1. A drowsy file is woken first, for 3 cycles, in which the instruction waits. -/
def Sys2Proof.Spec.BorrowedCopies : Prop :=
  ∀ (s : State) (c : Nat) (d a : BitVec 5), s.me.borrowed = some c → c % 16 ≠ s.berth % 16 → s.buffered = false →
    let own := s.me
    let far := s.berthAt s.rank c
    (far.drowsy = true → ∀ k : BitVec 5, ∀ i ∈ [Instr.xmovt d a k, .xmovf d a k],
      exec i s = .next ((s.modBerth s.rank c fun b => { b with drowsy := false, lastIssue := s.cycle }).block (.wake (s.cycle + 3)))) ∧
    (far.drowsy = false →
    (∃ t, exec (.xmovt d a 0) s = .next t ∧ (d ≠ 0 → d.toNat < 24 →
      vget (t.berthAt s.rank c).x d.toNat 0 = if a = 0 then 0 else vget own.x a.toNat 0) ∧ (d = 0 → (t.berthAt s.rank c).x = far.x)) ∧
    (d.toNat < 16 → ∃ t, exec (.xmovt d a 1) s = .next t ∧ vget (t.berthAt s.rank c).f d.toNat 0 = vget own.f a.toNat 0) ∧
    (d.toNat < 16 → ∃ t, exec (.xmovt d a 2) s = .next t ∧ vget (t.berthAt s.rank c).v d.toNat 0 = vget own.v a.toNat 0) ∧
    (∃ t, exec (.xmovt 0 0 3) s = .next t ∧ (t.berthAt s.rank c).p = own.p ||| 1) ∧
    (∃ t, exec (.xmovf d a 0) s = .next t ∧ (d ≠ 0 → d.toNat < 24 →
      vget t.me.x d.toNat 0 = if a = 0 then 0 else vget far.x a.toNat 0) ∧ (d = 0 → t.me.x = own.x)) ∧
    (d.toNat < 16 → ∃ t, exec (.xmovf d a 1) s = .next t ∧ vget t.me.f d.toNat 0 = vget far.f a.toNat 0) ∧
    (d.toNat < 16 → ∃ t, exec (.xmovf d a 2) s = .next t ∧ vget t.me.v d.toNat 0 = vget far.v a.toNat 0) ∧
    (∃ t, exec (.xmovf 0 0 3) s = .next t ∧ t.me.p = far.p ||| 1))

def Obligations.RepetitionOfBlocks : Prop := Spec.BlockAdvance ∧ Spec.RepeatStarts ∧ Spec.RepeatRefusals ∧ Spec.BufferWord
def Obligations.BorrowedFiles : Prop := Spec.Borrowing ∧ Spec.BorrowedCopies ∧ Spec.NoBorrowedFile

/-! ### Vector instructions -/

namespace Sys2Proof.Spec
/-- The state after a lane operation: the active lanes of v[d] take their results and their flags accrue, and the barge
is moored (R102, R103). -/
noncomputable def lanesDone (s : State) (d : BitVec 4) (m : BitVec 1) (r : Nat → W32 × Flags) : State :=
  ((s.wv d (masked s.me.p m (s.rv d) fun i => (r i).1)).flag (orFlags s.me.p m (fun i => (r i).2) 32)).moor.next
/-- The state after an operation that writes all of v[d]. -/
noncomputable def vectorDone (s : State) (d : BitVec 4) (v : VReg) (fl : Flags) : State := ((s.wv d v).flag fl).moor.next
end Sys2Proof.Spec

/-- R103: under M = 1 only lane 0 and the lanes whose predicate is 1 are written, under M = 0 all; every other lane keeps
its old value and raises no flag. -/
def Sys2Proof.Spec.LaneMask : Prop :=
  ∀ (p : W32) (m : BitVec 1) (old : VReg) (f : Nat → W32) (g : Nat → Flags) (i : Nat), i < 32 →
    lane (masked p m old f) i = (if m = 0 ∨ i = 0 ∨ p.getLsbD i = true then f i else lane old i) ∧
    ((∀ k < 32, (m = 0 ∨ k = 0 ∨ p.getLsbD k = true) → g k = 0) → orFlags p m g 32 = 0)

/-- R110, R112, R114: the lane operations complete on every value, each active lane with its tabled result. -/
def Sys2Proof.Spec.LaneResults : Prop :=
  ∀ (s : State) (d a b c : BitVec 4) (m : BitVec 1) (n : BitVec 5),
    let e := s.env
    let x : Nat → W32 := fun i => lane (s.rv a) i
    let y : Nat → W32 := fun i => lane (s.rv b) i
    let z : Nat → W32 := fun i => lane (s.rv c) i
    let go (r : Nat → W32 × Flags) : Host.Outcome State Fault Refusal := .next (lanesDone s d m r)
    let int (r : Nat → W32) : Host.Outcome State Fault Refusal := .next (lanesDone s d m fun i => (r i, 0))
    exec (.vadd d a b m) s = go (fun i => fAdd e (x i) (y i)) ∧ exec (.vsub d a b m) s = go (fun i => fSub e (x i) (y i)) ∧
    exec (.vmul d a b m) s = go (fun i => fMul e (x i) (y i)) ∧ exec (.vfma d a b c m) s = go (fun i => fFma e (x i) (y i) (z i)) ∧
    exec (.vfms d a b c m) s = go (fun i => fFms e (x i) (y i) (z i)) ∧
    exec (.vmin d a b m) s = go (fun i => fMinMax false (x i) (y i)) ∧ exec (.vmax d a b m) s = go (fun i => fMinMax true (x i) (y i)) ∧
    exec (.vabs d a m) s = go (fun i => fAbs (x i)) ∧ exec (.vrcp d a m) s = go (fun i => fRcp e (x i)) ∧
    exec (.vrsq d a m) s = go (fun i => fRsq e (x i)) ∧ exec (.vexp2 d a m) s = go (fun i => fExp2 e (x i)) ∧
    exec (.vlog2 d a m) s = go (fun i => fLog2 e (x i)) ∧
    exec (.viadd d a b m) s = int (fun i => x i + y i) ∧ exec (.visub d a b m) s = int (fun i => x i - y i) ∧
    exec (.vimul d a b m) s = int (fun i => x i * y i) ∧ exec (.vand d a b m) s = int (fun i => x i &&& y i) ∧
    exec (.vor d a b m) s = int (fun i => x i ||| y i) ∧ exec (.vxor d a b m) s = int (fun i => x i ^^^ y i) ∧
    exec (.vsll d a b m) s = int (fun i => x i <<< ((y i).toNat % 32)) ∧ exec (.vsrl d a b m) s = int (fun i => x i >>> ((y i).toNat % 32)) ∧
    exec (.vsra d a b m) s = int (fun i => (x i).sshiftRight ((y i).toNat % 32)) ∧
    exec (.vshuf d a b m) s = int (fun i => x ((y i).toNat % 32)) ∧
    exec (.vslideUp d a b m n) s = int (fun i => if n.toNat ≤ i then x (i - n.toNat) else y (i + 32 - n.toNat)) ∧
    exec (.vslideDn d a b m n) s = int (fun i => if i + n.toNat < 32 then x (i + n.toNat) else y (i + n.toNat - 32))

/-- R113, R102, R103, R93: a lane compare writes the predicate bits of active lanes 1 to 31; p0 and every other bit keep their
values. The flags of the active lanes accrue (the integer compares raise none), the barge is moored, and nothing else changes
but progress, which inside a coupled block is the block's next word, and at its end leaves the barge moored. -/
def Sys2Proof.Spec.LaneCompares : Prop :=
  ∀ (s : State) (a b : BitVec 4) (m : BitVec 1),
    let x : Nat → W32 := fun i => lane (s.rv a) i
    let y : Nat → W32 := fun i => lane (s.rv b) i
    let does (i : Instr) (c : Nat → Bool) (fl : Nat → Flags) : Prop := ∃ P : W32,
      (∀ k, k < 32 → P.getLsbD k = if k ≠ 0 ∧ (m = 0 ∨ s.me.p.getLsbD k = true) then c k else s.me.p.getLsbD k) ∧
      exec i s = .next (((s.modMe fun t => { t with p := P }).flag (orFlags s.me.p m fl 32)).moor.next) ∧
      ∃ t, exec i s = .next t ∧ t.me.moored = true
    let int (i : Instr) (c : Nat → Bool) : Prop := does i c fun _ => 0
    let fp (i : Instr) (f : W32 → W32 → Bool × Flags) : Prop := does i (fun k => (f (x k) (y k)).1) fun k => (f (x k) (y k)).2
    int (.vcmpEq a b m) (fun i => decide (x i = y i)) ∧ int (.vcmpNe a b m) (fun i => decide (x i ≠ y i)) ∧
    int (.vcmpLt a b m) (fun i => decide ((x i).toInt < (y i).toInt)) ∧ int (.vcmpLtu a b m) (fun i => decide ((x i).toNat < (y i).toNat)) ∧
    int (.vcmpGe a b m) (fun i => decide ((y i).toInt ≤ (x i).toInt)) ∧ int (.vcmpGeu a b m) (fun i => decide ((y i).toNat ≤ (x i).toNat)) ∧
    fp (.vcmpFeq a b m) fCmpEq ∧ fp (.vcmpFlt a b m) fCmpLt ∧ fp (.vcmpFle a b m) fCmpLe ∧ fp (.vcmpFun a b m) fCmpUn

/-- R109, R114, R115, R116: moves, selection, conversions and codes complete; a conversion into part of v[d] leaves the
rest of it. VENC from a table waits, moored, while that table's order is being built (R61), and completes otherwise. VENC and
VDEC go by the table of their issue, also when they have waited and DTAB.LD has changed the core's meanwhile. -/
def Obligations.VectorMoves : Prop :=
  ∀ (s : State) (d a b : BitVec 4) (m h : BitVec 1) (q : BitVec 2) (e3 r : BitVec 3) (xd xa n : BitVec 5),
    let e := s.env
    let x : Nat → W32 := fun i => lane (s.rv a) i
    let on (i : Nat) : Bool := active s.me.p m i
    let narrowed (f : Fmt) (i : Nat) : Nat × Flags :=
      convert f (rmField e r.toNat) e.sat (f32 (x i)) (if r = 4 then drawLane s.seed d.toNat i else 0)
    let part (w : Nat) (pos : Nat) (g : Nat → Nat × Flags) (count : Nat) : State :=
      vectorDone s d (ofPieces w (fun j => if j / 32 = pos ∧ on (j % 32) then (g (j % 32)).1
        else ((s.rv d).extractLsb' (w * j) w).toNat) count) (orFlags s.me.p m (fun i => (g i).2) 32)
    let fresh : Prop := ∀ w, s.myWait = some w → ∀ t till, w.why ≠ .table t till
    let t0 : DTab := match s.myWait with | some w => w.issued.t0 | none => s.myCore.dt0
    let t1 : DTab := match s.myWait with | some w => w.issued.t1 | none => s.myCore.dt1
    let till0 : Nat := if t0 = s.myCore.dt0 then s.myCore.sort0 else 0
    let till1 : Nat := if t1 = s.myCore.dt1 then s.myCore.sort1 else 0
    (Ready s [xa] 0 → exec (.vbcast d xa) s = .next (((s.moor.pops [xa]).wv d (ofLanes fun _ => (s.rx xa).setWidth 32)).next)) ∧
    (Ready s [] xd → exec (.vextr xd a n) s = .next (wrote s.moor [] xd ((x n.toNat).signExtend 64))) ∧
    exec (.vsel d a b) s = .next (vectorDone s d (ofLanes fun i => if i == 0 || s.me.p.getLsbD i then x i else lane (s.rv b) i) 0) ∧
    exec (.vcvtI32F d a m r) s = .next (lanesDone s d m fun i =>
      (BitVec.ofInt 32 (toInt 32 (rmField e r.toNat) (x i)).1, (toInt 32 (rmField e r.toNat) (x i)).2)) ∧
    exec (.vcvtFI32 d a m r) s = .next (lanesDone s d m fun i => ofInt { e with mode := rmField e r.toNat } (x i).toInt) ∧
    exec (.vcvtBfF d a h m r) s = .next (part 16 h.toNat (narrowed bf16) 64) ∧
    exec (.vcvtHfF d a h m r) s = .next (part 16 h.toNat (narrowed fp16) 64) ∧
    exec (.vcvtFBf d a h m) s = .next (lanesDone s d m fun i => w32 (widen bf16 (vhalf (s.rv a) (32 * h.toNat + i)).toNat)) ∧
    exec (.vcvtFHf d a h m) s = .next (lanesDone s d m fun i => w32 (widen fp16 (vhalf (s.rv a) (32 * h.toNat + i)).toNat)) ∧
    (fresh → till0 ≤ s.cycle → exec (.vencT0 d a q m) s = .next (part 8 q.toNat (fun i => venc t0 (x i)) 128)) ∧
    (fresh → till1 ≤ s.cycle → exec (.vencT1 d a q m) s = .next (part 8 q.toNat (fun i => venc t1 (x i)) 128)) ∧
    (fresh → s.cycle < till0 → exec (.vencT0 d a q m) s = .next (s.moor.block (.table t0 till0))) ∧
    (fresh → s.cycle < till1 → exec (.vencT1 d a q m) s = .next (s.moor.block (.table t1 till1))) ∧
    (∀ w t till, s.myWait = some w → w.why = .table t till → ∀ i ∈ [Instr.vencT0 d a q m, .vencT1 d a q m],
      (till ≤ s.cycle → exec i s = .next (part 8 q.toNat (fun k => venc t (x k)) 128)) ∧
      (s.cycle < till → exec i s = .next (s.moor.block (.table t till)))) ∧
    exec (.vencE2 d a e3 m) s = .next (part 4 e3.toNat (fun i => convert e2m1 e.mode e.sat (f32 (x i))) 256) ∧
    exec (.vdecT0 d a q m) s = .next (lanesDone s d m fun i => (f19Word (dtabEntry t0 (vbyte (s.rv a) (32 * q.toNat + i)).toNat), 0)) ∧
    exec (.vdecT1 d a q m) s = .next (lanesDone s d m fun i => (f19Word (dtabEntry t1 (vbyte (s.rv a) (32 * q.toNat + i)).toNat), 0)) ∧
    exec (.vdecE2 d a e3 m) s = .next (lanesDone s d m fun i =>
      w32 (convert fp32 .rne false (e2m1.decode (vnib (s.rv a) (32 * e3.toNat + i)).toNat)))

/-- R118 to R120: reductions, scans and the block dot product complete on every value. VRED writes the one result of R72's
tree to every lane, VSCAN lane i of R73's scan to lane i, with the flags of the active lanes' combines. VSCANL scans the pairs (a, b) of the active lanes, (1.0, -0.0) of
the others, with R74's composition, gives lane i A[i] * f[c] + B[i] and f[c + 1] the last A, and raises the flags of the active
lanes. VDOTB accumulates one block of exact products into f[d], by the tables of its issue, and raises no flag. Each moors the barge
(R102). That VRED raises the flags of the whole tree, also under M, is the model's choice (DESIGN CHOICE, log 67). -/
def Sys2Proof.Spec.Reductions : Prop :=
  ∀ (s : State) (d a b c sc : BitVec 4) (m : BitVec 1) (k f : BitVec 4) (q : BitVec 2) (e : BitVec 3),
    let inp := inputLanes s a m k.toNat
    let op := combine s.env k.toNat
    exec (.vred d a m k) s = .next (vectorDone s d (ofLanes fun _ => (treeRed op 5 inp).1) (treeRed op 5 inp).2) ∧
    exec (.vscan d a m k) s = .next (vectorDone s d (ofLanes fun i => ((scanAll op 5 inp)[i]?.getD (0, 0)).1)
      (orFlags s.me.p m (fun i => ((scanAll op 5 inp)[i]?.getD (0, 0)).2) 32)) ∧
    (∀ (A B : Nat → W32 × Flags) (r : List ((W32 × W32) × Flags)) (y : Nat → W32 × Flags),
      A = (fun i => if active s.me.p m i then scanInput f.toNat false (lane (s.rv a) i) else (0x3F800000, 0)) →
      B = (fun i => if active s.me.p m i then scanInput f.toNat true (lane (s.rv b) i) else (0x80000000, 0)) →
      r = scanAll (fun p q => (((fMul s.env q.1 p.1).1, (fFma s.env q.1 p.2 q.2).1),
        (fMul s.env q.1 p.1).2 ||| (fFma s.env q.1 p.2 q.2).2)) 5 ((List.range 32).map fun i => ((A i).1, (B i).1)) →
      y = (fun i => fFma s.env (r[i]?.getD ((0, 0), 0)).1.1 (s.rf c) (r[i]?.getD ((0, 0), 0)).1.2) →
      exec (.vscanl d a b c m f) s = .next ((((s.wv d (ofLanes fun i => (y i).1)).wf (c + 1) (r[31]?.getD ((0, 0), 0)).1.1).flag
        (orFlags s.me.p m (fun i => (y i).2 ||| (r[i]?.getD ((0, 0), 0)).2 ||| (A i).2 ||| (B i).2) 32)).moor.next)) ∧
    (∀ scale : BitVec 4 → FVal, scale = (fun r => s20.decode (fld (s.rf r) 0 20)) →
      exec (.vdotbX8 d a b sc q) s = .next ((s.wf d (accumulate false (s.rf d) (blockTS (lanes32.map fun i =>
        (dtabVal (match s.myWait with | some w => w.issued.t0 | none => s.myCore.dt0) (vbyte (s.rv a) (32 * q.toNat + i)).toNat,
         dtabVal (match s.myWait with | some w => w.issued.t1 | none => s.myCore.dt1) (vbyte (s.rv b) (32 * q.toNat + i)).toNat))
        (scale sc) (scale (sc + 1))))).moor.next) ∧
      exec (.vdotbX4 d a b sc e) s = .next ((s.wf d (accumulate false (s.rf d) (blockTS (lanes32.map fun i =>
        (e2m1.decode (vnib (s.rv a) (32 * e.toNat + i)).toNat, e2m1.decode (vnib (s.rv b) (32 * e.toNat + i)).toNat))
        (scale sc) (scale (sc + 1))))).moor.next))

/-- R72: the reduction tree combines adjacent groups in order: over 32 lanes of an associative combine without flags it
gives the left-to-right combination of all of them. -/
def Sys2Proof.Spec.TreeIsOrdered : Prop :=
  ∀ (f : W32 → W32 → W32), (∀ x y z, f (f x y) z = f x (f y z)) →
    ∀ (x : W32) (l : List W32), l.length = 31 → (treeRed (fun u v => (f u v, 0)) 5 (x :: l)).1 = l.foldl f x

/-- R55, R66, R85, R110, R111: FSQRT, VRCP and VRSQ give the exact root, reciprocal or reciprocal root rounded once, VABS clears the sign;
VEXP2 of a whole number and VLOG2 of a power of two give the exact power and logarithm rounded once, and of any other number a value
between those of the whole numbers about it, inexact; the special inputs give what R85 and R111 tabulate, NaNs the canonical one, with
NV when it was signalling. That SAT does not clamp the infinite result of an infinite operand or of a pole is the model's reading (DEDUCED, log 21). -/
def Sys2Proof.Spec.RootsAndPowers : Prop :=
  ∀ (env : FpEnv) (a : W32), env.mode ≠ .sr →
    let x := f32 a
    let nan (fl : Flags) : W32 × Flags := (0x7FC00000, fl)
    let inf (n : Bool) : W32 := if n then 0xFF800000 else 0x7F800000
    let zero (n : Bool) : W32 := if n then 0x80000000 else 0
    (x.isNan = true → ∀ r ∈ [fSqrt env a, fRcp env a, fRsq env a, fExp2 env a, fLog2 env a, fAbs a], r = nan (if x.isSig then 16 else 0)) ∧
    (x.isNan = false → fAbs a = (a &&& 0x7FFFFFFF, 0)) ∧
    (x = .inf false → fSqrt env a = (inf false, 0) ∧ fRcp env a = (0, 0) ∧ fRsq env a = (0, 0) ∧ fExp2 env a = (inf false, 0) ∧ fLog2 env a = (inf false, 0)) ∧
    (x = .inf true → fSqrt env a = nan 16 ∧ fRcp env a = (zero true, 0) ∧ fRsq env a = nan 16 ∧ fExp2 env a = (0, 0) ∧ fLog2 env a = nan 16) ∧
    (∀ n e, x = .num n 0 e → fSqrt env a = (zero n, 0) ∧ fRcp env a = (inf n, 8) ∧ fRsq env a = (inf n, 8) ∧ fExp2 env a = (0x3F800000, 0) ∧
      fLog2 env a = (inf true, 8)) ∧
    (∀ m e, x = .num true m e → m ≠ 0 → fSqrt env a = nan 16 ∧ fRsq env a = nan 16 ∧ fLog2 env a = nan 16) ∧
    (∀ n m e, x = .num n m e → m ≠ 0 → Rounded fp32 env.mode env.sat n 1 m (-e) (bits (fRcp env a))) ∧
    (∀ m e, x = .num false m e → m ≠ 0 →
      RoundedBy fp32 env.mode env.sat false (fun n q => units (n * n) (2 * q) (min e (2 * q)) ≤ units m e (min e (2 * q)))
        (fun n q => units m e (min e (2 * q)) ≤ units (n * n) (2 * q) (min e (2 * q))) (bits (fSqrt env a)) ∧
      RoundedBy fp32 env.mode env.sat false (fun n q => units (n * n * m) (2 * q + e) (min (2 * q + e) 0) ≤ units 1 0 (min (2 * q + e) 0))
        (fun n q => units 1 0 (min (2 * q + e) 0) ≤ units (n * n * m) (2 * q + e) (min (2 * q + e) 0)) (bits (fRsq env a)) ∧
      ∀ t : Int, units 1 t (min e t) ≤ units m e (min e t) → units m e (min e t) < 2 * units 1 t (min e t) →
        (units m e (min e t) = units 1 t (min e t) → Rounded fp32 env.mode env.sat (decide (t < 0)) t.natAbs 1 0 (bits (fLog2 env a))) ∧
        (units m e (min e t) ≠ units 1 t (min e t) → (fLog2 env a).2 = 1 ∧ ∃ n k p, f32 (fLog2 env a).1 = .num n k p ∧
          t * units 1 0 (min p 0) ≤ signed n (units k p (min p 0)) ∧ signed n (units k p (min p 0)) ≤ (t + 1) * units 1 0 (min p 0))) ∧
    (∀ (n : Bool) (m : Nat) (e t : Int), x = .num n m e → m ≠ 0 →
      let X := signed n (units m e (min e 0))
      let U : Int := units 1 0 (min e 0)
      let r := fExp2 env a
      t * U ≤ X → X < (t + 1) * U →
        (X = t * U → Rounded fp32 env.mode env.sat false 1 1 t (bits r)) ∧
        (X ≠ t * U → -149 ≤ t → t < 128 → r.2.getLsbD 0 = true ∧ (t < 127 → r.2.getLsbD 2 = false) ∧
          (r.2.getLsbD 2 = false → ∃ k p, f32 r.1 = .num false k p ∧ units 1 t (min p t) ≤ units k p (min p t) ∧
            units k p (min p t) ≤ 2 * units 1 t (min p t))) ∧
        (X ≠ t * U → 128 ≤ t → r = (if env.sat || towardZero env.mode false then 0x7F7FFFFF else 0x7F800000, 5)) ∧
        (X ≠ t * U → t < -150 → r = if env.mode = .rup then (1, 3) else (0, 1)))

def Obligations.LaneResults : Prop := Spec.LaneMask ∧ Spec.LaneResults ∧ Spec.LaneCompares ∧ Spec.RootsAndPowers
def Obligations.ReductionsFollowTheTree : Prop := Spec.Reductions ∧ Spec.TreeIsOrdered

/-! ### Memory instructions -/

namespace Sys2Proof.Spec
/-- n bytes at offset `off` of the executing core's own CLM, named through the local alias 0xE (R166, R168): aligned, inside
the window, and above the part only a supervisor may reach. -/
def AtClm (va : Word) (off n : Nat) : Prop :=
  va.toNat = 14 * 2 ^ 48 + off ∧ 0x8000 ≤ off ∧ off + n ≤ 0x20000 ∧ off % n = 0
/-- The same place in memory. -/
def here (s : State) (off : Nat) : Loc := .clm s.rank off
/-- The word holds no poison (R341). -/
def Clean (s : State) (off n : Nat) : Prop := s.anyPoison (here s off) n = false
/-- No outstanding MMA or latch fill of the berth still reads the bytes (R142). -/
def Settled (s : State) (off n : Nat) : Prop := s.matrixReads off n = false
/-- The address of a load or store with an immediate offset. -/
def addr (s : State) (a : BitVec 5) (im : BitVec 15) : Word := s.rx a + im.signExtend 64
/-- The state after a store of n bytes at a local CLM offset. -/
noncomputable def stored (s : State) (srcs : List (BitVec 5)) (off n v : Nat) : State :=
  ((s.storeClm s.rank off n v).pops srcs).next
/-- A lane's address names 4 bytes of the core's own CLM that hold no poison. -/
def LaneHere (s : State) (va : Word) (off : Nat) : Prop := AtClm va off 4 ∧ Clean s off 4
end Sys2Proof.Spec

/-- R166, R168, R187: a load from the core's own CLM completes with the addressed bytes, little-endian, sign- or
zero-extended; LDF loads an f register; RLD adds two registers for the address. -/
def Sys2Proof.Spec.ClmLoads : Prop :=
  ∀ (s : State) (d a b : BitVec 5) (fd : BitVec 4) (im : BitVec 15) (off : Nat),
    let v (n : Nat) : Nat := s.readN (here s off) n
    (Ready s [a] d → AtClm (addr s a im) off 1 → Clean s off 1 →
      exec (.ldb d a im) s = .next (wrote s [a] d ((BitVec.ofNat 8 (v 1)).signExtend 64)) ∧
      exec (.ldbu d a im) s = .next (wrote s [a] d (w64 (v 1)))) ∧
    (Ready s [a] d → AtClm (addr s a im) off 2 → Clean s off 2 →
      exec (.ldh d a im) s = .next (wrote s [a] d ((BitVec.ofNat 16 (v 2)).signExtend 64)) ∧
      exec (.ldhu d a im) s = .next (wrote s [a] d (w64 (v 2)))) ∧
    (Ready s [a] d → AtClm (addr s a im) off 4 → Clean s off 4 →
      exec (.ldw d a im) s = .next (wrote s [a] d ((BitVec.ofNat 32 (v 4)).signExtend 64)) ∧
      exec (.ldwu d a im) s = .next (wrote s [a] d (w64 (v 4))) ∧
      exec (.ldf fd a im) s = .next (floated s [a] fd (BitVec.ofNat 32 (v 4), 0))) ∧
    (Ready s [a] d → AtClm (addr s a im) off 8 → Clean s off 8 → exec (.ldd d a im) s = .next (wrote s [a] d (w64 (v 8)))) ∧
    (Ready s [a, b] d → AtClm (s.rx a + s.rx b) off 8 → Clean s off 8 → exec (.rld d a b) s = .next (wrote s [a, b] d (w64 (v 8))))

/-- R37, R169, R192: RLD of another core's CLM sends its request and waits the way there, 5 + 2h cycles (DESIGN CHOICE, log
26); when the request stands at its home it reads there, and the berth is ready at the end of the way back. Where messages to
that core are held, the request stands in their order until they are released (R266). -/
def Sys2Proof.Spec.RemoteLoads : Prop :=
  ∀ (s : State) (d a b : BitVec 5) (r off : Nat), Ready s [a, b] d → (s.rx a + s.rx b).toNat = 15 * 2 ^ 48 + r * 2 ^ 17 + off →
    r < 9216 → r ≠ s.rank → s.inRect s.me.lid r = true → 0x8000 ≤ off → off < 0x20000 → off % 8 = 0 →
    (s.myWait = none → exec (.rld d a b) s = .next (s.block (.remote (s.cycle + (5 + 2 * hops s.rank r))))) ∧
    (∀ w t, s.myWait = some w → w.why = .remote t → w.home = false →
      (s.cycle < t → exec (.rld d a b) s = .next (s.block (.remote t))) ∧
      (t ≤ s.cycle → s.rankHeld r = true → exec (.rld d a b) s = .next (s.block (.held r))) ∧
      (t ≤ s.cycle → s.rankHeld r = false → s.anyPoison (.clm r off) 8 = false →
        exec (.rld d a b) s = .next (wrote s [a, b] d (w64 (s.readN (.clm r off) 8)) (s.clmTime r))))

/-- R187, R188, R192: a store to the core's own CLM completes and stores the low bytes of the register. -/
def Sys2Proof.Spec.ClmStores : Prop :=
  ∀ (s : State) (b a : BitVec 5) (fb : BitVec 4) (im : BitVec 15) (off : Nat),
    let x := (s.rx b).toNat
    (Ready s [a, b] 0 → AtClm (addr s a im) off 1 → Settled s off 1 → exec (.stb b a im) s = .next (stored s [a, b] off 1 (x % 2 ^ 8))) ∧
    (Ready s [a, b] 0 → AtClm (addr s a im) off 2 → Settled s off 2 → exec (.sth b a im) s = .next (stored s [a, b] off 2 (x % 2 ^ 16))) ∧
    (Ready s [a, b] 0 → AtClm (addr s a im) off 4 → Settled s off 4 → exec (.stw b a im) s = .next (stored s [a, b] off 4 (x % 2 ^ 32))) ∧
    (Ready s [a, b] 0 → AtClm (addr s a im) off 8 → Settled s off 8 → exec (.std b a im) s = .next (stored s [a, b] off 8 x)) ∧
    (Ready s [a] 0 → AtClm (addr s a im) off 4 → Settled s off 4 → exec (.stf fb a im) s = .next (stored s [a] off 4 (s.rf fb).toNat)) ∧
    (Ready s [a, b] 0 → AtClm (s.rx a) off 8 → Settled s off 8 → exec (.rst a b) s = .next (stored s [a, b] off 8 x))

/-- R4, R7, R170, R222, R341: an ordinary store of n bytes at a CLM offset above the queue area writes byte k of the value at
offset + k, but for a node header's LID and reserved bytes, which stand, and leaves every other byte of memory, in any
canonical memory; a whole unit's store clears that unit's poison, and the full/empty bits stand. -/
def Sys2Proof.Spec.StoredBytes : Prop :=
  ∀ (s : State) (off n v : Nat), s.memOk → 0x6000 ≤ off →
    let t := s.storeClm s.rank off n v
    (∀ k, k < n → t.readByte (.clm s.rank (off + k)) =
      if s.headerRo s.rank (off + k) then s.readByte (.clm s.rank (off + k)) else BitVec.ofNat 8 (v / 256 ^ k)) ∧
    (∀ key, ¬ ((here s off).key ≤ key ∧ key < (here s off).key + n) → Memory.read t.mem key = Memory.read s.mem key) ∧
    t.basin = s.basin ∧ t.full = s.full ∧ t.cores = s.cores ∧
    (∀ k, k < n / 8 → t.poisoned (.clm s.rank (off + 8 * k)) = false) ∧ (n < 8 → t.poison = s.poison)

/-- The frame of the stores of `ClmStores` with x-register operands: no register, predicate, flag, accumulator, special
register or other core changes, and every byte of memory outside the stored ones reads as before. -/
def Sys2Proof.Spec.StoreFrame : Prop :=
  ∀ (s t : State) (b a : BitVec 5) (fb : BitVec 4) (im : BitVec 15) (off n : Nat) (i : Instr),
    s.memOk → a.toNat < 24 → b.toNat < 24 → s.buffered = false →
    (i = .stb b a im ∧ n = 1 ∨ i = .sth b a im ∧ n = 2 ∨ i = .stw b a im ∧ n = 4 ∨ i = .std b a im ∧ n = 8 ∨ i = .stf fb a im ∧ n = 4) →
    AtClm (addr s a im) off n → Settled s off n → exec i s = .next t →
    (∀ key, ¬ ((here s off).key ≤ key ∧ key < (here s off).key + n) → Memory.read t.mem key = Memory.read s.mem key) ∧
    t.basin = s.basin ∧ t.full = s.full ∧ t.clusters = s.clusters ∧ t.lock = s.lock ∧ t.launches = s.launches ∧
    t.agenda = s.agenda ∧ t.outs = s.outs ∧ (∀ q, q ≠ s.rank → t.core q = s.core q) ∧
    { t.me with pc := s.me.pc, rpt := s.me.rpt, moored := s.me.moored, wait := s.me.wait, readyAt := s.me.readyAt,
                drowsy := s.me.drowsy, lastIssue := s.me.lastIssue } = s.me ∧
    { t.myCore with berths := s.myCore.berths, instret := s.myCore.instret } = s.myCore ∧
    (∀ q, q % 16 ≠ s.berth % 16 → t.berthAt s.rank q = s.berthAt s.rank q)

/-- R187, R188, R341: a load that meets a poisoned unit of CLM traps POISON when TSTAT.PTE is set; else LDD gives 0 and LDF
the canonical NaN, and ECCCNT.POIS counts the unit, saturating. A byte's load names the unit that holds it in TVAL (R286). -/
def Sys2Proof.Spec.PoisonedLoad : Prop :=
  ∀ (s : State) (d a : BitVec 5) (im : BitVec 15) (off : Nat),
    Ready s [a] d → AtClm (addr s a im) off 8 → s.anyPoison (here s off) 8 = true → s.buffered = false →
    (s.me.pte = true → exec (.ldd d a im) s = .next (trapped s .poison (addr s a im)) ∧
      ∀ (k : Nat) (jm : BitVec 15), k < 8 → addr s a jm = addr s a im + w64 k → s.anyPoison (here s (off + k)) 1 = true →
        exec (.ldb d a jm) s = .next (trapped s .poison (addr s a im))) ∧
    (s.me.pte = false → exec (.ldd d a im) s = .next (wrote (s.consume (addr s a im)) [a] d 0) ∧
      (∀ fd, s.anyPoison (here s off) 4 = true → exec (.ldf fd a im) s = .next (floated (s.consume (addr s a im)) [a] fd (qnan32, 0))) ∧
      fld (s.consume (addr s a im)).myCore.ecccnt 16 16 = min 65535 (fld s.myCore.ecccnt 16 16 + 1) ∧
      (s.consume (addr s a im)).me = s.me ∧ (s.consume (addr s a im)).mem = s.mem)

/-- R185: alignment is judged before anything else about an address; then the reserved bits, the window and the rank. A
misaligned access traps ALIGN with the address in TVAL. -/
def Sys2Proof.Spec.AlignmentTraps : Prop :=
  ∀ (s : State) (d b a : BitVec 5) (im : BitVec 15), Ready s [a, b] d → s.buffered = false →
    let va := addr s a im
    (va.toNat % 2 ≠ 0 → exec (.ldh d a im) s = .next (trapped s .align va) ∧ exec (.ldhu d a im) s = .next (trapped s .align va) ∧
      exec (.sth b a im) s = .next (trapped s .align va)) ∧
    (va.toNat % 4 ≠ 0 → exec (.ldw d a im) s = .next (trapped s .align va) ∧ exec (.ldwu d a im) s = .next (trapped s .align va) ∧
      exec (.stw b a im) s = .next (trapped s .align va)) ∧
    (va.toNat % 8 ≠ 0 → exec (.ldd d a im) s = .next (trapped s .align va) ∧ exec (.std b a im) s = .next (trapped s .align va) ∧
      exec (.ldsync d a im) s = .next (trapped s .align va) ∧ exec (.ferd d a im) s = .next (trapped s .align va))

/-- R168, R280: a barge in user mode that touches CLM below 0x8000 through the local alias traps LOADF or STOREF. -/
def Sys2Proof.Spec.UserClmProtection : Prop :=
  ∀ (s : State) (d b a : BitVec 5) (im : BitVec 15) (off : Nat), Ready s [a, b] d → s.buffered = false → s.me.user = true →
    (addr s a im).toNat = 14 * 2 ^ 48 + off → off < 0x8000 → off % 8 = 0 →
    exec (.ldd d a im) s = .next (trapped s .loadf (addr s a im)) ∧ exec (.std b a im) s = .next (trapped s .storef (addr s a im))

/-- R179: an instruction whose edge releases waits while a release of its core runs, and begins its own then: it goes on at
once where the core has no dirty sector, else it waits for the end of its release, and then goes on. A release that begins now
leaves no dirty byte and lasts 4 cycles for each dirty sector and 110; one asked for while another runs cleans nothing yet. A message
that follows a release of its core leaves when that release ends; one whose release still waits is kept until it starts. -/
def Sys2Proof.Spec.Releases : Prop :=
  ∀ (s : State),
    let t := s.release s.rank
    ((s.myWait = none ∨ ∃ w, s.myWait = some w ∧ w.released = false ∧ w.home = false ∧ ∀ u, w.why ≠ .cleaning u ∧ w.why ≠ .remote u) →
      (s.cycle < s.myCore.relEnd → s.releasing = .error (.wait (.behind s.myCore.relEnd))) ∧
      (s.myCore.relEnd ≤ s.cycle →
        (t.myCore.relEnd ≤ s.cycle → s.releasing = .ok t) ∧
        (s.cycle < t.myCore.relEnd → s.releasing = .error (.gone (t.block (.cleaning t.myCore.relEnd)))))) ∧
    (∀ w u, s.myWait = some w → w.why = .cleaning u → w.released = false → w.home = false →
      s.releasing = if u ≤ s.cycle then .ok s else .error (.wait (.cleaning u))) ∧
    (s.myCore.relEnd ≤ s.cycle →
      ((s.myCore.l1.all fun l => l.dirty == 0) = true → t = s) ∧ (∀ l ∈ t.myCore.l1, l.dirty = 0) ∧
      ((s.myCore.l1.all fun l => l.dirty == 0) = false → (s.myCore.l1.all fun l => !isFar (l.pa * 1024)) = true →
        t.myCore.relEnd = s.cycle + (4 * (s.myCore.l1.map dirtySectors).sum + 110))) ∧
    (s.cycle < s.myCore.relEnd → t.mem = s.mem ∧ t.myCore.l1 = s.myCore.l1 ∧ s.myCore.relEnd ≤ t.myCore.relEnd) ∧
    (∀ (least way : Nat) (i : Instr),
      (s.myCore.relAgain = none → s.afterRelease s.rank least way i = s.later (max least (s.myCore.relEnd - s.cycle) + way) i) ∧
      (s.myCore.relAgain ≠ none → s.afterRelease s.rank least way i =
        s.modMyCore fun c => { c with behind := c.behind ++ [⟨s.cycle + least, way, i, none⟩] }))

/-- R170, R190: STFULL stores behind its release and sets the word full; FECLR empties it; FERD reads its bit; LDSYNC on a
full word nobody waits longer for reads it, empties it and acquires, and on an empty word waits. -/
def Sys2Proof.Spec.FullEmpty : Prop :=
  ∀ (s : State) (d b a : BitVec 5) (im : BitVec 15) (off : Nat), Ready s [a, b] d → AtClm (addr s a im) off 8 →
    let l := here s off
    (∀ u, Settled s off 8 → s.releasing = .ok u → exec (.stfull b a im) s =
      .next ((((u.storeAt l 8 (s.rx b).toNat).setFull l true).pops [a, b]).next)) ∧
    exec (.feclr a im) s = .next (((s.setFull l false).pops [a]).next) ∧
    exec (.ferd d a im) s = .next (wrote s [a] d (b64 (s.isFull l))) ∧
    (s.isFull l = true → s.earlier (.full l.key) = false → s.poisoned l = false →
      exec (.ldsync d a im) s = .next ((s.setFull l false).done 8 { srcs := [a], writes := [(d.toNat, w64 (s.readN l 8))], acquire := true })) ∧
    (s.isFull l = false → exec (.ldsync d a im) s = .next (s.block (.full l.key)))

/-- R170: a word that has been set full reads full, one that has been emptied reads empty, and no other word's bit
changes. -/
def Sys2Proof.Spec.FullBits : Prop :=
  ∀ (s : State) (l k : Loc) (f : Bool), (s.setFull l f).isFull l = f ∧ (k.key / 8 ≠ l.key / 8 → (s.setFull l f).isFull k = s.isFull k)

/-- R194, R195: the atomics on a word of the core's own CLM complete in one step: x[d] takes the old value, sign-extended,
and the word the new one; AMO.FADD rounds the FP32 sum RNE and zero-extends. With R set the release has been made before the
word is read, and an acquire follows with Q set. -/
def Obligations.AtomicsOnClm : Prop :=
  ∀ (s u : State) (d a b : BitVec 5) (w q r : BitVec 1) (off : Nat), Ready s [a, b] d →
    (if r = 1 then s.releasing = .ok u else u = s) →
    let n : Nat := if w = 1 then 8 else 4
    let l := here s off
    let old := u.readN l n
    let ends (t : State) (v : Word) : State := t.done 8 { srcs := [a, b], writes := [(d.toNat, v)], acquire := q == 1 }
    let x := (s.rx b).toNat % 2 ^ (8 * n)
    let sg (v : Nat) : Int := (BitVec.ofNat (8 * n) v).toInt
    let did (i : Instr) (new : Nat) : Prop :=
      exec i s = .next (ends (u.storeAt l n new) ((BitVec.ofNat (8 * n) old).signExtend 64))
    (AtClm (s.rx a) off n → u.poisoned l = false → Settled s off n →
      did (.amoAdd d a b w q r) ((old + x) % 2 ^ (8 * n)) ∧ did (.amoAnd d a b w q r) ((old &&& x) % 2 ^ (8 * n)) ∧
      did (.amoOr d a b w q r) ((old ||| x) % 2 ^ (8 * n)) ∧ did (.amoXor d a b w q r) ((old ^^^ x) % 2 ^ (8 * n)) ∧
      did (.amoMin d a b w q r) ((if sg x < sg old then x else old) % 2 ^ (8 * n)) ∧
      did (.amoMax d a b w q r) ((if sg old < sg x then x else old) % 2 ^ (8 * n)) ∧
      did (.amoMinu d a b w q r) (min old x % 2 ^ (8 * n)) ∧ did (.amoMaxu d a b w q r) (max old x % 2 ^ (8 * n)) ∧
      did (.amoSwap d a b w q r) (x % 2 ^ (8 * n)) ∧
      did (.amoCas d a b w q r) ((if old = (s.rx d).toNat % 2 ^ (8 * n) then x else old) % 2 ^ (8 * n))) ∧
    (AtClm (s.rx a) off 4 → u.poisoned l = false → Settled s off 4 →
      exec (.amoFadd d a b q r) s = .next (ends (u.storeAt l 4
        ((fAdd envRne (BitVec.ofNat 32 (u.readN l 4)) (BitVec.ofNat 32 ((s.rx b).toNat % 2 ^ 32))).1.toNat % 2 ^ 32)) (w64 (u.readN l 4))))

/-- R104 to R107, R117: the vector loads and stores on the core's own CLM complete: VLD and VST move one aligned 128-byte
sector, and a gather of the core's own CLM gives each active lane its word. The strided, indexed and table forms complete on
every state in which their lane accesses do, each lane's at its home (R169). DTAB.LD waits for its reply, which writes the
table. -/
def Sys2Proof.Spec.VectorMemory : Prop :=
  ∀ (s : State) (vd vb : BitVec 4) (a b : BitVec 5) (im : BitVec 15) (m t : BitVec 1) (off : Nat),
    let strides := strideAddr s a b
    let indexes := indexAddr s a vb
    let row : Nat → Word := fun i => addr s a im + w64 (4 * i)
    let act := active s.me.p m
    let words (v : Nat) (i : Nat) : W32 := BitVec.ofNat 32 (v / 2 ^ (32 * i))
    (Ready s [a] 0 → AtClm (addr s a im) off 128 → Clean s off 128 →
      exec (.vld vd a im) s = .next (((s.moor.pops [a]).wv vd (BitVec.ofNat 1024 (s.readN (here s off) 128))).next)) ∧
    (Ready s [a] 0 → AtClm (addr s a im) off 128 → Settled s off 128 →
      exec (.vst vd a im) s = .next (((s.storeClm s.rank off 128 (s.rv vd).toNat).moor.pops [a]).next)) ∧
    (∀ offs : Nat → Nat, s.myWait = none →
      (Ready s [a, b] 0 → (∀ i < 32, act i = true → LaneHere s (strides i) (offs i)) →
        exec (.vlds vd a b m) s = .next (s.moor.done 8 { srcs := [a, b], vw := some (vd.toNat,
          masked s.me.p m (s.rv vd) fun i => BitVec.ofNat 32 (s.readN (here s (offs i)) 4)) })) ∧
      (Ready s [a] 0 → (∀ i < 32, act i = true → LaneHere s (indexes i) (offs i)) →
        exec (.vldx vd a vb m) s = .next (s.moor.done 16 { srcs := [a], vw := some (vd.toNat,
          masked s.me.p m (s.rv vd) fun i => BitVec.ofNat 32 (s.readN (here s (offs i)) 4)) }))) ∧
    (∀ u v lat, Ready s [a, b] 0 → lanesRun (loadLane strides) s strides act 32 State.moor = .ok (u, v, 0, lat) →
      exec (.vlds vd a b m) s = .next (u.moor.done (max 8 lat) { srcs := [a, b], vw := some (vd.toNat, masked s.me.p m (s.rv vd) (words v)) })) ∧
    (∀ u v lat, Ready s [a] 0 → lanesRun (loadLane indexes) s indexes act 32 State.moor = .ok (u, v, 0, lat) →
      exec (.vldx vd a vb m) s = .next (u.moor.done (max 16 lat) { srcs := [a], vw := some (vd.toNat, masked s.me.p m (s.rv vd) (words v)) })) ∧
    (∀ u v lat, Ready s [a, b] 0 → lanesRun (storeLane strides (s.rv vd)) s strides act 32 State.moor = .ok (u, v, 0, lat) →
      exec (.vsts vd a b m) s = .next (u.moor.done (max 8 lat) { srcs := [a, b] })) ∧
    (∀ u v lat, Ready s [a] 0 → lanesRun (storeLane indexes (s.rv vd)) s indexes act 32 State.moor = .ok (u, v, 0, lat) →
      exec (.vstx vd a vb m) s = .next (u.moor.done (max 16 lat) { srcs := [a] })) ∧
    (∀ u v lat, Ready s [a] 0 → (addr s a im).toNat % 128 = 0 → lanesRun (loadLane row) s row (fun _ => true) 256 id = .ok (u, v, 0, lat) →
      exec (.dtabLd t a im) s = .next (u.answered lat { srcs := [a], table := some (t.toNat, tableOf (words v)) }))

/-- R180, R193, R197: a prefetch completes whatever its address: it fills, or is dropped and counted; while the L1 clears
PFD waits. A cache operation over an empty range does nothing. Over another it takes 32 cycles at L1, and 4 for each dirty
sector and 110 when it cleans some; at the cluster cache 36 and one for each line; at the LLC 110 and one for each line when
none of them is dirty there, and 200, one for each line and 32 for each dirty one else, and how many are dirty is left open
(DESIGN CHOICE, log 5). A clean of the LLC changes no byte, because the LLC is the memory itself here (DESIGN CHOICE, log 17). -/
def Sys2Proof.Spec.CacheOperations : Prop :=
  ∀ (s : State) (a b : BitVec 5) (l : BitVec 2), Ready s [a, b] 0 → Plain s →
    let does (i : Instr) : Prop := ∃ t, exec i s = .next t ∧ t.me.pc = s.me.pc + 4 ∧ t.myCore.instret = s.myCore.instret + 1
    let lo := (s.rx a).toNat
    let hi := min (lo + (s.rx b).toNat) (13 * 2 ^ 48)
    let lines := (hi + 1023) / 1024 - lo / 1024
    does (.icpf a) ∧ (s.myCore.l1Busy ≤ s.cycle → does (.pfd a)) ∧ (s.cycle < s.myCore.l1Busy → exec (.pfd a) s = .next (s.block .slow)) ∧
    (lo < hi → ∀ i ∈ [Instr.cmoClean a b l, .cmoInv a b l, .cmoClinv a b l],
      (l = 0 → s.myCore.l1Busy ≤ s.cycle → ∃ t : State, t.me = s.me ∧ t.cycle = s.cycle ∧
        let k := s.cmoDirty s.rank s.who.asid lo hi
        exec i s = .next (t.done (if i = .cmoInv a b l ∨ k = 0 then 32 else 32 + (4 * k + 110)) { srcs := [a, b] })) ∧
      (l = 0 → s.cycle < s.myCore.l1Busy → exec i s = .next (s.block .slow)) ∧
      (l = 1 → ∃ t : State, exec i s = .next (t.done (lines + 36) { srcs := [a, b] }) ∧ t.me = s.me ∧ t.cycle = s.cycle) ∧
      (l = 2 → ∃ (t : State) (d : Nat), d ≤ lines ∧ exec i s = .next (t.done (if d = 0 then lines + 110 else lines + 200 + 32 * d) { srcs := [a, b] }) ∧
        t.me = s.me ∧ t.cycle = s.cycle)) ∧
    (s.myCore.l1Busy ≤ s.cycle → 13 * 2 ^ 48 ≤ (s.rx a).toNat → exec (.pfd a) s = .next (((s.pops [a]).dropped).next) ∧
      exec (.icpf a) s = .next (((s.pops [a]).dropped).next)) ∧
    (s.rx b = 0 → exec (.cmoClean a b l) s = .next ((s.pops [a, b]).next) ∧ exec (.cmoInv a b l) s = .next ((s.pops [a, b]).next) ∧
      exec (.cmoClinv a b l) s = .next ((s.pops [a, b]).next))

/-- R197, R184: what a cache operation over part of one mapped page does to the lines of its range, widened to whole sectors.
At L1 a clean leaves no dirty byte in them and they stay valid, an invalidation leaves no valid byte, a sector outside the range
stands, and the dirty bytes of a line reach memory only where it cleans. At the cluster cache an invalidation leaves no line of
the range, and a clean does nothing; at the LLC no byte and no L1 line changes. -/
def Sys2Proof.Spec.CacheLines : Prop :=
  ∀ (s u : State) (a b : BitVec 5) (pa : Nat), Ready s [a, b] 0 →
    let lo := (s.rx a).toNat
    let hi := lo + (s.rx b).toNat
    let as := s.who.asid
    let did (i : Instr) (P : State → Prop) : Prop := ∃ (t : State) (n : Nat), exec i s = .next (t.done n { srcs := [a, b] }) ∧ P t
    lo < hi → hi ≤ 13 * 2 ^ 48 → lo / 65536 = (hi - 1) / 65536 → s.mapped (clusterOf s.rank) s.who (lo / 65536 * 65536) = (u, some pa) →
    (s.myCore.l1Busy ≤ s.cycle →
      did (.cmoClean a b 0) (fun t => t = u.cmoL1 s.rank as lo hi true false) ∧
      did (.cmoInv a b 0) (fun t => t = u.cmoL1 s.rank as lo hi false true) ∧
      did (.cmoClinv a b 0) (fun t => t = u.cmoL1 s.rank as lo hi true true)) ∧
    did (.cmoClean a b 1) (fun t => t = u) ∧ did (.cmoClean a b 2) (fun t => t = u) ∧ did (.cmoInv a b 2) (fun t => t = u) ∧ did (.cmoClinv a b 2) (fun t => t = u) ∧
    (∀ i ∈ [Instr.cmoInv a b 1, .cmoClinv a b 1], did i fun t => t = u.cmoBasin (clusterOf s.rank) lo hi (lo / 65536 * 65536) pa ∧
      ∀ l ∈ (t.cluster (clusterOf s.rank)).bcache, pa ≤ l.pa * 1024 → l.pa * 1024 < pa + 65536 →
        ¬ (l.pa * 1024 - pa + lo / 65536 * 65536 < hi ∧ lo < l.pa * 1024 - pa + lo / 65536 * 65536 + 1024)) ∧
    (∀ clean inv : Bool, let t := u.cmoL1 s.rank as lo hi clean inv
      (∀ l ∈ (t.core s.rank).l1, ∀ k < 8, sectorIn l as lo hi k = true →
        l.dirty &&& secMask k = 0 ∧ (inv = true → l.valid &&& secMask k = 0)) ∧
      (∀ l ∈ (u.core s.rank).l1, (∀ k < 8, sectorIn l as lo hi k = false) → l ∈ (t.core s.rank).l1) ∧
      (clean = false → t.mem = u.mem) ∧
      (∀ l, (u.core s.rank).l1 = [l] → u.memOk →
        (clean = true → ∀ i < 1024, sectorIn l as lo hi (i / 128) = true → l.dirty.getLsbD i = true → t.readByte (.hbm (l.pa * 1024 + i)) = l.byte i) ∧
        (inv = false → ∃ k ∈ (t.core s.rank).l1, k.valid = l.valid ∧ k.data = l.data)))

/-- R275, R276: a page walk answers only with a valid entry that is no pointer and breaks none of R275's rules, and only
under a context whose valid bit is set. That no poisoned entry is answered is the model's choice (DESIGN CHOICE, log 75), and
so is that tables lie below 2^39, where HBM does (DESIGN CHOICE, log 16). -/
def Sys2Proof.Spec.WalkSound : Prop :=
  ∀ (s : State) (asid va : Nat) (e : Word) (big : Bool) (a : Nat), s.walk asid va = some (e, big, a) →
    (s.ctx asid).getLsbD 63 = true ∧ pteV e = true ∧ ptePointer e = false ∧ a < 2 ^ 39 ∧ s.poisoned (.hbm a) = false ∧ e = w64 (s.readN (.hbm a) 8) ∧
    (pteBad s.lock.dev (if big then 2 else 3) e = false)

/-- R276, R279: the end of a walk that the unit still runs takes it off the list; with a leaf found, A is set in memory's
entry, and that entry is cached; with none found, the waiters it serves are told so, and they fault. A walk no longer listed
changes nothing. -/
def Sys2Proof.Spec.WalkEnds : Prop :=
  ∀ (s : State) (cl : Nat) (asid : BitVec 8) (gran : Nat),
    ((s.cluster cl).walks.contains (asid.toNat, gran) = false → exec (.walkDone cl asid gran) s = .next s) ∧
    ((s.cluster cl).walks.contains (asid.toNat, gran) = true →
      ∃ t, exec (.walkDone cl asid gran) s = .next t ∧ (t.cluster cl).walks.contains (asid.toNat, gran) = false ∧
        (∀ w, s.walk asid.toNat (gran * 65536) = some w → ∃ e, t.tlbFind cl asid.toNat (gran * 65536) = some e ∧
          e.pte.getLsbD 7 = true ∧ e.pte ||| 0x180 = w.1 ||| 0x180 ∧ e.big = w.2.1 ∧
          (s.memOk → t.readN (.hbm w.2.2) 8 = e.pte.toNat ∧ (w64 (t.readN (.hbm w.2.2) 8)).getLsbD 7 = true)) ∧
        (s.walk asid.toNat (gran * 65536) = none → t.mem = s.mem ∧ ∀ r ∈ ringRanks cl, ∀ b w, (s.berthAt r b).wait = some w →
          waitsWalk asid.toNat gran w = true → (servedWaits s cl asid.toNat gran).contains w.ticket = true →
          (t.berthAt r b).wait = some { w with failed := true }))

def Obligations.ClmLoads : Prop := Spec.ClmLoads ∧ Spec.PoisonedLoad ∧ Spec.RemoteLoads
def Obligations.ClmStores : Prop := Spec.ClmStores ∧ Spec.StoredBytes ∧ Spec.StoreFrame
def Obligations.AddressTraps : Prop := Spec.AlignmentTraps ∧ Spec.UserClmProtection
def Obligations.FullEmpty : Prop := Spec.FullEmpty ∧ Spec.FullBits ∧ Spec.Releases
def Obligations.VectorMemory : Prop := Spec.VectorMemory ∧ Spec.CacheOperations ∧ Spec.CacheLines
def Obligations.WalksAnswerValidLeaves : Prop := Spec.WalkSound ∧ Spec.WalkEnds

/-! ### Barges and frames -/

/-- R17, R20, R32, R36: an instruction that completes outside a block moves the PC to the next word, counts in INSTRET, ends
the berth's wait and makes the berth ready; nothing else changes. One that has not waited makes it ready `lat` cycles after its
issue, and its messages leave at its write-back, 7 cycles after that. -/
def Sys2Proof.Spec.NextMovesOn : Prop :=
  ∀ (s : State) (lat : Nat), Plain s →
    let t := s.next lat
    t.me = { s.me with
      pc := s.me.pc + 4, wait := none, readyAt := max s.me.readyAt (s.readyAfter lat + if s.me.drowsy then 3 else 0), drowsy := false,
      lastIssue := if s.me.drowsy then s.cycle else s.me.lastIssue } ∧
    { t.myCore with berths := s.myCore.berths } = { s.myCore with instret := s.myCore.instret + 1 } ∧
    (∀ q b, (q ≠ s.rank ∨ b % 16 ≠ s.berth % 16) → t.berthAt q b = s.berthAt q b) ∧
    (∀ q, q ≠ s.rank → t.core q = s.core q) ∧ { t with cores := s.cores } = s ∧
    (s.me.wait = none → 8 ≤ lat → s.readyAfter lat = s.cycle + lat ∧ s.leaveIn = 7)

/-- R20, R36: an instruction that takes more than 8 cycles leaves its berth waiting, its registers as they are and its PC at
the instruction, for a reply with its results, which comes in the last of those cycles. -/
def Sys2Proof.Spec.LongEffects : Prop :=
  ∀ (s : State) (lat : Nat) (q : Reply), s.buffered = false → 8 < lat →
    ∃ w, s.done lat q = s.answered lat q ∧ (s.done lat q).me.wait = some w ∧ w.reply = some q ∧ w.hold = true ∧
      (s.me.wait = none → (s.cycle + lat - 1, .replyArrival s.rank (s.berth % 16)) ∈ (s.done lat q).agenda) ∧
      { (s.done lat q).me with wait := s.me.wait, readyAt := s.me.readyAt } = s.me ∧ (s.done lat q).mem = s.mem ∧
      (∀ r b, (r ≠ s.rank ∨ b % 16 ≠ s.berth % 16) → (s.done lat q).berthAt r b = s.berthAt r b)

/-- R154, R205: MOOR pins the barge; UNMOOR lets it go unless it holds an accumulator, a channel, a borrowed file or a
block of the buffer, and then traps ILL with its word in TVAL; FRAME reads F. -/
def Sys2Proof.Spec.Mooring : Prop :=
  ∀ (s : State) (d : BitVec 5), Plain s →
    (∃ t, exec .moor s = .next t ∧ t = s.moor.next ∧ t.me.moored = true) ∧
    (holds s = false → ∃ t, exec .unmoor s = .next t ∧ t = (s.modMe fun b => { b with moored := false }).next ∧ t.me.moored = false) ∧
    (holds s = true → exec .unmoor s = .next (trapped s .ill ((encode .unmoor).setWidth 64))) ∧
    (Ready s [] d → exec (.frame d) s = .next (wrote s [] d (s.me.fr.setWidth 64)))

/-- R207, R286: PLACE makes the address of an offset in a core of the launch's rectangle, and traps PLACE for any other core or
an offset of 0x20000 or more; TVAL, which R286 words only as the address that failed, is the address it would have made
(DEDUCED, log 28). RANKOF gives the rank at a distance, or all ones outside the rectangle. -/
def Sys2Proof.Spec.Places : Prop :=
  ∀ (s : State) (d a b : BitVec 5) (p : BitVec 15),
    (Ready s [a, b] d → (s.rx a).toNat < 9216 → s.inRect s.me.lid (s.rx a).toNat = true → (s.rx b).toNat < 0x20000 →
      exec (.place d a b) s = .next (wrote s [a, b] d (w64 (15 * 2 ^ 48 + (s.rx a).toNat * 2 ^ 17 + (s.rx b).toNat)))) ∧
    (Ready s [a, b] d → s.buffered = false → (9216 ≤ (s.rx a).toNat ∨ s.inRect s.me.lid (s.rx a).toNat = false ∨ 0x20000 ≤ (s.rx b).toNat) →
      exec (.place d a b) s = .next (trapped s .place (0xF000000000000 ||| (s.rx a <<< 17) ||| s.rx b))) ∧
    (Ready s [a] d →
      let dy := if fieldInd p then wordDy (s.rx a) else fieldDy p
      let dx := if fieldInd p then wordDx (s.rx a) else fieldDx p
      exec (.rankof d a p) s = .next (wrote s [a] d (match placeRank s.rank dy dx with
        | some r => if s.inRect s.me.lid r then w64 r else ones64
        | none => ones64)))

/-- R169, R206: CANCEL of a live frame of the launch sets its CANC flag, at its home when the request stands there; of no
frame, or of a record that is free, is a range frame's second half or is another launch's, it changes nothing; it completes in
each case. A handle whose rank is outside the rectangle, whose offset is outside 0x6000 to 0x7FFF or which is no record's
address traps PLACE with the handle in TVAL. -/
def Sys2Proof.Spec.Cancels : Prop :=
  ∀ (s : State) (a : BitVec 5), Ready s [a] 0 →
    let h := if a = 0 then s.me.fr.toNat else (s.rx a).toNat % 2 ^ 32
    let r := frank h
    let off := h % 131072
    let hit := s.liveRec h = true ∧ s.secondHalf r ((off - 0x6000) / 32) = false ∧ s.fget h 12 2 = s.me.lid
    let named := r < 9216 ∧ s.inRect s.me.lid r = true ∧ 0x6000 ≤ off ∧ off < 0x8000 ∧ off % 32 = 0
    (h = 0 → exec (.cancel a) s = .next ((s.pops [a]).next)) ∧
    (h ≠ 0 → named → s.atHome r = .ok () →
      (hit → exec (.cancel a) s = .next ((s.fmark h 0 true).done (s.clmTime r) { srcs := [a] })) ∧
      (¬ hit → exec (.cancel a) s = .next (s.done (s.clmTime r) { srcs := [a] }))) ∧
    (h ≠ 0 → named → r = s.rank → s.atHome r = .ok () ∧
      (hit → exec (.cancel a) s = .next (((s.fmark h 0 true).pops [a]).next)) ∧ (¬ hit → exec (.cancel a) s = .next ((s.pops [a]).next))) ∧
    (h ≠ 0 → ¬ named → s.buffered = false → exec (.cancel a) s = .next (trapped s .place (w64 h)))

/-- R95, R179, R204, R248: EXIT waits while the berth has a block in the repetition buffer. Then the barge lets go of its channels,
its accumulators and its borrowed file; one with a parent, and a pair barge, makes its release, and waits for it; after that it sends its parent's
frame one decrement, leaves its own frame, ends its life in LIVE, counts as completed, and its berth falls free. -/
def Sys2Proof.Spec.ExitBarge : Prop :=
  ∀ (s : State),
    (s.inBuffer s.rank s.berth = true → exec .exit s = .next (s.block .board)) ∧
    (s.inBuffer s.rank s.berth = false →
      let l := s.letGo relAcc freePort s.rank s.berth (s.cycle + s.leaveIn)
      let frees : Prop := s.me.header.pfh ≠ 0 ∨ s.me.header.kind = .pair
      (∀ u, (frees → l.releasing = .ok u) → (¬ frees → u = l) →
        ∃ t, exec .exit s = .next t ∧ t.me.hdr = none ∧ t.me.ports = Vector.replicate 8 Port.reset ∧ t.me.borrowed = none ∧
          t.me.moored = false ∧ t.myCore.instret = s.myCore.instret + 1 ∧
          t = (((u.sendDecrement u.rank u.me.lid u.me.header.pfh.toNat u.leaveIn).ownerExits u.me.fr.toNat).decLive u.rank u.me.lid).retire.depart) ∧
      (∀ v, frees → l.releasing = .error (.gone v) → exec .exit s = .next v) ∧
      (∀ y, frees → l.releasing = .error (.wait y) → exec .exit s = .next (s.block y)))

/-- R95, R204: YIELD waits while the berth has a block in the repetition buffer. Then a pinned barge goes on; any other is put,
with the PC behind it, at its core's queue, and its berth falls free. -/
def Sys2Proof.Spec.Yields : Prop :=
  ∀ (s : State), s.cancelled = false →
    (s.inBuffer s.rank s.berth = true → exec .yield s = .next (s.block .board)) ∧
    (s.inBuffer s.rank s.berth = false → s.me.pinned = true → exec .yield s = .next s.next) ∧
    (s.inBuffer s.rank s.berth = false → s.me.pinned = false →
      exec .yield s = .next (s.retire.depart.enqueue s.rank (s.me.pack (s.me.pc + 4)) none))

/-- R95, R144, R158: AWAIT with no frame, or whose count is 0, goes on, in the second case with an acquire; an unpinned barge whose
children still run is parked, once no block of its berth is in the repetition buffer: its packet goes to a park slot, with the ARR it
had when it docked, the frame names it, it counts as completed, and the berth falls
free; a pinned one waits in its berth, and so does an unpinned one that finds no park slot free. Which free slot it takes is
the model's choice, the lowest (log 63). -/
def Sys2Proof.Spec.Awaits : Prop :=
  ∀ (s : State) (l : Launch) (i : Nat), s.cancelled = false → (∀ w, s.me.wait = some w → w.why ≠ .await) →
    let h := s.me.fr.toNat
    let pk : Packet := { s.me.pack (s.me.pc + 4) with hdr := { s.me.header with kind := .continuation } }
    (h = 0 → exec .await s = .next s.next) ∧
    (h ≠ 0 → frank h = s.rank → s.atHome (frank h) = .ok ()) ∧
    (h ≠ 0 → s.fget h 0 4 = 0 → frank h = s.rank → exec .await s = .next s.gain.next) ∧
    (h ≠ 0 → s.atHome (frank h) = .ok () →
      (s.fget h 0 4 = 0 → exec .await s = .next (s.done (s.clmTime (frank h)) { acquire := true })) ∧
      (s.fget h 0 4 ≠ 0 → s.me.pinned = false → s.inBuffer s.rank s.berth = true → exec .await s = .next (s.block .board)) ∧
      (s.fget h 0 4 ≠ 0 → s.me.pinned = false → s.inBuffer s.rank s.berth = false → s.launch s.me.lid = some l → parkSlot l s.rank = some i →
        exec .await s = .next (((((s.modLaunch s.me.lid fun l => { l with parked := l.parked ++ [(s.rank, i, pk)] }).imagePacket
          (clusterOf s.rank) pk s.me.arr (parkAt l s.rank + 288 * i)).fset h 16 8 (s.rank * 2 ^ 32 + i)).fmark h 2 true).retire.depart)) ∧
      (s.fget h 0 4 ≠ 0 → s.me.pinned = true → exec .await s = .next (s.block .await)) ∧
      (s.fget h 0 4 ≠ 0 → s.me.pinned = false → s.inBuffer s.rank s.berth = false → s.launch s.me.lid = some l → parkSlot l s.rank = none →
        exec .await s = .next (s.block .await)) ∧
      (∀ j, parkSlot l s.rank = some j → j < 4096 ∧ (∀ e ∈ l.parked, e.1 = s.rank → e.2.1 ≠ j)))

/-- R156, R157, R179, R200: the start of a spawn. A barge without a frame takes the lowest free record, or waits for one. With
its release done it raises the count at its frame's home: at once on its own core, where a count at its top waits; elsewhere it
sends an increment and waits for the answer, after which it has been counted. The top is tested before the release and the
count raised after it, which the rules do not order (DESIGN CHOICE, log 33). -/
def Sys2Proof.Spec.SpawnCounts : Prop :=
  ∀ (s : State),
    (s.acked = true → s.spawnCount = .ok s) ∧
    (s.acked = false → s.me.fr = 0 → s.homeRec false = none → s.spawnCount = .error (.wait .frame)) ∧
    (∀ t t1 h, s.acked = false →
      (s.me.fr ≠ 0 ∧ t = s ∧ h = s.me.fr.toNat ∨
        s.me.fr = 0 ∧ s.homeRec false = some h ∧ t = (s.newRec h false s.me.header.pfh.toNat).modMe fun b => { b with fr := BitVec.ofNat 32 h }) →
      (∀ v, t.releasing = .error (.gone v) → s.spawnCount = .error (.gone v)) ∧
      (∀ y, t.releasing = .error (.wait y) → s.spawnCount = .error (.wait y)) ∧
      (t.releasing = .ok t1 →
        (frank h = s.rank → t.fget h 0 4 ≠ 0xFFFFFFFF → s.spawnCount = .ok (t1.fset h 0 4 (t.fget h 0 4 + 1))) ∧
        (frank h = s.rank → t.fget h 0 4 = 0xFFFFFFFF → s.spawnCount = .error (.wait .frame)) ∧
        (frank h ≠ s.rank → s.spawnCount = .error (.gone (((t1.incSent s.rank s.me.lid).await .frame).later
          (s.leaveIn + 2 * hops s.rank (frank h) + 9) (.frameIncrement (BitVec.ofNat 32 h) s.rank s.berth))))))

/-- R162, R200: SPAWN, once counted, makes the child and queues it here, or sends it to the core its operand names; a place
outside the launch traps PLACE, and a barge whose parent frame is cancelled exits instead. -/
def Sys2Proof.Spec.Spawns : Prop :=
  ∀ (s : State) (p : BitVec 5) (o : BitVec 20), Ready s [p] 0 →
    let w := s.rx p
    let target := s.me.pc + 4 * o.signExtend 64
    let dest := if bit w 8 then placeRank s.rank (wordDy w) (wordDx w) else some s.rank
    (dest = none → s.buffered = false → exec (.spawn p o) s = .next (trapped s .place w)) ∧
    (∀ r, dest = some r → bit w 8 = true → s.inRect s.me.lid r = false → s.buffered = false →
      exec (.spawn p o) s = .next (trapped s .place w)) ∧
    (∀ r, dest = some r → (bit w 8 = true → s.inRect s.me.lid r = true) →
      (s.acked = false → s.cancelled = true → exec (.spawn p o) s = s.finish s.exitCancelled) ∧
      ((s.acked = true ∨ s.cancelled = false) →
        (∀ t, s.spawnCount = .ok t →
          exec (.spawn p o) s = .next (((t.launchPacket r (childPacket t.me target t.me.fr (bit w 9)) none).pops [p]).next)) ∧
        (∀ t, s.spawnCount = .error (.gone t) → exec (.spawn p o) s = .next t) ∧
        (∀ y, s.spawnCount = .error (.wait y) → exec (.spawn p o) s = .next (s.block y))))

/-- R200: the child has its parent's registers and predicates, no frame of its own, the given frame as its parent, CL set,
and starts at the target. -/
def Sys2Proof.Spec.ChildPacket : Prop :=
  ∀ (b : Berth) (target : Word) (pfh : W32) (stl : Bool),
    let k := childPacket b target pfh stl
    k.pc = target ∧ k.x = b.x ∧ k.f = b.f ∧ k.p = b.p ∧ k.fr = 0 ∧ k.hdr.pfh = pfh ∧ k.hdr.stl = stl ∧ k.hdr.kind = .ordinary ∧ k.hdr.cl = true ∧
    k.hdr.lid = b.header.lid ∧ k.hdr.asid = b.header.asid ∧ k.hdr.pri = b.header.pri

/-- R201, R202, R203: SPAWNC of a pinned barge traps ILL; SPAWNC and SPAWNR whose count has been taken go on; SPAWNR of an
empty range only goes on; NEXTCH sends its claim to the range frame's home and waits, exits when no chunk was left, exits
with cancelled status when its range frame is cancelled, or traps ILL with no range frame. TVAL of ILL is the instruction's
word. The child that SPAWNC runs in the berth keeps the spawner's STL, which no rule gives (DESIGN CHOICE, log 63). -/
def Sys2Proof.Spec.SpawnForms : Prop :=
  ∀ (s t : State) (n : BitVec 5) (o : BitVec 20),
    let target := s.me.pc + 4 * o.signExtend 64
    let lo := sint 48 ((s.rx n).toNat % 2 ^ 48)
    let hi := sint 48 ((s.rx (n + 1)).toNat % 2 ^ 48)
    let h := s.me.header.pfh.toNat
    let runs := s.acked = true ∨ s.cancelled = false
    (s.me.pinned = true → s.buffered = false → exec (.spawnc o) s = .next (trapped s .ill ((encode (.spawnc o)).setWidth 64))) ∧
    (s.me.pinned = false → runs → s.spawnCount = .ok t →
      exec (.spawnc o) s = .next ((((t.launchPacket s.rank
        { t.me.pack (t.me.pc + 4) with hdr := { t.me.header with kind := .continuation, stl := true } } (some s.berth)).modMe fun k =>
        { k with hdr := some { t.me.header with pfh := t.me.fr, cl := true, kind := .ordinary }, fr := 0, pair := [] })).jump target)) ∧
    (runs → hi ≤ lo → exec (.spawnr n o) s = .next (s.done (if s.me.header.cl && s.me.header.pfh != 0 then s.clmTime (frank h) else 8) {})) ∧
    (∀ f g, runs → lo < hi → (s.acked = false → s.homeRec true = some f) → s.spawnCount = .ok t → t.homeRec true = some g →
      exec (.spawnr n o) s = .next
        (workers ((((((t.newRec g true t.me.fr.toNat).fset g 32 8 (BitVec.ofInt 64 lo).toNat).fset g 40 8 (BitVec.ofInt 64 hi).toNat).fset
          g 48 4 (max 1 (fld (s.rx (n + 1)) 48 16))).fset g 52 2 (fld (s.rx n) 48 10 + 1))) g target 0 (fld (s.rx n) 48 10 + 1)).next) ∧
    (s.acked = false → h ≠ 0 → s.liveRec h = true → s.isRange h = true → s.canc h = false →
      exec (.nextch o) s = .next ((s.await .frame).later (s.leaveIn + if frank h = s.rank then 0 else 2 * hops s.rank (frank h) + 9)
        (.chunkClaim (BitVec.ofNat 32 h) s.rank s.berth target))) ∧
    (s.acked = true → exec (.nextch o) s = exec .exit s) ∧
    (s.acked = false → h ≠ 0 → s.liveRec h = true → s.isRange h = true → s.canc h = true → s.inBuffer s.rank s.berth = false →
      exec (.nextch o) s = s.finish (if s.me.fr = 0 then s else s.fmark s.me.fr.toNat 0 true).exitBarge) ∧
    (s.acked = false → h = 0 ∨ s.liveRec h = false ∨ s.isRange h = false → s.buffered = false →
      exec (.nextch o) s = .next (trapped s .ill ((encode (.nextch o)).setWidth 64)))

/-- R160: a claim at a range frame takes the greater of the least chunk and an even share of what is left, never more than
is left, and moves the frame's next index past it; the claimer's reply brings the bounds in x1 and x2 and the branch. -/
def Sys2Proof.Spec.ChunkClaims : Prop :=
  ∀ (s : State) (h : BitVec 32) (r b : Nat) (target : Word),
    let nxt := sint 64 (s.fget h.toNat 32 8)
    let left := sint 64 (s.fget h.toNat 40 8) - nxt
    let share := min left (max (s.fget h.toNat 48 4 : Int) ((left + (s.fget h.toNat 52 2 : Int) - 1) / (s.fget h.toNat 52 2 : Int)))
    let d := if frank h.toNat = r then 0 else 2 * hops (frank h.toNat) r + 9
    (0 < left → exec (.chunkClaim h r b target) s = .next ((s.fset h.toNat 32 8 (BitVec.ofInt 64 (nxt + share)).toNat).reply r b
      { writes := [(1, BitVec.ofInt 64 nxt), (2, BitVec.ofInt 64 (nxt + share))], pc := some target } d)) ∧
    (left ≤ 0 → exec (.chunkClaim h r b target) s = .next (s.reply r b { again := true } d))

/-- R157, R158, R160, R163: an increment below the top raises the count and answers the spawner, one at the top waits; a decrement
at a plain frame lowers it, and the last one resumes the frame's parked owner or frees a frame whose owner has exited; one at a
range frame lowers its live workers, and the last one counts at the frame's parent and frees its two records; each counts
as received. A record that falls free is no live one. That its bytes are then zero is the model's choice (log 63). -/
def Sys2Proof.Spec.FrameMessages : Prop :=
  ∀ (s : State) (h : BitVec 32) (r b src : Nat),
    let n := s.fget h.toNat 0 4
    let home := frank h.toNat
    let lid := s.fget h.toNat 12 2
    let got := s.incRecv home lid
    (n ≠ 0xFFFFFFFF → exec (.frameIncrement h r b) s =
      .next (((s.fset h.toNat 0 4 (n + 1)).incRecv home lid).reply r b { again := true } (2 * hops home r + 9))) ∧
    (n = 0xFFFFFFFF → exec (.frameIncrement h r b) s = .next (s.later 1 (.frameIncrement h r b))) ∧
    (got.liveRec h.toNat = false → exec (.frameDecrement ⟨h, src⟩) s = .next got) ∧
    (got.liveRec h.toNat = true → got.isRange h.toNat = false →
      (1 < got.fget h.toNat 0 4 → exec (.frameDecrement ⟨h, src⟩) s = .next (got.fset h.toNat 0 4 (got.fget h.toNat 0 4 - 1))) ∧
      (got.fget h.toNat 0 4 = 1 → exec (.frameDecrement ⟨h, src⟩) s = .next ((got.fset h.toNat 0 4 0).joinZero h.toNat))) ∧
    (got.liveRec h.toNat = true → got.isRange h.toNat = true → 1 < got.fget h.toNat 54 2 →
      exec (.frameDecrement ⟨h, src⟩) s = .next (got.fset h.toNat 54 2 (got.fget h.toNat 54 2 - 1))) ∧
    (got.liveRec h.toNat = true → got.isRange h.toNat = true → got.fget h.toNat 54 2 = 1 →
      exec (.frameDecrement ⟨h, src⟩) s = .next (((got.fset h.toNat 54 2 0).sendDecrement home (got.fget h.toNat 12 2) (got.fget h.toNat 8 4) 0).freeFrame h.toNat)) ∧
    (s.memOk → 0x6000 ≤ h.toNat % 131072 → (s.freeFrame h.toNat).liveRec h.toNat = false ∧
      (s.isRange h.toNat = true → (s.freeFrame h.toNat).fget h.toNat 54 2 = 0 ∧ (s.freeFrame h.toNat).fget h.toNat 32 8 = 0)) ∧
    (s.fflag h.toNat 2 = true → s.joinZero h.toNat = ((s.fmark h.toNat 2 false).incSent home lid).later
      (2 * hops home (s.fget h.toNat 16 8 / 2 ^ 32 % 16384) + 9)
      (.resumeMessage (s.fget h.toNat 16 8 / 2 ^ 32 % 16384) (s.fget h.toNat 16 8 % 2 ^ 32) ⟨lid, home⟩)) ∧
    (s.fflag h.toNat 2 = false → (s.core home).orphans.contains h.toNat = true → s.joinZero h.toNat = s.freeFrame h.toNat) ∧
    (s.fflag h.toNat 2 = false → (s.core home).orphans.contains h.toNat = false → s.joinZero h.toNat = s)

/-- R158, R162: a resume takes the parked packet out of its slot and queues it at its core; one whose parent's frame is
cancelled exits there; without the launch or the packet it only counts as received. -/
def Sys2Proof.Spec.Resumes : Prop :=
  ∀ (s : State) (r slot lid src : Nat) (l : Launch) (pk : Packet),
    let got := s.incRecv r lid
    let gone := got.modLaunch lid fun l => { l with parked := l.parked.filter fun e => !(e.1 == r && e.2.1 == slot) }
    (s.launch lid = none → exec (.resumeMessage r slot ⟨lid, src⟩) s = .next got) ∧
    (s.launch lid = some l → l.parked.find? (fun e => e.1 == r && e.2.1 == slot) = none →
      exec (.resumeMessage r slot ⟨lid, src⟩) s = .next got) ∧
    (s.launch lid = some l → l.parked.find? (fun e => e.1 == r && e.2.1 == slot) = some (r, slot, pk) →
      ((pk.hdr.cl && pk.hdr.pfh != 0 && gone.canc pk.hdr.pfh.toNat) = false →
        exec (.resumeMessage r slot ⟨lid, src⟩) s = .next (gone.enqueue r pk none)) ∧
      ((pk.hdr.cl && pk.hdr.pfh != 0 && gone.canc pk.hdr.pfh.toNat) = true →
        exec (.resumeMessage r slot ⟨lid, src⟩) s =
          .next (((gone.childExits r lid pk.hdr.pfh.toNat 0).ownerExits (pk.fr.toNat % 2 ^ 32)).decLive r lid)))

/-- R148, R153, R163, R225, R268: a barge that arrives counts as received and live and enters the queue; a pair, which PEND
has counted since it was formed, likewise; a barge of a cancelled launch is discarded. -/
def Sys2Proof.Spec.Arrivals : Prop :=
  ∀ (s : State) (r src : Nat) (pk : Packet),
    let lid := pk.hdr.lid.toNat
    (s.dropsBarges lid = true → exec (.bargeArrival r ⟨pk, src⟩) s = .next (s.incRecv r lid)) ∧
    (s.dropsBarges lid = false → exec (.bargeArrival r ⟨pk, src⟩) s = .next (((s.incRecv r lid).incLive r lid).enqueue r pk none)) ∧
    exec (.pairMessage r ⟨pk, src⟩) s = .next (((s.incRecv r lid).incLive r lid).enqueue r pk none) ∧
    (s.dropsBarges lid = true → s.enqueue r pk none = (if pk.pend then s.decPend r lid else s).decLive r lid)

/-- R148, R151, R262: a packet that finds room and nothing spilled takes a free slot with ARR = now; otherwise it joins
the spilled packets, at a free slot of its launch's overflow segment, and with 4,096 of its launch there it is held. When at
most half of CAP is held spilled packets return in their order, each with its ARR, up to 8 at a time, until none is left or
the queue is full, and those held enter. Which free slot a packet takes is the model's choice, the lowest (log 63), and so is
the time of a batch, one cycle (log 5). -/
def Sys2Proof.Spec.QueueEntry : Prop :=
  ∀ (s : State) (r : Nat) (pk : Packet), s.dropsBarges pk.hdr.lid.toNat = false →
    let c := s.core r
    let lid := pk.hdr.lid.toNat
    let n := spillSlot c lid
    let spilled := s.modCore r fun c => { c with spillq := c.spillq ++ [(pk, s.cycle, n)] }
    let u := unspill c 8
    let back := s.modCore r fun _ => { u with
      spillAt := if u.spillq.isEmpty || decide (u.cap ≤ u.queue.length) then none else some (s.cycle + 1) }
    (c.spillq = [] → c.queue.length < c.cap →
      s.enqueue r pk none = s.modCore r fun c => { c with queue := c.queue ++ [⟨freeSlot c, pk, s.cycle, none⟩] }) ∧
    (c.queue.length < 64 → freeSlot c < 64 ∧ (∀ e ∈ c.queue, e.slot ≠ freeSlot c)) ∧
    (segFull c lid = true ↔ 4096 ≤ (c.spillq.filter fun e => e.1.hdr.lid.toNat == lid).length ∨ ∃ k ∈ c.overq, k.hdr.lid.toNat = lid) ∧
    (c.cap ≤ c.queue.length ∨ c.spillq ≠ [] → segFull c lid = false →
      (s.launch lid = none → s.enqueue r pk none = spilled) ∧
      (∀ l, s.launch lid = some l →
        s.enqueue r pk none = spilled.imagePacket (clusterOf r) pk s.cycle (l.area.toNat + 2359296 * l.index r + 288 * n))) ∧
    (segFull c lid = false → n < 4096 ∧ (∀ e ∈ c.spillq, e.1.hdr.lid.toNat = lid → e.2.2 ≠ n)) ∧
    (c.cap ≤ c.queue.length ∨ c.spillq ≠ [] → segFull c lid = true →
      s.enqueue r pk none = s.modCore r fun c => { c with overq := c.overq ++ [pk] }) ∧
    (c.spillAt = none → (spillReady s r = true ↔ c.shut = false ∧ c.spillq ≠ [] ∧ c.queue.length ≤ c.cap / 2)) ∧
    (∀ k, c.spillAt = some k → (spillReady s r = true ↔ c.shut = false ∧ k ≤ s.cycle)) ∧
    (spillReady s r = true → exec (.spillReturn r) s =
      .next (c.overq.foldl (fun t k => t.enqueue r k none) (back.modCore r fun c => { c with overq := [] }))) ∧
    (spillReady s r = false → exec (.spillReturn r) s = .next s) ∧
    (u.spillq = [] ∨ c.cap ≤ u.queue.length ∨ u.spillq.length + 8 = c.spillq.length) ∧ u.spillq.length ≤ c.spillq.length ∧
    c.spillq.length ≤ u.spillq.length + 8 ∧
    u.queue.map (fun e => (e.pk, e.arr)) ++ u.spillq.map (fun e => (e.1, e.2.1)) =
      c.queue.map (fun e => (e.pk, e.arr)) ++ c.spillq.map fun e => (e.1, e.2.1)

/-- R28, R150, R289: docking takes the packet that R150 chooses out of the queue into the lowest enabled EMPTY berth, with
its header, x, f, P and F; the v registers and FCSR are zero, the barge is in user mode with interrupts on, unmoored, with
no channel bound; the berth may issue 10 cycles later. A pair barge without a rule traps NORULE first (R227). -/
def Sys2Proof.Spec.Docks : Prop :=
  ∀ (s : State) (r b : Nat) (e : QEnt), dockReady s r = true → dockBerth s.cycle (s.core r) = some b →
    dockChoice s.cycle (s.core r).queue b = some e →
    ∃ t, exec (.docking r) s = .next t ∧ (t.core r).queue = (s.core r).queue.filter (fun q => q.slot != e.slot) ∧
      (t.core r).dockAt = s.cycle + 10 ∧
      let k := t.berthAt r b
      k.hdr = some e.pk.hdr ∧ k.x = vset e.pk.x 0 0 ∧ k.f = e.pk.f ∧ k.p = e.pk.p ||| 1 ∧
      k.arr = e.arr ∧ k.fr = e.pk.fr.setWidth 32 ∧ k.v = Vector.replicate 16 0 ∧ k.fcsr = 0 ∧
      (e.pk.norule = false → k.pc = e.pk.pc &&& 0x000FFFFFFFFFFFFC ∧ k.tstat = 4) ∧
      (e.pk.norule = true → k.pc = tvecBase (s.core r).tvec ∧ k.tcause = 8 ∧ k.tval = vget e.pk.x 3 0 ∧ k.tpc = e.pk.pc ∧ k.tstat = 9) ∧ k.moored = false ∧ k.wait = none ∧
      k.ports = Vector.replicate 8 Port.reset ∧ s.cycle + 10 ≤ k.readyAt

/-- R161: a thief's request leaves once, and is served with the earliest candidate of the fullest core, which leaves its
queue and travels as a barge once its core's release has ended, and where that release waits for another one, with it (R179); with
no candidate the thief asks again 64 cycles later. Of candidates with one ARR the model takes the lowest slot, which R161 does not say (DESIGN CHOICE, log 63). -/
def Sys2Proof.Spec.Steals : Prop :=
  ∀ (s : State) (r cl v : Nat) (rest : List Nat) (e : QEnt),
    (stealReady s r = true → ∃ t, exec (.stealRequest r) s = .next t ∧ (t.core r).stealOut = true ∧
      (t.cluster (clusterOf r)).steals = (s.cluster (clusterOf r)).steals ++ [r]) ∧
    (stealServeReady s cl = true → (s.cluster cl).steals = r :: rest →
      let s1 := s.modCluster cl fun c => { c with steals := rest, stealNext := s.cycle + 4 }
      (victimOf s1 r (ringRanks cl) = none →
        exec (.stealServe cl) s = .next (s1.modCore r fun c => { c with stealOut := false, stealAt := s.cycle + 64 })) ∧
      (victimOf s1 r (ringRanks cl) = some v → minBy (fun e => e.arr * 64 + e.slot) (stealable s1 r v) = some e →
        let d := (s1.release v).releaseTime v + (9 + 2 * hops v r)
        let u := (((s1.release v).modCore v fun c => { c with queue := c.queue.filter fun q => q.slot != e.slot }).decLive
          v e.pk.hdr.lid.toNat).incSent v e.pk.hdr.lid.toNat
        ((u.core v).relAgain = none → exec (.stealServe cl) s = .next ((u.later d (.bargeArrival r ⟨e.pk, v⟩)).modCore r fun c =>
          { c with stealOut := false, stealAt := u.cycle + d + 1 })) ∧
        ((u.core v).relAgain ≠ none → exec (.stealServe cl) s = .next (u.modCore v fun c =>
          { c with behind := c.behind ++ [⟨u.cycle, 9 + 2 * hops v r, .bargeArrival r ⟨e.pk, v⟩, some r⟩] }))))

/-- R20, R32, R36, R179, R210: a reply ends a berth's wait. It writes what it brings and the berth goes on, at the branch it brings
or behind its instruction, ready in the next cycle; an accumulator whose transfer it ends is then let go if it is to be. One
that has the instruction issue once more leaves the berth waiting for that issue; one that answers a fetch lets the
instruction issue; one that brings a trap takes it; one that pushes onto a port that has been freed meanwhile traps CHAN with
the port's register number, and any other waits for a release of its core that runs, and makes its own before its entry leaves. A drowsy file is woken first, for 3 cycles. Without a waiting berth or a reply nothing happens. -/
def Sys2Proof.Spec.Replies : Prop :=
  ∀ (s : State) (r b : Nat) (w : Wait) (q : Reply), b ≠ 16 →
    let k := s.berthAt r b
    let t := { s.as r b with cycle := if q.past then s.cycle - 1 else s.cycle }
    let res := fun (u : State) => ({ u with cycle := s.cycle } : State).back s
    (k.wait = none → exec (.replyArrival r b) s = .next s) ∧
    (k.wait = some w → w.reply = none → exec (.replyArrival r b) s = .next s) ∧
    (k.wait = some w → w.reply = some q → k.drowsy = true →
      exec (.replyArrival r b) s = .next ((s.modBerth r b fun t => { t with drowsy := false, lastIssue := s.cycle }).later 3 (.replyArrival r b))) ∧
    (k.wait = some w → w.reply = some q → k.drowsy = false →
      (∀ c v, q.trap = some (c, v) → exec (.replyArrival r b) s = .next (res (t.takeTrap c v))) ∧
      (q.trap = none → q.refetch = true →
        exec (.replyArrival r b) s = .next (res (t.modMe fun x => { x with wait := none, readyAt := t.cycle + 1 }))) ∧
      (q.trap = none → q.refetch = false → q.again = true → exec (.replyArrival r b) s =
        .next (res ((t.put q).modMe fun x => { x with wait := x.wait.map fun w => { w with hold := false, acked := true, reply := none } }))) ∧
      (q.trap = none → q.refetch = false → q.again = false → q.borrow = none → q.csr = none → q.brot = false →
        let free : Prop := ∀ e ∈ q.writes, 24 ≤ e.1 → t.checkFreed (BitVec.ofNat 5 e.1) = none
        let own : State := t.release t.rank
        let base : State := if pushes q = true ∧ q.cleaned = false then own else t
        (pushes q = false ∨ free ∧ (q.cleaned = true ∨ t.myCore.relEnd ≤ t.cycle ∧ own.myCore.relEnd ≤ t.cycle) →
          let u := match q.pc with | some a => (base.put q).jump a | none => (base.put q).next
          exec (.replyArrival r b) s = .next (res (match w.issued.acc with | some n => u.freeAcc r n | none => u))) ∧
        (pushes q = true → free → q.cleaned = false →
          (t.cycle < t.myCore.relEnd → exec (.replyArrival r b) s = .next (res (replyAgain t q (t.myCore.relEnd - t.cycle)))) ∧
          (t.myCore.relEnd ≤ t.cycle → t.cycle < own.myCore.relEnd →
            exec (.replyArrival r b) s = .next (res (replyAgain own { q with cleaned := true } (own.myCore.relEnd - t.cycle))))) ∧
        (∀ d v c, q.writes = [(d, v)] → 24 ≤ d → d < 32 → t.checkFreed (BitVec.ofNat 5 d) = some c →
          c = w64 d ∧ exec (.replyArrival r b) s = .next (res (t.takeTrap .chan c))) ∧
        (pushes q = false → q.past = false → k.readyAt ≤ s.cycle + 1 → q.srcs = [] → q.acquire = false → w.issued.acc = none →
          ∃ u, exec (.replyArrival r b) s = .next u ∧ (u.berthAt r b).wait = none ∧ (u.berthAt r b).readyAt = s.cycle + 1)))

def Obligations.BargeProgress : Prop := Spec.NextMovesOn ∧ Spec.LongEffects ∧ Spec.Replies ∧ Spec.Mooring ∧ Spec.Places
def Obligations.BargeEnds : Prop := Spec.Cancels ∧ Spec.ExitBarge ∧ Spec.Yields
def Obligations.AwaitsAndResumes : Prop := Spec.Awaits ∧ Spec.Resumes
def Obligations.SpawnsCountAndQueueChildren : Prop := Spec.SpawnCounts ∧ Spec.Spawns ∧ Spec.ChildPacket ∧ Spec.SpawnForms
def Obligations.FrameCounts : Prop := Spec.ChunkClaims ∧ Spec.FrameMessages
def Obligations.HarbourQueue : Prop := Spec.Arrivals ∧ Spec.QueueEntry ∧ Spec.Docks ∧ Spec.Steals

/-! ### Matrix instructions -/

/-- R126 to R128, R132: ACQ of an accumulator the berth owns, or of a free one nobody has waited longer for, claims it and
moors, and of one that another owns waits; REL lets an idle owned one go; AZERO clears it; APOIS reads its poison mask; AROW
and AWR move one row, and a poisoned row traps POISON with its number where the trap is enabled, and is counted and read where it is
not; the address it is logged with, its place in the accumulator, is the model's choice (DESIGN CHOICE, log 88). Each waits for outstanding work on its accumulator, an MMA into it or an ALD or AST of it, and traps ILL with its word in
TVAL when the berth does not own it; REL lets such an accumulator go only when that work ends. -/
def Sys2Proof.Spec.Accumulators : Prop :=
  ∀ (s : State) (c : BitVec 3) (d b : BitVec 5) (va : BitVec 4),
    let n := c.toNat
    let acc := s.myCore.acc n
    let row := (s.rx b).toNat % 32
    (acc.owner = none → acc.relp = false → s.earlier (.acq s.rank n) = false →
      exec (.acq c) s = .next ((s.modMyCore fun k => k.setAcc n { acc with owner := some s.berth }).moor.next)) ∧
    (s.owns n = true → exec (.acq c) s = .next s.moor.next) ∧
    (s.owns n = false → acc.owner ≠ none ∨ acc.relp = true ∨ s.earlier (.acq s.rank n) = true →
      exec (.acq c) s = .next (s.moor.block (.acq s.rank n))) ∧
    (s.accBusy s.rank n = true ↔ (∃ m ∈ s.myCore.mq, m.acc = n) ∨ ∃ w ∈ s.myCore.waits, w.issued.acc = some n) ∧
    (s.relAcc s.rank n).myCore.acc n = (if s.accBusy s.rank n = true then { acc with relp := true } else { acc with owner := none, relp := false }) ∧
    (s.owns n = true → exec (.rel c) s = .next ((s.relAcc s.rank n).moor.next)) ∧
    (s.owns n = true → s.accBusy s.rank n = true → exec (.azero c) s = .next (s.moor.block .work) ∧
      (Ready s [] d → exec (.apois d c) s = .next (s.moor.block .work)) ∧
      (Ready s [b] 0 → exec (.arow va c b) s = .next (s.moor.block .work) ∧ exec (.awr c va b) s = .next (s.moor.block .work))) ∧
    (s.owns n = true → s.accBusy s.rank n = false →
      exec (.azero c) s = .next ((s.modMyCore fun k => k.setAcc n { acc with data := 0, pois := 0 }).moor.next) ∧
      (Ready s [] d → exec (.apois d c) s = .next (wrote s.moor [] d (acc.pois.setWidth 64))) ∧
      (Ready s [b] 0 → acc.pois.getLsbD row = false →
        exec (.arow va c b) s = .next (((s.pops [b]).wv va (accRow acc.data row)).moor.next)) ∧
      (Ready s [b] 0 → acc.pois.getLsbD row = true → s.me.pte = true → s.buffered = false →
        exec (.arow va c b) s = .next (trapped s .poison (w64 row))) ∧
      (Ready s [b] 0 → acc.pois.getLsbD row = true → s.me.pte = false → exec (.arow va c b) s =
        .next ((((s.countPoison s.rank s.me.lid (128 * row)).pops [b]).wv va (accRow acc.data row)).moor.next)) ∧
      (Ready s [b] 0 → exec (.awr c va b) s = .next (((s.pops [b]).modMyCore fun k => k.setAcc n
          { k.acc n with data := setRow (k.acc n).data row (s.rv va), pois := setBit (k.acc n).pois row false }).moor.next))) ∧
    (s.owns n = false → s.buffered = false → ∀ i ∈ [Instr.rel c, .azero c, .apois d c, .arow va c b, .awr c va b],
      exec i s = .next (trapped s .ill ((encode i).setWidth 64)))

/-- R129 to R131: ALD of an unpoisoned, aligned 4 KiB operand in the core's own CLM loads every element, in 136 cycles; AST
stores the rows in the chosen format with their flags, in 8 and 32 for each byte of an element. Until then the accumulator is
being moved, which the berth's wait says, and the answer that ends the wait acts behind everything else of that time's last cycle. -/
def Sys2Proof.Spec.AccumulatorMemory : Prop :=
  ∀ (s : State) (c : BitVec 3) (a : BitVec 5) (sc : BitVec 1) (r : BitVec 3) (f : BitVec 4) (off : Nat),
    let n := c.toNat
    let acc := s.myCore.acc n
    let e := (astFmt f.toNat).2
    s.owns n = true → s.accBusy s.rank n = false → Ready s [a] 0 → (s.rx a).toNat = 14 * 2 ^ 48 + off → 0x8000 ≤ off → off % 128 = 0 →
    (off + 4096 ≤ 0x20000 → poisonRows s s.rank off 32 = 0 →
      let v := BitVec.ofNat 32768 (accOf (fun i => BitVec.ofNat 1024 (s.readN (here s off) 4096 / 2 ^ (1024 * i))) 32)
      exec (.ald c a) s = .next (((s.modMyCore fun k => k.setAcc n { acc with data := v, pois := 0 }).moor.answeredLast 136 { srcs := [a] }).noteIssued fun i => { i with acc := some n })) ∧
    (off + 1024 * e ≤ 0x20000 → Settled s off (1024 * e) →
      let out := astRows s off e acc.pois (fun i => astRow (fun j => astElem s (astFmt f.toNat).1 e (rmField s.env r.toNat) (sc == 1) (s.rx a) acc i j) e 32) 32 s
      exec (.ast c a sc r f) s = .next (((out.1.flag out.2).moor.answeredLast (8 + 32 * e) { srcs := [a] }).noteIssued fun i => { i with acc := some n }))

/-- R57, R133, R136, R138, R143: BLD and TLDT of an operand in the core's own CLM into a half that may be filled start the fill, and
wait for a half that may not; the half is the one chosen at issue, also after a wait. When its time has run the half is FULL
with the source's tile, as it lies there or, for TLDT, each step's tile transposed, its scale words with bits 31 to 20 zero (R57),
its descriptor and its poison; a half's bytes beyond the tile stand. BSTAT reads the latch state and clears STALL. -/
def Sys2Proof.Spec.LatchFills : Prop :=
  ∀ (s : State) (a b d : BitVec 5) (off : Nat),
    let w := (s.rx b).toNat % 128
    let c := s.myCore
    let h := fillTarget s w
    let fills (i : Instr) (tr : Bool) : Prop :=
      (s.mayFill s.rank h s.issueSeq = true → exec i s = .next (((s.modMyCore fun k => k.setHalf h { k.half h with
        st := .filling, fill := some (s.berth, off, w64 (w % 64), s.startAt + descBytes w / 32, tr) }).pops [a, b]).moor.next)) ∧
      (s.mayFill s.rank h s.issueSeq = false → exec i s = .next ((s.moor.block (.fill h)).noteIssued fun x =>
        { x with latch := .fill (some h), reads := [(off, descBytes w)] }))
    (s.myWait = none → h = if w / 64 = 0 then c.curh else 1 - c.curh) ∧
    (∀ k, s.myWait = some k → h = if w / 64 = 0 then k.issued.half else 1 - k.issued.half) ∧
    (∀ y k, s.myWait = none → (s.block y).myWait = some k → k.issued.half = c.curh) ∧
    (∀ y j k, s.myWait = some j → (s.block y).myWait = some k → k.issued.half = j.issued.half) ∧
    (Ready s [a, b] 0 → (s.rx a).toNat = 14 * 2 ^ 48 + off → 0x8000 ≤ off → off % 128 = 0 → off + descBytes w ≤ 0x20000 →
      fills (.bld a b) false ∧ fills (.tldt a b) true) ∧
    (Ready s [] d → exec (.bstat d) s = .next (wrote (s.modMyCore fun k => { k with stall := false }) [] d (bstatWord c))) ∧
    (∀ r k own src dw due tr, ((s.core r).half k).fill = some (own, src, dw, due, tr) → ∃ t, exec (.latchFillDone r k) s = .next t ∧
      let old := (s.core r).half k
      let new := (t.core r).half k
      let desc := dw.toNat
      let n := descN desc
      let sb := descSb desc
      let raw := s.readN (.clm r src) (n * sb)
      new.st = .full ∧ new.fill = none ∧ new.desc = BitVec.ofNat 6 desc ∧ new.pois = s.anyPoison (.clm r src) (descBytes desc) ∧ t.mem = s.mem ∧
      new.data.toNat / 2 ^ (8 * n * sb) = old.data.toNat / 2 ^ (8 * n * sb) ∧
      (tr = false → new.data.toNat % 2 ^ (8 * n * sb) = raw) ∧
      (tr = true → ∀ i j st, i < 32 → j < 32 → st < n →
        piece new.data.toNat (sb / 128) (1024 * st + 32 * j + i) = piece raw (sb / 128) (1024 * st + 32 * i + j)) ∧
      (descSc desc = false → new.scales = old.scales) ∧
      (descSc desc = true → (∀ i, i < 32 * n → piece new.scales.toNat 32 i = piece (s.readN (.clm r (src + n * sb)) (128 * n)) 32 i % 2 ^ 20) ∧
        new.scales.toNat / 2 ^ (1024 * n) = old.scales.toNat / 2 ^ (1024 * n))) ∧
    (∀ r k, ((s.core r).half k).fill = none → exec (.latchFillDone r k) s = .next s)

/-- R133, R137: a BROT that finds none outstanding is the core's outstanding one; the ring form asks for its send, unless SDONE
says that this is done. With its incoming half FULL, and no earlier fill of it waiting, it swaps the halves at its write-back,
behind everything else of that cycle, and completes; the old one is FILLING while a fill runs into it, DRAINING while an MMA bound
to it or a send of it is outstanding, and EMPTY otherwise. It waits otherwise, and behind another BROT of its core, outstanding or
issued before it. -/
def Sys2Proof.Spec.LatchSwaps : Prop :=
  ∀ (s : State) (a : BitVec 5), Ready s [a] 0 →
    let c := s.myCore
    let ring := a == 0 || !(s.rx a).getLsbD 0
    let v := swapHalves s s.rank
    let marked (t : State) : State := t.noteIssued fun i => { i with latch := .brot }
    (myBrot s = false → c.brot ≠ none ∨ brotBefore s = true → exec (.brot a) s = .next ((s.moor.block .brot).noteIssued fun i => { i with latch := .brot, reads := [] })) ∧
    (c.brot = none → brotBefore s = false → (c.half (1 - c.curh)).st ≠ .full →
      exec (.brot a) s = .next (marked ((openBrot s ring).moor.block .brot))) ∧
    ((openBrot s ring).myCore.sends = if ring = true ∧ c.sdone = false then c.sends ++ [⟨c.curh, s.issueSeq, false, none⟩] else c.sends) ∧
    (c.brot = none → brotBefore s = false → (c.half (1 - c.curh)).st = .full → s.fillBefore s.rank (1 - c.curh) s.issueSeq = false →
      exec (.brot a) s = .next (marked ((openBrot s ring).moor.atWriteBack { srcs := [a], brot := true }))) ∧
    (∀ r b w, b ≠ 16 → (s.berthAt r b).drowsy = false → (s.berthAt r b).wait = some w →
      w.reply = some { srcs := [a], brot := true, past := true } → w.issued.acc = none →
      let t : State := { s.as r b with cycle := s.cycle - 1 }
      exec (.replyArrival r b) s = .next (({ ((swapHalves t r).pops [a]).next with cycle := s.cycle } : State).back s)) ∧
    (c.curh < 2 → v.myCore.curh = 1 - c.curh ∧ v.myCore.brot = none ∧ v.mem = s.mem ∧
      (v.myCore.half (1 - c.curh)).st = (c.half (1 - c.curh)).st ∧
      (v.myCore.half c.curh).st = (if (c.half c.curh).fill.isSome = true then .filling
        else if s.halfBound s.rank c.curh = true ∨ s.halfSending s.rank c.curh = true then .draining else .empty))

/-- R57, R137: a ring send whose half holds its contents, and whose successor's incoming half is EMPTY, runs for the tile's time and 4
cycles and marks that half as FILLING; when its time has run that half is FULL with the sender's tile, scale words,
descriptor and poison, bits 31 to 20 of each scale word zero, and the sender's half, if it was DRAINING and nothing else is outstanding on it, is EMPTY. -/
def Sys2Proof.Spec.LatchRing : Prop :=
  ∀ (s : State) (r : Nat) (e : Send) (l : List Send), r ≠ ringNext r → (s.core r).sends = e :: l →
    let src := (s.core r).half e.half
    let n := descN src.desc.toNat
    let bits := 8 * n * descSb src.desc.toNat
    let k := 1 - (s.core (ringNext r)).curh
    let old := (s.core (ringNext r)).half k
    (ringSendReady s r = true → ∃ t, exec (.ringSend r) s = .next t ∧
      (t.core r).sends = { e with till := some (s.cycle + descBytes src.desc.toNat / 32 + 4) } :: l ∧
      (t.core (ringNext r)).recv = true ∧ ((t.core (ringNext r)).half k).st = .filling) ∧
    (ringSendReady s r = false → exec (.ringSend r) s = .next s) ∧
    (e.till ≠ none → ∃ t, exec (.ringTransferDone r) s = .next t ∧ (t.core r).sends = l ∧ (t.core (ringNext r)).recv = false ∧
      let got := (t.core (ringNext r)).half k
      got.st = .full ∧ got.desc = src.desc ∧ got.pois = src.pois ∧
      got.data.toNat % 2 ^ bits = src.data.toNat % 2 ^ bits ∧ got.data.toNat / 2 ^ bits = old.data.toNat / 2 ^ bits ∧
      (descSc src.desc.toNat = true → (∀ i, i < 32 * n → piece got.scales.toNat 32 i = piece src.scales.toNat 32 i % 2 ^ 20) ∧
        got.scales.toNat / 2 ^ (1024 * n) = old.scales.toNat / 2 ^ (1024 * n)) ∧
      (descSc src.desc.toNat = false → got.scales = old.scales) ∧
      (src.st = .draining → s.halfBound r e.half = false → (l.any fun q => q.half == e.half) = false →
        ((t.core r).half e.half).st = .empty)) ∧
    (e.till = none → exec (.ringTransferDone r) s = .next s)

/-- R61, R123, R124, R139, R140, R141: an MMA into an owned accumulator, with its operands in the core's own CLM and no MMA of
the same accumulator still waiting to start, joins the matrix unit's queue with its operands as read, its format, and the current
half and the tables of its issue, to start 8 cycles after its issue at the earliest. With the poison trap off the berth, or the
repetition buffer, goes on; with it on it waits for the unit's answer. Where such an MMA waits to start, this one waits, bound to
that half and those tables; into an accumulator the berth does not own it traps ILL with its word in TVAL, and a half that it has bound
while it waited may drain. The queue keeps the
order of issue: an MMA that has waited enters before those that issued later and have not started. -/
def Sys2Proof.Spec.MmaIssue : Prop :=
  (∀ (s : State) (c : BitVec 3) (a sc : BitVec 5) (n t : BitVec 1) (k : BitVec 3) (off soff : Nat),
    let bound : Nat × DTab × DTab := match s.myWait with
      | none => (s.myCore.curh, s.myCore.dt0, s.myCore.dt1)
      | some y => (y.issued.half, y.issued.t0, y.issued.t1)
    let ready (w : Nat) (scaled : Bool) : Prop := s.owns c.toNat = true ∧ Ready s (if scaled then [a, sc] else [a]) 0 ∧
      (s.rx a).toNat = 14 * 2 ^ 48 + off ∧ 0x8000 ≤ off ∧ off % 128 = 0 ∧ off + (k.toNat + 1) * 128 * w ≤ 0x20000 ∧
      (scaled = true → (s.rx sc).toNat = 14 * 2 ^ 48 + soff ∧ 0x8000 ≤ soff ∧ soff % 128 = 0 ∧ soff + 128 * (k.toNat + 1) ≤ 0x20000)
    let joins (i : Instr) (fmt w : Nat) (scaled : Bool) : Prop :=
      (accQueued s c.toNat = true → exec i s = .next ((s.moor.block (.mma bound.1 bound.2.1 bound.2.2)).noteIssued fun x =>
        { x with latch := .mma, reads := (off, (k.toNat + 1) * 128 * w) :: if scaled then [(soff, 128 * (k.toNat + 1))] else [] })) ∧
      (accQueued s c.toNat = false →
        let m : Mma := {
          fmt := fmt, acc := c.toNat, berth := s.berth, a := s.rx a, sc := if scaled then s.rx sc else 0, n := k.toNat + 1
          ta := t == 1, neg := n == 1, half := bound.1, seq := s.issueSeq, ready := s.startAt, st := 0, due := 0, pois := 0
          first := none, t0 := bound.2.1, t1 := bound.2.2, wide := s.me.pte
          bufAt := if s.buffered then s.myCore.buffer.map fun q => (wordAt q.blk q.blk.idx, q.blk.k, q.blk.idx) else none }
        let u := ((s.modMyCore fun x => { x with mq := enqueueMma m x.mq }).pops (if scaled then [a, sc] else [a])).moor
        exec i s = .next (if s.me.pte then (u.await .slow).noteIssued fun x => { x with latch := .none, reads := [] } else u.next))
    (ready 16 false → joins (.mmaBf c a n t k) 0 16 false ∧ joins (.mmaHf c a n t k) 1 16 false) ∧
    (ready 8 false → joins (.mmaE4 c a n t k) 2 8 false ∧ joins (.mmaE45 c a n t k) 3 8 false ∧ joins (.mmaE5 c a n t k) 4 8 false ∧
      joins (.mmaI8 c a n t k) 8 8 false) ∧
    (ready 8 true → joins (.mmaX8 c a sc n t k) 5 8 true ∧ joins (.mmaX84 c a sc n t k) 6 8 true) ∧
    (ready 4 true → joins (.mmaX4 c a sc n t k) 7 4 true) ∧
    (s.owns c.toNat = false → s.buffered = false → ∀ i ∈ [Instr.mmaBf c a n t k, .mmaHf c a n t k, .mmaE4 c a n t k, .mmaE45 c a n t k,
        .mmaE5 c a n t k, .mmaI8 c a n t k, .mmaX8 c a sc n t k, .mmaX84 c a sc n t k, .mmaX4 c a sc n t k],
      exec i s = .next ((trapped s .ill ((encode i).setWidth 64)).drainAfter s.rank s.myWait))) ∧
  (∀ (m : Mma) (q : List Mma), ∃ before after, q = before ++ after ∧ enqueueMma m q = before ++ m :: after ∧
    (∀ e ∈ before, e.seq ≤ m.seq ∨ e.st ≠ 0 ∨ e.due ≠ 0) ∧ (∀ e, after.head? = some e → m.seq < e.seq ∧ e.st = 0 ∧ e.due = 0))

/-- R69, R124, R140, R141: the completion of a step replaces every element of the accumulator by `mmaElem` of the step's A rows,
the half's tile and the element's old value. One that is not an MMA's last moves the queue's head to its next step, with the
rows that have read poison so far; the last one takes the MMA off the queue, and a row that read poison, or that was poisoned
before, holds the canonical NaN in every element and has its mask bit set. With the poison trap enabled its berth, or the
repetition buffer, is answered, and traps POISON if a row read poison; TVAL is the address of the first poisoned unit, or all ones
when only the latch was poisoned. Which unit is the first within a step is the model's choice (log 66). -/
def Sys2Proof.Spec.MmaSteps : Prop :=
  ∀ (s : State) (r : Nat) (m : Mma) (rest : List Mma), (s.core r).mq = m :: rest → mmaDue s r = true → m.due ≠ 0 → m.acc < 8 →
    let w := mmaBitsA m.fmt
    let half := (s.core r).half m.half
    let old := (s.core r).acc m.acc
    let aOff := m.a.toNat % 2 ^ 17 + 128 * w * m.st
    let sOff := m.sc.toNat % 2 ^ 17 + 128 * m.st
    let a := s.readN (.clm r aOff) (128 * w)
    let b := half.data.toNat / 2 ^ (1024 * mmaBitsB m.fmt * m.st)
    let sa := if mmaScaled m.fmt then s.readN (.clm r sOff) 128 else 0
    let sb := half.scales.toNat / 2 ^ (1024 * m.st)
    let elem := fun i j => mmaElem m a b sa sb (accElem old.data i j) i j
    let unitA := ∃ u, u < 16 * w ∧ s.poisoned (.clm r (aOff + 8 * u)) = true
    let unitS := ∃ u, u < 16 ∧ s.poisoned (.clm r (sOff + 8 * u)) = true
    let bad := fun (i : Nat) => m.pois.getLsbD i = true ∨ half.pois = true ∨
      (∃ k, k < 32 ∧ s.poisoned (.clm r (aOff + w * (if m.ta then 32 * k + i else 32 * i + k) / 8)) = true) ∨
      (mmaScaled m.fmt = true ∧ s.poisoned (.clm r (sOff + 4 * i)) = true)
    let does (t : State) : Prop := exec (.mmaStep r) s = .next t ∧ t.mem = s.mem ∧ (∀ n, n ≠ m.acc → (t.core r).acc n = (s.core r).acc n)
    (m.st + 1 < m.n → ∃ t m', does t ∧ (∀ i j, i < 32 → j < 32 → accElem ((t.core r).acc m.acc).data i j = elem i j) ∧
      ((t.core r).acc m.acc).pois = old.pois ∧ (t.core r).mq = m' :: rest ∧ m'.st = m.st + 1 ∧ m'.acc = m.acc ∧ m'.half = m.half ∧
      ∀ i, i < 32 → (m'.pois.getLsbD i = true ↔ bad i)) ∧
    (m.n ≤ m.st + 1 → ∃ t, does t ∧ (t.core r).mq.map Mma.seq = rest.map Mma.seq ∧
      (∀ i, i < 32 → (((t.core r).acc m.acc).pois.getLsbD i = true ↔ old.pois.getLsbD i = true ∨ bad i)) ∧
      (∀ i j, i < 32 → j < 32 → accElem ((t.core r).acc m.acc).data i j =
        if ((t.core r).acc m.acc).pois.getLsbD i = true then 0x7FC00000 else elem i j) ∧
      (m.wide = true → ∃ (u : State) (tr : Option (Cause × Word)),
        t = mmaStart (u.reply r (if m.bufAt.isSome then 16 else m.berth) { trap := tr, past := true }) r ∧
        ((∀ i, i < 32 → ¬ bad i) → tr = none) ∧
        ((∃ i, i < 32 ∧ bad i) → ∃ x, tr = some (.poison, x) ∧ (∀ y, m.first = some y → x = y) ∧
          (m.first = none → ¬ unitA → (mmaScaled m.fmt = true → ¬ unitS) → x = 0xFFFFFFFFFFFFFFFF) ∧
          (m.first = none → unitA → ∃ u, u < 16 * w ∧ s.poisoned (.clm r (aOff + 8 * u)) = true ∧
            (∀ v, v < u → s.poisoned (.clm r (aOff + 8 * v)) = false) ∧ x = m.a + w64 (128 * w * m.st + 8 * u)))))

/-- R137, R294: a BROT that has waited longer than the core's timeout is recorded in STALL; with BSTE clear the berth goes
on waiting for the same thing, and with BSTE set it traps BARSTALL, whose TVAL the rules leave open: the latch's status (DESIGN
CHOICE, log 22). Nothing happens where none has. -/
def Sys2Proof.Spec.BrotTimeouts : Prop :=
  ∀ (s : State) (r b : Nat), (brotStalled s r = none → exec (.brotTimeout r) s = .next s) ∧
    (brotStalled s r = some b → ∃ t, exec (.brotTimeout r) s = .next t ∧ (t.core r).stall = true ∧ t.mem = s.mem ∧
      ((s.core r).probecfg.getLsbD 1 = false → (t.berthAt r b).pc = (s.berthAt r b).pc ∧
        (t.berthAt r b).wait.map Wait.why = (s.berthAt r b).wait.map Wait.why ∧
        (t.core r).brot.map Brot.berth = (s.core r).brot.map Brot.berth ∧ (t.core r).sends = (s.core r).sends) ∧
      ((s.core r).probecfg.getLsbD 1 = true → (∀ k, (s.core r).brot = some k → k.buffered = false) →
        (t.berthAt r b).tcause = 12 ∧ (t.berthAt r b).tval = bstatWord { s.core r with stall := true } ∧ (t.berthAt r b).wait = none))

def Obligations.AccumulatorInstructions : Prop := Spec.Accumulators ∧ Spec.AccumulatorMemory
def Obligations.LatchFillsAndRing : Prop := Spec.LatchFills ∧ Spec.LatchSwaps ∧ Spec.LatchRing ∧ Spec.BrotTimeouts
def Obligations.MmaQueuesAndSteps : Prop := Spec.MmaIssue ∧ Spec.MmaSteps

/-! ### Channels, probes, barriers and the sluice -/

/-- R209, R211, R306: CHBIND of a free local port to a place of the launch binds it, empty, to the far port it names, and moors;
a port that is bound traps CHAN, whatever the place names: that order of checks is the model's reading (DEDUCED, log 24). CHFREE
of an inbound port, or of an outbound one whose entries are delivered, unbinds it with notice given and moors, and waits for
their delivery otherwise; an unbound port traps CHAN. CHSTAT reads the status word, which is 0 for an unbound port. On a stopped
core each of them traps CHAN. -/
def Sys2Proof.Spec.Channels : Prop :=
  ∀ (s : State) (l : BitVec 3) (f : BitVec 2) (d a : BitVec 5) (p : BitVec 15),
    (s.myCore.shut = true → s.buffered = false →
      (a.toNat < 24 → exec (.chbind l f a p) s = .next (trapped s .chan (w64 (24 + l.toNat)))) ∧
      exec (.chfree a) s = .next (trapped s .chan (a.setWidth 64)) ∧
      (d.toNat < 24 → exec (.chstat d a) s = .next (trapped s .chan (a.setWidth 64)))) ∧ (s.myCore.shut = false →
    let q := port s.me (a.toNat - 24)
    let dy := if fieldInd p then wordDy (s.rx a) else fieldDy p
    let dx := if fieldInd p then wordDx (s.rx a) else fieldDx p
    (∀ r, Ready s [a] 0 → (port s.me l.toNat).bound = false → placeRank s.rank dy dx = some r → s.inRect s.me.lid r = true →
      exec (.chbind l f a p) s = .next (((s.pops [a]).modPort s.rank s.berth l.toNat fun _ =>
        ⟨true, r, (s.rx a).toNat % 16, (if l.toNat < 4 then 4 else 0) + f.toNat, false, [], 0, []⟩).moor.next)) ∧
    (Ready s [a] 0 → (port s.me l.toNat).bound = true → s.buffered = false →
      exec (.chbind l f a p) s = .next (trapped s .chan (w64 (24 + l.toNat)))) ∧
    (q.bound = true → (a.toNat - 24 < 4 ∨ q.undel = 0) → exec (.chfree a) s = .next ((s.freePort s.rank s.berth (a.toNat - 24)).moor.next)) ∧
    (q.bound = true → 4 ≤ a.toNat - 24 → 0 < q.undel → exec (.chfree a) s = .next (s.block .slow)) ∧
    (q.bound = false → s.buffered = false → exec (.chfree a) s = .next (trapped s .chan (a.setWidth 64))) ∧
    (OutReady s d → exec (.chstat d a) s = .next (wrote s.moor [] d (chanWord s s.rank s.berth (a.toNat - 24)))) ∧
    (q.bound = false → chanWord s s.rank s.berth (a.toNat - 24) = 0))

/-- R25, R179, R210, R211: a push moors, counts as sent and as undelivered, and leaves every port's queue as it is: the entry
reaches the far port 2h + 9 cycles after the write-back, or at it on the same core. A pop takes the oldest entry of its port and
moors; until the write-back that entry counts as held, and then no longer. -/
def Sys2Proof.Spec.Pushes : Prop :=
  ∀ (s : State) (p : Nat) (v : Word), p < 8 →
    let q := port s.me p
    let t := s.push p v
    (s.cycle + (s.leaveIn + if q.frank = s.rank then 0 else 2 * hops s.rank q.frank + 9),
      .channelEntryArrival q.frank q.fberth q.fport s.rank s.berth p s.me.lid v) ∈ t.agenda ∧
    (port t.me p).undel = q.undel + 1 ∧ t.me.moored = true ∧ (∀ r b k, (port (t.berthAt r b) k).q = (port (s.berthAt r b) k).q) ∧
    (t.counts s.rank s.me.lid).sent = (s.counts s.rank s.me.lid).sent + 1 ∧
    (∀ r : BitVec 5, r.toNat = 24 + p → q.q ≠ [] →
      let u := s.pop r
      (port u.me p).q = q.q.tail ∧ u.me.moored = true ∧ (0 < s.leaveIn → s.entries (port u.me p) = s.entries q) ∧
      ∀ c, s.cycle + s.leaveIn ≤ c →
        ({ s with cycle := c } : State).entries (port u.me p) = q.q.tail.length + (q.leaving.filter fun k => decide (c < k)).length)

/-- R210, R211: an entry that arrives at a port bound to its sender joins that port's queue, and the sender's count of
undelivered entries falls; at any other port it is discarded, and counted as received. A freed notice marks the port
bound to its sender and no other. -/
def Sys2Proof.Spec.ChannelMessages : Prop :=
  ∀ (s : State) (r b p fr fb fp lid : Nat) (v : BitVec 64), p < 8 → fp < 8 →
    (s.boundTo r b p fr fb fp = true → ∃ t, exec (.channelEntryArrival r b p fr fb fp lid v) s = .next t ∧
      (port (t.berthAt r b) p).q = (port (s.berthAt r b) p).q ++ [v] ∧ (s.boundTo fr fb fp r b p = true →
        (port (t.berthAt fr fb) fp).undel = (port (s.berthAt fr fb) fp).undel - 1)) ∧
    (s.boundTo r b p fr fb fp = false → s.boundTo fr fb fp r b p = false →
      exec (.channelEntryArrival r b p fr fb fp lid v) s = .next (s.incRecv r lid)) ∧
    (exec (.channelFreedNotice r b p fr fb fp) s = .next (if s.boundTo r b p fr fb fp = true
      then s.modPort r b p (fun q => { q with freed := true }) else s))

def Obligations.ChannelBindingAndEntries : Prop := Spec.Channels ∧ Spec.Pushes ∧ Spec.ChannelMessages

/-- R212, R294: a blocked berth sends a probe along its wait-for edge, that of its own wait or of its word in the repetition
buffer, once the wait passes the threshold; a blocked berth forwards a probe with its identifier added, up to sixteen; a berth
that is not blocked discards it; the probe's origin traps DEADLOCK, with the record in its save slot, and the word of a
repetition buffer stops the buffer for it. -/
def Obligations.DeadlockProbes : Prop :=
  ∀ (s : State) (r b : Nat) (ids : List (BitVec 32)),
    (probeDue s r b = false → exec (.deadlockProbeSend r b) s = .next s) ∧
    (∀ w fr fb, probeDue s r b = true → blockedOn s r b = some (w, (fr, fb), false) → exec (.deadlockProbeSend r b) s =
      .next ((s.modBerth r b fun t => { t with wait := t.wait.map fun w => { w with probed := s.cycle } }).later
        (2 * hops r fr + 9) (.deadlockProbeReceive fr fb [probeId r b]))) ∧
    (∀ w fr fb, probeDue s r b = true → blockedOn s r b = some (w, (fr, fb), true) → exec (.deadlockProbeSend r b) s =
      .next ((s.modCore r fun c => { c with buffer := c.buffer.map fun q => { q with wait := q.wait.map fun w => { w with probed := s.cycle } } }).later
        (2 * hops r fr + 9) (.deadlockProbeReceive fr fb [probeId r b]))) ∧
    (waitEdge s r b = none → exec (.deadlockProbeReceive r b ids) s = .next s) ∧
    (∀ fr fb, waitEdge s r b = some (fr, fb) → ids.head? ≠ some (probeId r b) →
      exec (.deadlockProbeReceive r b ids) s = .next (if ids.length < 16
        then s.later (2 * hops r fr + 9) (.deadlockProbeReceive fr fb (ids ++ [probeId r b])) else s)) ∧
    (∀ w e, blockedOn s r b = some (w, e, true) → ids.head? = some (probeId r b) →
      ∃ t, exec (.deadlockProbeReceive r b ids) s = .next t ∧ (t.core r).buffer = none ∧
        (t.berthAt r b).bufTrap.map BufTrap.cause = some .deadlock) ∧
    (∀ w e, blockedOn s r b = some (w, e, false) → ids.head? = some (probeId r b) → ids.length ≤ 16 → b < 16 → s.memOk →
      ∃ t, exec (.deadlockProbeReceive r b ids) s = .next t ∧ (t.berthAt r b).tcause = Cause.deadlock.word ∧
        (t.berthAt r b).tval = w64 (256 * b + 184) ∧ (t.berthAt r b).tpc = (s.berthAt r b).pc ∧ (t.berthAt r b).user = false ∧
        (t.berthAt r b).wait = none ∧ t.rank = s.rank ∧ t.berth = s.berth ∧
        t.readN (.clm r (256 * b + 184)) 8 = ids.length ∧
        ∀ k (h : k < ids.length), t.readN (.clm r (256 * b + 192 + 4 * k)) 4 = ids[k].toNat)

/-- R179, R214, R215: with its release done CBAR's arrival leaves for the barrier unit, 6 cycles away, and the berth waits. A request of CBARCFG
reaches the unit 6 cycles after its write-back; there it sets the count, at once when nobody has arrived and after the generation
otherwise, and reads the old state, which the reply brings in 6 cycles more; a count of 0 or above 256 traps ILL with its word in TVAL. -/
def Sys2Proof.Spec.BarrierInstructions : Prop :=
  ∀ (s : State) (d a : BitVec 5) (im : BitVec 4),
    let cl := clusterOf s.rank
    let k := barrier (s.cluster cl) im.toNat
    let n := (s.rx a).toNat % 512
    (∀ u : State, s.releasing = .ok u → exec (.cbar im) s = .next { (u.await (.barrier cl im.toNat)) with
      agenda := insertArrival (u.await (.barrier cl im.toNat)).agenda (s.cycle + s.leaveIn + 6) cl im.toNat s.rank s.berth }) ∧
    (∀ u, s.releasing = .error (.gone u) → exec (.cbar im) s = .next u) ∧
    (∀ y, s.releasing = .error (.wait y) → exec (.cbar im) s = .next (s.block y)) ∧
    (Ready s [a] d → 1 ≤ n → n ≤ 256 →
      ((∀ w t, s.myWait = some w → w.why ≠ .remote t) → exec (.cbarcfg d a im) s = .next (s.block (.remote (s.cycle + s.leaveIn + 6)))) ∧
      (∀ w t, s.myWait = some w → w.why = .remote t →
        (s.cycle < t → exec (.cbarcfg d a im) s = .next (s.block (.remote t))) ∧
        (t ≤ s.cycle → exec (.cbarcfg d a im) s = .next (wrote (modBarrier s cl im.toNat fun k =>
          if k.arr = 0 then { k with count := n, pendCount := none } else { k with pendCount := some n }) [a] d (barWord k) 15)))) ∧
    (Ready s [a] d → s.buffered = false → n = 0 ∨ 256 < n →
      exec (.cbarcfg d a im) s = .next (trapped s .ill ((encode (.cbarcfg d a im)).setWidth 64)))

/-- R215: an arrival of a berth that waits at the barrier joins its waiters; the one that completes the generation clears
the count of arrivals, flips GEN, puts a pending count into effect, and every waiter gets its reply. An arrival of a
berth that no longer waits changes nothing. A waiter past its timeout counts in STALLS once for the generation; with BSTE set
the waiters of its core are withdrawn and trap BARSTALL, those that come later in that generation too. -/
def Sys2Proof.Spec.BarrierArrivals : Prop :=
  ∀ (s : State) (cl id r b : Nat), id < 16 →
    let k := barrier (s.cluster cl) id
    (atBarrier s r b cl id = false → exec (.barrierArrival cl id r b) s = .next s) ∧
    (atBarrier s r b cl id = true → (r, b) ∉ k.waiters → k.arr + 1 < k.count → exec (.barrierArrival cl id r b) s =
      .next (modBarrier s cl id fun k => { k with arr := k.arr + 1, waiters := k.waiters ++ [(r, b)] })) ∧
    (atBarrier s r b cl id = true → (r, b) ∉ k.waiters → k.count ≤ k.arr + 1 →
      ∃ t, exec (.barrierArrival cl id r b) s = .next t ∧
        (let j := barrier (t.cluster cl) id
         j.arr = 0 ∧ j.gen = !k.gen ∧ j.waiters = [] ∧ j.stalls = k.stalls ∧ j.pendCount = none ∧ j.count = k.pendCount.getD k.count) ∧
        (∀ e ∈ k.waiters ++ [(r, b)], e.2 ≠ 16 → (s.berthAt e.1 e.2).wait ≠ none → ∃ w q, (t.berthAt e.1 e.2).wait = some w ∧ w.reply = some q ∧
          q.acquire = true ∧ q.trap = none)) ∧
    (barrierStalled s cl id = false → exec (.barrierTimeout cl id) s = .next s) ∧
    (barrierStalled s cl id = true → (∀ e ∈ k.waiters, (s.core e.1).probecfg.getLsbD 1 = false) →
      exec (.barrierTimeout cl id) s = .next (modBarrier s cl id fun k => { k with stalled := true, stalls := min 255 (k.stalls + 1) })) ∧
    (∀ e, barrierStalled s cl id = true → k.waiters = [e] → (s.core e.1).probecfg.getLsbD 1 = true →
      ∃ t, exec (.barrierTimeout cl id) s = .next t ∧ (t.berthAt e.1 e.2).tcause = Cause.barstall.word ∧
        (t.berthAt e.1 e.2).user = false ∧ (barrier (t.cluster cl) id).waiters = [] ∧
        (barrier (t.cluster cl) id).stalls = if k.stalled = true then k.stalls else min 255 (k.stalls + 1))

def Obligations.BarrierGenerations : Prop := Spec.BarrierInstructions ∧ Spec.BarrierArrivals

/-- R217 to R219: SLU.COPY and SLU.FILL over the core's own CLM with a free command slot nobody has waited longer for take
the slot and give its tag, with E set behind a release; a misaligned destination traps ALIGN first (the order of these checks is
DEDUCED, log 24); SLU.STAT reads a command's state by its tag, or
STALE, when its request has come to the sluice, 6 cycles and twice the hops away; SLU.CAN stops a queued or running one. -/
def Sys2Proof.Spec.SluiceInstructions : Prop :=
  ∀ (s u : State) (d a b : BitVec 5) (f e : BitVec 1) (n off src : Nat), (if e = 1 then s.releasing = .ok u else u = s) →
    let cl := clusterOf s.rank
    let c := s.cluster cl
    let len := (s.rx d).toNat % 2 ^ 32
    let cmd (fill : Option Word) : Slu := ⟨c.sluSeq, if len = 0 then .done else .queued, fill, s.rx a, s.rx b, len, 0, f == 1, s.rank,
      s.me.lid, s.who.asid, s.me.user, c.sluOrder, s.devsOf s.me.lid⟩
    let queued (fill : Option Word) (c : Cluster) : Cluster :=
      { c with slu := alSet c.slu n (cmd fill), sluSeq := (c.sluSeq + 1) % 65536, sluOrder := c.sluOrder + 1 }
    let takes (fill : Option Word) : Host.Outcome State Fault Refusal :=
      .next (wrote (u.modCluster cl (queued fill)) [a, b] d (sluTag cl c.sluSeq n))
    let at14 (v : Word) (o : Nat) : Prop := v.toNat = 14 * 2 ^ 48 + o ∧ 0x8000 ≤ o ∧ o + len ≤ 0x20000 ∧ o % 8 = 0 ∧ o < 0x20000
    (Ready s [a, b] 0 → at14 (s.rx a) off → at14 (s.rx b) src → len % 8 = 0 → sluSlot c = some n → s.earlier (.slot cl) = false →
      exec (.sluCopy d a b f e) s = takes none) ∧
    (Ready s [a, b] 0 → at14 (s.rx a) off → len % 8 = 0 → sluSlot c = some n → s.earlier (.slot cl) = false →
      exec (.sluFill d a b f e) s = takes (some (s.rx b))) ∧
    (Ready s [a, b] 0 → s.buffered = false → (s.rx a).toNat % 8 ≠ 0 →
      exec (.sluCopy d a b f e) s = .next (trapped s .align (s.rx a)) ∧ exec (.sluFill d a b f e) s = .next (trapped s .align (s.rx a))) ∧
    (Ready s [a] d →
      let way := 6 + 2 * if (s.rx a).toNat / 2 ^ 22 % 2 ^ 10 < 576 then clusterHops cl ((s.rx a).toNat / 2 ^ 22 % 2 ^ 10) else 0
      ((∀ w t, s.myWait = some w → w.why ≠ .remote t) → exec (.sluStat d a) s = .next (s.block (.remote (s.cycle + s.leaveIn + way)))) ∧
      (∀ w t, s.myWait = some w → w.why = .remote t →
        (s.cycle < t → exec (.sluStat d a) s = .next (s.block (.remote t))) ∧
        (t ≤ s.cycle → exec (.sluStat d a) s =
          .next (wrote s [a] d (match sluFind s (s.rx a) with | some (_, _, k) => sluWord k | none => 6) (9 + way))))) ∧
    (Ready s [a] 0 → sluFind s (s.rx a) = none → exec (.sluCan a) s = .next ((s.pops [a]).next)) ∧
    (∀ g i k, Ready s [a] 0 → sluFind s (s.rx a) = some (g, i, k) → k.st = .queued ∨ k.st = .running → exec (.sluCan a) s =
      .next (((s.pops [a]).modCluster g fun c => { c with slu := alSet c.slu i { k with st := .cancelled } }).next))

/-- R218: one burst of a FILL of at most 1 KiB on CLM writes the fill word to every unit of the range and to nothing else,
and the command is DONE. Nothing happens at a sluice with nothing due. -/
def Sys2Proof.Spec.SluiceBursts : Prop :=
  ∀ (s : State) (cl slot off : Nat) (c : Slu) (w : Word),
    (sluDue s cl = false → exec (.sluiceBurst cl) s = .next s) ∧
    ((s.cluster cl).slu = [(slot, c)] → c.st = .queued → c.fillW = some w → c.cursor = 0 → 0 < c.len → c.len % 8 = 0 → c.len ≤ 1024 →
      c.dst.toNat = 14 * 2 ^ 48 + off → 0x8000 ≤ off → off + c.len ≤ 0x20000 → off % 8 = 0 → (s.cluster cl).sluAt ≤ s.cycle →
      (s.held.any fun e => burstOf e.2 == some cl) = false → s.memOk →
      ∃ t k, exec (.sluiceBurst cl) s = .next t ∧ alGet (t.cluster cl).slu slot = some k ∧ k.st = .done ∧ k.cursor = c.len ∧ k.seq = c.seq ∧
        (∀ i < c.len / 8, t.readN (.clm c.rank (off + 8 * i)) 8 = w.toNat) ∧
        (∀ key, ¬ ((Loc.clm c.rank off).key ≤ key ∧ key < (Loc.clm c.rank off).key + c.len) → Memory.read t.mem key = Memory.read s.mem key) ∧
        t.cores = s.cores ∧ t.basin = s.basin)

def Obligations.SluiceCommandsAndBursts : Prop := Spec.SluiceInstructions ∧ Spec.SluiceBursts

/-! ### The net -/

namespace Sys2Proof.Spec
/-- A register that names node slot n of the core's own net store, aligned, live in the launch, unpoisoned (R233). -/
def OwnNode (s : State) (v : Word) (n : Nat) : Prop :=
  v.toNat = 15 * 2 ^ 48 + n ∧ n < 2 ^ 31 ∧ n % 64 = 0 ∧ netRank n = s.rank ∧ 0x8000 ≤ n % 131072 ∧ nodeOk s n = true
/-- An auxiliary port's word of such a slot. -/
def OwnAux (s : State) (f : Nat) : Prop :=
  f < 2 ^ 31 ∧ isAuxOff f = true ∧ netRank f = s.rank ∧ 0x8000 ≤ f % 131072 ∧ nodeOk s (f / 64 * 64) = true ∧ s.poisoned (netLoc f) = false
end Sys2Proof.Spec

/-- R237, R238, R246, R247, R250: ALLOC takes the top slot of the pool that serves it, the core's own while it has a free one, else
the one its broker chose, when its request is there, writes its header with the launch's LID and zeros to words 1 to 7, and gives
its place; a header kind of no node traps LINKERR; with no pool that has a slot it traps NETFULL. FREE of a live slot of the
core's own store gives it back; a slot of another core leaves a tomb, a header with another KIND, and, once that is acknowledged, a message. A broker's core is
reached half way in its 30 + 4h + 48n cycles (DESIGN CHOICE, log 26), and the tomb's write waits for no audit of its home (DESIGN CHOICE, log 83). -/
def Sys2Proof.Spec.Slots : Prop :=
  ∀ (s : State) (d a : BitVec 5) (p : Pool) (r asks i n : Nat) (rest : List Nat),
    let h := s.rx a
    let kind := h.toNat / 2 ^ 52
    let at0 := r * 131072 + 64 * (p.base + i)
    let hdr : Word := (h &&& 0xFFFFFFFF00000000) ||| w64 (s.me.lid * 65536)
    let taken := (s.modPool r s.me.lid fun p => { p with free := rest, used := nsAdd p.used i, count := p.count - 1 })
    let given := iter (fun k u => u.netWrite (at0 + 8 * k) (if k = 0 then hdr else 0)) 8 taken
    (Ready s [a] d → 1 ≤ kind → kind ≤ 4092 → poolBusy s s.rank s.me.lid = false →
      (s.pool s.rank s.me.lid = some p → p.free = i :: rest → allocCore s = some (s.rank, 0)) ∧
      (allocCore s = some (r, asks) → s.pool r s.me.lid = some p → p.free = i :: rest → p.busy ≤ s.cycle →
        (r = s.rank → exec (.alloc d a) s = .next (wrote given [a] d (placeAddr at0))) ∧
        (s.arrives r (15 + 2 * hops s.rank r + 24 * asks) = .ok () →
          exec (.alloc d a) s = .next (wrote given [a] d (placeAddr at0) (s.clmTime r))) ∧
        (r ≠ s.rank → s.myWait = none →
          exec (.alloc d a) s = .next (s.block (.remote (s.cycle + (15 + 2 * hops s.rank r + 24 * asks)))))) ∧
      (allocCore s = none → s.buffered = false → exec (.alloc d a) s = .next (trapped s .netfull 0))) ∧
    (Ready s [a] d → s.buffered = false → kind = 0 ∨ 4092 < kind → exec (.alloc d a) s = .next (trapped s .linkerr h)) ∧
    (Ready s [a] 0 → h.toNat = 15 * 2 ^ 48 + n → n < 2 ^ 31 → nodeOk s n = true → 1 ≤ (s.netRead n).toNat / 2 ^ 52 →
      (s.netRead n).toNat / 2 ^ 52 ≤ 4092 →
      (s.slotHeld n = true → exec (.free a) s = .next (s.block .link)) ∧
      (s.slotHeld n = false → netRank n = s.rank → poolBusy s s.rank s.me.lid = false →
        exec (.free a) s = .next (((freeLocal s s.me.lid n).pops [a]).next)) ∧
      (∀ q, s.slotHeld n = false → netRank n ≠ s.rank → s.pool (netRank n) s.me.lid = some q → s.atHome (netRank n) = .ok () →
        exec (.free a) s = .next ((((s.netWrite n (s.netRead n ||| 0xFFF0000000000000)).incSent s.rank s.me.lid).later (4 * hops s.rank (netRank n) + 14)
          (.freeSlotReturn (netRank n) (slotIx q n) ⟨s.me.lid, s.rank⟩)).done (s.clmTime (netRank n)) { srcs := [a] })))

/-- R237: after ALLOC at the core's own pool the slot's header carries the kind asked for and the launch's LID, and its
other seven words are zero. -/
def Sys2Proof.Spec.FreshNode : Prop :=
  ∀ (s t : State) (d a : BitVec 5) (p : Pool) (i : Nat) (rest : List Nat), s.memOk → a.toNat < 24 → d.toNat < 24 →
    1 ≤ (s.rx a).toNat / 2 ^ 52 → (s.rx a).toNat / 2 ^ 52 ≤ 4092 → s.pool s.rank s.me.lid = some p → p.free = i :: rest → p.busy ≤ s.cycle →
    512 ≤ p.base → i < p.slots → p.base + p.slots ≤ 2048 → exec (.alloc d a) s = .next t →
    let at0 := s.rank * 131072 + 64 * (p.base + i)
    (t.netRead at0).toNat / 2 ^ 52 = (s.rx a).toNat / 2 ^ 52 ∧ (t.netRead at0).toNat / 2 ^ 16 % 2 ^ 16 = s.me.lid % 2 ^ 16 ∧
    (∀ k, 1 ≤ k → k < 8 → t.netRead (at0 + 8 * k) = 0) ∧ (d ≠ 0 → t.rx d = placeAddr at0)

/-- R236, R239, R246: the register forms of the net: NSTAT of the own core, PORTP, PORTA and PORTN. -/
def Sys2Proof.Spec.PortWords : Prop :=
  ∀ (s : State) (d a b : BitVec 5) (k : BitVec 2) (n : Nat),
    (Ready s [a] d → s.rx a = 0 → s.rank < 9216 → s.inRect s.me.lid s.rank = true →
      exec (.nstat d a) s = .next (wrote s [a] d (netpool s s.rank s.me.lid))) ∧
    (Ready s [a] d → (s.rx a).toNat = 15 * 2 ^ 48 + n → n < 2 ^ 31 → n % 64 = 0 →
      exec (.portp d a) s = .next (wrote s [a] d (w64 (2 ^ 61 + n))) ∧
      exec (.porta d a k) s = .next (wrote s [a] d (w64 (2 ^ 62 + (n + 8 + 8 * k.toNat))))) ∧
    (Ready s [a] d → s.buffered = false → (s.rx a).toNat = 15 * 2 ^ 48 + n → n < 2 ^ 31 → n % 64 ≠ 0 →
      exec (.portp d a) s = .next (trapped s .linkerr (s.rx a)) ∧ exec (.porta d a k) s = .next (trapped s .linkerr (s.rx a))) ∧
    (Ready s [a, b] d →
      let kind := (s.rx b).toNat % 2 ^ 12
      (kind = 0xFFD → exec (.portn d a b) s = .next (wrote s [a, b] d nulWord)) ∧
      (1 ≤ kind → kind ≤ 4092 → exec (.portn d a b) s = .next (wrote s [a, b] d (w64 (2 ^ 63 + kind * 2 ^ 48 + (s.rx a).toNat % 2 ^ 32)))) ∧
      (s.buffered = false → kind = 0 ∨ kind = 0xFFE ∨ kind = 0xFFF → exec (.portn d a b) s = .next (trapped s .linkerr (s.rx b))))

/-- R239, R345: NETAUD audits its core's pool and gives the number of slots reclaimed; POOL_AUDIT does the same of itself when
it is due. An audit frees each slot in use whose header is a tomb and that no link sequence holds, keeps the others, among them
every slot whose header is poisoned, and counts itself; after an uncorrectable bitmap the slots in use are those whose header
says so. -/
def Sys2Proof.Spec.Audits : Prop :=
  ∀ (s : State) (d : BitVec 5) (r lid : Nat) (p : Pool),
    (Ready s [] d → poolBusy s s.rank s.me.lid = false → s.pool s.rank s.me.lid = some p → ∃ q,
      (audit s s.rank s.me.lid).pool s.rank s.me.lid = some q ∧
      exec (.netaud d) s = .next (wrote (audit s s.rank s.me.lid) [] d (w64 q.reclaimed) (q.slots + 64))) ∧
    (auditDue s r lid = true → exec (.poolAudit r lid) s = .next ((audit s r lid).modPool r lid fun p => { p with nextAudit := s.cycle + 1048576 })) ∧
    (auditDue s r lid = false → exec (.poolAudit r lid) s = .next s) ∧
    (s.pool r lid = some p → ∃ q, (audit s r lid).pool r lid = some q ∧
      let a (i : Nat) : Nat := slotAt p r i
      let bad (i : Nat) : Prop := i < p.slots ∧ s.poisoned (netLoc (a i)) = true
      let used (i : Nat) : Prop := if p.bad = true then i < p.slots ∧ ((s.netRead (a i)).toNat / 2 ^ 52 ≠ 0 ∨ bad i) else i ∈ p.used
      let tomb (i : Nat) : Prop := s.poisoned (netLoc (a i)) = false ∧ (s.netRead (a i)).toNat / 2 ^ 52 = 0xFFF ∧ s.slotHeld (a i) = false
      (∀ i, i ∈ q.used ↔ (used i ∧ ¬ tomb i) ∨ bad i) ∧ q.count = p.slots - q.used.length ∧ q.audits = p.audits + 1 ∧ q.bad = false ∧
      q.busy = s.cycle + p.slots + 64 ∧ (∀ i, i ∈ q.free ↔ i < p.slots ∧ i ∉ q.used))

/-- R238: a slot that comes back over the mesh is freed as a local FREE would; with no tomb in its header, or a poisoned one, it
is discarded and counted; while an audit runs it waits. -/
def Sys2Proof.Spec.SlotReturns : Prop :=
  ∀ (s : State) (r slot lid src : Nat) (p : Pool),
    let a := r * 131072 + 64 * (p.base + slot)
    let tomb := s.poisoned (netLoc a) = false ∧ (s.netRead a).toNat / 2 ^ 52 = 0xFFF
    let i := Instr.freeSlotReturn r slot ⟨lid, src⟩
    (s.pool r lid = none → exec i s = .next ((s.incRecv r lid).countField r 0)) ∧
    (s.pool r lid = some p → s.cycle < p.busy → exec i s = .next (s.later (p.busy - s.cycle) i)) ∧
    (s.pool r lid = some p → p.busy ≤ s.cycle → tomb → exec i s = .next (freeLocal (s.incRecv r lid) lid a)) ∧
    (s.pool r lid = some p → p.busy ≤ s.cycle → ¬ tomb → exec i s = .next ((s.incRecv r lid).countField r 0))

/-- R181, R246, R248: RULEEND of a pair barge ends it as EXIT does, once its release is done; of any other barge it traps ILL. -/
def Sys2Proof.Spec.RuleEnd : Prop :=
  ∀ (s : State),
    (∀ h, s.me.hdr = some h → h.kind = .pair →
      let l := s.letGo relAcc freePort s.rank s.berth (s.cycle + s.leaveIn)
      exec .ruleend s = exec .exit s ∧
      (s.inBuffer s.rank s.berth = true → exec .ruleend s = .next (s.block .board)) ∧
      (s.inBuffer s.rank s.berth = false →
        (∀ u, l.releasing = .ok u → exec .ruleend s = .next u.exitDone ∧ u.exitDone.me.hdr = none) ∧
        (∀ y, l.releasing = .error (.wait y) → exec .ruleend s = .next (s.block y)) ∧
        (∀ v, l.releasing = .error (.gone v) → exec .ruleend s = .next v))) ∧
    ((∀ h, s.me.hdr = some h → h.kind ≠ .pair) → s.buffered = false → exec .ruleend s = .next (trapped s .ill ((encode .ruleend).setWidth 64)))

def Obligations.NodeSlots : Prop := Spec.Slots ∧ Spec.FreshNode ∧ Spec.RuleEnd
def Obligations.PoolsAndPortWords : Prop := Spec.PortWords ∧ Spec.Audits ∧ Spec.SlotReturns

/-- R229, R230, R232, R247: LINKN of an inline endpoint and an auxiliary port of the core's store writes the endpoint there at
once; of two auxiliary ports, each word becomes the other. -/
def Sys2Proof.Spec.PlainLinks : Prop :=
  ∀ (s : State) (a b : BitVec 5) (f g : Nat), Ready s [a, b] 0 → OwnAux s f → s.rx b = auxWord f → seqRuns s = none →
    ((s.rx a = nulWord ∨ portTag (s.rx a) = 4 ∧ badEnd (s.rx a) = false) →
      exec (.linkn a b) s = .next (((s.netWrite f (s.rx a)).pops [a, b]).next)) ∧
    (OwnAux s g → s.rx a = auxWord g →
      exec (.linkn a b) s = .next ((((s.netWrite g (auxWord f)).netWrite f (auxWord g)).pops [a, b]).next))

/-- R228, R233: a link instruction whose checks pass, whose release is done and whose core's sequencer is free starts its sequence
8 cycles after its issue, or when that release or the sequence before it has ended, and waits for it: its first step, at a word
of its own core, takes effect in the last of its 4 cycles. It waits while the sequencer acts for another berth. Which link
instructions release is the model's reading (DEDUCED, log 70), and so is the cycle of a step's effect (log 26). -/
def Sys2Proof.Spec.SequencesStart : Prop :=
  ∀ (s t : State) (a b : BitVec 5) (c e : Nat), Ready s [a, b] 0 → OwnAux s c → OwnAux s e → s.rx a = auxWord c → seqRuns s = none →
    s.releasing = .ok t →
    let start := max t.startAt t.myCore.seqAt
    let waits (i : Instr) : Prop :=
      (seqTaken t = true → exec i s = .next (s.block (.seqr s.rank))) ∧
      (seqTaken t = false → s.cycle < start + 3 →
        exec i s = .next ((t.block (.sequence (start + 3) start [])).modMyWait fun w => { w with acked := false }))
    (s.rx b = nulWord → waits (.link a b)) ∧ (s.rx b = auxWord e → waits (.join a b))

/-- R228: how a sequence of steps at words of the executing core runs, `plan` naming each step's word, what it must find there if
it reads, and what it leaves. Each takes 4 cycles from its start, acts in the last of them, and hands on to the next; after the
last one the barge goes on and the sequencer is free. -/
def Sys2Proof.Spec.StepsHere (s : State) (i : Instr) (srcs : List (BitVec 5)) (plan : List (Nat × Option Word × Word)) : Prop :=
  let answers := plan.map fun e => (e.2.1.getD 0, false)
  let waits (t : State) (start k : Nat) : State :=
    (t.block (.sequence (start + 3) start (answers.take k))).modMyWait fun w => { w with acked := false }
  ∀ k a r v w due start, plan[k]? = some (a, r, v) → s.myWait = some w → w.why = .sequence due start (answers.take k) →
    (s.cycle < start + 3 → exec i s = .next (waits s start k)) ∧
    (s.cycle = start + 3 → (∀ x, r = some x → s.netRead a = x) →
      exec i s = .next (if k + 1 < plan.length then waits (s.netWrite a v) (start + 4) (k + 1)
        else (((s.netWrite a v).modMyCore fun c => { c with seqAt := start + 4 }).pops srcs).next))

/-- R228, R229, R231: LINK of a NUL, or of a node's principal port, to a consumed auxiliary port of the core's store leaves the
port's partner wired to it, and the consumed word empty; JOIN of two such ports wires their partners to each other, and empties
both. -/
def Sys2Proof.Spec.LocalLinks : Prop :=
  ∀ (s : State) (a b : BitVec 5) (c e f g n : Nat), Ready s [a, b] 0 → OwnAux s c → OwnAux s f → s.rx a = auxWord c →
    (s.rx b = nulWord → StepsHere s (.link a b) [a, b]
      [(c, some (auxWord f), redirWord nulWord), (f, some (auxWord c), nulWord), (c, none, 0)]) ∧
    (n < 2 ^ 31 → n % 64 = 0 → netRank n = s.rank → s.rx b = w64 (2 ^ 61 + n) → StepsHere s (.link a b) [a, b]
      [(n + 8, none, busyWord 0), (c, some (auxWord f), redirWord (w64 (2 ^ 61 + n))), (f, some (auxWord c), w64 (2 ^ 61 + n)),
        (n + 8, none, auxWord f), (c, none, 0)]) ∧
    (OwnAux s e → OwnAux s g → s.rx b = auxWord e → StepsHere s (.join a b) [a, b]
      [(e, some (auxWord g), busyWord c), (c, some (auxWord f), redirWord (auxWord g)), (f, some (auxWord c), auxWord g),
        (g, some (auxWord e), auxWord f), (c, none, 0), (e, some (busyWord c), 0)])

/-- R163, R181, R225, R252: linking two principal ports forms an active pair: its rule entry is read, 110 cycles where it has
one, and then, with no store of the core to release, PEND counts the pair where it will dock, and its barge joins this core's
queue, live, or travels to another; the berth is ready with that. Which core counts PEND is the model's reading (DEDUCED, log 49). -/
def Sys2Proof.Spec.ActivePairs : Prop :=
  ∀ (s : State) (a b : BitVec 5) (w : Wait) (due start : Nat) (log : List (Word × Bool)), Ready s [a, b] 0 → s.rx a = nulWord → s.rx b = nulWord →
    s.myWait = some w → w.why = .sequence due start log →
    let entry := ruleAddr (myLaunch s) 0xFFD 0xFFD
    (∀ va v1 b1, entry = some va → log = [(v1, b1)] → s.cycle = start + 109 →
      let r := ruleEntry s (myLaunch s) va
      exec (.linkn a b) s = .next ((r.1.block (.sequence (start + 110) (start + 110) [(v1, b1), (r.2.getD 0, r.2.isNone)])).modMyWait
        fun w => { w with acked := false })) ∧
    (log.length = (if entry = none then 0 else 2) → start ≤ s.cycle → (s.release s.rank).releaseTime s.rank = 0 →
      s.dropsBarges s.me.lid = false → ∃ t, exec (.linkn a b) s = .next t ∧
        (t.counts s.rank s.me.lid).pend = (s.counts s.rank s.me.lid).pend + 1 ∧
        (t.counts s.rank s.me.lid).live = (s.counts s.rank s.me.lid).live + 1) ∧
    (∀ pk dest, dest ≠ s.rank → sendPair s pk dest =
      ((s.incPend dest s.me.lid).incSent s.rank s.me.lid).later (travel s.rank dest) (.pairMessage dest ⟨pk, s.rank⟩))

def Obligations.LinksWirePartners : Prop := Spec.PlainLinks ∧ Spec.SequencesStart ∧ Spec.LocalLinks ∧ Spec.ActivePairs

/-- R240, R242 to R244, R339: PAYDUP of no payload or a plain one copies the three payload words with their poison and the class;
PAYDROP clears the class and says whether the payload was the last holder's; PAYOWN says whether it is alone. A counted tile's
header is raised, lowered or read, in the core's own CLM, the first two behind a release; the slot write of the first two follows
when the count's reply is back, and each acquires. A count that may not change traps LINKERR once its read has acquired, with the
header's address; that TVAL at PAYDROP, and the node's place address at a payload of class 0b11, which traps LINKERR (R240), are the model's
choice (DESIGN CHOICE, log 83). -/
def Obligations.PayloadHolders : Prop :=
  ∀ (s u : State) (d a b : BitVec 5) (p : BitVec 5) (n m off : Nat), OwnNode s (s.rx a) n →
    let c := (s.netRead n).toNat / 2 ^ 48 % 4
    let copy (t : State) : State := setPcls (iter (fun k u => copyWord u (n + 40 + 8 * k) (m + 40 + 8 * k)) 3 t) m c
    let l := here s off
    let ha := (s.netRead (n + 40) &&& 0xFFFFFFFFFFFFF) - 16
    let old := u.readN l 4
    let tile : Prop := c = 2 ∧ s.poisoned (netLoc (n + 40)) = false ∧ AtClm ha off 4 ∧ u.poisoned l = false ∧ Settled s off 4
    let drop (q : Bool) (v : Word) (acq : Bool) : Reply := { srcs := [a], writes := [(d.toNat, v)], pred := some (p.toNat, q), acquire := acq }
    let counts (i : Instr) (new : Nat) : Prop :=
      let t := u.storeAt l 4 new
      exec i s = .next (((t.block (.remote (t.startAt + 7))).noteIssued fun i => { i with counted := some (old, ha) }).modMyWait
        fun w => { w with home := false })
    (s.counted = none →
      (Ready s [a, b] 0 → OwnNode s (s.rx b) m → c < 2 → exec (.paydup a b) s = .next (((copy s).pops [a, b]).next)) ∧
      (Ready s [a, b] 0 → OwnNode s (s.rx b) m → s.releasing = .ok u → tile →
        (old ≠ 0 → old ≠ 0xFFFFFFFF → counts (.paydup a b) (old + 1)) ∧
        (old = 0 ∨ old = 0xFFFFFFFF → exec (.paydup a b) s = .next (u.gain.trapNow .linkerr ha))) ∧
      (Ready s [a] d → c = 0 → exec (.paydrop d a p) s = .next (s.done 8 (drop false 0 false))) ∧
      (Ready s [a] d → c = 1 → exec (.paydrop d a p) s = .next ((setPcls s n 0).done 8 (drop true 0 false))) ∧
      (Ready s [a] d → s.releasing = .ok u → tile → (old ≠ 0 → counts (.paydrop d a p) (old - 1)) ∧
        (old = 0 → exec (.paydrop d a p) s = .next (u.gain.trapNow .linkerr ha)))) ∧
    (∀ o h, s.counted = some (o, h) →
      (Ready s [a, b] 0 → OwnNode s (s.rx b) m → exec (.paydup a b) s = .next ((copy s).done 8 { srcs := [a, b], acquire := true })) ∧
      (Ready s [a] d → exec (.paydrop d a p) s = .next ((setPcls s n 0).done 8 (drop (o == 1) (if o = 1 then h + 16 else 0) true)))) ∧
    (Ready s [a] 0 → c < 2 → exec (.payown a p) s = .next (((s.pops [a]).wp p true).next)) ∧
    (Ready s [a] 0 → u = s → tile → exec (.payown a p) s = .next ((s.storeAt l 4 old).done 16
      { srcs := [a], pred := some (p.toNat, old == 1), acquire := true })) ∧
    (Ready s [a, b] d → OwnNode s (s.rx b) m → s.buffered = false → s.counted = none → c = 3 → exec (.paydup a b) s = .next (trapped s .linkerr (placeAddr n)) ∧
      exec (.paydrop d a p) s = .next (trapped s .linkerr (placeAddr n)) ∧ exec (.payown a p) s = .next (trapped s .linkerr (placeAddr n)))

/-! ### The staircase, draws and sampling -/

/-- R319, R320, R322: with the engine it names ready, its queue not full and no other berth waiting for room there, SC.OPEN, STEP, FORK, ROLL, CLOSE, STAT, SAVE
and LOAD queue their request, and the berth waits for the engine's reply; SC.MASK queues its request and goes on. A
handle of no ready engine traps SCERR. The request leaves at the write-back. -/
def Sys2Proof.Spec.ScRequests : Prop :=
  ∀ (s : State) (d a b im : BitVec 5),
    let own := clusterOf s.rank
    let cl := (s.rx a).toNat / 2 ^ 16 % 2 ^ 10
    let free (c : Nat) : Prop := s.lock.scReady.contains c = true ∧ (s.cluster c).scq.length < 64 ∧ s.roomAsked c = false
    let handle : Prop := (s.rx a).toNat < 2 ^ 32 ∧ cl < 576 ∧ free cl
    let sent (c : Nat) (q : ScReq) : State :=
      s.modCluster c fun k => { k with scq := insertDue k.scq (s.cycle + s.leaveIn + 6 + 2 * clusterHops own c) q }
    let asks (i : Instr) (c : Nat) (q : ScReq) : Prop := exec i s = .next ((sent c q).await (.stair c))
    (Ready s [a, b] d → free own → asks (.scOpen d a b) own (scReq s .opening d 0 (s.rx a) (s.rx b) 0 [a, b])) ∧
    (Ready s [a, b] d → handle → asks (.scStep d a b im) cl (scReq s .step d im.toNat (s.rx a) (s.rx b) 0 [a, b])) ∧
    (Ready s [a] d → handle → asks (.scFork d a) cl (scReq s .fork d 0 (s.rx a) 0 0 [a])) ∧
    (Ready s [a, b] 0 → handle → asks (.scRoll a b) cl (scReq s .roll 0 0 (s.rx a) (s.rx b) 0 [a, b])) ∧
    (Ready s [a] 0 → handle → asks (.scClose a) cl (scReq s .close 0 0 (s.rx a) 0 0 [a])) ∧
    (Ready s [a, b] d → s.rx a ≠ 0 → handle → asks (.scStat d a b) cl (scReq s .stat d 0 (s.rx a) (s.rx b) 0 [a, b])) ∧
    (Ready s [a, b] d → s.rx a = 0 → free own → asks (.scStat d a b) own (scReq s .stat d 0 (s.rx a) (s.rx b) 0 [a, b])) ∧
    (Ready s [a, b] 0 → handle → (s.rx b).toNat % 64 = 0 → (s.rx b).toNat < 13 * 2 ^ 48 →
      asks (.scSave a b) cl (scReq s .save 0 0 (s.rx a) (s.rx b) 0 [a, b])) ∧
    (Ready s [a] d → free own → (s.rx a).toNat % 64 = 0 → (s.rx a).toNat < 13 * 2 ^ 48 →
      asks (.scLoad d a) own (scReq s .load d 0 (s.rx a) 0 0 [a])) ∧
    (∀ off, Ready s [a, b, d] 0 → handle →
      let lo := (s.rx d).toNat % 2 ^ 20
      let cnt := (s.rx d).toNat / 2 ^ 20 % 2 ^ 22
      lo % 64 = 0 → cnt % 64 = 0 → 64 ≤ cnt → cnt ≤ 2 ^ 20 → (s.rx b).toNat = 14 * 2 ^ 48 + off → off % 8 = 0 → off + cnt / 8 ≤ 0x20000 →
      exec (.scMask d a b) s = .next (((sent cl (scReq s .mask 0 0 (s.rx a) (s.rx b) (s.rx d) [])).pops [a, b, d]).next)) ∧
    (Ready s [a] d → s.buffered = false → (2 ^ 32 ≤ (s.rx a).toNat ∨ 576 ≤ cl ∨ s.lock.scReady.contains cl = false) →
      exec (.scFork d a) s = .next (trapped s .scerr (w64 (2 ^ 56 + (s.rx a).toNat % 2 ^ 32))))

/-- R320, R323: an engine serves the request at the head of its queue whole, is then busy for its cost, and answers every
request but SC.MASK; with nothing due it does nothing. A request whose handle finds no slot of its launch traps SCERR, and costs
what R320 gives its kind; that SC.SAVE's 64 + 2 x DEPTH is then 64 is the model's reading (DEDUCED, log 35). -/
def Sys2Proof.Spec.EngineService : Prop :=
  ∀ (s : State) (cl due : Nat) (q : ScReq) (rest : List (Nat × ScReq)),
    (scDue s cl = false → exec (.scRequestService cl) s = .next s) ∧
    (scDue s cl = true → (s.cluster cl).scq = (due, q) :: rest →
      let r := scPerform cl q (s.modCluster cl fun c => { c with scq := rest })
      let t := r.st.modCluster cl fun c => { c with scAt := s.cycle + r.cost }
      exec (.scRequestService cl) s = .next (if q.op = .mask then t
        else t.reply q.rank q.berth r.reply (r.cost + 6 + 2 * clusterHops (clusterOf q.rank) cl))) ∧
    (scDue s cl = true → (s.cluster cl).scq = (due, q) :: rest → q.op ≠ .mask → q.op ≠ .opening → q.op ≠ .load → q.a ≠ 0 →
      findStair (s.cluster cl) q.a q.lid = none →
      let cost := if q.op = .save then 64 else 16
      ∃ t, exec (.scRequestService cl) s = .next t ∧
        t = ((s.modCluster cl fun c => { c with scq := rest, scAt := s.cycle + cost }).reply q.rank q.berth
          { trap := some (.scerr, w64 (2 ^ 56 + q.a.toNat % 2 ^ 32)) }
          (cost + 6 + 2 * clusterHops (clusterOf q.rank) cl)))

/-- R319, R323: a slot opened takes the lowest free place with a generation of its own, and the handle given finds it for
its launch; once it is closed no handle finds it. -/
def Sys2Proof.Spec.Handles : Prop :=
  ∀ (cl i : Nat) (c : Cluster) (k : StairSlot), cl < 576 → freeStair c = some i →
    let o := openStair cl c k
    findStair o.1 o.2 k.lid = some (i, k) ∧ (∀ l, l ≠ k.lid → findStair o.1 o.2 l = none) ∧ genOf o.1 i = genOf c i % 65535 + 1 ∧
    o.2.toNat / 2 ^ 16 % 2 ^ 10 = cl ∧ (∀ h, h.toNat / 2 ^ 26 % 2 ^ 6 = i → findStair (closeStair o.1 i) h k.lid = none)

/-- R323: SC.ROLL by n takes the configuration of n steps ago and drops those steps; by more than the history holds it
traps SCERR. -/
def Sys2Proof.Spec.Rollback : Prop :=
  ∀ (cl i : Nat) (q : ScReq) (k : StairSlot) (t : State), alGet (t.cluster cl).sslots i = some k →
    (k.hist.length < q.b.toNat → (scRolling cl q i k t).reply.trap = some (.scerr, w64 (4 * 2 ^ 56 + q.a.toNat % 2 ^ 32))) ∧
    (q.b.toNat ≤ k.hist.length → (scRolling cl q i k t).reply.trap = none ∧
      ∃ j, alGet ((scRolling cl q i k t).st.cluster cl).sslots i = some j ∧ j.hist = k.hist.take (k.hist.length - q.b.toNat) ∧
        (q.b = 0 → j.conf = k.conf) ∧ (∀ h : 0 < q.b.toNat ∧ q.b.toNat ≤ k.hist.length, j.conf = k.hist[k.hist.length - q.b.toNat]'(by omega)))

def Obligations.StaircaseRequestsAndSlots : Prop := Spec.ScRequests ∧ Spec.EngineService ∧ Spec.Handles ∧ Spec.Rollback

/-- R328, R330, R333: with no override table, RNG gives words 1 and 0 of the Philox block of its counter under the
launch's seed, and RNGU the upper 24 bits of word 0 as a fraction; SMP.MRG gives the greater of two candidates, the
second where it is greater, and a NONE candidate never wins over another. -/
def Sys2Proof.Spec.Draws : Prop :=
  ∀ (s : State) (d a b : BitVec 5) (fd : BitVec 4),
    let x := s.rx a
    let y := s.rx b
    let w := philox s.seed (x.setWidth 32) (x.extractLsb' 32 32) (y.setWidth 32) (y.extractLsb' 32 32)
    (Ready s [a, b] d → s.me.rngsrc.getLsbD 0 = false → exec (.rng d a b) s = .next (wrote s [a, b] d (w.2.1 ++ w.1))) ∧
    (Ready s [a, b] 0 → s.me.rngsrc.getLsbD 0 = false → exec (.rngu fd a b) s = .next (((s.pops [a, b]).wf fd
      (BitVec.ofNat 32 (roundTo fp32 .rne false false (w.1.toNat / 2 ^ 8) (-24)).1)).next)) ∧
    (Ready s [a, b] d → candNan x = false → candNan y = false →
      exec (.smpMrg d a b) s = .next (wrote s [a, b] d (if candGt y x then y else x))) ∧
    (Ready s [a, b] d → exec (.smpMrg d a b) s = .next (wrote s [a, b] d x) ∨ exec (.smpMrg d a b) s = .next (wrote s [a, b] d y) ∨
      exec (.smpMrg d a b) s = .next (wrote s.fresh [a, b] d x) ∨ exec (.smpMrg d a b) s = .next (wrote s.fresh [a, b] d y)) ∧
    (Ready s [a, b] d → x.getLsbD 31 = true → exec (.smpMrg d a b) s = .next (wrote s [a, b] d (if y.getLsbD 31 then x else y)))

/-- R331 to R333: with temperature 0 and no mask, over n unpoisoned logits of the core's own CLM, SMP.LOC gives the
greatest candidate, and SMP.TOPK stores the K greatest in decreasing order, NONE after the last; a logit that is NaN is
no candidate. -/
def Sys2Proof.Spec.Sampling : Prop :=
  ∀ (s : State) (d a b : BitVec 5) (off poff dst : Nat),
    let p := smpParams (s.readN (.clm s.rank poff) 32)
    let logit (i : Nat) : W32 := BitVec.ofNat 32 (s.readN (.clm s.rank (off + 4 * i)) 4)
    let real (i : Nat) : Prop := i < p.n ∧ (f32 (logit i)).isNan = false
    let cand (i : Nat) : Word := candWord (logit i) (p.base + i)
    let clm (v : Word) (o n : Nat) : Prop := v.toNat = 14 * 2 ^ 48 + o ∧ 0x8000 ≤ o ∧ o + n ≤ 0x20000
    p.base + p.n ≤ 2 ^ 20 → clm (s.rx a) off (4 * p.n) → off % 4 = 0 → clm (s.rx b) poff 32 → poff % 8 = 0 → p.msk = false → (f32 p.temp).isZero = true →
    s.anyPoison (.clm s.rank poff) 32 = false → s.anyPoison (.clm s.rank off) (4 * p.n) = false →
    ∃ l : List Word, l.Pairwise (fun x y => candGt x y = true) ∧ (∀ w, w ∈ l ↔ ∃ i, real i ∧ w = cand i) ∧
      (Ready s [a, b] d → smpBad false (s.readN (.clm s.rank poff) 32) = false →
        exec (.smpLoc d a b) s = .next (wrote s [a, b] d (l.headD noneWord) (40 + (p.n + 3) / 4))) ∧
      (Ready s [a, b, d] 0 → smpBad true (s.readN (.clm s.rank poff) 32) = false → clm (s.rx d) dst (8 * p.k) → dst % 8 = 0 → Settled s dst (8 * p.k) →
        exec (.smpTopk d a b) s = .next ((iter (fun i t => t.storeClm s.rank (dst + 8 * i) 8 ((l[i]?).getD noneWord).toNat) p.k s).done
          (40 + (p.n + 3) / 4 + 8 * p.k) { srcs := [a, b, d] }))

def Obligations.SamplingGivesGreatest : Prop := Spec.Draws ∧ Spec.Sampling

/-! ### Control registers, traps, interrupts and the debugger -/

/-- R172, R290, R295, R344: in supervisor mode every CSR instruction completes: CSRR and the forms with x0 give the value to x[d], and CSRW,
CSRS and CSRC with a register other than x0 act at their write-back: they wait for a reply, which writes the value, the OR or the
AND of the complement (of ECCCNT, the value before the events of the cycle), gives the value that it replaces to x[d], and lets
the berth go on. That this old value is read then is the model's reading (DEDUCED, log 86). In user mode a CSR the table closes
traps ILL with the word, and one that it only lets read, when written, too. -/
def Sys2Proof.Spec.CsrInstructions : Prop :=
  ∀ (s : State) (d a : BitVec 5) (c : BitVec 12),
    let n := c.toNat
    let old := csrGet s s.rank s.berth n
    let late (fn3 : Nat) : Host.Outcome State Fault Refusal :=
      .next (s.atWriteBack { srcs := [a], csr := some ⟨fn3, n, s.rx a, d.toNat⟩ })
    (s.me.user = false ∨ 1 ≤ csrUser n → Ready s [] d → exec (.csrr d c) s = .next (wrote s [] d old)) ∧
    (s.me.user = false ∨ csrUser n = 2 → Ready s [a] d → exec (.csrw d a c) s = late 2 ∧
      (a ≠ 0 → exec (.csrs d a c) s = late 3 ∧ exec (.csrc d a c) s = late 4)) ∧
    (∀ r b w fn3 v e, b ≠ 16 → (s.berthAt r b).drowsy = false → (s.berthAt r b).wait = some w →
      w.reply = some { srcs := [a], csr := some ⟨fn3, n, v, d.toNat⟩, past := true, cleaned := e } → w.issued.acc = none →
      let t : State := { s.as r b with cycle := s.cycle - 1 }
      let was := if n = 0x106 then eccBefore t.cycle t.myCore else csrGet t r b n
      let new := if fn3 = 2 then v else if fn3 = 3 then was ||| v else was &&& ~~~v
      (d.toNat < 24 ∨ (e = true ∧ t.checkFreed d = none)) → exec (.replyArrival r b) s =
        .next (({ ((((t.csrPut r b n new).wx d was).pops [a])).next with cycle := s.cycle } : State).back s)) ∧
    (s.me.user = false ∨ 1 ≤ csrUser n → Ready s [] d → exec (.csrs d 0 c) s = .next (wrote s [] d old) ∧
      exec (.csrc d 0 c) s = .next (wrote s [] d old)) ∧
    (s.me.user = true → s.buffered = false → csrUser n = 0 → Ready s [a] d →
      ∀ i ∈ [Instr.csrr d c, .csrw d a c, .csrs d a c, .csrc d a c], exec i s = .next (trapped s .ill ((encode i).setWidth 64))) ∧
    (s.me.user = true → s.buffered = false → csrUser n = 1 → Ready s [a] d → a ≠ 0 →
      ∀ i ∈ [Instr.csrw d a c, .csrs d a c, .csrc d a c], exec i s = .next (trapped s .ill ((encode i).setWidth 64)))

/-- R7, R291 to R294: a CSR write changes the register's RW fields, and no other bit of it; a register without RW fields is
not written. ECCCNT takes the value, and the events of the cycle count after the write (R344). -/
def Sys2Proof.Spec.CsrFields : Prop :=
  ∀ (s : State) (r b : Nat) (v : Word),
    (∀ n ∈ [0x000, 0x001, 0x002, 0x003, 0x004, 0x005, 0x006, 0x009, 0x100, 0x102, 0x105, 0x107, 0x109],
      csrGet (s.csrPut r b n v) r b n = (csrGet s r b n &&& ~~~csrMask n) ||| (v &&& csrMask n)) ∧
    (∀ n ∈ [0x007, 0x008, 0x103, 0x104, 0x108], s.csrPut r b n v = s) ∧
    (let w := csrGet (s.csrPut r b 0x106 v) r b 0x106
     ((s.core r).eccAt ≠ s.cycle + 1 → w = v) ∧
     ∀ i, i < 4 → w.toNat / 2 ^ (16 * i) % 65536 = Nat.min 65535 (v.toNat / 2 ^ (16 * i) % 65536
       + (eccNow s.cycle (s.core r)).toNat / 2 ^ (16 * i) % 65536)) ∧
    (∀ lo, let t := s.countField r lo
      eccNow s.cycle (t.core r) = eccNow s.cycle (s.core r) + w64 (2 ^ lo) ∧ eccBefore s.cycle (t.core r) = eccBefore s.cycle (s.core r))

/-- R292, R172, R31, R147: the lockhouse's writes of TIMECMP, CORECFG and BASCFG are the CSR writes of the core; the write
of HQCTL sets CAP, while the queue is empty (an unlisted value sets 64, the model's choice, log 61). A berth that leaves the gated state
has every register zero, p0 one, and is EMPTY from the next cycle on; one that is not gated yet, because its barge has only
just left, stays as it is. -/
def Sys2Proof.Spec.OutsideWrites : Prop :=
  ∀ (s : State) (r : Nat) (v : BitVec 64),
    exec (.timecmpWrite r v) s = .next (s.csrPut r 0 0x102 v) ∧ exec (.corecfgWrite r v) s = .next (s.csrPut r 0 0x101 v) ∧
    exec (.bascfgWrite r v) s = .next (s.csrPut r 0 0x10A v) ∧
    ((s.core r).queue ≠ [] → exec (.hqctlWrite r v) s = .next s) ∧
    ((s.core r).queue = [] → exec (.hqctlWrite r v) s = .next (s.modCore r fun c => { c with
      cap := if v.toNat % 256 = 16 ∨ v.toNat % 256 = 32 ∨ v.toNat % 256 = 48 then v.toNat % 256 else 64 })) ∧
    (∀ b, b < 16 → ((s.csrPut r 0 0x102 v).berthAt r b).pTimer = false) ∧
    (∀ b, b < 16 → s.cycle < (s.berthAt r b).readyAt → (s.csrPut r 0 0x101 v).berthAt r b = s.berthAt r b) ∧
    (∀ b, b < 16 → (s.core r).enabled b = false → (s.berthAt r b).idle = true → (s.berthAt r b).readyAt ≤ s.cycle → v.getLsbD b = true →
      let t := s.csrPut r 0 0x101 v
      let k := t.berthAt r b
      k.x = Vector.replicate 24 0 ∧ k.f = Vector.replicate 16 0 ∧ k.v = Vector.replicate 16 0 ∧ k.p = 1 ∧ k.idle = true ∧
        (t.core r).enabled b = true ∧ stateCode t r b = 6 ∧ emptyBerth s.cycle (t.core r) b = false ∧ emptyBerth (s.cycle + 1) (t.core r) b = true)

def Obligations.ControlRegisters : Prop := Spec.CsrInstructions ∧ Spec.CsrFields ∧ Spec.OutsideWrites

/-- R285, R286: a trap or interrupt saves the PC, the cause and its value, moves M and IE to PM and PIE, enters supervisor
mode with interrupts off at TVEC.BASE, or TVEC.BASE + 0x40 for an interrupt, and records the block; the general, floating-point and vector
registers, P, F, the ports and the rest of memory stand. -/
def Obligations.TrapEntry : Prop :=
  ∀ (s : State) (c : Cause) (tval tpc : Word) (rpts k idx : Nat) (rkm : Bool), rpts < 4 → idx < 4 → k < 256 →
    let t := s.enter c tval tpc rpts k idx rkm
    let u := t.me
    let base : Word := s.myCore.tvec &&& 0x000FFFFFFFFFFF00
    u.tpc = tpc ∧ u.tval = tval ∧ u.tcause = w64 (c.code + if 32 ≤ c.code then 2 ^ 63 else 0) ∧
    u.pc = (if 32 ≤ c.code then base + 0x40 else base) ∧ u.user = false ∧ u.tstat.getLsbD 1 = s.me.tstat.getLsbD 0 ∧
    u.tstat.getLsbD 2 = false ∧ u.tstat.getLsbD 3 = s.me.tstat.getLsbD 2 ∧ u.tstat.getLsbD 4 = s.me.tstat.getLsbD 4 ∧
    u.tstat.getLsbD 5 = s.me.tstat.getLsbD 5 ∧ u.tstat.getLsbD 6 = rkm ∧ u.tstat.toNat / 2 ^ 8 % 4 = rpts ∧
    u.tstat.toNat / 2 ^ 10 % 4 = idx ∧ u.tstat.toNat / 2 ^ 12 % 256 = k ∧ u.wait = none ∧ u.rpt = none ∧
    u.x = s.me.x ∧ u.f = s.me.f ∧ u.v = s.me.v ∧ u.p = s.me.p ∧ u.fr = s.me.fr ∧ u.fcsr = s.me.fcsr ∧ u.tscr = s.me.tscr ∧ u.hdr = s.me.hdr ∧
    u.ports = s.me.ports ∧ u.moored = s.me.moored ∧ { t.myCore with berths := s.myCore.berths } = s.myCore ∧
    (∀ q, q ≠ s.rank → t.core q = s.core q) ∧ (∀ b, b % 16 ≠ s.berth % 16 → t.berthAt s.rank b = s.berthAt s.rank b) ∧
    { t with cores := s.cores } = s

/-- R296, R301, R46, R47, R380: ECALL, EBREAK, an illegal word and a fetch fault each take their trap; with DBGCTL.BRKH set
EBREAK asks the berth to halt instead, and so does a fault of an entry's first fetch. -/
def Sys2Proof.Spec.TrapInstructions : Prop :=
  ∀ (s : State) (w : BitVec 32) (va : BitVec 64), s.buffered = false →
    let asked (u : State) : State := u.modMe fun b => { b with halt := .asked, wait := none, readyAt := Nat.max b.readyAt (u.readyAfter 8) }
    exec .ecall s = .next (trapped s .ecall 0) ∧
    (s.myCore.dbgctl.getLsbD 33 = false → exec .ebreak s = .next (trapped s .brk 0)) ∧
    (s.myCore.dbgctl.getLsbD 33 = true → exec .ebreak s = .next (asked s)) ∧
    exec (.illegalInstruction w) s = .next (trapped s .ill (w.setWidth 64)) ∧
    (s.me.entry = false → exec (.fetchFault va) s = .next (trapped s .fetch va)) ∧
    (s.me.entry = true → exec (.fetchFault va) s = .next (asked s))

/-- R297 to R299: TRET outside a block returns to TPC with M and IE as they were saved, in user mode it traps ILL; into a
block, whose words are read again and pass their checks, it goes on with the word recorded, or gives the block back to the
repetition buffer, once that is free, and goes on at TSCR; a fault of the re-read traps FETCH, and that a poisoned word of it traps
POISON instead, with its unit's address, is the model's choice (DESIGN CHOICE, log 81). A trap's entry followed by TRET
gives back the PC, M and IE; WFI goes on once an interrupt is pending and waits until then;
ISYNC empties the core's instruction cache. -/
def Sys2Proof.Spec.TrapReturn : Prop :=
  ∀ (s : State),
    (s.me.user = false → s.me.tstat.toNat / 2 ^ 8 % 4 = 0 → s.me.started = false → exec .tret s =
      .next ((s.modMe fun b => { b with tstat := tretTstat b.tstat }).jump (s.me.tpc &&& 0x000FFFFFFFFFFFFC))) ∧
    (s.me.user = false → s.me.started = false →
      let u := s.modMe fun b => { b with tstat := tretTstat b.tstat }
      (∀ b, s.me.tstat.toNat / 2 ^ 8 % 4 = 1 → tretBlock s false = .ok b →
        exec .tret s = .next ((u.modMe fun k => { k with rpt := some b, moored := true }).jump (wordAt b b.idx))) ∧
      (∀ b, s.me.tstat.toNat / 2 ^ 8 % 4 = 2 → tretBlock s true = .ok b →
        (s.myCore.buffer = none → exec .tret s =
          .next ((u.modMyCore fun c => { c with buffer := some ⟨s.berth, s.startAt, b, none, 0⟩ }).jump s.me.tscr)) ∧
        (s.myCore.buffer ≠ none → exec .tret s = .next (s.block .board))) ∧
      (∀ dec c v, s.buffered = false → s.me.tstat.toNat / 2 ^ 8 % 4 = (if dec then 2 else 1) → tretBlock s dec = .error (.trap c v) →
        exec .tret s = .next (trapped s c v))) ∧
    (∀ w va, (∀ x, codeWord s w va ≠ .ok x) → (∀ y, codeWord s w va ≠ .error (.wait y)) → (∀ u, codeWord s w va ≠ .error (.gone u)) →
      codeWord s w va = .error (.trap .fetch va) ∨ codeWord s w va = .error (.trap .poison (unitVa va))) ∧
    (s.me.user = true → s.buffered = false → exec .tret s = .next (trapped s .ill 0xEA000002) ∧ exec .wfi s = .next (trapped s .ill 0xEA000003)) ∧
    (∀ (c : Cause) (v : Word), s.me.rpt = none → s.me.started = false → s.buffered = false → s.me.pc.toNat < 2 ^ 52 → s.me.pc.toNat % 4 = 0 →
      ∃ t, exec .tret (s.takeTrap c v) = .next t ∧ t.me.pc = s.me.pc ∧ t.me.user = s.me.user ∧ t.me.tstat.getLsbD 2 = s.me.tstat.getLsbD 2 ∧
        t.me.pte = s.me.pte ∧ t.me.x = s.me.x ∧ t.mem = s.mem) ∧
    (s.me.user = false → intPending s.me = true → exec .wfi s = .next s.next) ∧
    (s.me.user = false → intPending s.me = false → s.buffered = false → exec .wfi s = .next (s.block .wfi)) ∧
    (exec .isync s = .next ((s.modMyCore fun c => { c with icache := [] }).next))

def Obligations.TrapInstructions : Prop := Spec.TrapInstructions ∧ Spec.TrapReturn

/-- R287: with nothing due no interrupt is taken; what is due is taken in the order BUDGET, DEBUG, PREEMPT, TIMER, the
taken one no longer pending, by the entry of R285 at the berth's PC; TIMER stays pending while the berth holds no barge (R292);
a trap of the repetition buffer is taken first, with the
word's address in TPC and the PC in TSCR (R53). -/
def Sys2Proof.Spec.InterruptEntries : Prop :=
  ∀ (s : State) (r b : Nat),
    (entryDue s r b = none → exec (.interruptEntry r b) s = .next s) ∧
    (∀ c, entryDue s r b = some c → (s.berthAt r b).bufTrap = none → ∃ t, exec (.interruptEntry r b) s = .next t ∧
      let u := t.berthAt r b
      u.tcause = c.word ∧ u.tpc = (s.berthAt r b).pc ∧ u.user = false ∧ u.wait = none ∧ t.rank = s.rank ∧ t.berth = s.berth ∧
      (c = .budget → u.pBudget = false) ∧ (c = .debug → u.pDebug = false) ∧ (c = .preempt → u.pPreempt = false) ∧
      (c = .timer → u.pTimer = false ∧ u.tval = w64 s.cycle)) ∧
    (∀ c q, entryDue s r b = some c → (s.berthAt r b).bufTrap = some q → (s.berthAt r b).rpt = none → q.k < 256 → q.idx < 4 →
      ∃ t, exec (.interruptEntry r b) s = .next t ∧
      let u := t.berthAt r b
      c = q.cause ∧ u.tcause = c.word ∧ u.tval = q.tval ∧ u.tpc = q.addr ∧ u.tscr = (s.berthAt r b).pc ∧ u.bufTrap = none ∧
        u.tstat.toNat / 2 ^ 8 % 4 = 2 ∧ u.tstat.toNat / 2 ^ 10 % 4 = q.idx ∧ u.tstat.toNat / 2 ^ 12 % 256 = q.k) ∧
    (let k := s.berthAt r b
     let ie := k.tstat.getLsbD 2
     let spent := k.hdr.isSome ∧ k.user = true ∧ k.tstat.getLsbD 5 = true ∧ k.budget = 0 ∧ k.pBudget = true
     (spent → pendingOf s r b = some .budget) ∧ (¬ spent → ie = true → k.pDebug = true → pendingOf s r b = some .debug) ∧
     (¬ spent → ie = true → k.pDebug = false → k.pPreempt = true → s.inBuffer r b = false → pendingOf s r b = some .preempt) ∧
     (¬ spent → ie = true → k.pDebug = false → k.pPreempt = false → k.pTimer = true → k.hdr.isSome = true → pendingOf s r b = some .timer) ∧
     (¬ spent → k.pDebug = false → k.pPreempt = false → k.hdr = none → pendingOf s r b = none) ∧
     (¬ spent → ie = false → pendingOf s r b = none))

/-- R32, R61, R172, R288, R292: what a core does of itself: its timer and its budgets raise their interrupts, a file unused for
1,024 cycles turns drowsy, a decode table's order is ready, a bank's switch ends with its new mode and nothing in it. -/
def Sys2Proof.Spec.CoreEvents : Prop :=
  ∀ (s : State) (r b n : Nat),
    let c := s.core r
    exec (.timerExpiry r) s = .next (if timerDue s r then s.modBerth r (timerBerth c) (fun k => { k with pTimer := true }) else s) ∧
    exec (.budgetExpiry r b) s = .next (if budgetDue s r b then s.modBerth r b (fun k => { k with pBudget := true }) else s) ∧
    exec (.registerFileDrowse r b) s = .next (if drowseDue s r b then s.modBerth r b (fun k => { k with drowsy := true }) else s) ∧
    (c.sort0 ≠ 0 → c.sort0 ≤ s.cycle → exec (.dtabSortDone r 0) s = .next (s.modCore r fun c => { c with sort0 := 0 })) ∧
    (s.cycle < c.sort1 → exec (.dtabSortDone r 1) s = .next s) ∧
    (switchDue s r n = false → exec (.basinSwitchDone r n) s = .next s) ∧
    (∀ m due, n < 16 → (s.bankOf r n).next = some (m, due) → due ≤ s.cycle → (s.bankOf r n).again = none →
      ∃ t, exec (.basinSwitchDone r n) s = .next t ∧ (t.bankOf r n).mode = m ∧ (t.bankOf r n).next = none ∧ (t.bankOf r n).fifo = [] ∧
        t.mem = s.mem ∧ (∀ off, n * 131072 ≤ off → off < (n + 1) * 131072 → t.isFull (.basin r off) = false ∧ t.poisoned (.basin r off) = false))

def Obligations.InterruptOrderAndCoreEvents : Prop := Spec.InterruptEntries ∧ Spec.CoreEvents

/-- R32, R34, R35, R300, R301: a halt asks the named berths to halt, or raises DEBUG at them when TRAPD is set; a berth halts
once it stands at a boundary; a resume lets the named berths issue; DATA writes the selected register of a halted berth
only, and not x0 or p0, and wakes a drowsy file, for 3 cycles; a CSR is written as by CSRW; a berth whose PC is written is in no
block any more. That a resume clears the HALT bits is the model's reading (DEDUCED, log 34); the register that keeps a lane's v
number is the model's own (DESIGN CHOICE, log 72). -/
def Obligations.DebuggerHaltsAndWrites : Prop :=
  ∀ (s : State) (r b n : Nat) (m : BitVec 16) (v : BitVec 64),
    (∃ t, exec (.debugHalt r m) s = .next t ∧ (t.core r).dbgctl = (s.core r).dbgctl ||| m.setWidth 64 ∧ ∀ b < 16, m.getLsbD b = true →
      ((s.core r).dbgctl.getLsbD 32 = true → (t.berthAt r b).pDebug = true ∧ (t.berthAt r b).halt = (s.berthAt r b).halt) ∧
      ((s.core r).dbgctl.getLsbD 32 = false → (t.berthAt r b).halt = if (s.berthAt r b).halt = .no then .asked else (s.berthAt r b).halt)) ∧
    (haltDue s r b = false → exec (.berthHalted r b) s = .next s) ∧
    (haltDue s r b = true → ∃ t, exec (.berthHalted r b) s = .next t ∧ (t.berthAt r b).halt = .halted ∧ (t.berthAt r b).pc = (s.berthAt r b).pc ∧
      (t.berthAt r b).x = (s.berthAt r b).x) ∧
    (∃ t, exec (.debugResume r m) s = .next t ∧ (t.core r).dbgctl = (s.core r).dbgctl &&& ~~~(m.setWidth 64) ∧
      (∀ b < 16, m.getLsbD b = true → (t.berthAt r b).halt = .no) ∧ ∀ b < 16, m.getLsbD b = false → t.berthAt r b = s.berthAt r b) ∧
    (stateCode s r ((s.core r).dbgsel.toNat / 2 ^ 8 % 16) ≠ 4 → exec (.debugDataWrite r v) s = .next (s.modCore r fun c => { c with dbgv := v.toNat / 2 ^ 32 % 16 })) ∧
    (b < 16 → n < 32 → (s.core r).dbgsel = w64 (256 * b + n) → stateCode s r b = 4 → ∃ t, exec (.debugDataWrite r v) s = .next t ∧
      (1 ≤ n → n < 24 → vget (t.berthAt r b).x n 0 = v) ∧ (n = 0 ∨ 24 ≤ n → (t.berthAt r b).x = (s.berthAt r b).x) ∧
      ((s.berthAt r b).drowsy = true → (t.berthAt r b).drowsy = false ∧ (t.berthAt r b).fileAt = s.cycle + 3)) ∧
    (b < 16 → n ≤ 9 → (s.core r).dbgsel = w64 (256 * b + 160 + n) → stateCode s r b = 4 → exec (.debugDataWrite r v) s =
      .next ((s.modCore r fun c => { c with dbgv := v.toNat / 2 ^ 32 % 16 }).csrPut r b n v)) ∧
    (b < 16 → (s.core r).dbgsel = w64 (256 * b + 128) → stateCode s r b = 4 → ∃ t, exec (.debugDataWrite r v) s = .next t ∧
      (t.berthAt r b).pc = v &&& 0x000FFFFFFFFFFFFC ∧ (t.berthAt r b).rpt = none) ∧
    (b < 16 → n < 16 → (s.core r).dbgsel = w64 (256 * b + 32 + n) → stateCode s r b = 4 → ∃ t, exec (.debugDataWrite r v) s = .next t ∧
      vget (t.berthAt r b).f n 0 = v.setWidth 32) ∧
    (b < 16 → n < 32 → (s.core r).dbgsel = w64 (256 * b + 64 + n) → stateCode s r b = 4 → ∃ t, exec (.debugDataWrite r v) s = .next t ∧
      let i := v.toNat / 2 ^ 32 % 16
      (t.core r).dbgv = i ∧ lane (vget (t.berthAt r b).v i 0) n = v.setWidth 32 ∧ ∀ j < 32, j ≠ n →
        lane (vget (t.berthAt r b).v i 0) j = lane (vget (s.berthAt r b).v i 0) j) ∧
    (b < 16 → (s.core r).dbgsel = w64 (256 * b + 96) → stateCode s r b = 4 → ∃ t, exec (.debugDataWrite r v) s = .next t ∧
      (t.berthAt r b).p = v.setWidth 32 ||| 1)

/-! ### The lockhouse: jobs, launches and contexts -/

/-- R309, R268, R271: LNCH in supervisor mode makes its release, waiting while it or another one runs; then it puts its job record
in the lockhouse's inbox, unless that holds 16, and waits for the answer, 110 cycles (the model's time, log 5: no rule gives one).
In user mode it traps ILL, and a misaligned record traps ALIGN. LCANCEL and JQCANCEL cancel
the launch whose LID they give: its packets leave the queues of its cores and its sluice commands stop. -/
def Sys2Proof.Spec.LaunchInstructions : Prop :=
  ∀ (s : State) (d a : BitVec 5) (v : BitVec 64),
    let pa := (s.rx a).toNat
    let put (t : State) : State := if 16 ≤ t.lock.inbox.length then t else t.withLock fun k => { k with inbox := k.inbox ++ [pa] }
    (Ready s [a] d → s.me.user = false → pa % 64 = 0 →
      (∀ u, s.releasing = .ok u → exec (.lnch d a) s = .next (wrote (put u) [a] d (b64 (decide (16 ≤ u.lock.inbox.length))) 110)) ∧
      (∀ u, s.releasing = .error (.gone u) → exec (.lnch d a) s = .next u) ∧
      (∀ y, s.releasing = .error (.wait y) → exec (.lnch d a) s = .next (s.block y))) ∧
    (Ready s [a] d → s.buffered = false → s.me.user = false → pa % 64 ≠ 0 → exec (.lnch d a) s = .next (trapped s .align (s.rx a))) ∧
    (Ready s [a] d → s.buffered = false → s.me.user = true →
      ∀ i ∈ [Instr.lnch d a, .lcancel a], exec i s = .next (trapped s .ill ((encode i).setWidth 64))) ∧
    (Ready s [a] 0 → s.me.user = false → exec (.lcancel a) s = .next (((cancelLaunch s (pa % 2 ^ 16)).pops [a]).next)) ∧
    exec (.jqcancel v) s = .next (cancelLaunch s (v.toNat % 2 ^ 16))

/-- R268: a live launch that is cancelled has none of its packets in the queues or overflows of its rectangle's cores, none
parked, none saved from a core that a pre-emption has stopped, no vacated barge kept there, and no sluice command of it that
could still run; of other launches nothing is lost from a queue. -/
def Sys2Proof.Spec.Cancelled : Prop :=
  ∀ (s : State) (lid : Nat) (l : Launch), s.launch lid = some l → l.cancel = false →
    let t := cancelLaunch s lid
    (∃ k, t.launch lid = some k ∧ k.cancel = true ∧ k.parked = []) ∧ t.mem = s.mem ∧
    (∀ r ∈ l.ranks, (∀ e ∈ (t.core r).queue, e.pk.hdr.lid.toNat ≠ lid) ∧ (∀ e ∈ (t.core r).spillq, e.1.hdr.lid.toNat ≠ lid) ∧
      (∀ e ∈ (t.core r).overq, e.hdr.lid.toNat ≠ lid) ∧ (∀ e, some e ∈ (t.core r).kept → e.pk.hdr.lid.toNat ≠ lid) ∧
      (∀ e ∈ (t.core r).vacated, e.2.hdr.lid.toNat ≠ lid)) ∧
    (∀ r e, e ∈ (s.core r).queue → e.pk.hdr.lid.toNat ≠ lid → e ∈ (t.core r).queue) ∧
    (∀ cl e, e ∈ (t.cluster cl).slu → e.2.lid = lid → sluFinal e.2 = true)

/-- R269 to R271: a JQTAIL that would pass the ring's size is discarded; a job is taken when every launch of the one before
has been admitted, the inbox first, then the ring's record at JQHEAD. The indices run freely and NL above 64 counts as 64 (log 46);
a record that cannot be read for poison has no launches (log 81). -/
def Sys2Proof.Spec.Jobs : Prop :=
  ∀ (s t : State) (v : BitVec 64) (pa : Nat),
    exec (.jqtailWrite v) s = .next (if s.lock.jqsize < v - s.lock.jqhead then s else s.withLock fun k => { k with jqtail := v }) ∧
    (takeDue s = false → exec .jobTake s = .next s) ∧
    (takeDue s = true → nextRecord s = some (pa, t) →
      let nl := if pa = noRecord ∨ llcPoison s pa 64 = true then 0 else min 64 (llcGet s (pa + 8) 2)
      let j : Job := ⟨t.lock.nextJob, pa, nl, llcGet s (pa + 10) 2 % 64, llcGet s (pa + 10) 2 / 32768 == 1, 0⟩
      exec .jobTake s = .next (jobEnd (t.withLock fun k => { k with jobs := k.jobs ++ [j], nextJob := k.nextJob + 1 }) t.lock.nextJob)) ∧
    (∀ q rest, s.lock.inbox = q :: rest → nextRecord s = some (q, s.withLock fun k => { k with inbox := rest })) ∧
    (s.lock.inbox = [] → jqRuns s.lock = true → s.lock.jqhead ≠ s.lock.jqtail →
      let at_ := s.lock.jqbase.toNat / 4096 * 4096 + 8 * (s.lock.jqhead.toNat % s.lock.jqsize.toNat)
      nextRecord s = some (if llcPoison s at_ 8 = true then noRecord else llcGet s at_ 8,
        s.withLock fun k => { k with jqhead := k.jqhead + 1 }))

/-- R263, R264, R267, R272: after a shootdown of its ASID, if a context write has left one to do, an admitted launch is RUNNING with
a LID of its own (of a launch in a group of devices, the one its lockhouses agree on, log 18); one that fails a check is FAILED
with the code of the first that it fails, in the table's order (log 47), and no core is touched. -/
def Sys2Proof.Spec.Admission : Prop :=
  ∀ (s : State) (id : Nat) (j : Job) (l : Launch),
    (admitDue s id = none → exec (.launchAdmission id) s = .next s) ∧
    (admitDue s id = some (j, l) →
      let s0 := s.withLock fun k => { k with jobs := k.jobs.map fun x => if x.id == id then { j with next := j.next + 1 } else x }
      let s1 := if s.lock.needShoot.contains l.asid then
          (shoot s0 (some l.asid) none).withLock fun k => { k with needShoot := nsDel k.needShoot l.asid }
        else s0
      let lid := lidFrom s1 65535 (if l.devs.isEmpty then s1.lock.lastLid + 1 else Config.groupLid l.desc % 65535 + 1)
      (admitCode s1 l = 0 → ∃ t, exec (.launchAdmission id) s = .next t ∧ t = admitLaunch s1 l ∧ t.lock.lastLid = lid ∧
        t.launches = s.launches ++ [{ l with lid := lid, state := 1, start := s.cycle, nextPass := s.cycle }]) ∧
      (admitCode s1 l ≠ 0 → ∃ t, exec (.launchAdmission id) s = .next t ∧ t.cores = s1.cores ∧ t.clusters = s1.clusters ∧
        t = jobEnd { (llcPut s1 (l.desc + 120) 8 (admitCode s1 l * 65536 + 4)) with launches := s.launches ++ [{ l with state := 4 }] } id))

/-- R164, R267: a launch ends when two passes in a row find every count balanced, with the same sums; any other pass is
recorded, and the next comes no sooner than 1,024 cycles later. -/
def Sys2Proof.Spec.Quiescence : Prop :=
  ∀ (s : State) (lid : Nat) (l : Launch), s.launch lid = some l →
    let v := sums s l
    (passDue s l = false → exec (.detectionPass lid) s = .next s) ∧
    (passDue s l = true → v.1 = 0 → v.2.1 = 0 → v.2.2.1 = v.2.2.2 → l.pass = some v →
      exec (.detectionPass lid) s = .next (endLaunch s lid (if l.cancel then 3 else 2))) ∧
    (passDue s l = true → (v.1 ≠ 0 ∨ v.2.1 ≠ 0 ∨ v.2.2.1 ≠ v.2.2.2 ∨ l.pass ≠ some v) →
      exec (.detectionPass lid) s = .next (s.modLaunch lid fun l => { l with pass := some v, nextPass := s.cycle + 1024 }))

/-- R266, R306: messages held for a rank go on, in their order, once the rank takes messages; before any that came later (log 44). -/
def Sys2Proof.Spec.HeldMessages : Prop :=
  ∀ (s : State) (r : Nat), exec (.heldMessageRelease r) s = .next (if releaseDue s r then
    (s.held.filter fun e => e.1 == r).foldl (fun t e => t.later 0 e.2) { s with held := s.held.filter fun e => e.1 != r } else s)

def Obligations.LaunchRequestsAndCancels : Prop := Spec.LaunchInstructions ∧ Spec.Cancelled
def Obligations.JobsAdmissionQuiescence : Prop := Spec.Jobs ∧ Spec.Admission ∧ Spec.Quiescence ∧ Spec.HeldMessages

/-- R272: a CTX write is discarded while a launch of the ASID lives; otherwise the context reads as written, its reserved
bits zero, no other context changes, and the shootdown waits for the next admission under the ASID (log 42). -/
def Sys2Proof.Spec.ContextWrites : Prop :=
  ∀ (s : State) (n : Nat) (v : BitVec 64),
    ((256 ≤ n ∨ s.launches.any (fun l => l.live && l.asid == n) = true) → exec (.ctxWrite n v) s = .next s) ∧
    (n < 256 → s.launches.any (fun l => l.live && l.asid == n) = false → ∃ t, exec (.ctxWrite n v) s = .next t ∧
      t.lock.needShoot.contains n = true ∧ t.ctx n = v &&& 0x8000FFFFFFFF8000 ∧ (∀ m, m ≠ n → t.ctx m = s.ctx m) ∧ t.mem = s.mem ∧ t.cores = s.cores)

/-- R277: a shootdown by ASID, by range or of everything leaves no matching entry in any translation unit and no line of a matching
page in any L1, an ASID's none with an instruction that waits (DEDUCED, log 85), and GO reads 1 until it is done; entries and lines go when it starts, and with ALL and RANGE together every
ASID's entries of the range go, and no others (log 41); one asked for while GO reads 1 is discarded. -/
def Sys2Proof.Spec.Shootdowns : Prop :=
  ∀ (s : State) (asid : BitVec 8) (va len v : BitVec 64),
    let hit (va len page size : Nat) : Prop := 0 < len ∧ va < page + size ∧ page < va + len
    let entryHit (va len : Nat) (e : TlbEnt) : Prop :=
      if e.big = true then hit va len (e.gran / 4096 * 2 ^ 28) (2 ^ 28) else hit va len (e.gran * 65536) 65536
    let lineHit (va len : Nat) (l : Line) : Prop :=
      if l.big = true then hit va len (l.va * 1024 / 2 ^ 28 * 2 ^ 28) (2 ^ 28) else hit va len (l.va * 1024 / 65536 * 65536) 65536
    (s.lock.tlbinv.getLsbD 31 = true → exec (.tlbinvAsid asid) s = .next s ∧ exec .tlbinvAll s = .next s ∧ exec (.registerWrite .tlbinv v) s = .next s) ∧
    (s.lock.tlbinv.getLsbD 31 = false →
      (∃ t, exec (.tlbinvAsid asid) s = .next t ∧ t.lock.tlbinv.getLsbD 31 = true ∧ (∀ cl e, e ∈ (t.cluster cl).tlb → e.asid ≠ asid.toNat) ∧
        (∀ r l, l ∈ (t.core r).l1 → l.asid ≠ asid.toNat) ∧
        (∀ r b w, (t.berthAt r b).wait = some w → ∀ e ∈ w.issued.xl, e.asid ≠ asid.toNat)) ∧
      (∃ t, exec .tlbinvAll s = .next t ∧ t.lock.tlbinv.getLsbD 31 = true ∧ (∀ cl, (t.cluster cl).tlb = []) ∧ (∀ r, (t.core r).l1 = [])) ∧
      (∃ t, exec (.tlbinvRange asid va len) s = .next t ∧ t.lock.tlbinv.getLsbD 31 = true ∧ t.lock.tlbva = va ∧ t.lock.tlblen = len ∧
        (∀ cl e, e ∈ (t.cluster cl).tlb → e.asid = asid.toNat → ¬ entryHit va.toNat len.toNat e) ∧
        (∀ r l, l ∈ (t.core r).l1 → l.asid = asid.toNat → ¬ lineHit va.toNat len.toNat l)) ∧
      (v.getLsbD 31 = true → v.getLsbD 8 = true → v.getLsbD 9 = true → ∃ t, exec (.registerWrite .tlbinv v) s = .next t ∧
        t.lock.tlbinv.getLsbD 31 = true ∧
        (∀ cl e, e ∈ (t.cluster cl).tlb ↔ e ∈ (s.cluster cl).tlb ∧ ¬ entryHit s.lock.tlbva.toNat s.lock.tlblen.toNat e) ∧
        (∀ r l, l ∈ (t.core r).l1 ↔ l ∈ (s.core r).l1 ∧ ¬ lineHit s.lock.tlbva.toNat s.lock.tlblen.toNat l))) ∧
    (∃ t, exec .shootdownDone s = .next t ∧ t.lock.tlbinv.getLsbD 31 = false ∧ { t with lock := s.lock } = s)

/-- R273, R341, R357: a host read through BAR2 gives the LLC's bytes, with EP when it meets a poisoned unit; all ones outside HBM and
until every stack is ready. A host write puts its bytes at the LLC and changes no other byte, or is discarded; a unit that it
writes whole is poisoned no longer, and no other unit's poison changes. -/
def Sys2Proof.Spec.HostWindow : Prop :=
  ∀ (s : State) (off n : Nat) (bytes : List (BitVec 8)),
    let pa := s.lock.bar2off.toNat + off
    (s.lock.hbm = 0xFF → pa + n ≤ 2 ^ 39 → ∃ ep, exec (.hostBar2Read off n) s =
      .next (s.out (.host ((upTo n).map fun i => s.readByte (.hbm (pa + i))) ep)) ∧
      (ep = true ↔ ∃ i < n, s.poisoned (.hbm (pa + i)) = true)) ∧
    (s.lock.hbm ≠ 0xFF → exec (.hostBar2Read off n) s = .next (s.out (.host ((upTo n).map fun _ => 0xFF) false)) ∧
      exec (.hostBar2Write off bytes) s = .next s) ∧
    (s.lock.hbm = 0xFF → s.memOk → ∃ t, exec (.hostBar2Write off bytes) s = .next t ∧
      (∀ i (h : i < bytes.length), pa + i < 2 ^ 39 → t.readByte (.hbm (pa + i)) = bytes[i]) ∧
      (∀ key, ¬ (pa ≤ key ∧ key < pa + bytes.length ∧ key < 2 ^ 39) → Memory.read t.mem key = Memory.read s.mem key) ∧
      (∀ u, 8 * u + 8 ≤ 2 ^ 39 → t.poisoned (.hbm (8 * u)) = (s.poisoned (.hbm (8 * u)) && !decide (pa ≤ 8 * u ∧ 8 * u + 8 ≤ pa + bytes.length))) ∧
      t.cores = s.cores ∧ t.clusters = s.clusters)

def Obligations.ContextsShootdownsHostWindow : Prop := Spec.ContextWrites ∧ Spec.Shootdowns ∧ Spec.HostWindow

/-! ### Pre-emption -/

/-- R302, R307, R357: a request on a core that runs no pre-emption makes PREEMPT pending at every berth with a barge, TVAL telling
the lead berth, and at the lead berth even without one, its TSTAT then IE = 1 and M = U (log 84); on another core it is dropped
(log 84). A restore starts the lead berth of a stopped core in use at the restore vector, in supervisor mode, with the buffer's
address in x3; it waits for a pre-emption that still runs, and does nothing on a core that none has stopped. -/
def Sys2Proof.Spec.PreemptRequests : Prop :=
  ∀ (s : State) (r b : Nat) (buf : BitVec 64),
    let c := s.core r
    (c.pre ≠ .none → exec (.preemptRequest r) s = .next s) ∧
    (c.pre = .none → ∃ t, exec (.preemptRequest r) s = .next t ∧ (t.core r).pre = .asked ∧ t.mem = s.mem ∧
      (∀ b < 16, (s.berthAt r b).hdr ≠ none → (t.berthAt r b).pPreempt = true ∧ (t.berthAt r b).preTval = b64 (leadBerth c == some b) ∧
        (t.berthAt r b).x = (s.berthAt r b).x ∧ (t.berthAt r b).pc = (s.berthAt r b).pc) ∧
      ∀ b < 16, (s.berthAt r b).hdr = none →
        if leadBerth c = some b then (t.berthAt r b).pPreempt = true ∧ (t.berthAt r b).preTval = 3 ∧ (t.berthAt r b).tstat = 4
        else t.berthAt r b = s.berthAt r b) ∧
    (startReady s r = true → c.pre = .stopped ∧ s.lock.ready.contains (clusterOf r) = true ∧
      ∃ e, alGet s.lock.ranks (clusterOf r) = some e ∧ e.valid = true ∧ e.transit = false) ∧
    (startReady s r = true → leadBerth c = some b → ∃ t, exec (.restoreStart r buf) s = .next t ∧ (t.core r).pre = .starting ∧
      let k := t.berthAt r b
      k.pc = (c.tvec &&& 0x000FFFFFFFFFFF00) + 0x80 ∧ k.user = false ∧ k.tcause = Cause.preempt.word ∧ k.tval = 1 ∧ vget k.x 3 0 = buf ∧
      (∀ i, i ≠ 3 → vget k.x i 0 = 0) ∧ k.hdr = none) ∧
    (c.pre = .asked ∨ (c.pre = .stopped ∧ startReady s r = false) →
      exec (.restoreStart r buf) s = .next (s.modCore r fun c => { c with waiting := some buf })) ∧
    (c.pre = .none ∨ c.pre = .starting ∨ c.pre = .restoring → exec (.restoreStart r buf) s = .next s)

/-- R304 to R307: PSPILL and PREST in supervisor mode, on a core whose pre-emption allows their parts, with a buffer that can
be reached and nothing to wait for, save or restore the parts named, in the order B, L, Q, V, and Q, L, B. They move 32 bytes a
cycle and take 110 more: of part B the 4 KiB and the 8-byte mask of each accumulator that the berth owns, or that its slot
names, and of no other. In user mode, or on a core with no pre-emption, they trap ILL, and so does a PREST B of a slot that is
not VALID; a PREST that would read poison into what can carry none, or whose slot's VALID is poisoned, traps POISON (DESIGN CHOICE, log 81). A berth that has vacated holds no
barge and keeps its ports. -/
def Sys2Proof.Spec.SpillAndRestore : Prop :=
  ∀ (s t : State) (d a b : BitVec 5) (buf : CtxBuf),
    let parts := s.rx b
    let pre := s.myCore.pre
    let time (accs : Nat) : Nat := ((if parts.getLsbD 0 then 59392 else 0) + (if parts.getLsbD 1 then 37376 else 0) +
      (if parts.getLsbD 2 then 4104 * accs else 0) + 31) / 32 + 110
    let owned := ((upTo 8).filter fun n => (s.myCore.acc n).owner == some s.berth).length
    let answer (v : Word) : Reply := { srcs := [a, b], writes := if parts.getLsbD 2 then [(d.toNat, v)] else [] }
    let same := s.rx a == s.myCore.bufAt
    (Ready s [a, b] d → s.buffered = false → (s.me.user = true ∨ pre = .none) →
      exec (.pspill d a b) s = .next (trapped s .ill ((encode (.pspill d a b)).setWidth 64)) ∧
      (s.me.user = true ∨ parts.getLsbD 0 = true ∨ parts.getLsbD 1 = true ∨ parts.getLsbD 2 = true →
        exec (.prest d a b) s = .next (trapped s .ill ((encode (.prest d a b)).setWidth 64)))) ∧
    (Ready s [a, b] d → s.me.user = false → (pre = .asked ∨ pre = .stopped ∨ ((pre = .starting ∨ pre = .restoring) ∧ parts.toNat % 16 = 8)) →
      openBuf s .write (s.rx a) = .ok (t, buf) → spillWaits s parts = false → ∀ t0, (if parts.getLsbD 0 then t.releasing else .ok t) = .ok t0 →
      let t1 := if parts.getLsbD 2 then spillB buf t0 else t0
      let t2 := if parts.getLsbD 1 then spillL buf t1 else t1
      let t3 := if parts.getLsbD 0 then spillQ buf [buf.g0, buf.g1, buf.g2] a t2 else t2
      let q := answer (berthWord s.myCore s.berth)
      (parts.getLsbD 3 = false → exec (.pspill d a b) s = .next (t3.done (time owned) q)) ∧
      (parts.getLsbD 3 = true → exec (.pspill d a b) s = .next (vacate (t3.put q).retire (time owned)))) ∧
    (∀ u, Ready s [a, b] d → s.me.user = false → (pre = .asked ∨ pre = .stopped) → openBuf s .write (s.rx a) = .ok (t, buf) → spillWaits s parts = false →
      parts.getLsbD 0 = true → t.releasing = .error (.gone u) → exec (.pspill d a b) s = .next u) ∧
    (∀ y, Ready s [a, b] d → s.me.user = false → (pre = .asked ∨ pre = .stopped) → openBuf s .write (s.rx a) = .ok (t, buf) → spillWaits s parts = false →
      parts.getLsbD 0 = true → t.releasing = .error (.wait y) → exec (.pspill d a b) s = .next (s.block y)) ∧
    (Ready s [a, b] d → s.me.user = false → (pre = .asked ∨ pre = .stopped) → openBuf s .write (s.rx a) = .ok (t, buf) → spillWaits s parts = true →
      exec (.pspill d a b) s = .next (s.block .spill)) ∧
    (Ready s [a, b] d → s.me.user = false → (pre = .starting ∨ (pre = .stopped ∧ parts.getLsbD 2 = false) ∨ (pre = .restoring ∧ parts.getLsbD 0 = false ∧ parts.getLsbD 1 = false)) →
      openBuf s .read (s.rx a) = .ok (t, buf) →
      let slot := if parts.getLsbD 0 then bufGet t buf (0x400 + 256 * s.berth + 248) else slotWord t s.berth 31
      let accs := slot.toNat % 256
      (∀ v, parts.getLsbD 2 = true → validPoison t buf (s.rx a) (parts.getLsbD 0) = some v → s.buffered = false →
        exec (.prest d a b) s = .next (trapped s .poison v)) ∧
      (parts.getLsbD 2 = true → validPoison t buf (s.rx a) (parts.getLsbD 0) = none → slot.getLsbD 63 = false → s.buffered = false →
        exec (.prest d a b) s = .next (trapped s .ill ((encode (.prest d a b)).setWidth 64))) ∧
      ((parts.getLsbD 2 = true → validPoison t buf (s.rx a) (parts.getLsbD 0) = none ∧ slot.getLsbD 63 = true) →
        (∀ v, restPoison t buf (s.rx a) parts accs = some v → s.buffered = false → exec (.prest d a b) s = .next (trapped s .poison v)) ∧
        (restPoison t buf (s.rx a) parts accs = none →
          let t1 := if parts.getLsbD 0 then restQ buf same t else t
          let t2 := if parts.getLsbD 1 then restL buf same t1 else t1
          let t3 := if parts.getLsbD 2 then restB buf same t2 else t2
          exec (.prest d a b) s =
            .next (t3.done (time ((upTo 8).filter fun n => accs / 2 ^ n % 2 == 1).length) (answer (slotWord t2 s.berth 29)))))) ∧
    (∀ lat, let u := vacate s lat
      u.me.hdr = none ∧ u.me.ports = s.me.ports ∧ u.me.moored = false ∧ (s.me.hdr ≠ none → s.berth < 16 → u.myCore.vac.getLsbD s.berth = true) ∧
      (∀ n < 8, (u.myCore.acc n).owner ≠ some s.berth))

def Obligations.PreemptionSavesAndRestores : Prop := Spec.PreemptRequests ∧ Spec.SpillAndRestore

/-! ### Errors, repairs and bring-up -/

/-- R338, R341, R342: a corrected error changes no data; an uncorrectable one poisons what it struck and leaves its bytes: a unit
of CLM, memory, a basin (a word of SCRATCH, or an entry of a FIFO) or an L1, the row of an accumulator, a latch half; a clean
parity-protected copy is fetched again. CLM below 0x8000, which software cannot lose, registers and protocol state, and memory that
holds a spilled or parked packet or a context buffer (log 77) are a fatal error, at the address struck; so are the mesh, a stack
and the package. -/
def Sys2Proof.Spec.ArrayErrors : Prop :=
  ∀ (s : State) (un : ErrUnit) (r off pa n row h asid va : Nat),
    (∃ t, exec (.eccCorrected un) s = .next t ∧ t.mem = s.mem ∧ t.basin = s.basin ∧ t.poison = s.poison) ∧
    (0x8000 ≤ off → ∃ t, exec (.eccUncorrectable (.clm r off)) s = .next t ∧ t.poisoned (.clm r off) = true ∧ t.mem = s.mem ∧
      (alGet t.lock.failing (clusterOf r)).isSome = true) ∧
    (off < 0x8000 → exec (.eccUncorrectable (.clm r off)) s = exec (.fatalError (.clm r off)) (s.countField r 32)) ∧
    (hbmOwner s pa = none → ∃ t, exec (.eccUncorrectable (.mem pa)) s = .next t ∧ t.poisoned (.hbm pa) = true ∧ t.mem = s.mem) ∧
    (∀ q, hbmOwner s pa = some q → exec (.eccUncorrectable (.mem pa)) s =
      .next (fatalAt (countUnit (countUnit s (sliceKey (sliceOf pa) 1)) (sliceKey (sliceOf pa) 2)) (.state q) (.mem pa))) ∧
    (hbmOwner s pa = none → ∃ t, exec (.eccUncorrectable (.hbm pa)) s = .next t ∧ t.poisoned (.hbm pa) = true ∧ t.mem = s.mem) ∧
    (∀ q, hbmOwner s pa = some q → exec (.eccUncorrectable (.hbm pa)) s =
      .next (fatalAt (countUnit s (stackKey (stackNo pa) 1)) (.state q) (.hbm pa))) ∧
    (∃ t, exec (.eccUncorrectable (.basin r off)) s = .next t ∧ t.basin = s.basin ∧ t.mem = s.mem ∧ (alGet t.lock.failing r).isSome = true ∧
      (t.cluster r).bcache.map (fun l => (l.pa, l.data)) = (s.cluster r).bcache.map (fun l => (l.pa, l.data)) ∧
      ((s.bankOf r (off / 131072)).next = none → (s.bankOf r (off / 131072)).mode = 1 → t.poisoned (.basin r off) = true) ∧
      ((s.bankOf r (off / 131072)).next = none → (s.bankOf r (off / 131072)).mode = 2 → off < 2 ^ 21 → ∀ (i : Nat) (w : Word) (p : Bool),
        (s.bankOf r (off / 131072)).fifo[i]? = some (w, p) → (t.bankOf r (off / 131072)).fifo[i]? = some (w, p || i == off % 131072 / 8))) ∧
    (∃ t, exec (.eccUncorrectable (.l1 r asid va)) s = .next t ∧ t.mem = s.mem ∧ ∀ l ∈ (s.core r).l1, l.asid = asid → l.va = va / 1024 →
      ∃ o ∈ (t.core r).l1, o.data = l.data ∧ o.valid = l.valid ∧ o.dirty = l.dirty ∧
        (fld l.dirty (8 * (va % 1024 / 8)) 8 ≠ 0 ∨ fld l.valid (8 * (va % 1024 / 8)) 8 ≠ 0 → o.poisonedIn (8 * (va % 1024 / 8)) 8 = true)) ∧
    (n < 8 → row < 32 → ∃ t, exec (.eccUncorrectable (.acc r n row)) s = .next t ∧ ((t.core r).acc n).pois.getLsbD row = true ∧
      ((t.core r).acc n).owner = ((s.core r).acc n).owner) ∧
    (∃ t, exec (.eccUncorrectable (.latch r h)) s = .next t ∧ ((t.core r).half h).pois = true ∧ ((t.core r).half h).data = ((s.core r).half h).data) ∧
    (∃ t, exec (.eccUncorrectable (.stair r n)) s = .next t ∧ (t.cluster r).scBad.contains n = true ∧ t.mem = s.mem) ∧
    (∀ u ∈ [ErrUnit.reg r n, .state r, .rankEntry r], exec (.eccUncorrectable u) s = .next (fatal (s.countField r 32) u)) ∧
    (∀ u ∈ [ErrUnit.mesh r, .stack n, .package], exec (.eccUncorrectable u) s = .next (fatal s u)) ∧
    (exec (.eccUncorrectable (.icache r asid va)) s = .next s ∧ exec (.eccUncorrectable (.tlb r asid va)) s = .next s)

/-- R340, R281: a failed flit is sent again until its eighth failure, a fatal error of the mesh (log 54); a free-slot return that fails is dropped, and counted
as received; a device link goes down when the sixteenth retry of one flit fails, and a link that is down takes no error. -/
def Sys2Proof.Spec.LinkErrors : Prop :=
  ∀ (s : State) (fl : FlitErr) (due link : Nat) (again : Bool) (i : Instr),
    (s.agenda[fl.idx]? = none → exec (.flitCrcError fl) s = .next s) ∧
    (s.agenda[fl.idx]? = some (due, i) → fl.fails < 8 → (∀ r k lid, i ≠ .freeSlotReturn r k lid) → exec (.flitCrcError fl) s = .next s) ∧
    (s.agenda[fl.idx]? = some (due, i) → 8 ≤ fl.fails → inMesh i = true → (∀ r k lid, i ≠ .freeSlotReturn r k lid) →
      exec (.flitCrcError fl) s = .next (fatal { s with agenda := s.agenda.eraseIdx fl.idx } (.mesh fl.rank))) ∧
    (∀ r k lid src, s.agenda[fl.idx]? = some (due, .freeSlotReturn r k ⟨lid, src⟩) →
      exec (.flitCrcError fl) s = .next (({ s with agenda := s.agenda.eraseIdx fl.idx } : State).incRecv r lid)) ∧
    (16 ≤ link ∨ s.lock.links.getLsbD link = false → exec (.linkFlitError (link, again)) s = .next s) ∧
    (link < 16 → s.lock.links.getLsbD link = true → ∃ t, exec (.linkFlitError (link, again)) s = .next t ∧
      t.lock.links.getLsbD link = decide ((if again then (alGet s.lock.linkTry link).getD 0 else 0) < 16) ∧ { t with lock := s.lock } = s)

/-- R342, R347, R349, R359: a fatal error ends every live launch that it strikes, and its cluster is to be retired (log 39); a dump is
taken, or waits for the one in progress; the copy's end reports it, on the drive that the firmware configuration names, and takes
the next. The dump of a thermal trip, and no other, takes core power with it; that the ready bits clear with it is the model's choice
(DESIGN CHOICE, log 78), and what else it takes its reading (DEDUCED, log 55). -/
def Sys2Proof.Spec.FatalErrors : Prop :=
  ∀ (s : State) (un : ErrUnit) (e : ErrRec),
    exec (.fatalError un) s = .next (fatal s un) ∧ (∀ l ∈ s.launches, struck s un l = true → (fatal s un).launch l.lid = none) ∧
    (∀ cl, fatalCluster un = some cl → alGet (fatal s un).lock.failing cl = some true) ∧ (fatal s un).lock.dumping = true ∧
    (s.lock.dumping = false → exec .dumpCopyDone s = .next s) ∧
    (s.lock.dumping = true → s.lock.dumpPend = [] → exec .dumpCopyDone s =
      .next ((s.withLock fun k => { k with dumping := false }).out (.nvme s.lock.dumpSeq s.lock.dumpDrive))) ∧
    (∀ rest, s.lock.dumping = true → s.lock.dumpPend = e :: rest → exec .dumpCopyDone s =
      .next (writeDump e (((s.withLock fun k => { k with dumping := false }).out (.nvme s.lock.dumpSeq s.lock.dumpDrive)).withLock fun k =>
        { k with dumpPend := rest }))) ∧
    (writeDump e s).lock.dumpSeq = s.lock.dumpSeq + 1 ∧ (writeDump e s).launches = s.launches ∧
    (s.lock.trip = some e → (writeDump e s).powerOff = true ∧ (writeDump e s).lock.ready = []) ∧
    (s.lock.trip ≠ some e → (writeDump e s).powerOff = s.powerOff ∧ (writeDump e s).lock.ready = s.lock.ready)

/-- R344, R350, R351: the scrubber goes one line on; a telemetry poll reads the counters and changes nothing else; with no
spare left a cluster's ranks become invalid; after a fatal error the spare's cores start empty. Else the ranks are in TRANSIT while the
state is copied, and then stand on the spare with the memory as it was (log 40: when the lockhouse acts, and in what time). -/
def Sys2Proof.Spec.Repairs : Prop :=
  ∀ (s : State) (stack line cl : Nat),
    (scrubNext s ≠ some (stack, line) → exec (.scrub stack line) s = .next s) ∧
    (scrubNext s = some (stack, line) → ∃ t, exec (.scrub stack line) s = .next t ∧ t.lock.scrubAt = s.lock.scrubAt + 2048 ∧ { t with lock := s.lock } = s) ∧
    (pollDue s = false → exec .telemetryPoll s = .next s) ∧
    (pollDue s = true → ∃ t, exec .telemetryPoll s = .next t ∧ t.lock.pollAt = s.cycle + 16777216 ∧ t.mem = s.mem ∧ t.cores = s.cores ∧
      t.clusters = s.clusters) ∧
    (retireDue s cl = false → exec (.clusterRetire cl) s = .next s) ∧
    (retireDue s cl = true → s.lock.spares = 0 → ∃ t, exec (.clusterRetire cl) s = .next t ∧ rankGone t cl = true ∧
      t.lock.ready.contains cl = false ∧ (alGet s.lock.failing cl = some false → t.cores = s.cores)) ∧
    (retireDue s cl = true → 0 < s.lock.spares → alGet s.lock.failing cl = some true → ∃ t, exec (.clusterRetire cl) s = .next t ∧
      rankGone t cl = false ∧ t.lock.spares = s.lock.spares - 1 ∧ (alGet t.lock.failing cl = none) ∧ ∀ r ∈ ringRanks cl, t.core r = Core.reset) ∧
    (retireDue s cl = true → 0 < s.lock.spares → alGet s.lock.failing cl = some false → alGet s.lock.moving cl = none →
      ∃ t, exec (.clusterRetire cl) s = .next t ∧ alGet t.lock.moving cl = some (s.cycle + 139264) ∧ ∀ r ∈ ringRanks cl, t.rankHeld r = true) ∧
    (retireDue s cl = true → 0 < s.lock.spares → alGet s.lock.failing cl = some false → alGet s.lock.moving cl ≠ none →
      ∃ t, exec (.clusterRetire cl) s = .next t ∧ rankGone t cl = false ∧ t.mem = s.mem ∧ t.lock.spares = s.lock.spares - 1 ∧
        (alGet t.lock.failing cl = none) ∧ (alGet t.lock.moving cl = none) ∧ ∀ e ∈ t.lock.corr, clusterOf e.1 ≠ cl)

def Obligations.ErrorEffectsAndRepairs : Prop := Spec.ArrayErrors ∧ Spec.LinkErrors ∧ Spec.FatalErrors ∧ Spec.Repairs

/-- R353 to R356: power-on leaves the device at its reset contents, nothing ready, with the ROM's stage next, its memory and registers
empty and zero by the model's choice (log 1, log 4); a configuration request before the endpoint is ready is answered with the retry status, and
what a ready endpoint answers is an open value (DESIGN CHOICE, log 12). -/
def Sys2Proof.Spec.PowerOn : Prop :=
  ∀ (s : State) (bt : BootInput) (rq : Nat),
    (∃ t, exec (.powerOnReset bt) s = .next t ∧ t.mem = [] ∧ t.cores = [] ∧ t.clusters = [] ∧ t.launches = [] ∧ t.agenda = [] ∧ t.cycle = 0 ∧
      t.lock.stage = 1 ∧ t.lock.running = false ∧ t.lock.pcie = false ∧ t.lock.hbm = 0 ∧ t.lock.ready = [] ∧ t.lock.scReady = [] ∧
      t.lock.boot = some bt ∧ t.lock.written = s.lock.written ∧ bootDue t = some bt) ∧
    exec (.pcieConfigurationRequest rq) s = .next (s.out (if s.lock.pcie then .config false (Config.configReply rq) else .config true 0))

/-- R353 to R356: the boot goes on stage by stage: the ROM reads drive 0, or drive 1 when drive 0 does not answer, and halts at
0xF with no valid slot; the firmware then trains the stacks, halting when one fails, then the links; clusters turn ready one by
one, each with its staircase engine if that passed; last the endpoint answers. A halted boot leaves FIXRDY.LH as it stands, and MAGIC is
not judged (log 52). -/
def Sys2Proof.Spec.BootSteps : Prop :=
  ∀ (s : State) (now : Nat) (bt : BootInput) (k : Lock),
    let u := bootStep now bt k
    (nextAct s = .boot bt → step s = .next (s.withLock (bootStep s.cycle bt))) ∧
    (∀ p, bt.drive0 = some p → ∃ q, bootDrive k bt = some (0, q)) ∧
    (∀ p, bt.drive0 = none → bt.drive1 = some p → ∃ q, bootDrive k bt = some (1, q)) ∧
    (k.stage = 1 → bt.drive0 = none → bt.drive1 = none → u.stage = 15 ∧ u.boot = none ∧ u.running = k.running ∧ u.pcie = k.pcie) ∧
    (∀ d a b, k.stage = 1 → bootDrive k bt = some (d, a, b) →
      (bootSlot a b = none → u.stage = 15 ∧ u.boot = none ∧ u.running = k.running ∧ u.pcie = k.pcie) ∧
      (∀ n f, bootSlot a b = some (n, f) → u.stage = 2 ∧ u.running = true ∧ u.slot = n ∧ u.drive = d ∧ u.fwver = f.ver ∧ u.fwdig = f.dig ∧
        u.sram = f.image ∧ u.corrMax = bt.corrMax.getD 256 ∧ u.plim = bt.plim.getD 3600 ∧ u.dumpDrive = bt.dumpDrive.getD d ∧ u.pcie = k.pcie)) ∧
    (k.stage = 2 → u.hbm = bt.hbm ∧ u.stage = (if bt.hbm = 0xFF then 3 else 15)) ∧
    (k.stage = 3 → u.stage = 4 ∧ u.links = bt.links ∧ u.spares = bt.spares ∧ u.toTest = bt.clusters ∧ u.ready = k.ready) ∧
    (∀ cl l, k.stage = 4 → k.toTest = cl :: l → u.stage = 4 ∧ u.toTest = l ∧ u.pcie = k.pcie ∧
      (∀ c, u.ready.contains c = true ↔ k.ready.contains c = true ∨ (c = cl ∧ cl < 576)) ∧
      (∀ c, u.scReady.contains c = true ↔ k.scReady.contains c = true ∨ (c = cl ∧ cl < 576 ∧ bt.stairs.contains cl = true))) ∧
    (k.stage = 4 → k.toTest = [] → u.stage = 5 ∧ u.pcie = true ∧ u.boot = none ∧ u.ready = k.ready)

/-- R354: of two valid slots the ROM boots the one of the higher version, A of equals, and never an invalid one; an image that the
firmware is given goes, if it is valid, into the slot it does not run from. -/
def Sys2Proof.Spec.FirmwareSlots : Prop :=
  ∀ (s : State) (x y : FwSlot),
    (slotOk x = true → slotOk y = true → bootSlot (some x) (some y) = if x.ver.toNat < y.ver.toNat then some (0xB, y) else some (0xA, x)) ∧
    (slotOk x = true → slotOk y = false → bootSlot (some x) (some y) = some (0xA, x)) ∧
    (slotOk x = false → slotOk y = true → bootSlot (some x) (some y) = some (0xB, y)) ∧
    (slotOk x = false → slotOk y = false → bootSlot (some x) (some y) = none) ∧
    (slotOk x = true → x.image.length = x.len.toNat ∧ x.len.toNat ≤ 8 * 2 ^ 20 - 256 ∧ Config.fusedMinVer ≤ x.ver.toNat) ∧
    (s.lock.running = true → slotOk x = true → exec (.registerWrite (.image x) 0) s = .next (s.withLock fun k =>
      { k with written := alSet k.written (2 * k.drive + if k.slot = 0xA then 1 else 0) x })) ∧
    (slotOk x = false → exec (.registerWrite (.image x) 0) s = .next s)

/-- R358: writing 1 to ATGO starts a report, unless one is being made; its end clears ATGO and leaves the report in memory. Its time is
the model's (log 10: no rule gives one); the report's layout, and its place, ATADDR with the low 8 bits ignored, are its reading (DEDUCED,
log 53). -/
def Sys2Proof.Spec.Attestation : Prop :=
  ∀ (s : State) (v : BitVec 64),
    (v.getLsbD 0 = true → s.lock.atgo = false → exec (.atgoWrite v) s =
      .next ((s.withLock fun k => { k with atgo := true }).later 1000000 .attestReportDone)) ∧
    ((v.getLsbD 0 = false ∨ s.lock.atgo = true) → exec (.atgoWrite v) s = .next s) ∧
    (s.lock.atgo = false → exec .attestReportDone s = .next s) ∧
    (s.lock.atgo = true → ∃ t, exec .attestReportDone s = .next t ∧ t.lock.atgo = false ∧ t.cores = s.cores ∧
      t = (llcPut s (s.lock.ataddr.toNat / 256 * 256) 256 (ofBytes (report s.lock))).withLock fun k => { k with atgo := false })

/-- R359, R360: the clock falls by 100 MHz while the average power, of the samples of the last 10 ms that there are (log 55), exceeds
the limit, never below 1,200 MHz; the board port
reads power, temperature in eighths of a degree, the ready registers and the boot state, each answer with its Packet Error Code, and sets
the limit within 1,000 to 3,600 W (a range that binds this write, not the register), a bad code being answered with NACK; at 105 degrees
a fatal error of the package strikes, and its dump takes core power. The code
is SMBus's CRC-8, which the spec names and does not give (log 76). -/
def Sys2Proof.Spec.Board : Prop :=
  ∀ (s : State) (w : Nat) (temp : Int) (code : BitVec 8),
    let answer (cmd : BitVec 8) (data : List (BitVec 8)) : Host.Outcome State Fault Refusal :=
      .next (s.out (.smbus (data ++ [pec ([0x98, cmd, 0x99] ++ data)])))
    (∃ t, exec (.powerMeasurement w) s = .next t ∧ t.lock.plim = s.lock.plimNext ∧ t.lock.power = w ∧ { t with lock := s.lock } = s ∧
      (s.lock.plimNext * ((w :: s.lock.samples).take 10).length < total ((w :: s.lock.samples).take 10) →
        t.lock.clock = max 1200 (s.lock.clock - 100))) ∧
    (temp < 8 * 105 → exec (.thermalTrip temp) s = .next (s.withLock fun k => { k with temp := temp })) ∧
    (8 * 105 ≤ temp → exec (.thermalTrip temp) s = .next (fatal (s.withLock fun k =>
      { k with temp := temp, trip := k.trip <|> some (fatalRec s .package) }) .package)) ∧
    exec .smbusReadPower s = answer 1 (toBytes 2 s.lock.power) ∧
    exec .smbusReadTemperature s = answer 2 (toBytes 2 (BitVec.ofInt 16 s.lock.temp).toNat) ∧
    exec .smbusReadReady s = answer 3 (16 :: (toBytes 8 (fixrdy s.lock).toNat ++ toBytes 8 (clcount s.lock).toNat)) ∧
    exec .smbusReadBoot s = answer 5 (8 :: (toBytes 4 (bootst s.lock).toNat ++ toBytes 4 s.lock.fwver.toNat)) ∧
    (1000 ≤ w → w ≤ 3600 → code = pec ([0x98, 4] ++ toBytes 2 w) →
      exec (.smbusWritePlim (w, code)) s = .next (s.withLock fun k => { k with plimNext := w })) ∧
    (w < 1000 ∨ 3600 < w ∨ code ≠ pec ([0x98, 4] ++ toBytes 2 w) → exec (.smbusWritePlim (w, code)) s = .next (s.out .nack))

/-- R271, R277, R295, R300, R358: the device registers that have no step of their own take the value written, in the bits they
hold; the nonce and the address of a report stand while one is made. -/
def Sys2Proof.Spec.DeviceRegisters : Prop :=
  ∀ (s : State) (v : BitVec 64) (n r b k : Nat),
    exec (.registerWrite .jqbase v) s = .next (s.withLock fun l => { l with jqbase := v &&& 0xFFFFFFFFFFFFF000 }) ∧
    exec (.registerWrite .jqsize v) s = .next (s.withLock fun l => { l with jqsize := v }) ∧
    exec (.registerWrite .bar2off v) s = .next (s.withLock fun l => { l with bar2off := v }) ∧
    exec (.registerWrite .tlbva v) s = .next (s.withLock fun l => { l with tlbva := v }) ∧
    exec (.registerWrite .tlblen v) s = .next (s.withLock fun l => { l with tlblen := v }) ∧
    exec (.registerWrite (.atnonce n) v) s = .next (if s.lock.atgo then s else s.withLock fun l => { l with atnonce := vset l.atnonce n v }) ∧
    exec (.registerWrite .ataddr v) s = .next (if s.lock.atgo then s else s.withLock fun l => { l with ataddr := v }) ∧
    (r < 9216 → exec (.registerWrite (.dbgsel r) v) s = .next (s.modCore r fun c => { c with dbgsel := v &&& 0xFFF })) ∧
    (r < 9216 → b < 16 → exec (.registerWrite (.csr r b k) v) s = .next (s.csrPut r b k v)) ∧
    (s.lock.tlbinv.getLsbD 31 = false → v.getLsbD 31 = false →
      exec (.registerWrite .tlbinv v) s = .next (s.withLock fun l => { l with tlbinv := v &&& 0x800003FF })) ∧
    exec (.registerWrite .plim v) s = .next (s.withLock fun l => { l with plimNext := v.toNat }) ∧
    (r < 9216 → v &&& 0xFFFFFFFF = 0 → exec (.registerWrite (.dbgctl r) v) s = .next (s.modCore r fun c => { c with dbgctl := v &&& 0x300000000 }))

def Obligations.BringUpAndAttestation : Prop := Spec.PowerOn ∧ Spec.BootSteps ∧ Spec.FirmwareSlots ∧ Spec.Attestation
def Obligations.BoardAndRegisters : Prop := Spec.Board ∧ Spec.DeviceRegisters

/-! ### Encodings, steps and invariants -/

/-- R38 to R46: for every well-formed instruction that has a word, with every operand at every value, decoding its word gives
the instruction back. -/
def Obligations.DecodeEncode : Prop :=
  ∀ i : Instr, i.wf = true → i.encoded = true → decodeWord (encode i) = .ok i

/-- R46: every word that is an instruction is the one word of its instruction, so a set bit that must be zero, or an unused
field that is not, makes it illegal; the words of the reserved major opcodes of R43, and both guards, are none. -/
def Obligations.OneWordEach : Prop :=
  (∀ (w : W32) (i : Instr), decodeWord w = .ok i → encode i = w ∧ i.wf = true ∧ i.encoded = true) ∧
  ∀ w : W32, w.toNat / 2 ^ 25 ∈ [0x00, 0x13, 0x18, 0x19, 0x1A, 0x1B, 0x35, 0x36, 0x37, 0x45, 0x46, 0x47, 0x55, 0x56, 0x57, 0x5E, 0x5F, 0x64,
    0x65, 0x66, 0x67, 0x6F, 0x73, 0x78, 0x79, 0x7A, 0x7B, 0x7C, 0x7D, 0x7E, 0x7F] → ∀ i, decodeWord w ≠ .ok i

/-- R38 to R45: words written out from the encoding tables, major opcode first, stand for their instructions. -/
def Obligations.DecodeWords : Prop :=
  decodeWord 0b0000001_00011_00001_00010_0000000000 = .ok (.add 3 1 2) ∧
  decodeWord 0b0000010_00101_00110_111111111111111 = .ok (.addi 5 6 (-1)) ∧
  decodeWord 0b0010100_00011_1_0000000000000000101 = .ok (.bpT 3 5) ∧
  decodeWord 0b0100110_00100_00111_000000000010000 = .ok (.std 4 7 16) ∧
  decodeWord 0b1001000_001_01100_00000_000000000000 = .ok (.mmaBf 1 12 0 0 0) ∧
  decodeWord 0b1110101_0000000000000000000000010 = .ok .tret ∧ decodeWord 0b1110100_00011_00000_001_000000000111 = .ok (.csrr 3 7) ∧
  decodeWord 0b0000001_00011_00001_00010_0000000111 = .error .function ∧ decodeWord 0 = .error .opcode

/-- R17, R19, R20, R46, R47: when the issue slot goes to a berth with no block in progress and the word it fetches at its PC decodes
to an instruction, a step is exec of that instruction at the state in which the berth holds the slot; a word that decodes
to none takes the illegal-instruction trap. A line that is not there, or a translation, makes it wait, and a fetch that fails traps FETCH. An instruction that meets the repetition buffer's registers waits (R53). Beside that,
a vector instruction's cycle is noted, since the buffer's next vector word follows it (R53). -/
def Obligations.StepRunsDecoded : Prop :=
  ∀ (s : State) (r b : Nat) (w : W32), nextAct s = .issue r b → (s.berthAt r b).drowsy = false →
    let t := takeSlot s r b
    let u := t.modMe fun k => { k with entry := false }
    t.me.rpt = none →
    (∀ v lat, fetchAt t t.me.pc = .filled v lat → step s = .next (fetchWait v lat)) ∧
    (∀ y, fetchAt t t.me.pc = .wait y → step s = .next (t.block y)) ∧
    (fetchAt t t.me.pc = .fault .fetch → step s = exec (.fetchFault t.me.pc) t) ∧
    (fetchAt t t.me.pc = .word w →
    (∀ i, decodeWord w = .ok i → boardConflict u w = false → step s = exec i (u.noteVector w)) ∧
    (∀ i, decodeWord w = .ok i → boardConflict u w = true → step s = .next (u.block .board)) ∧
    (∀ e, decodeWord w = .error e → step s = exec (.illegalInstruction w) u) ∧
    (t.myCore.buffer = none → boardConflict u w = false) ∧
    (u.noteVector w = u ∨ (isVector w.toNat = true ∧ u.noteVector w = u.modMyCore fun c => { c with vecAt := s.cycle + 1 })) ∧ u.rank = r ∧ u.berth = b ∧ u.me.pc = (s.berthAt r b).pc ∧ u.mem = s.mem)

/-- R18, R19, R288: with nothing from outside, nothing due and no berth that can issue, a step is the clock's tick: the cycle
goes on by one, and nothing changes in the whole state but the budgets that count. -/
def Obligations.TickChangesOnlyBudgets : Prop :=
  ∀ s : State, nextAct s = .tick → ∃ t, step s = .next t ∧ t.cycle = s.cycle + 1 ∧ { t with cycle := s.cycle, cores := s.cores } = s ∧
    (∀ r, { t.core r with berths := (s.core r).berths } = s.core r) ∧
    ∀ r b, b < 16 → (t.berthAt r b).budget = (if counting (s.berthAt r b) = true ∧ (s.berthAt r b).budget ≠ 0
        then (s.berthAt r b).budget - 1 else (s.berthAt r b).budget) ∧
      { t.berthAt r b with budget := (s.berthAt r b).budget } = s.berthAt r b

/-- Every step keeps memory in its one canonical form: addresses strictly rising, no entry equal to what an unlisted address
reads as (the model's form of memory, log 1). -/
def Obligations.StepKeepsMemory : Prop :=
  ∀ s t : State, s.memOk → step s = .next t → t.memOk

/-- The device right after reset: memory lists nothing and is in canonical form; cores, clusters, the lockhouse hold the reset
values of R7's tables: R31, R60, R147, R171, R214, R292, R294, R359. -/
def Obligations.ResetValues : Prop :=
  State.reset.memOk ∧ State.reset.mem = [] ∧ State.reset.cycle = 0 ∧ State.reset.powerOff = false ∧
  ∀ r b cl : Nat,
    let c := State.reset.core r
    let g := State.reset.cluster cl
    c.corecfg = 0xFFFF ∧ c.probecfg = 0x0000100000100001 ∧ c.tvec = 0 ∧ c.timecmp = 0 ∧ c.cap = 64 ∧ c.queue = [] ∧ c.curh = 0 ∧
    c.dt0 = dtabT0 ∧ c.dt1 = dtabT1 ∧ (State.reset.berthAt r b).hdr = none ∧ (State.reset.berthAt r b).p = 1 ∧
    (∀ n < 16, (State.reset.bankOf cl n).mode = 0 ∧ (barrier g n).count = 16 ∧ (barrier g n).arr = 0) ∧ g.slu = [] ∧ g.sslots = [] ∧ g.tlb = [] ∧
    State.reset.lock.plim = 3600 ∧ State.reset.lock.running = false

/-- The frame of the instructions that write registers only (those whose statements give `wrote`, `marked`, `floated`,
`lanesDone` or `vectorDone`), outside ports and blocks: no byte of memory, no other core, berth, cluster or part of the device
changes; and of the berth only its destination, the FCSR flags where the instruction raises some, mooring where it is a
vector instruction, the PC and the berth's own progress. -/
def Obligations.RegisterFrames : Prop :=
  ∀ (s : State) (srcs : List (BitVec 5)) (d p : BitVec 5) (fd vd : BitVec 4) (v : Word) (q : Bool) (fl : Flags) (r : W32 × Flags)
    (m : BitVec 1) (g : Nat → W32 × Flags) (vv : VReg) (lat : Nat), lat ≤ 8 → (∀ x ∈ srcs, x.toNat < 24) → d.toNat < 24 → Plain s →
    let frame (t : State) : Prop := { t with cores := s.cores } = s ∧ (∀ k, k ≠ s.rank → t.core k = s.core k) ∧
      (∀ b, b % 16 ≠ s.berth % 16 → t.berthAt s.rank b = s.berthAt s.rank b) ∧
      { t.myCore with berths := s.myCore.berths } = { s.myCore with instret := s.myCore.instret + 1 } ∧ t.me.pc = s.me.pc + 4
    let as' (t : State) (k : Berth) : Prop :=
      { k with pc := t.me.pc, wait := t.me.wait, readyAt := t.me.readyAt, drowsy := t.me.drowsy, lastIssue := t.me.lastIssue } = t.me
    (frame (wrote s srcs d v lat) ∧ as' (wrote s srcs d v lat) { s.me with x := (wrote s srcs d v lat).me.x } ∧
      ∀ k, k < 24 → k ≠ d.toNat → vget (wrote s srcs d v lat).me.x k 0 = vget s.me.x k 0) ∧
    (frame (marked s srcs p q fl) ∧ as' (marked s srcs p q fl) { s.me with p := (marked s srcs p q fl).me.p, fcsr := s.me.fcsr ||| fl.setWidth 64 } ∧
      ∀ k, k < 32 → k ≠ p.toNat → (marked s srcs p q fl).me.p.getLsbD k = s.me.p.getLsbD k) ∧
    (frame (floated s srcs fd r) ∧ as' (floated s srcs fd r) { s.me with f := (floated s srcs fd r).me.f, fcsr := s.me.fcsr ||| r.2.setWidth 64 } ∧
      ∀ k, k < 16 → k ≠ fd.toNat → vget (floated s srcs fd r).me.f k 0 = vget s.me.f k 0) ∧
    (frame (lanesDone s vd m g) ∧ as' (lanesDone s vd m g) { s.me with v := (lanesDone s vd m g).me.v, moored := true, fcsr := s.me.fcsr ||| (orFlags s.me.p m (fun i => (g i).2) 32).setWidth 64 } ∧
      ∀ k, k < 16 → k ≠ vd.toNat → vget (lanesDone s vd m g).me.v k 0 = vget s.me.v k 0) ∧
    (frame (vectorDone s vd vv fl) ∧ as' (vectorDone s vd vv fl) { s.me with v := (vectorDone s vd vv fl).me.v, moored := true, fcsr := s.me.fcsr ||| fl.setWidth 64 } ∧
      ∀ k, k < 16 → k ≠ vd.toNat → vget (vectorDone s vd vv fl).me.v k 0 = vget s.me.v k 0)

/-! ### Signs and classes -/

/-- R87: FSGNJ, FSGNJN and FSGNJX keep the low 31 bits of fa and take fb's sign bit, its complement, or the exclusive or of
both sign bits; a NaN in fa gives the canonical NaN and raises NV if it is signalling; no other flag is raised, and a NaN
in fb only gives its sign bit. -/
def Sys2Proof.Spec.FloatSigns : Prop :=
  ∀ (s : State) (d a b : BitVec 4),
    let x := s.rf a
    let sa := x.getLsbD 31
    let sb := (s.rf b).getLsbD 31
    let nan : Prop := x.toNat / 2 ^ 23 % 256 = 255 ∧ x.toNat % 2 ^ 23 ≠ 0
    let signalling : Prop := nan ∧ x.getLsbD 22 = false
    let put (sign : Bool) : Host.Outcome State Fault Refusal := .next (floated s [] d
      (if nan then (0x7FC00000, if signalling then 16 else 0) else ((x &&& 0x7FFFFFFF) ||| (if sign then 0x80000000 else 0), 0)))
    exec (.fsgnj d a b) s = put sb ∧ exec (.fsgnjn d a b) s = put (!sb) ∧ exec (.fsgnjx d a b) s = put (xor sa sb)

/-- R88: FCLASS sets exactly one bit of x[d], the one of fa's class, and clears the rest. -/
def Sys2Proof.Spec.FloatClasses : Prop :=
  ∀ (s : State) (d : BitVec 5) (a : BitVec 4), Ready s [] d →
    let x := s.rf a
    let e := x.toNat / 2 ^ 23 % 256
    let m := x.toNat % 2 ^ 23
    let neg := x.getLsbD 31
    let cls : Nat :=
      if e = 255 then (if m = 0 then (if neg then 0 else 7) else if x.getLsbD 22 then 9 else 8)
      else if e = 0 then (if m = 0 then (if neg then 3 else 4) else if neg then 2 else 5)
      else if neg then 1 else 6
    exec (.fclass d a) s = .next (wrote s [] d (w64 (2 ^ cls)))

def Obligations.SignsAndClasses : Prop := Spec.FloatSigns ∧ Spec.FloatClasses

/-! ### Global memory, the basin and migration -/

/-- R37, R174, R276, R280: a load of global memory from the L1 completes at once with the bytes of the line, when they are valid there
and the page may be read; one that misses fetches its sector, from the LLC or, on a steady page, through the cluster cache, and
leaves it valid and clean in the L1. A sector that holds stored bytes only is cleaned first. A device page is never cached. -/
def Sys2Proof.Spec.GlobalLoads : Prop :=
  ∀ (s : State) (d a : BitVec 5) (im : BitVec 15) (p : Word) (pa : Nat),
    let va := addr s a im
    let off := va.toNat % 1024
    let as := s.who.asid
    let cl := clusterOf s.rank
    Ready s [a] d → va.toNat < 13 * 2 ^ 48 → va.toNat % 8 = 0 → s.migratesFar va 8 .read = none → s.myCore.l1Busy ≤ s.cycle →
    (∀ l, s.lineOf s.rank as va.toNat = some l → l.covers off 8 = true → l.poisonedIn off 8 = false →
      (permOk s.me.user .read l.pte = true → exec (.ldd d a im) s = .next (wrote s [a] d (w64 (l.get off 8)))) ∧
      (permOk s.me.user .read l.pte = false → s.buffered = false → exec (.ldd d a im) s = .next (trapped s .loadf va))) ∧
    (s.translate s.who .read va = .ok (p, pa) → isFarClm pa = false →
      (s.lineOf s.rank as va.toNat = none → pteDev p = true → s.anyPoison (.hbm pa) 8 = false →
        exec (.ldd d a im) s = .next (wrote s [a] d (w64 (s.readN (.hbm pa) 8)) (s.llcTime pa))) ∧
      (s.lineOf s.rank as va.toNat = none → pteDev p = false → (pteStdy p = true → isFar pa = true) → s.poisonBits (pa / 128 * 128) 16 = 0 →
        ∃ t, exec (.ldd d a im) s = .next (wrote t [a] d (w64 (s.readN (.hbm pa) 8))
            ((if Config.llcHit s.cycle (pa / 1024) then 110 else 200) + if isFar pa then 1080 else 0)) ∧
          ∃ l, t.lineOf s.rank as va.toNat = some l ∧ l.covers (off / 128 * 128) 128 = true ∧ l.dirty = 0 ∧ l.stamp = s.myCore.stamp) ∧
      (∀ b, s.lineOf s.rank as va.toNat = none → pteDev p = false → pteStdy p = true → isFar pa = false →
        (s.cluster cl).bcache.find? (fun l => l.pa == pa / 1024) = some b → fld b.pois (pa % 1024 / 128 * 16) 16 = 0 →
        ∃ t, exec (.ldd d a im) s = .next (wrote t [a] d (w64 (b.data.toNat / 2 ^ (8 * (pa % 1024)))) 36) ∧ t.mem = s.mem) ∧
      (∀ l, s.lineOf s.rank as va.toNat = some l → l.covers off 8 = false → l.pa = pa / 1024 → pteStdy p = false →
        let c := s.cleanSector l (off / 128)
        c.poisonBits (pa / 128 * 128) 16 = 0 →
        ∃ t, exec (.ldd d a im) s = .next (wrote t [a] d (w64 (c.readN (.hbm pa) 8)) (s.llcTime pa)) ∧
          ∃ k, t.lineOf s.rank as va.toNat = some k ∧ k.covers (off / 128 * 128) 128 = true ∧ k.dirty &&& secMask (off / 128) = 0)) ∧
    (∀ y, s.lineOf s.rank as va.toNat = none → s.translate s.who .read va = .error (.wait y) → exec (.ldd d a im) s = .next (s.block y)) ∧
    (∀ c v, s.lineOf s.rank as va.toNat = none → s.buffered = false → s.translate s.who .read va = .error (.trap c v) →
      exec (.ldd d a im) s = .next (trapped s c v))

/-- R174, R276, R280: a store to global memory writes its bytes into the L1's line, valid and dirty, and no byte of memory; one that
misses allocates the line without fetching. It waits for a walk when the unit does not hold the translation with D set. A device
page's store goes to the LLC. An AMO is performed at the LLC, the sector cleaned and invalidated in the core's L1 before. -/
def Sys2Proof.Spec.GlobalStores : Prop :=
  ∀ (s : State) (b a d : BitVec 5) (im : BitVec 15) (w q : BitVec 1) (p : Word) (pa : Nat),
    let va := addr s a im
    let off := va.toNat % 1024
    let as := s.who.asid
    let x := (s.rx b).toNat
    let done (t : State) (lat : Nat) : Host.Outcome State Fault Refusal := .next (t.done lat { srcs := [a, b] })
    Ready s [a, b] d → va.toNat < 13 * 2 ^ 48 → va.toNat % 8 = 0 → s.migratesFar va 8 .write = none → s.myCore.l1Busy ≤ s.cycle →
    (∀ l, s.lineOf s.rank as va.toNat = some l →
      (permOk s.me.user .write l.pte = true → pteD l.pte = true → ∃ t, exec (.std b a im) s = done t 8 ∧ t.mem = s.mem ∧
        ∃ k, t.lineOf s.rank as va.toNat = some k ∧ k.get off 8 = x ∧ k.dirty = l.dirty ||| byteMask off 8 ∧ k.valid = l.valid ||| byteMask off 8 ∧
          ∀ i < 1024, (i < off ∨ off + 8 ≤ i) → k.byte i = l.byte i) ∧
      (permOk s.me.user .write l.pte = false → s.buffered = false → exec (.std b a im) s = .next (trapped s .storef va))) ∧
    (s.translate s.who .write va = .ok (p, pa) → isFarClm pa = false →
      (s.lineOf s.rank as va.toNat = none → pteDev p = true → exec (.std b a im) s = done (s.storeAt (.hbm pa) 8 x) (s.llcTime pa)) ∧
      (s.lineOf s.rank as va.toNat = none → pteDev p = false → ∃ t, exec (.std b a im) s = done t 8 ∧
        ((s.myCore.l1.filter fun o => o.va % 8 == va.toNat / 1024 % 8).length < 4 → t.mem = s.mem) ∧
        ∃ k, t.lineOf s.rank as va.toNat = some k ∧ k.get off 8 = x ∧ k.pa = pa / 1024 ∧ k.valid = byteMask off 8 ∧ k.dirty = byteMask off 8) ∧
      (∀ e, s.translate s.who .read va = .ok e → s.rx a = va → pteDev p = false → w = 1 →
        let t := s.purgeSector s.rank as va.toNat
        let old := t.readN (.hbm pa) 8
        t.poisoned (.hbm pa) = false → exec (.amoAdd d a b w q 0) s = .next ((t.storeAt (.hbm pa) 8 ((old + x) % 2 ^ 64)).done (s.llcTime pa)
          { srcs := [a, b], writes := [(d.toNat, w64 old)], acquire := q == 1 }))) ∧
    (∀ y, s.lineOf s.rank as va.toNat = none → s.translate s.who .write va = .error (.wait y) → exec (.std b a im) s = .next (s.block y)) ∧
    (∀ c v, s.lineOf s.rank as va.toNat = none → s.buffered = false → s.translate s.who .write va = .error (.trap c v) →
      exec (.std b a im) s = .next (trapped s c v))

/-- R166, R171, R173, R341: the basin window reaches the bank that bits 20 to 17 name, in 36 cycles. A SCRATCH bank takes loads,
stores and the full/empty operations; a FIFO takes STD at its push address, LDD at its pop address and LDD at its status
word, which gives the entry count, in the order of their arrival, a push waiting while it is full and a pop while it is empty;
any other access of a FIFO, and every access of a CACHE bank, traps LOADF or STOREF. A bank that switches makes its accesses
wait (R172). -/
def Sys2Proof.Spec.BasinWindow : Prop :=
  ∀ (s u : State) (d b a : BitVec 5) (im : BitVec 15) (n off : Nat),
    let va := addr s a im
    let cl := clusterOf s.rank
    let k := s.bankOf cl n
    let l : Loc := .basin cl (n * 131072 + off)
    let x := (s.rx b).toNat
    Ready s [a, b] d → va.toNat = 13 * 2 ^ 48 + n * 131072 + off → n < 16 → off < 131072 → off % 8 = 0 →
    (k.next ≠ none → ∀ i ∈ [Instr.ldd d a im, .ldw d a im, .std b a im, .ldsync d a im], exec i s = .next (s.block (.bank cl n))) ∧
    (k.next = none → k.mode = 1 →
      (s.anyPoison l 8 = false → exec (.ldd d a im) s = .next (wrote s [a] d (w64 (s.readN l 8)) 36)) ∧
      (s.anyPoison l 1 = false → exec (.ldbu d a im) s = .next (wrote s [a] d (w64 (s.readN l 1)) 36)) ∧
      exec (.std b a im) s = .next ((s.storeAt l 8 x).done 36 { srcs := [a, b] }) ∧
      exec (.stw b a im) s = .next ((s.storeAt l 4 (x % 2 ^ 32)).done 36 { srcs := [a, b] }) ∧
      (s.isFull l = true → s.earlier (.full l.key) = false → s.poisoned l = false → exec (.ldsync d a im) s =
        .next ((s.setFull l false).done 36 { srcs := [a], writes := [(d.toNat, w64 (s.readN l 8))], acquire := true })) ∧
      (s.isFull l = false → exec (.ldsync d a im) s = .next (s.block (.full l.key))) ∧
      (s.releasing = .ok u → exec (.stfull b a im) s = .next (((u.storeAt l 8 x).setFull l true).done 36 { srcs := [a, b] })) ∧
      exec (.feclr a im) s = .next ((s.setFull l false).done 36 { srcs := [a] }) ∧
      exec (.ferd d a im) s = .next (wrote s [a] d (b64 (s.isFull l)) 36)) ∧
    (k.next = none → k.mode = 2 →
      (off = 0 → k.fifo.length < 16384 → s.earlier (.fifo cl n true) = false → exec (.std b a im) s =
        .next ((s.modBank cl n fun q => { q with fifo := q.fifo ++ [(s.rx b, false)] }).done 36 { srcs := [a, b] })) ∧
      (off = 0 → 16384 ≤ k.fifo.length → exec (.std b a im) s = .next (s.block (.fifo cl n true))) ∧
      (∀ v rest, off = 8 → k.fifo = (v, false) :: rest → s.earlier (.fifo cl n false) = false →
        exec (.ldd d a im) s = .next (wrote (s.modBank cl n fun q => { q with fifo := rest }) [a] d v 36)) ∧
      (off = 8 → k.fifo = [] → exec (.ldd d a im) s = .next (s.block (.fifo cl n false))) ∧
      (off = 16 → exec (.ldd d a im) s = .next (wrote s [a] d (w64 k.fifo.length) 36)) ∧
      (s.buffered = false →
        (off ≠ 8 → off ≠ 16 → exec (.ldd d a im) s = .next (trapped s .loadf va)) ∧ (off ≠ 0 → exec (.std b a im) s = .next (trapped s .storef va)) ∧
        exec (.ldw d a im) s = .next (trapped s .loadf va) ∧ exec (.stw b a im) s = .next (trapped s .storef va) ∧
        exec (.ldsync d a im) s = .next (trapped s .loadf va))) ∧
    (k.next = none → k.mode = 0 → s.buffered = false →
      (∀ i ∈ [Instr.ldd d a im, .ldw d a im, .ldbu d a im, .ldsync d a im, .ferd d a im], exec i s = .next (trapped s .loadf va)) ∧
      ∀ i ∈ [Instr.std b a im, .stw b a im, .stb b a im, .stfull b a im, .feclr a im], exec i s = .next (trapped s .storef va))

/-- R152, R153, R163, R179, R285: an unpinned barge whose load, store, full/empty operation or AMO names the place window of another
rank of its launch's rectangle goes there: its core makes its release, its packet leaves with the PC of the access, 2h + 9
cycles and 12 for each die edge from its write-back or from the release's end, it counts in SENT and no longer in LIVE, and its
berth falls free. A rank that is outside the rectangle, or no rank, traps PLACE with the address at the source, and the barge
stays. -/
def Sys2Proof.Spec.Migrations : Prop :=
  ∀ (s : State) (d a b : BitVec 5) (fd : BitVec 4) (im : BitVec 15) (w q rl : BitVec 1) (r off : Nat),
    let h := s.me.header
    let rel := s.release s.rank
    let t := s.migrate r
    let forms (P : Instr → Prop) : Prop :=
      ((addr s a im).toNat = 15 * 2 ^ 48 + r * 131072 + off →
        (∀ i ∈ [Instr.ldb d a im, .ldbu d a im, .stb b a im], P i) ∧ (off % 2 = 0 → ∀ i ∈ [Instr.ldh d a im, .ldhu d a im, .sth b a im], P i) ∧
        (off % 4 = 0 → ∀ i ∈ [Instr.ldw d a im, .ldwu d a im, .stw b a im, .ldf fd a im, .stf fd a im], P i) ∧
        (off % 8 = 0 → ∀ i ∈ [Instr.ldd d a im, .std b a im, .ldsync d a im, .stfull b a im, .feclr a im, .ferd d a im], P i)) ∧
      ((s.rx a).toNat = 15 * 2 ^ 48 + r * 131072 + off →
        (off % (if w = 1 then 8 else 4) = 0 → ∀ i ∈ [Instr.amoAdd d a b w q rl, .amoAnd d a b w q rl, .amoOr d a b w q rl, .amoXor d a b w q rl,
          .amoMin d a b w q rl, .amoMax d a b w q rl, .amoMinu d a b w q rl, .amoMaxu d a b w q rl, .amoSwap d a b w q rl, .amoCas d a b w q rl], P i) ∧
        (off % 4 = 0 → P (.amoFadd d a b q rl)))
    Ready s [a, b] d → off < 131072 → r < 16384 → s.buffered = false →
    (s.me.pinned = false → r < 9216 → r ≠ s.rank → s.inRect s.me.lid r = true → forms fun i => exec i s = .next t) ∧
    (9216 ≤ r ∨ s.inRect s.me.lid r = false → forms fun i => ∃ va, va.toNat = 15 * 2 ^ 48 + r * 131072 + off ∧ exec i s = .next (trapped s .place va)) ∧
    t.me.hdr = none ∧ t.me.ports = Vector.replicate 8 Port.reset ∧ t.mem = rel.mem ∧ (∀ k, k ≠ s.rank → t.core k = s.core k) ∧
    (h.lid.toNat = s.me.lid → (t.counts s.rank s.me.lid).live = (s.counts s.rank s.me.lid).live - 1 ∧
      (t.counts s.rank s.me.lid).sent = (s.counts s.rank s.me.lid).sent + 1) ∧
    (s.cycle + (max s.leaveIn (rel.releaseTime s.rank) + (2 * hops s.rank r + 9 + 12 * Config.dieEdges s.rank r)),
      .bargeArrival r ⟨s.me.pack s.me.pc, s.rank⟩) ∈ t.agenda ∧
    (s.myWait = none → s.leaveIn = 7)

def Obligations.GlobalAndBasinMemory : Prop := Spec.GlobalLoads ∧ Spec.GlobalStores ∧ Spec.BasinWindow ∧ Spec.Migrations

/-! ### Rounding, saturation and exact sums -/

/-- R54, R64 to R66: a rounding of any exact magnitude into any of the formats, under each mode but SR, gives the value and the flags
that its mode asks for; of zero, the zero of its sign without a flag. An FP32 word stands for the value that R54's fields give. -/
def Sys2Proof.Spec.Rounding : Prop :=
  (∀ (f : Fmt) (mode : Rm) (sat neg : Bool) (m : Nat) (e : Int), f ∈ [fp32, fp16, bf16, e4m3, e5m2, e2m1] → mode ≠ .sr →
    Rounded f mode sat neg m 1 e (roundTo f mode sat neg m e)) ∧
  (∀ x : W32, f32 x =
    let s := x.getLsbD 31
    let e : Nat := x.toNat / 2 ^ 23 % 256
    let m : Nat := x.toNat % 2 ^ 23
    if e = 255 then (if m = 0 then .inf s else .nan (decide (m < 2 ^ 22)))
    else if e = 0 then .num s m (-149) else .num s (2 ^ 23 + m) ((e : Int) - 150))

/-- R65, R66, R68: a rounding under SR of the magnitude |x| of an exact value, with d the draw: q is the spacing at |x|, that of the largest binade
beyond it, and n = floor(|x| / q + d * 2^-32); n * q is the result, inexact where it differs, or overflows. The draw of lane j of v[n] and
that of a memory address are word 0 of the Philox block of their counters. -/
def Sys2Proof.Spec.StochasticRounding : Prop :=
  (∀ (f : Fmt) (sat neg : Bool) (m d : Nat) (e q : Int), f ∈ [fp32, fp16, bf16, e4m3, e5m2, e2m1] → m ≠ 0 → d < 2 ^ 32 →
    let sign := if neg then 2 ^ (f.ew + f.mw) else 0
    let c := min e q
    let X := units m e c
    let Q := units 1 q c
    let n := (X * 2 ^ 32 + d * Q) / (Q * 2 ^ 32)
    let r := roundTo f .sr sat neg m e d
    f.qmin ≤ q → q ≤ f.qmax → (q = f.qmin ∨ 2 ^ f.mw * Q ≤ X) → (q = f.qmax ∨ X < 2 ^ (f.mw + 1) * Q) →
    ∀ (k : Nat) (p : Int), f.decode f.maxBits = .num false k p →
      (units n q (min q p) ≤ units k p (min q p) →
        (∃ j h, f.decode r.1 = .num neg j h ∧ r.1 < 2 ^ f.width ∧ units j h (min q h) = units n q (min q h)) ∧
        r.2 = if X = n * Q then 0 else if n ≠ 0 ∧ n < 2 ^ f.mw then 3 else 1) ∧
      (units k p (min q p) < units n q (min q p) → r.2 = 5 ∧
        r.1 = if sat = true ∨ f.special = .none then sign + f.maxBits
          else if f.special = .ieee then sign + (2 ^ f.ew - 1) * 2 ^ f.mw else 2 ^ (f.ew + f.mw) - 1)) ∧
  (∀ (seed a : Word) (n j i : Nat), n < 16 → j < 32 →
    drawLane seed n j = (philox seed (BitVec.ofNat 32 (n <<< 5 ||| j)) 0x00100000 0xFFF00000 0).1.toNat ∧
    drawMem seed a i = (philox seed (a.setWidth 32) (BitVec.ofNat 32 (a.toNat / 2 ^ 32 % 2 ^ 20)) 0xFFF00000 (BitVec.ofNat 32 i)).1.toNat)

/-- R55, R65, R66, R85, R89: FP32 sums, differences, products, fused sums and quotients: a NaN gives the canonical NaN, with NV when one was
signalling; infinity less infinity, zero times infinity, zero by zero and infinity by infinity give it with NV; otherwise the
exact result is rounded once; an exactly zero sum of unlike signs is +0, or -0 under RDN; a finite number by zero is an infinity
with DZ. A difference is the sum with the sign of the second operand reversed, and so are FMS and FNMA of FMA. That SAT does not clamp
the infinite result of an infinite operand is the model's reading (DEDUCED, log 21). -/
def Sys2Proof.Spec.ExactOperations : Prop :=
  ∀ (env : FpEnv) (a b : W32), env.mode ≠ .sr →
    let x := f32 a
    let y := f32 b
    let nan (fl : Flags) : W32 × Flags := (0x7FC00000, fl)
    let inf (n : Bool) : W32 := if n then 0xFF800000 else 0x7F800000
    let zero (n : Bool) : W32 := if n then 0x80000000 else 0
    let nv : Flags := if x.isSig || y.isSig then 16 else 0
    let whole (z : Int) (c : Int) (r : W32 × Flags) : Prop := Rounded fp32 env.mode env.sat (decide (z < 0)) z.natAbs 1 c (bits r)
    (fSub env a b = fAdd env a (b ^^^ 0x80000000) ∧ ∀ w, fFms env a b w = fFma env a b (w ^^^ 0x80000000) ∧ fFnma env a b w = fFma env (a ^^^ 0x80000000) b w) ∧
    (∀ w, let z := f32 w
      let invalid : Prop := (∃ n, x = .inf n ∧ y.isZero = true) ∨ ∃ n, y = .inf n ∧ x.isZero = true
      let product : Prop := x.isNan = false ∧ y.isNan = false ∧ ¬ invalid
      (¬ product ∨ z.isNan = true → (invalid ∨ x.isSig = true ∨ y.isSig = true ∨ z.isSig = true → fFma env a b w = nan 16) ∧
        (¬ invalid → x.isSig = false → y.isSig = false → z.isSig = false → fFma env a b w = nan 0)) ∧
      (product → z.isNan = false →
        ((∃ n, x = .inf n) ∨ (∃ n, y = .inf n) → fFma env a b w = if z = .inf (!(x.neg != y.neg)) then nan 16 else (inf (x.neg != y.neg), 0)) ∧
        ((∀ n, x ≠ .inf n) → (∀ n, y ≠ .inf n) → ∀ n, z = .inf n → fFma env a b w = (inf n, 0)))) ∧
    (x.isNan = true ∨ y.isNan = true → fAdd env a b = nan nv ∧ fMul env a b = nan nv ∧ fDiv env a b = nan nv) ∧
    (∀ n k, x = .inf n → y = .inf k → fAdd env a b = (if n = k then (inf n, 0) else nan 16) ∧ fMul env a b = (inf (n != k), 0) ∧ fDiv env a b = nan 16) ∧
    (∀ n k m e, x = .inf n → y = .num k m e → fAdd env a b = (inf n, 0) ∧ fAdd env b a = (inf n, 0) ∧
      fMul env a b = (if m = 0 then nan 16 else (inf (n != k), 0)) ∧ fDiv env a b = (inf (n != k), 0) ∧ fDiv env b a = (zero (n != k), 0)) ∧
    (∀ nx mx ex ny my ey, x = .num nx mx ex → y = .num ny my ey →
      let c := min ex ey
      let z := signed nx (units mx ex c) + signed ny (units my ey c)
      (z ≠ 0 → whole z c (fAdd env a b)) ∧
      (z = 0 → fAdd env a b = (zero (if nx = ny then nx else env.mode == .rdn), 0)) ∧
      Rounded fp32 env.mode env.sat (nx != ny) (mx * my) 1 (ex + ey) (bits (fMul env a b)) ∧
      (my ≠ 0 → Rounded fp32 env.mode env.sat (nx != ny) mx my (ex - ey) (bits (fDiv env a b))) ∧
      (my = 0 → fDiv env a b = if mx = 0 then nan 16 else (inf (nx != ny), 8)) ∧
      (∀ w nw mw ew, f32 w = .num nw mw ew →
        let g := min (ex + ey) ew
        let v := signed (nx != ny) (units (mx * my) (ex + ey) g) + signed nw (units mw ew g)
        (v ≠ 0 → whole v g (fFma env a b w)) ∧
        (v = 0 → fFma env a b w = (zero (if (nx != ny) = nw then nw else env.mode == .rdn), 0))))

/-- R60, R63: VENC's code of a value is the lowest whose entry is a zero of its sign, where the value is zero and there is one, and
else the lowest of those whose entries lie nearest; NX is raised when the entry is another number. A NaN takes the lowest NaN
entry, or else the greatest entry with NV; an infinity takes the extreme entry on its side (DEDUCED, log 21); a table of NaN entries
encodes every number to code 0, with NV. That a signalling NaN raises no flag where the table has a NaN entry is the model's choice
between R63 and R66 (DESIGN CHOICE, log 80). -/
def Sys2Proof.Spec.TableEncoding : Prop :=
  ∀ (t : DTab) (a : W32),
    let x := f32 a
    let en (c : Nat) : FVal := dtabVal t c
    let r := venc t a
    let val (n : Bool) (m : Nat) (e : Int) : Int := if n then -(units m e (-149) : Int) else units m e (-149)
    r.1 < 256 ∧
    (x.isNan = true → (∃ c < 256, (en c).isNan = true) → (en r.1).isNan = true ∧ (∀ c < r.1, (en c).isNan = false) ∧ r.2 = 0) ∧
    (x.isNan = true → (∀ c < 256, (en c).isNan = false) → r.2 = 16 ∧
      ∀ c < 256, cmpV (en c) (en r.1) ≠ some .gt ∧ (c < r.1 → cmpV (en c) (en r.1) = some .lt)) ∧
    (x.isNan = false → (∀ c < 256, (en c).isNan = true) → r = (0, 16)) ∧
    (∀ n, x = .inf n → (∃ c < 256, (en c).isNan = false) → (en r.1).isNan = false ∧
      (∀ c < 256, cmpV (en c) (en r.1) ≠ some (if n then .lt else .gt)) ∧ r.2 = if cmpV (en r.1) x = some .eq then 0 else 1) ∧
    (∀ n m e, x = .num n m e →
      (∀ k, k < 256 → m = 0 → (en k).isZero = true → (en k).neg = n → (∀ c < k, ¬ ((en c).isZero = true ∧ (en c).neg = n)) → r = (k, 0)) ∧
      ((m = 0 → ∀ c < 256, ¬ ((en c).isZero = true ∧ (en c).neg = n)) → (∃ c < 256, ∃ k p q, en c = .num k p q) →
        ∃ k p q, en r.1 = .num k p q ∧ r.2 = (if val k p q = val n m e then 0 else 1) ∧
          ∀ c < 256, ∀ k' p' q', en c = .num k' p' q' →
            (val k p q - val n m e).natAbs ≤ (val k' p' q' - val n m e).natAbs ∧
            (c < r.1 → (val k p q - val n m e).natAbs < (val k' p' q' - val n m e).natAbs)))

/-- R69 to R71: the exact sum of a block's products is the sum of their values, a NaN with any NaN product or with infinite products of
both signs, an infinity with infinite ones of one sign; an exactly zero sum is -0 only when every product is -0. A step of an MMA
adds RN32 of that sum, times RN32 of the scales' product in a scaled format, to the element, or takes it off with NEG; one
of MMA.I8 adds the integer sum modulo 2^32. -/
def Sys2Proof.Spec.BlockSums : Prop :=
  (∀ (ps : List (FVal × FVal)) (c : Int), c ≤ 0 →
    let vs := ps.map fun p => (mulExact p.1 p.2).1
    let d := (sumExact ps).1
    ((∃ v ∈ vs, v.isNan = true) ∨ (.inf true ∈ vs ∧ .inf false ∈ vs) → d.isNan = true) ∧
    (∀ n, (∀ v ∈ vs, v.isNan = false) → .inf n ∈ vs → .inf (!n) ∉ vs → d = .inf n) ∧
    ((∀ v ∈ vs, ∃ n m e, v = .num n m e ∧ c ≤ e) → ∃ n m e, d = .num n m e ∧ c ≤ e ∧
      (if n then -(units m e c : Int) else units m e c) =
        (vs.map fun v => match v with | .num n m e => (if n then -(units m e c : Int) else units m e c) | _ => 0).sum ∧
      (m = 0 → (n = true ↔ ∀ v ∈ vs, v.isZero = true ∧ v.neg = true)))) ∧
  (∀ (m : Mma) (a b sa sb : Nat) (c : W32) (i j : Nat),
    let wa := mmaBitsA m.fmt
    let wb := mmaBitsB m.fmt
    let A (k : Nat) : Nat := piece a wa (if m.ta then 32 * k + i else 32 * i + k)
    let B (k : Nat) : Nat := piece b wb (32 * j + k)
    let ps := (List.range 32).map fun k => (decA m (A k), decB m (B k))
    let rn (v : FVal) : W32 := (roundV envRne v).1
    let d := (sumExact ps).1
    let s := rn (mulExact (s20.decode (piece sa 32 i % 2 ^ 20)) (s20.decode (piece sb 32 j % 2 ^ 20))).1
    let t := if 5 ≤ m.fmt ∧ m.fmt ≤ 7 then rn (mulExact d (f32 s)).1 else rn d
    let sum := ((List.range 32).map fun k => (BitVec.ofNat 8 (A k)).toInt * (BitVec.ofNat 8 (B k)).toInt).sum
    (m.fmt ≠ 8 → mmaElem m a b sa sb c i j = (if m.neg then fSub envRne c t else fAdd envRne c t).1) ∧
    (m.fmt = 8 → mmaElem m a b sa sb c i j = if m.neg then c - BitVec.ofInt 32 sum else c + BitVec.ofInt 32 sum))

def Obligations.RoundingAndSaturation : Prop := Spec.Rounding ∧ Spec.StochasticRounding ∧ Spec.ExactOperations ∧ Spec.TableEncoding ∧ Spec.BlockSums
end

