-- ==== Sys2Proof/Laws/State.lean ====
section
/-!
SUPPORT. One lemma for each field and each update of the state, so that no later proof unfolds a record update; and what
reading a core, a berth or a cluster gives after one of them is written.
-/
namespace Sys2Proof.Machine

/-! ### Association lists and vectors -/

@[simp] theorem alGet_alSet_self {α : Type} (l : List (Nat × α)) (i : Nat) (a : α) : alGet (alSet l i a) i = some a := by
  induction l with
  | nil => simp [alSet, alGet]
  | cons e l ih =>
    obtain ⟨k, v⟩ := e
    simp only [alSet]
    split
    · simp [alGet]
    · split
      · simp [alGet]
      · rename_i h _
        simp [alGet, Ne.symm h, ih]

theorem alGet_alSet_of_ne {α : Type} (l : List (Nat × α)) (i j : Nat) (a : α) (h : j ≠ i) :
    alGet (alSet l i a) j = alGet l j := by
  induction l with
  | nil => simp [alSet, alGet, Ne.symm h]
  | cons e l ih =>
    obtain ⟨k, v⟩ := e
    simp only [alSet]
    split
    · rename_i hk
      subst hk
      simp [alGet, Ne.symm h]
    · split
      · simp [alGet, Ne.symm h]
      · simp [alGet, ih]

theorem vget_vset_self {α : Type} {n : Nat} (v : Vector α n) (i : Nat) (a d : α) (h : i < n) : vget (vset v i a) i d = a := by
  simp [vget, vset, h]
theorem vget_vset_of_ne {α : Type} {n : Nat} (v : Vector α n) (i j : Nat) (a d : α) (h : j ≠ i) :
    vget (vset v i a) j d = vget v j d := by
  unfold vget vset
  split
  · split
    · simp [Ne.symm h]
    · rfl
  · rfl

/-! ### Cores, berths and clusters -/

namespace Core
@[simp] theorem berth_setBerth_self (c : Core) (b : Nat) (x : Berth) : (c.setBerth b x).berth b = x := by
  simp [berth, setBerth, vgetB, vget_vset_self _ _ _ _ (Nat.mod_lt b (by decide : 16 > 0))]
theorem berth_setBerth_of_ne (c : Core) (b b' : Nat) (x : Berth) (h : b' % 16 ≠ b % 16) :
    (c.setBerth b x).berth b' = c.berth b' := by
  simp [berth, setBerth, vgetB, vget_vset_of_ne _ _ _ _ _ h]
end Core

namespace State
@[simp] theorem core_setCore_self (s : State) (r : Nat) (c : Core) : (s.setCore r c).core r = c := by simp [core, setCore]
theorem core_setCore_of_ne (s : State) (r q : Nat) (c : Core) (h : q ≠ r) : (s.setCore r c).core q = s.core q := by
  simp [core, setCore, alGet_alSet_of_ne _ _ _ _ h]
@[simp] theorem core_modCore_self (s : State) (r : Nat) (f : Core → Core) : (s.modCore r f).core r = f (s.core r) := by
  simp [modCore]
theorem core_modCore_of_ne (s : State) (r q : Nat) (f : Core → Core) (h : q ≠ r) : (s.modCore r f).core q = s.core q :=
  core_setCore_of_ne s r q _ h
@[simp] theorem cluster_setCluster_self (s : State) (k : Nat) (c : Cluster) : (s.setCluster k c).cluster k = c := by
  simp [cluster, setCluster]
theorem cluster_setCluster_of_ne (s : State) (k q : Nat) (c : Cluster) (h : q ≠ k) :
    (s.setCluster k c).cluster q = s.cluster q := by
  simp [cluster, setCluster, alGet_alSet_of_ne _ _ _ _ h]
@[simp] theorem cluster_modCluster_self (s : State) (k : Nat) (f : Cluster → Cluster) :
    (s.modCluster k f).cluster k = f (s.cluster k) := by simp [modCluster]
@[simp] theorem berthAt_setBerth_self (s : State) (r b : Nat) (x : Berth) : (s.setBerth r b x).berthAt r b = x := by
  simp [berthAt, setBerth]
theorem berthAt_setBerth_of_ne (s : State) (r b r' b' : Nat) (x : Berth) (h : r' ≠ r ∨ b' % 16 ≠ b % 16) :
    (s.setBerth r b x).berthAt r' b' = s.berthAt r' b' := by
  unfold berthAt setBerth
  by_cases hr : r' = r
  · subst hr
    rw [core_modCore_self]
    exact Core.berth_setBerth_of_ne _ _ _ _ (h.resolve_left (by simp))
  · rw [core_modCore_of_ne _ _ _ _ hr]
@[simp] theorem berthAt_modBerth_self (s : State) (r b : Nat) (f : Berth → Berth) :
    (s.modBerth r b f).berthAt r b = f (s.berthAt r b) := by simp [modBerth]
@[simp] theorem me_setMe (s : State) (b : Berth) : (s.setMe b).me = b := berthAt_setBerth_self s s.rank s.berth b
@[simp] theorem me_modMe (s : State) (f : Berth → Berth) : (s.modMe f).me = f s.me := by simp [modMe]
@[simp] theorem myCore_modMyCore (s : State) (f : Core → Core) : (s.modMyCore f).myCore = f s.myCore :=
  core_modCore_self s s.rank f

/-! ### Every other field -/

/-! `setCore` -/
@[simp] theorem setCore_cycle (s : State) (r : Nat) (c : Core) : (s.setCore r c).cycle = s.cycle := rfl
@[simp] theorem setCore_rank (s : State) (r : Nat) (c : Core) : (s.setCore r c).rank = s.rank := rfl
@[simp] theorem setCore_berth (s : State) (r : Nat) (c : Core) : (s.setCore r c).berth = s.berth := rfl
@[simp] theorem setCore_buffered (s : State) (r : Nat) (c : Core) : (s.setCore r c).buffered = s.buffered := rfl
@[simp] theorem setCore_clusters (s : State) (r : Nat) (c : Core) : (s.setCore r c).clusters = s.clusters := rfl
@[simp] theorem setCore_mem (s : State) (r : Nat) (c : Core) : (s.setCore r c).mem = s.mem := rfl
@[simp] theorem setCore_basin (s : State) (r : Nat) (c : Core) : (s.setCore r c).basin = s.basin := rfl
@[simp] theorem setCore_full (s : State) (r : Nat) (c : Core) : (s.setCore r c).full = s.full := rfl
@[simp] theorem setCore_poison (s : State) (r : Nat) (c : Core) : (s.setCore r c).poison = s.poison := rfl
@[simp] theorem setCore_launches (s : State) (r : Nat) (c : Core) : (s.setCore r c).launches = s.launches := rfl
@[simp] theorem setCore_lock (s : State) (r : Nat) (c : Core) : (s.setCore r c).lock = s.lock := rfl
@[simp] theorem setCore_agenda (s : State) (r : Nat) (c : Core) : (s.setCore r c).agenda = s.agenda := rfl
@[simp] theorem setCore_held (s : State) (r : Nat) (c : Core) : (s.setCore r c).held = s.held := rfl
@[simp] theorem setCore_inputs (s : State) (r : Nat) (c : Core) : (s.setCore r c).inputs = s.inputs := rfl
@[simp] theorem setCore_outs (s : State) (r : Nat) (c : Core) : (s.setCore r c).outs = s.outs := rfl
@[simp] theorem setCore_ticket (s : State) (r : Nat) (c : Core) : (s.setCore r c).ticket = s.ticket := rfl
@[simp] theorem setCore_free (s : State) (r : Nat) (c : Core) : (s.setCore r c).free = s.free := rfl
@[simp] theorem setCore_powerOff (s : State) (r : Nat) (c : Core) : (s.setCore r c).powerOff = s.powerOff := rfl
/-! `modCore` -/
@[simp] theorem modCore_cycle (s : State) (r : Nat) (f : Core → Core) : (s.modCore r f).cycle = s.cycle := rfl
@[simp] theorem modCore_rank (s : State) (r : Nat) (f : Core → Core) : (s.modCore r f).rank = s.rank := rfl
@[simp] theorem modCore_berth (s : State) (r : Nat) (f : Core → Core) : (s.modCore r f).berth = s.berth := rfl
@[simp] theorem modCore_buffered (s : State) (r : Nat) (f : Core → Core) : (s.modCore r f).buffered = s.buffered := rfl
@[simp] theorem modCore_clusters (s : State) (r : Nat) (f : Core → Core) : (s.modCore r f).clusters = s.clusters := rfl
@[simp] theorem modCore_mem (s : State) (r : Nat) (f : Core → Core) : (s.modCore r f).mem = s.mem := rfl
@[simp] theorem modCore_basin (s : State) (r : Nat) (f : Core → Core) : (s.modCore r f).basin = s.basin := rfl
@[simp] theorem modCore_full (s : State) (r : Nat) (f : Core → Core) : (s.modCore r f).full = s.full := rfl
@[simp] theorem modCore_poison (s : State) (r : Nat) (f : Core → Core) : (s.modCore r f).poison = s.poison := rfl
@[simp] theorem modCore_launches (s : State) (r : Nat) (f : Core → Core) : (s.modCore r f).launches = s.launches := rfl
@[simp] theorem modCore_lock (s : State) (r : Nat) (f : Core → Core) : (s.modCore r f).lock = s.lock := rfl
@[simp] theorem modCore_agenda (s : State) (r : Nat) (f : Core → Core) : (s.modCore r f).agenda = s.agenda := rfl
@[simp] theorem modCore_held (s : State) (r : Nat) (f : Core → Core) : (s.modCore r f).held = s.held := rfl
@[simp] theorem modCore_inputs (s : State) (r : Nat) (f : Core → Core) : (s.modCore r f).inputs = s.inputs := rfl
@[simp] theorem modCore_outs (s : State) (r : Nat) (f : Core → Core) : (s.modCore r f).outs = s.outs := rfl
@[simp] theorem modCore_ticket (s : State) (r : Nat) (f : Core → Core) : (s.modCore r f).ticket = s.ticket := rfl
@[simp] theorem modCore_free (s : State) (r : Nat) (f : Core → Core) : (s.modCore r f).free = s.free := rfl
@[simp] theorem modCore_powerOff (s : State) (r : Nat) (f : Core → Core) : (s.modCore r f).powerOff = s.powerOff := rfl
/-! `setBerth` -/
@[simp] theorem setBerth_cycle (s : State) (r b : Nat) (x : Berth) : (s.setBerth r b x).cycle = s.cycle := rfl
@[simp] theorem setBerth_rank (s : State) (r b : Nat) (x : Berth) : (s.setBerth r b x).rank = s.rank := rfl
@[simp] theorem setBerth_berth (s : State) (r b : Nat) (x : Berth) : (s.setBerth r b x).berth = s.berth := rfl
@[simp] theorem setBerth_buffered (s : State) (r b : Nat) (x : Berth) : (s.setBerth r b x).buffered = s.buffered := rfl
@[simp] theorem setBerth_clusters (s : State) (r b : Nat) (x : Berth) : (s.setBerth r b x).clusters = s.clusters := rfl
@[simp] theorem setBerth_mem (s : State) (r b : Nat) (x : Berth) : (s.setBerth r b x).mem = s.mem := rfl
@[simp] theorem setBerth_basin (s : State) (r b : Nat) (x : Berth) : (s.setBerth r b x).basin = s.basin := rfl
@[simp] theorem setBerth_full (s : State) (r b : Nat) (x : Berth) : (s.setBerth r b x).full = s.full := rfl
@[simp] theorem setBerth_poison (s : State) (r b : Nat) (x : Berth) : (s.setBerth r b x).poison = s.poison := rfl
@[simp] theorem setBerth_launches (s : State) (r b : Nat) (x : Berth) : (s.setBerth r b x).launches = s.launches := rfl
@[simp] theorem setBerth_lock (s : State) (r b : Nat) (x : Berth) : (s.setBerth r b x).lock = s.lock := rfl
@[simp] theorem setBerth_agenda (s : State) (r b : Nat) (x : Berth) : (s.setBerth r b x).agenda = s.agenda := rfl
@[simp] theorem setBerth_held (s : State) (r b : Nat) (x : Berth) : (s.setBerth r b x).held = s.held := rfl
@[simp] theorem setBerth_inputs (s : State) (r b : Nat) (x : Berth) : (s.setBerth r b x).inputs = s.inputs := rfl
@[simp] theorem setBerth_outs (s : State) (r b : Nat) (x : Berth) : (s.setBerth r b x).outs = s.outs := rfl
@[simp] theorem setBerth_ticket (s : State) (r b : Nat) (x : Berth) : (s.setBerth r b x).ticket = s.ticket := rfl
@[simp] theorem setBerth_free (s : State) (r b : Nat) (x : Berth) : (s.setBerth r b x).free = s.free := rfl
@[simp] theorem setBerth_powerOff (s : State) (r b : Nat) (x : Berth) : (s.setBerth r b x).powerOff = s.powerOff := rfl
/-! `modBerth` -/
@[simp] theorem modBerth_cycle (s : State) (r b : Nat) (f : Berth → Berth) : (s.modBerth r b f).cycle = s.cycle := rfl
@[simp] theorem modBerth_rank (s : State) (r b : Nat) (f : Berth → Berth) : (s.modBerth r b f).rank = s.rank := rfl
@[simp] theorem modBerth_berth (s : State) (r b : Nat) (f : Berth → Berth) : (s.modBerth r b f).berth = s.berth := rfl
@[simp] theorem modBerth_buffered (s : State) (r b : Nat) (f : Berth → Berth) : (s.modBerth r b f).buffered = s.buffered := rfl
@[simp] theorem modBerth_clusters (s : State) (r b : Nat) (f : Berth → Berth) : (s.modBerth r b f).clusters = s.clusters := rfl
@[simp] theorem modBerth_mem (s : State) (r b : Nat) (f : Berth → Berth) : (s.modBerth r b f).mem = s.mem := rfl
@[simp] theorem modBerth_basin (s : State) (r b : Nat) (f : Berth → Berth) : (s.modBerth r b f).basin = s.basin := rfl
@[simp] theorem modBerth_full (s : State) (r b : Nat) (f : Berth → Berth) : (s.modBerth r b f).full = s.full := rfl
@[simp] theorem modBerth_poison (s : State) (r b : Nat) (f : Berth → Berth) : (s.modBerth r b f).poison = s.poison := rfl
@[simp] theorem modBerth_launches (s : State) (r b : Nat) (f : Berth → Berth) : (s.modBerth r b f).launches = s.launches := rfl
@[simp] theorem modBerth_lock (s : State) (r b : Nat) (f : Berth → Berth) : (s.modBerth r b f).lock = s.lock := rfl
@[simp] theorem modBerth_agenda (s : State) (r b : Nat) (f : Berth → Berth) : (s.modBerth r b f).agenda = s.agenda := rfl
@[simp] theorem modBerth_held (s : State) (r b : Nat) (f : Berth → Berth) : (s.modBerth r b f).held = s.held := rfl
@[simp] theorem modBerth_inputs (s : State) (r b : Nat) (f : Berth → Berth) : (s.modBerth r b f).inputs = s.inputs := rfl
@[simp] theorem modBerth_outs (s : State) (r b : Nat) (f : Berth → Berth) : (s.modBerth r b f).outs = s.outs := rfl
@[simp] theorem modBerth_ticket (s : State) (r b : Nat) (f : Berth → Berth) : (s.modBerth r b f).ticket = s.ticket := rfl
@[simp] theorem modBerth_free (s : State) (r b : Nat) (f : Berth → Berth) : (s.modBerth r b f).free = s.free := rfl
@[simp] theorem modBerth_powerOff (s : State) (r b : Nat) (f : Berth → Berth) : (s.modBerth r b f).powerOff = s.powerOff := rfl
/-! `setMe` -/
@[simp] theorem setMe_cycle (s : State) (b : Berth) : (s.setMe b).cycle = s.cycle := rfl
@[simp] theorem setMe_rank (s : State) (b : Berth) : (s.setMe b).rank = s.rank := rfl
@[simp] theorem setMe_berth (s : State) (b : Berth) : (s.setMe b).berth = s.berth := rfl
@[simp] theorem setMe_buffered (s : State) (b : Berth) : (s.setMe b).buffered = s.buffered := rfl
@[simp] theorem setMe_clusters (s : State) (b : Berth) : (s.setMe b).clusters = s.clusters := rfl
@[simp] theorem setMe_mem (s : State) (b : Berth) : (s.setMe b).mem = s.mem := rfl
@[simp] theorem setMe_basin (s : State) (b : Berth) : (s.setMe b).basin = s.basin := rfl
@[simp] theorem setMe_full (s : State) (b : Berth) : (s.setMe b).full = s.full := rfl
@[simp] theorem setMe_poison (s : State) (b : Berth) : (s.setMe b).poison = s.poison := rfl
@[simp] theorem setMe_launches (s : State) (b : Berth) : (s.setMe b).launches = s.launches := rfl
@[simp] theorem setMe_lock (s : State) (b : Berth) : (s.setMe b).lock = s.lock := rfl
@[simp] theorem setMe_agenda (s : State) (b : Berth) : (s.setMe b).agenda = s.agenda := rfl
@[simp] theorem setMe_held (s : State) (b : Berth) : (s.setMe b).held = s.held := rfl
@[simp] theorem setMe_inputs (s : State) (b : Berth) : (s.setMe b).inputs = s.inputs := rfl
@[simp] theorem setMe_outs (s : State) (b : Berth) : (s.setMe b).outs = s.outs := rfl
@[simp] theorem setMe_ticket (s : State) (b : Berth) : (s.setMe b).ticket = s.ticket := rfl
@[simp] theorem setMe_free (s : State) (b : Berth) : (s.setMe b).free = s.free := rfl
@[simp] theorem setMe_powerOff (s : State) (b : Berth) : (s.setMe b).powerOff = s.powerOff := rfl
/-! `modMe` -/
@[simp] theorem modMe_cycle (s : State) (f : Berth → Berth) : (s.modMe f).cycle = s.cycle := rfl
@[simp] theorem modMe_rank (s : State) (f : Berth → Berth) : (s.modMe f).rank = s.rank := rfl
@[simp] theorem modMe_berth (s : State) (f : Berth → Berth) : (s.modMe f).berth = s.berth := rfl
@[simp] theorem modMe_buffered (s : State) (f : Berth → Berth) : (s.modMe f).buffered = s.buffered := rfl
@[simp] theorem modMe_clusters (s : State) (f : Berth → Berth) : (s.modMe f).clusters = s.clusters := rfl
@[simp] theorem modMe_mem (s : State) (f : Berth → Berth) : (s.modMe f).mem = s.mem := rfl
@[simp] theorem modMe_basin (s : State) (f : Berth → Berth) : (s.modMe f).basin = s.basin := rfl
@[simp] theorem modMe_full (s : State) (f : Berth → Berth) : (s.modMe f).full = s.full := rfl
@[simp] theorem modMe_poison (s : State) (f : Berth → Berth) : (s.modMe f).poison = s.poison := rfl
@[simp] theorem modMe_launches (s : State) (f : Berth → Berth) : (s.modMe f).launches = s.launches := rfl
@[simp] theorem modMe_lock (s : State) (f : Berth → Berth) : (s.modMe f).lock = s.lock := rfl
@[simp] theorem modMe_agenda (s : State) (f : Berth → Berth) : (s.modMe f).agenda = s.agenda := rfl
@[simp] theorem modMe_held (s : State) (f : Berth → Berth) : (s.modMe f).held = s.held := rfl
@[simp] theorem modMe_inputs (s : State) (f : Berth → Berth) : (s.modMe f).inputs = s.inputs := rfl
@[simp] theorem modMe_outs (s : State) (f : Berth → Berth) : (s.modMe f).outs = s.outs := rfl
@[simp] theorem modMe_ticket (s : State) (f : Berth → Berth) : (s.modMe f).ticket = s.ticket := rfl
@[simp] theorem modMe_free (s : State) (f : Berth → Berth) : (s.modMe f).free = s.free := rfl
@[simp] theorem modMe_powerOff (s : State) (f : Berth → Berth) : (s.modMe f).powerOff = s.powerOff := rfl
/-! `modMyCore` -/
@[simp] theorem modMyCore_cycle (s : State) (f : Core → Core) : (s.modMyCore f).cycle = s.cycle := rfl
@[simp] theorem modMyCore_rank (s : State) (f : Core → Core) : (s.modMyCore f).rank = s.rank := rfl
@[simp] theorem modMyCore_berth (s : State) (f : Core → Core) : (s.modMyCore f).berth = s.berth := rfl
@[simp] theorem modMyCore_buffered (s : State) (f : Core → Core) : (s.modMyCore f).buffered = s.buffered := rfl
@[simp] theorem modMyCore_clusters (s : State) (f : Core → Core) : (s.modMyCore f).clusters = s.clusters := rfl
@[simp] theorem modMyCore_mem (s : State) (f : Core → Core) : (s.modMyCore f).mem = s.mem := rfl
@[simp] theorem modMyCore_basin (s : State) (f : Core → Core) : (s.modMyCore f).basin = s.basin := rfl
@[simp] theorem modMyCore_full (s : State) (f : Core → Core) : (s.modMyCore f).full = s.full := rfl
@[simp] theorem modMyCore_poison (s : State) (f : Core → Core) : (s.modMyCore f).poison = s.poison := rfl
@[simp] theorem modMyCore_launches (s : State) (f : Core → Core) : (s.modMyCore f).launches = s.launches := rfl
@[simp] theorem modMyCore_lock (s : State) (f : Core → Core) : (s.modMyCore f).lock = s.lock := rfl
@[simp] theorem modMyCore_agenda (s : State) (f : Core → Core) : (s.modMyCore f).agenda = s.agenda := rfl
@[simp] theorem modMyCore_held (s : State) (f : Core → Core) : (s.modMyCore f).held = s.held := rfl
@[simp] theorem modMyCore_inputs (s : State) (f : Core → Core) : (s.modMyCore f).inputs = s.inputs := rfl
@[simp] theorem modMyCore_outs (s : State) (f : Core → Core) : (s.modMyCore f).outs = s.outs := rfl
@[simp] theorem modMyCore_ticket (s : State) (f : Core → Core) : (s.modMyCore f).ticket = s.ticket := rfl
@[simp] theorem modMyCore_free (s : State) (f : Core → Core) : (s.modMyCore f).free = s.free := rfl
@[simp] theorem modMyCore_powerOff (s : State) (f : Core → Core) : (s.modMyCore f).powerOff = s.powerOff := rfl
/-! `modPort` -/
@[simp] theorem modPort_cycle (s : State) (r b p : Nat) (f : Port → Port) : (s.modPort r b p f).cycle = s.cycle := rfl
@[simp] theorem modPort_rank (s : State) (r b p : Nat) (f : Port → Port) : (s.modPort r b p f).rank = s.rank := rfl
@[simp] theorem modPort_berth (s : State) (r b p : Nat) (f : Port → Port) : (s.modPort r b p f).berth = s.berth := rfl
@[simp] theorem modPort_buffered (s : State) (r b p : Nat) (f : Port → Port) : (s.modPort r b p f).buffered = s.buffered := rfl
@[simp] theorem modPort_clusters (s : State) (r b p : Nat) (f : Port → Port) : (s.modPort r b p f).clusters = s.clusters := rfl
@[simp] theorem modPort_mem (s : State) (r b p : Nat) (f : Port → Port) : (s.modPort r b p f).mem = s.mem := rfl
@[simp] theorem modPort_basin (s : State) (r b p : Nat) (f : Port → Port) : (s.modPort r b p f).basin = s.basin := rfl
@[simp] theorem modPort_full (s : State) (r b p : Nat) (f : Port → Port) : (s.modPort r b p f).full = s.full := rfl
@[simp] theorem modPort_poison (s : State) (r b p : Nat) (f : Port → Port) : (s.modPort r b p f).poison = s.poison := rfl
@[simp] theorem modPort_launches (s : State) (r b p : Nat) (f : Port → Port) : (s.modPort r b p f).launches = s.launches := rfl
@[simp] theorem modPort_lock (s : State) (r b p : Nat) (f : Port → Port) : (s.modPort r b p f).lock = s.lock := rfl
@[simp] theorem modPort_agenda (s : State) (r b p : Nat) (f : Port → Port) : (s.modPort r b p f).agenda = s.agenda := rfl
@[simp] theorem modPort_held (s : State) (r b p : Nat) (f : Port → Port) : (s.modPort r b p f).held = s.held := rfl
@[simp] theorem modPort_inputs (s : State) (r b p : Nat) (f : Port → Port) : (s.modPort r b p f).inputs = s.inputs := rfl
@[simp] theorem modPort_outs (s : State) (r b p : Nat) (f : Port → Port) : (s.modPort r b p f).outs = s.outs := rfl
@[simp] theorem modPort_ticket (s : State) (r b p : Nat) (f : Port → Port) : (s.modPort r b p f).ticket = s.ticket := rfl
@[simp] theorem modPort_free (s : State) (r b p : Nat) (f : Port → Port) : (s.modPort r b p f).free = s.free := rfl
@[simp] theorem modPort_powerOff (s : State) (r b p : Nat) (f : Port → Port) : (s.modPort r b p f).powerOff = s.powerOff := rfl
/-! `modCounts` -/
@[simp] theorem modCounts_cycle (s : State) (r l : Nat) (f : Counts → Counts) : (s.modCounts r l f).cycle = s.cycle := rfl
@[simp] theorem modCounts_rank (s : State) (r l : Nat) (f : Counts → Counts) : (s.modCounts r l f).rank = s.rank := rfl
@[simp] theorem modCounts_berth (s : State) (r l : Nat) (f : Counts → Counts) : (s.modCounts r l f).berth = s.berth := rfl
@[simp] theorem modCounts_buffered (s : State) (r l : Nat) (f : Counts → Counts) : (s.modCounts r l f).buffered = s.buffered := rfl
@[simp] theorem modCounts_clusters (s : State) (r l : Nat) (f : Counts → Counts) : (s.modCounts r l f).clusters = s.clusters := rfl
@[simp] theorem modCounts_mem (s : State) (r l : Nat) (f : Counts → Counts) : (s.modCounts r l f).mem = s.mem := rfl
@[simp] theorem modCounts_basin (s : State) (r l : Nat) (f : Counts → Counts) : (s.modCounts r l f).basin = s.basin := rfl
@[simp] theorem modCounts_full (s : State) (r l : Nat) (f : Counts → Counts) : (s.modCounts r l f).full = s.full := rfl
@[simp] theorem modCounts_poison (s : State) (r l : Nat) (f : Counts → Counts) : (s.modCounts r l f).poison = s.poison := rfl
@[simp] theorem modCounts_launches (s : State) (r l : Nat) (f : Counts → Counts) : (s.modCounts r l f).launches = s.launches := rfl
@[simp] theorem modCounts_lock (s : State) (r l : Nat) (f : Counts → Counts) : (s.modCounts r l f).lock = s.lock := rfl
@[simp] theorem modCounts_agenda (s : State) (r l : Nat) (f : Counts → Counts) : (s.modCounts r l f).agenda = s.agenda := rfl
@[simp] theorem modCounts_held (s : State) (r l : Nat) (f : Counts → Counts) : (s.modCounts r l f).held = s.held := rfl
@[simp] theorem modCounts_inputs (s : State) (r l : Nat) (f : Counts → Counts) : (s.modCounts r l f).inputs = s.inputs := rfl
@[simp] theorem modCounts_outs (s : State) (r l : Nat) (f : Counts → Counts) : (s.modCounts r l f).outs = s.outs := rfl
@[simp] theorem modCounts_ticket (s : State) (r l : Nat) (f : Counts → Counts) : (s.modCounts r l f).ticket = s.ticket := rfl
@[simp] theorem modCounts_free (s : State) (r l : Nat) (f : Counts → Counts) : (s.modCounts r l f).free = s.free := rfl
@[simp] theorem modCounts_powerOff (s : State) (r l : Nat) (f : Counts → Counts) : (s.modCounts r l f).powerOff = s.powerOff := rfl
/-! `setCluster` -/
@[simp] theorem setCluster_cycle (s : State) (k : Nat) (c : Cluster) : (s.setCluster k c).cycle = s.cycle := rfl
@[simp] theorem setCluster_rank (s : State) (k : Nat) (c : Cluster) : (s.setCluster k c).rank = s.rank := rfl
@[simp] theorem setCluster_berth (s : State) (k : Nat) (c : Cluster) : (s.setCluster k c).berth = s.berth := rfl
@[simp] theorem setCluster_buffered (s : State) (k : Nat) (c : Cluster) : (s.setCluster k c).buffered = s.buffered := rfl
@[simp] theorem setCluster_cores (s : State) (k : Nat) (c : Cluster) : (s.setCluster k c).cores = s.cores := rfl
@[simp] theorem setCluster_mem (s : State) (k : Nat) (c : Cluster) : (s.setCluster k c).mem = s.mem := rfl
@[simp] theorem setCluster_basin (s : State) (k : Nat) (c : Cluster) : (s.setCluster k c).basin = s.basin := rfl
@[simp] theorem setCluster_full (s : State) (k : Nat) (c : Cluster) : (s.setCluster k c).full = s.full := rfl
@[simp] theorem setCluster_poison (s : State) (k : Nat) (c : Cluster) : (s.setCluster k c).poison = s.poison := rfl
@[simp] theorem setCluster_launches (s : State) (k : Nat) (c : Cluster) : (s.setCluster k c).launches = s.launches := rfl
@[simp] theorem setCluster_lock (s : State) (k : Nat) (c : Cluster) : (s.setCluster k c).lock = s.lock := rfl
@[simp] theorem setCluster_agenda (s : State) (k : Nat) (c : Cluster) : (s.setCluster k c).agenda = s.agenda := rfl
@[simp] theorem setCluster_held (s : State) (k : Nat) (c : Cluster) : (s.setCluster k c).held = s.held := rfl
@[simp] theorem setCluster_inputs (s : State) (k : Nat) (c : Cluster) : (s.setCluster k c).inputs = s.inputs := rfl
@[simp] theorem setCluster_outs (s : State) (k : Nat) (c : Cluster) : (s.setCluster k c).outs = s.outs := rfl
@[simp] theorem setCluster_ticket (s : State) (k : Nat) (c : Cluster) : (s.setCluster k c).ticket = s.ticket := rfl
@[simp] theorem setCluster_free (s : State) (k : Nat) (c : Cluster) : (s.setCluster k c).free = s.free := rfl
@[simp] theorem setCluster_powerOff (s : State) (k : Nat) (c : Cluster) : (s.setCluster k c).powerOff = s.powerOff := rfl
/-! `modCluster` -/
@[simp] theorem modCluster_cycle (s : State) (k : Nat) (f : Cluster → Cluster) : (s.modCluster k f).cycle = s.cycle := rfl
@[simp] theorem modCluster_rank (s : State) (k : Nat) (f : Cluster → Cluster) : (s.modCluster k f).rank = s.rank := rfl
@[simp] theorem modCluster_berth (s : State) (k : Nat) (f : Cluster → Cluster) : (s.modCluster k f).berth = s.berth := rfl
@[simp] theorem modCluster_buffered (s : State) (k : Nat) (f : Cluster → Cluster) : (s.modCluster k f).buffered = s.buffered := rfl
@[simp] theorem modCluster_cores (s : State) (k : Nat) (f : Cluster → Cluster) : (s.modCluster k f).cores = s.cores := rfl
@[simp] theorem modCluster_mem (s : State) (k : Nat) (f : Cluster → Cluster) : (s.modCluster k f).mem = s.mem := rfl
@[simp] theorem modCluster_basin (s : State) (k : Nat) (f : Cluster → Cluster) : (s.modCluster k f).basin = s.basin := rfl
@[simp] theorem modCluster_full (s : State) (k : Nat) (f : Cluster → Cluster) : (s.modCluster k f).full = s.full := rfl
@[simp] theorem modCluster_poison (s : State) (k : Nat) (f : Cluster → Cluster) : (s.modCluster k f).poison = s.poison := rfl
@[simp] theorem modCluster_launches (s : State) (k : Nat) (f : Cluster → Cluster) : (s.modCluster k f).launches = s.launches := rfl
@[simp] theorem modCluster_lock (s : State) (k : Nat) (f : Cluster → Cluster) : (s.modCluster k f).lock = s.lock := rfl
@[simp] theorem modCluster_agenda (s : State) (k : Nat) (f : Cluster → Cluster) : (s.modCluster k f).agenda = s.agenda := rfl
@[simp] theorem modCluster_held (s : State) (k : Nat) (f : Cluster → Cluster) : (s.modCluster k f).held = s.held := rfl
@[simp] theorem modCluster_inputs (s : State) (k : Nat) (f : Cluster → Cluster) : (s.modCluster k f).inputs = s.inputs := rfl
@[simp] theorem modCluster_outs (s : State) (k : Nat) (f : Cluster → Cluster) : (s.modCluster k f).outs = s.outs := rfl
@[simp] theorem modCluster_ticket (s : State) (k : Nat) (f : Cluster → Cluster) : (s.modCluster k f).ticket = s.ticket := rfl
@[simp] theorem modCluster_free (s : State) (k : Nat) (f : Cluster → Cluster) : (s.modCluster k f).free = s.free := rfl
@[simp] theorem modCluster_powerOff (s : State) (k : Nat) (f : Cluster → Cluster) : (s.modCluster k f).powerOff = s.powerOff := rfl
/-! `modBank` -/
@[simp] theorem modBank_cycle (s : State) (k n : Nat) (f : Bank → Bank) : (s.modBank k n f).cycle = s.cycle := rfl
@[simp] theorem modBank_rank (s : State) (k n : Nat) (f : Bank → Bank) : (s.modBank k n f).rank = s.rank := rfl
@[simp] theorem modBank_berth (s : State) (k n : Nat) (f : Bank → Bank) : (s.modBank k n f).berth = s.berth := rfl
@[simp] theorem modBank_buffered (s : State) (k n : Nat) (f : Bank → Bank) : (s.modBank k n f).buffered = s.buffered := rfl
@[simp] theorem modBank_cores (s : State) (k n : Nat) (f : Bank → Bank) : (s.modBank k n f).cores = s.cores := rfl
@[simp] theorem modBank_mem (s : State) (k n : Nat) (f : Bank → Bank) : (s.modBank k n f).mem = s.mem := rfl
@[simp] theorem modBank_basin (s : State) (k n : Nat) (f : Bank → Bank) : (s.modBank k n f).basin = s.basin := rfl
@[simp] theorem modBank_full (s : State) (k n : Nat) (f : Bank → Bank) : (s.modBank k n f).full = s.full := rfl
@[simp] theorem modBank_poison (s : State) (k n : Nat) (f : Bank → Bank) : (s.modBank k n f).poison = s.poison := rfl
@[simp] theorem modBank_launches (s : State) (k n : Nat) (f : Bank → Bank) : (s.modBank k n f).launches = s.launches := rfl
@[simp] theorem modBank_lock (s : State) (k n : Nat) (f : Bank → Bank) : (s.modBank k n f).lock = s.lock := rfl
@[simp] theorem modBank_agenda (s : State) (k n : Nat) (f : Bank → Bank) : (s.modBank k n f).agenda = s.agenda := rfl
@[simp] theorem modBank_held (s : State) (k n : Nat) (f : Bank → Bank) : (s.modBank k n f).held = s.held := rfl
@[simp] theorem modBank_inputs (s : State) (k n : Nat) (f : Bank → Bank) : (s.modBank k n f).inputs = s.inputs := rfl
@[simp] theorem modBank_outs (s : State) (k n : Nat) (f : Bank → Bank) : (s.modBank k n f).outs = s.outs := rfl
@[simp] theorem modBank_ticket (s : State) (k n : Nat) (f : Bank → Bank) : (s.modBank k n f).ticket = s.ticket := rfl
@[simp] theorem modBank_free (s : State) (k n : Nat) (f : Bank → Bank) : (s.modBank k n f).free = s.free := rfl
@[simp] theorem modBank_powerOff (s : State) (k n : Nat) (f : Bank → Bank) : (s.modBank k n f).powerOff = s.powerOff := rfl
/-! `withLock` -/
@[simp] theorem withLock_cycle (s : State) (f : Lock → Lock) : (s.withLock f).cycle = s.cycle := rfl
@[simp] theorem withLock_rank (s : State) (f : Lock → Lock) : (s.withLock f).rank = s.rank := rfl
@[simp] theorem withLock_berth (s : State) (f : Lock → Lock) : (s.withLock f).berth = s.berth := rfl
@[simp] theorem withLock_buffered (s : State) (f : Lock → Lock) : (s.withLock f).buffered = s.buffered := rfl
@[simp] theorem withLock_cores (s : State) (f : Lock → Lock) : (s.withLock f).cores = s.cores := rfl
@[simp] theorem withLock_clusters (s : State) (f : Lock → Lock) : (s.withLock f).clusters = s.clusters := rfl
@[simp] theorem withLock_mem (s : State) (f : Lock → Lock) : (s.withLock f).mem = s.mem := rfl
@[simp] theorem withLock_basin (s : State) (f : Lock → Lock) : (s.withLock f).basin = s.basin := rfl
@[simp] theorem withLock_full (s : State) (f : Lock → Lock) : (s.withLock f).full = s.full := rfl
@[simp] theorem withLock_poison (s : State) (f : Lock → Lock) : (s.withLock f).poison = s.poison := rfl
@[simp] theorem withLock_launches (s : State) (f : Lock → Lock) : (s.withLock f).launches = s.launches := rfl
@[simp] theorem withLock_agenda (s : State) (f : Lock → Lock) : (s.withLock f).agenda = s.agenda := rfl
@[simp] theorem withLock_held (s : State) (f : Lock → Lock) : (s.withLock f).held = s.held := rfl
@[simp] theorem withLock_inputs (s : State) (f : Lock → Lock) : (s.withLock f).inputs = s.inputs := rfl
@[simp] theorem withLock_outs (s : State) (f : Lock → Lock) : (s.withLock f).outs = s.outs := rfl
@[simp] theorem withLock_ticket (s : State) (f : Lock → Lock) : (s.withLock f).ticket = s.ticket := rfl
@[simp] theorem withLock_free (s : State) (f : Lock → Lock) : (s.withLock f).free = s.free := rfl
@[simp] theorem withLock_powerOff (s : State) (f : Lock → Lock) : (s.withLock f).powerOff = s.powerOff := rfl
/-! `out` -/
@[simp] theorem out_cycle (s : State) (o : Out) : (s.out o).cycle = s.cycle := rfl
@[simp] theorem out_rank (s : State) (o : Out) : (s.out o).rank = s.rank := rfl
@[simp] theorem out_berth (s : State) (o : Out) : (s.out o).berth = s.berth := rfl
@[simp] theorem out_buffered (s : State) (o : Out) : (s.out o).buffered = s.buffered := rfl
@[simp] theorem out_cores (s : State) (o : Out) : (s.out o).cores = s.cores := rfl
@[simp] theorem out_clusters (s : State) (o : Out) : (s.out o).clusters = s.clusters := rfl
@[simp] theorem out_mem (s : State) (o : Out) : (s.out o).mem = s.mem := rfl
@[simp] theorem out_basin (s : State) (o : Out) : (s.out o).basin = s.basin := rfl
@[simp] theorem out_full (s : State) (o : Out) : (s.out o).full = s.full := rfl
@[simp] theorem out_poison (s : State) (o : Out) : (s.out o).poison = s.poison := rfl
@[simp] theorem out_launches (s : State) (o : Out) : (s.out o).launches = s.launches := rfl
@[simp] theorem out_lock (s : State) (o : Out) : (s.out o).lock = s.lock := rfl
@[simp] theorem out_agenda (s : State) (o : Out) : (s.out o).agenda = s.agenda := rfl
@[simp] theorem out_held (s : State) (o : Out) : (s.out o).held = s.held := rfl
@[simp] theorem out_inputs (s : State) (o : Out) : (s.out o).inputs = s.inputs := rfl
@[simp] theorem out_ticket (s : State) (o : Out) : (s.out o).ticket = s.ticket := rfl
@[simp] theorem out_free (s : State) (o : Out) : (s.out o).free = s.free := rfl
@[simp] theorem out_powerOff (s : State) (o : Out) : (s.out o).powerOff = s.powerOff := rfl
/-! `later` -/
@[simp] theorem later_cycle (s : State) (n : Nat) (i : Instr) : (s.later n i).cycle = s.cycle := rfl
@[simp] theorem later_rank (s : State) (n : Nat) (i : Instr) : (s.later n i).rank = s.rank := rfl
@[simp] theorem later_berth (s : State) (n : Nat) (i : Instr) : (s.later n i).berth = s.berth := rfl
@[simp] theorem later_buffered (s : State) (n : Nat) (i : Instr) : (s.later n i).buffered = s.buffered := rfl
@[simp] theorem later_cores (s : State) (n : Nat) (i : Instr) : (s.later n i).cores = s.cores := rfl
@[simp] theorem later_clusters (s : State) (n : Nat) (i : Instr) : (s.later n i).clusters = s.clusters := rfl
@[simp] theorem later_mem (s : State) (n : Nat) (i : Instr) : (s.later n i).mem = s.mem := rfl
@[simp] theorem later_basin (s : State) (n : Nat) (i : Instr) : (s.later n i).basin = s.basin := rfl
@[simp] theorem later_full (s : State) (n : Nat) (i : Instr) : (s.later n i).full = s.full := rfl
@[simp] theorem later_poison (s : State) (n : Nat) (i : Instr) : (s.later n i).poison = s.poison := rfl
@[simp] theorem later_launches (s : State) (n : Nat) (i : Instr) : (s.later n i).launches = s.launches := rfl
@[simp] theorem later_lock (s : State) (n : Nat) (i : Instr) : (s.later n i).lock = s.lock := rfl
@[simp] theorem later_held (s : State) (n : Nat) (i : Instr) : (s.later n i).held = s.held := rfl
@[simp] theorem later_inputs (s : State) (n : Nat) (i : Instr) : (s.later n i).inputs = s.inputs := rfl
@[simp] theorem later_outs (s : State) (n : Nat) (i : Instr) : (s.later n i).outs = s.outs := rfl
@[simp] theorem later_ticket (s : State) (n : Nat) (i : Instr) : (s.later n i).ticket = s.ticket := rfl
@[simp] theorem later_free (s : State) (n : Nat) (i : Instr) : (s.later n i).free = s.free := rfl
@[simp] theorem later_powerOff (s : State) (n : Nat) (i : Instr) : (s.later n i).powerOff = s.powerOff := rfl
/-! `fresh` -/
@[simp] theorem fresh_cycle (s : State) : (s.fresh).cycle = s.cycle := rfl
@[simp] theorem fresh_rank (s : State) : (s.fresh).rank = s.rank := rfl
@[simp] theorem fresh_berth (s : State) : (s.fresh).berth = s.berth := rfl
@[simp] theorem fresh_buffered (s : State) : (s.fresh).buffered = s.buffered := rfl
@[simp] theorem fresh_cores (s : State) : (s.fresh).cores = s.cores := rfl
@[simp] theorem fresh_clusters (s : State) : (s.fresh).clusters = s.clusters := rfl
@[simp] theorem fresh_mem (s : State) : (s.fresh).mem = s.mem := rfl
@[simp] theorem fresh_basin (s : State) : (s.fresh).basin = s.basin := rfl
@[simp] theorem fresh_full (s : State) : (s.fresh).full = s.full := rfl
@[simp] theorem fresh_poison (s : State) : (s.fresh).poison = s.poison := rfl
@[simp] theorem fresh_launches (s : State) : (s.fresh).launches = s.launches := rfl
@[simp] theorem fresh_lock (s : State) : (s.fresh).lock = s.lock := rfl
@[simp] theorem fresh_agenda (s : State) : (s.fresh).agenda = s.agenda := rfl
@[simp] theorem fresh_held (s : State) : (s.fresh).held = s.held := rfl
@[simp] theorem fresh_inputs (s : State) : (s.fresh).inputs = s.inputs := rfl
@[simp] theorem fresh_outs (s : State) : (s.fresh).outs = s.outs := rfl
@[simp] theorem fresh_ticket (s : State) : (s.fresh).ticket = s.ticket := rfl
@[simp] theorem fresh_powerOff (s : State) : (s.fresh).powerOff = s.powerOff := rfl
/-! `modLaunch` -/
@[simp] theorem modLaunch_cycle (s : State) (l : Nat) (f : Launch → Launch) : (s.modLaunch l f).cycle = s.cycle := rfl
@[simp] theorem modLaunch_rank (s : State) (l : Nat) (f : Launch → Launch) : (s.modLaunch l f).rank = s.rank := rfl
@[simp] theorem modLaunch_berth (s : State) (l : Nat) (f : Launch → Launch) : (s.modLaunch l f).berth = s.berth := rfl
@[simp] theorem modLaunch_buffered (s : State) (l : Nat) (f : Launch → Launch) : (s.modLaunch l f).buffered = s.buffered := rfl
@[simp] theorem modLaunch_cores (s : State) (l : Nat) (f : Launch → Launch) : (s.modLaunch l f).cores = s.cores := rfl
@[simp] theorem modLaunch_clusters (s : State) (l : Nat) (f : Launch → Launch) : (s.modLaunch l f).clusters = s.clusters := rfl
@[simp] theorem modLaunch_mem (s : State) (l : Nat) (f : Launch → Launch) : (s.modLaunch l f).mem = s.mem := rfl
@[simp] theorem modLaunch_basin (s : State) (l : Nat) (f : Launch → Launch) : (s.modLaunch l f).basin = s.basin := rfl
@[simp] theorem modLaunch_full (s : State) (l : Nat) (f : Launch → Launch) : (s.modLaunch l f).full = s.full := rfl
@[simp] theorem modLaunch_poison (s : State) (l : Nat) (f : Launch → Launch) : (s.modLaunch l f).poison = s.poison := rfl
@[simp] theorem modLaunch_lock (s : State) (l : Nat) (f : Launch → Launch) : (s.modLaunch l f).lock = s.lock := rfl
@[simp] theorem modLaunch_agenda (s : State) (l : Nat) (f : Launch → Launch) : (s.modLaunch l f).agenda = s.agenda := rfl
@[simp] theorem modLaunch_held (s : State) (l : Nat) (f : Launch → Launch) : (s.modLaunch l f).held = s.held := rfl
@[simp] theorem modLaunch_inputs (s : State) (l : Nat) (f : Launch → Launch) : (s.modLaunch l f).inputs = s.inputs := rfl
@[simp] theorem modLaunch_outs (s : State) (l : Nat) (f : Launch → Launch) : (s.modLaunch l f).outs = s.outs := rfl
@[simp] theorem modLaunch_ticket (s : State) (l : Nat) (f : Launch → Launch) : (s.modLaunch l f).ticket = s.ticket := rfl
@[simp] theorem modLaunch_free (s : State) (l : Nat) (f : Launch → Launch) : (s.modLaunch l f).free = s.free := rfl
@[simp] theorem modLaunch_powerOff (s : State) (l : Nat) (f : Launch → Launch) : (s.modLaunch l f).powerOff = s.powerOff := rfl
/-! `as` -/
@[simp] theorem as_cycle (s : State) (r b : Nat) : (s.as r b).cycle = s.cycle := rfl
@[simp] theorem as_cores (s : State) (r b : Nat) : (s.as r b).cores = s.cores := rfl
@[simp] theorem as_clusters (s : State) (r b : Nat) : (s.as r b).clusters = s.clusters := rfl
@[simp] theorem as_mem (s : State) (r b : Nat) : (s.as r b).mem = s.mem := rfl
@[simp] theorem as_basin (s : State) (r b : Nat) : (s.as r b).basin = s.basin := rfl
@[simp] theorem as_full (s : State) (r b : Nat) : (s.as r b).full = s.full := rfl
@[simp] theorem as_poison (s : State) (r b : Nat) : (s.as r b).poison = s.poison := rfl
@[simp] theorem as_launches (s : State) (r b : Nat) : (s.as r b).launches = s.launches := rfl
@[simp] theorem as_lock (s : State) (r b : Nat) : (s.as r b).lock = s.lock := rfl
@[simp] theorem as_agenda (s : State) (r b : Nat) : (s.as r b).agenda = s.agenda := rfl
@[simp] theorem as_held (s : State) (r b : Nat) : (s.as r b).held = s.held := rfl
@[simp] theorem as_inputs (s : State) (r b : Nat) : (s.as r b).inputs = s.inputs := rfl
@[simp] theorem as_outs (s : State) (r b : Nat) : (s.as r b).outs = s.outs := rfl
@[simp] theorem as_ticket (s : State) (r b : Nat) : (s.as r b).ticket = s.ticket := rfl
@[simp] theorem as_free (s : State) (r b : Nat) : (s.as r b).free = s.free := rfl
@[simp] theorem as_powerOff (s : State) (r b : Nat) : (s.as r b).powerOff = s.powerOff := rfl
/-! `back` -/
@[simp] theorem back_cycle (s : State) (o : State) : (s.back o).cycle = s.cycle := rfl
@[simp] theorem back_cores (s : State) (o : State) : (s.back o).cores = s.cores := rfl
@[simp] theorem back_clusters (s : State) (o : State) : (s.back o).clusters = s.clusters := rfl
@[simp] theorem back_mem (s : State) (o : State) : (s.back o).mem = s.mem := rfl
@[simp] theorem back_basin (s : State) (o : State) : (s.back o).basin = s.basin := rfl
@[simp] theorem back_full (s : State) (o : State) : (s.back o).full = s.full := rfl
@[simp] theorem back_poison (s : State) (o : State) : (s.back o).poison = s.poison := rfl
@[simp] theorem back_launches (s : State) (o : State) : (s.back o).launches = s.launches := rfl
@[simp] theorem back_lock (s : State) (o : State) : (s.back o).lock = s.lock := rfl
@[simp] theorem back_agenda (s : State) (o : State) : (s.back o).agenda = s.agenda := rfl
@[simp] theorem back_held (s : State) (o : State) : (s.back o).held = s.held := rfl
@[simp] theorem back_inputs (s : State) (o : State) : (s.back o).inputs = s.inputs := rfl
@[simp] theorem back_outs (s : State) (o : State) : (s.back o).outs = s.outs := rfl
@[simp] theorem back_ticket (s : State) (o : State) : (s.back o).ticket = s.ticket := rfl
@[simp] theorem back_free (s : State) (o : State) : (s.back o).free = s.free := rfl
@[simp] theorem back_powerOff (s : State) (o : State) : (s.back o).powerOff = s.powerOff := rfl

end State
end Sys2Proof.Machine
end

