-- ==== Sys2Proof/Laws/Ops.lean ====
section
/-!
SUPPORT. One lemma for each shared operation of a berth: what port checks, pops, register writes, mooring, the end of an
instruction, releases and acquires can do, so that no later proof unfolds them.
-/
namespace Sys2Proof.Machine
open State Sys2Proof.Spec

/-! ### Bits and lists -/

theorem setBit_getLsbD {w : Nat} (x : BitVec w) (i k : Nat) (v : Bool) :
    (setBit x i v).getLsbD k = if k = i ∧ k < w then v else x.getLsbD k := by
  unfold setBit
  by_cases hk : k < w
  · cases v <;> by_cases e : i = k <;>
      simp only [Bool.false_eq_true, if_true, if_false, BitVec.getLsbD_or, BitVec.getLsbD_and, BitVec.getLsbD_not, BitVec.getLsbD_ofNat,
        Nat.testBit_two_pow, e, hk] <;> simp [e, hk, eq_comm]
  · rw [BitVec.getLsbD_of_ge _ _ (Nat.le_of_not_lt hk), BitVec.getLsbD_of_ge x k (Nat.le_of_not_lt hk)]
    simp [hk]

@[simp] theorem mem_upTo (n k : Nat) : k ∈ upTo n ↔ k < n := by
  induction n with
  | zero => simp [upTo]
  | succ n ih => simp [upTo, ih]; omega

/-- What every step of a repetition keeps, the repetition keeps. -/
theorem iter_keeps {σ : Type} (P : σ → Prop) (f : Nat → σ → σ) (n : Nat) (s : σ) (h : P s)
    (k : ∀ i t, i < n → P t → P (f i t)) : P (iter f n s) := by
  induction n with
  | zero => exact h
  | succ n ih => exact k n _ (Nat.lt_succ_self n) (ih fun i t hi => k i t (Nat.lt_succ_of_lt hi))
/-- What every step of a fold keeps, the fold keeps. -/
theorem foldl_keeps {σ α : Type} (P : σ → Prop) (f : σ → α → σ) (l : List α) (s : σ) (h : P s)
    (k : ∀ t a, a ∈ l → P t → P (f t a)) : P (l.foldl f s) := by
  induction l generalizing s with
  | nil => exact h
  | cons a l ih => exact ih _ (k _ a (by simp) h) fun t b hb => k t b (by simp [hb])

theorem mem_nsAdd (l : List Nat) (i k : Nat) : k ∈ nsAdd l i ↔ k = i ∨ k ∈ l := by
  induction l with
  | nil => simp [nsAdd]
  | cons a l ih =>
    simp only [nsAdd]
    split
    · subst_vars; simp
    · split
      · simp
      · simp [ih]; tauto
theorem mem_nsDel (l : List Nat) (i k : Nat) : k ∈ nsDel l i ↔ k ≠ i ∧ k ∈ l := by simp [nsDel, and_comm]

/-! ### How an instruction ends -/

@[simp] theorem finish_ok (s t : State) : s.finish (.ok t) = .next t := rfl
@[simp] theorem finish_gone (s t : State) : s.finish (.error (.gone t)) = .next t := rfl
theorem finish_trap (s : State) (c : Cause) (v : Word) (h : s.buffered = false) :
    s.finish (.error (.trap c v)) = .next (s.takeTrap c v) := by simp [finish, trapNow, h]
@[simp] theorem finish_wait (s : State) (y : Why) : s.finish (.error (.wait y)) = .next (s.block y) := rfl
/-- Every meaning that ends by `finish` answers a next state. -/
theorem finish_next (s : State) (r : Run State) : ∃ t, s.finish r = .next t := by
  rcases r with e | t
  · rcases e with ⟨c, v⟩ | y | t
    · exact ⟨_, rfl⟩
    · exact ⟨_, rfl⟩
    · exact ⟨_, rfl⟩
  · exact ⟨_, rfl⟩

/-! ### Port checks -/

theorem checkIn_ok {s : State} {r : BitVec 5} (h : InReady s r) : s.checkIn r = .ok () := by
  unfold checkIn
  rcases h with h | ⟨h1, h2, h3⟩
  · simp [h]
  · by_cases h4 : r.toNat < 24
    · simp [h4]
    · simp [h4, h1, h2, h3]
theorem checkOut_ok {s : State} {r : BitVec 5} (h : OutReady s r) : s.checkOut r = .ok () := by
  unfold checkOut
  rcases h with h | ⟨h1, h2, h3, h4, h5⟩
  · simp [h]
  · by_cases h6 : r.toNat < 24
    · simp [h6]
    · simp [h6, h1, h2, h3, h4, h5]
theorem checkIns_ok {s : State} {l : List (BitVec 5)} (h : ∀ r ∈ l, InReady s r) : s.checkIns l = .ok () := by
  induction l with
  | nil => rfl
  | cons r l ih =>
    simp only [checkIns, checkIn_ok (h r (by simp))]
    exact ih fun q hq => h q (by simp [hq])
theorem checkPorts_ok {s : State} {l : List (BitVec 5)} {d : BitVec 5} (h : Ready s l d) : s.checkPorts l d = .ok () := by
  simp only [checkPorts, checkIns_ok h.1, checkOut_ok h.2]
theorem inReady_reg {s : State} {r : BitVec 5} (h : r.toNat < 24) : InReady s r := .inl h
theorem ready_regs {s : State} {l : List (BitVec 5)} {d : BitVec 5} (h : ∀ r ∈ l, r.toNat < 24) (hd : d.toNat < 24) :
    Ready s l d := ⟨fun r hr => .inl (h r hr), .inl hd⟩
theorem ready_none (s : State) : Ready s [] 0 := ⟨by simp, .inl (by decide)⟩

/-- The shared form of an instruction that writes an x register completes on every state whose ports are ready. -/
theorem putX_ready {s : State} {l d} (v : Word) (h : Ready s l d) : s.putX l d v = .next (wrote s l d v) := by
  simp [putX, checkPorts_ok h, wrote, flag]
theorem putS_ready {s : State} {l} (f : State → State) (h : ∀ r ∈ l, InReady s r) : s.putS l f = .next (f (s.pops l)).next := by
  simp [putS, checkIns_ok h]
theorem putS_mark {s : State} {l : List (BitVec 5)} (p : BitVec 5) (v : Bool) (h : Ready s l 0) :
    s.putS l (fun t => t.wp p v) = .next (marked s l p v) := by
  simp [putS_ready _ h.1, marked, flag]

/-! ### Registers -/

theorem pop_reg {s : State} {r : BitVec 5} (h : r.toNat < 24) : s.pop r = s := by simp [pop, h]
@[simp] theorem pops_nil (s : State) : s.pops [] = s := rfl
/-- Sources that are registers pop nothing. -/
theorem pops_regs (s : State) (l : List (BitVec 5)) (h : ∀ r ∈ l, r.toNat < 24) : s.pops l = s := by
  induction l with
  | nil => rfl
  | cons r l ih =>
    have h1 := ih fun q hq => h q (by simp [hq])
    simp only [pops, h1, pop_reg (h r (by simp)), ite_self]
@[simp] theorem wx_zero (s : State) (v : Word) : s.wx 0 v = s := by simp [wx]
@[simp] theorem rx_zero (s : State) : s.rx 0 = 0 := by simp [rx]
@[simp] theorem rp_zero (s : State) : s.rp 0 = true := by simp [rp]
theorem wx_reg (s : State) (d : BitVec 5) (v : Word) (h0 : d ≠ 0) (h : d.toNat < 24) :
    s.wx d v = s.modMe fun b => { b with x := vset b.x d.toNat v } := by
  have : d.toNat ≠ 0 := fun e => h0 (BitVec.eq_of_toNat_eq (by simpa using e))
  simp [wx, h, this]
@[simp] theorem flag_zero (s : State) : s.flag 0 = s := by simp [flag]
theorem modMe_id (s : State) : s.me = (s.modMe fun b => b).me := by simp

/-! ### Writes of memory bytes touch no core -/

@[simp] theorem cleanByte_cores (l : Line) (i : Nat) (s : State) : (cleanByte l i s).cores = s.cores := by
  unfold cleanByte; split <;> rfl
@[simp] theorem setPoison_cores (s : State) (l : Loc) (p : Bool) : (s.setPoison l p).cores = s.cores := by
  unfold setPoison; split
  · rfl
  · split <;> rfl
@[simp] theorem setFull_cores (s : State) (l : Loc) (p : Bool) : (s.setFull l p).cores = s.cores := by
  unfold setFull; split <;> rfl
@[simp] theorem cleanUnit_cores (l : Line) (i : Nat) (s : State) : (cleanUnit l i s).cores = s.cores := by
  unfold cleanUnit; dsimp only; split
  · rfl
  · split
    · simp
    · split
      · simp
      · rfl
@[simp] theorem cleanSector_cores (s : State) (l : Line) (k : Nat) : (s.cleanSector l k).cores = s.cores := by
  unfold cleanSector; split
  · rfl
  · refine iter_keeps (fun t : State => t.cores = s.cores) _ _ _ (iter_keeps (fun t : State => t.cores = s.cores) _ _ _ rfl ?_) ?_
    · intro i t _ h; simpa using h
    · intro i t _ h; simpa using h
@[simp] theorem cleanLine_cores (s : State) (l : Line) : (s.cleanLine l).cores = s.cores := by
  unfold cleanLine; split
  · rfl
  · refine iter_keeps (fun t : State => t.cores = s.cores) _ _ _ rfl ?_
    intro i t _ h; simpa using h

/-! ### Mooring, releases and acquires keep the berths -/

theorem core_of_cores {s t : State} (h : t.cores = s.cores) (r : Nat) : t.core r = s.core r := by simp [State.core, h]
theorem berthAt_of_cores {s t : State} (h : t.cores = s.cores) (r b : Nat) : t.berthAt r b = s.berthAt r b := by
  simp [berthAt, State.core, h]
/-- A change of a core that leaves its berths leaves every berth. -/
theorem berthAt_modCore (s : State) (r q b : Nat) (f : Core → Core) (h : ∀ c, (f c).berths = c.berths) :
    (s.modCore r f).berthAt q b = s.berthAt q b := by
  unfold berthAt
  by_cases e : q = r
  · subst e; simp [Core.berth, h]
  · simp [core_modCore_of_ne _ _ _ _ e]

theorem release_rank (s : State) (r : Nat) : (s.release r).rank = s.rank ∧ (s.release r).berth = s.berth ∧
    (s.release r).buffered = s.buffered ∧ (s.release r).cycle = s.cycle := by
  have key : ∀ l : Line, ∀ t : State, ∀ q : State, (t.rank = q.rank ∧ t.berth = q.berth ∧ t.buffered = q.buffered ∧ t.cycle = q.cycle) →
      ((t.cleanLine l).rank = q.rank ∧ (t.cleanLine l).berth = q.berth ∧ (t.cleanLine l).buffered = q.buffered ∧ (t.cleanLine l).cycle = q.cycle) := by
    intro l t q h
    unfold cleanLine; split
    · exact h
    · refine iter_keeps (fun t : State => t.rank = q.rank ∧ t.berth = q.berth ∧ t.buffered = q.buffered ∧ t.cycle = q.cycle) _ _ _ h ?_
      intro k u _ hu
      unfold cleanSector; split
      · exact hu
      · refine iter_keeps (fun t : State => t.rank = q.rank ∧ t.berth = q.berth ∧ t.buffered = q.buffered ∧ t.cycle = q.cycle) _ _ _
          (iter_keeps (fun t : State => t.rank = q.rank ∧ t.berth = q.berth ∧ t.buffered = q.buffered ∧ t.cycle = q.cycle) _ _ _ hu ?_) ?_
        · intro i t _ h
          unfold cleanByte; split
          · exact h
          · exact h
        · intro i t _ h
          unfold cleanUnit; dsimp only
          split
          · exact h
          · have hp : ∀ l p, ((t.setPoison l p).rank = q.rank ∧ (t.setPoison l p).berth = q.berth ∧ (t.setPoison l p).buffered = q.buffered ∧
                (t.setPoison l p).cycle = q.cycle) := by
              intro l p; unfold setPoison; split
              · exact h
              · split <;> exact h
            split
            · exact hp _ _
            · split
              · exact hp _ _
              · exact h
  have all : (s.cleanAll r).rank = s.rank ∧ (s.cleanAll r).berth = s.berth ∧ (s.cleanAll r).buffered = s.buffered ∧
      (s.cleanAll r).cycle = s.cycle := by
    unfold cleanAll; split
    · simp
    · refine foldl_keeps (fun t : State => t.rank = s.rank ∧ t.berth = s.berth ∧ t.buffered = s.buffered ∧ t.cycle = s.cycle) cleanLine
        (s.core r).l1 s ⟨rfl, rfl, rfl, rfl⟩ ?_
      intro t a _ h; exact key a t s h
  unfold release; dsimp only; split
  · exact all
  · simp
theorem release_berthAt (s : State) (r q b : Nat) : (s.release r).berthAt q b = s.berthAt q b := by
  unfold release; dsimp only; split
  · unfold cleanAll; split
    · rfl
    · have h : ((s.core r).l1.foldl cleanLine s).cores = s.cores :=
        foldl_keeps (fun t : State => t.cores = s.cores) cleanLine _ s rfl (by intro t a _ h; simpa using h)
      rw [berthAt_modCore]
      · exact berthAt_of_cores h q b
      · intro c; rfl
  · rw [berthAt_modCore]; intro c; rfl
theorem release_me (s : State) (r : Nat) : (s.release r).me = s.me := by
  simp [me, release_berthAt, release_rank]
theorem acquire_berthAt (s : State) (r q b : Nat) : (s.acquire r).berthAt q b = s.berthAt q b := by
  unfold acquire; rw [berthAt_modCore]; intro c; rfl
theorem acquire_me (s : State) (r : Nat) : (s.acquire r).me = s.me := acquire_berthAt s r s.rank s.berth
@[simp] theorem acquire_mem (s : State) (r : Nat) : (s.acquire r).mem = s.mem := rfl

/-! ### Instructions of class F and W, waits, replies and releases -/

@[simp] theorem finishMoored_ok (s t : State) : s.finishMoored (.ok t) = .next t := rfl
@[simp] theorem finishMoored_gone (s t : State) : s.finishMoored (.error (.gone t)) = .next t := rfl
@[simp] theorem finishMoored_wait (s : State) (y : Why) : s.finishMoored (.error (.wait y)) = .next (s.moor.block y) := rfl
/-- A vector or matrix instruction answers a next state, whatever its run comes to. -/
theorem finishMoored_next (s : State) (r : Run State) : ∃ t, s.finishMoored r = .next t := by
  rcases r with e | t
  · rcases e with ⟨c, v⟩ | y | t
    · exact ⟨_, rfl⟩
    · exact ⟨_, rfl⟩
    · exact ⟨_, rfl⟩
  · exact ⟨_, rfl⟩

/-- An instruction that has not waited writes back 8 cycles after its issue, and its messages leave in the cycle before. -/
theorem startAt_first {s : State} (h : s.myWait = none) : s.startAt = s.cycle + 8 := by simp [startAt, h]
theorem readyAfter_first {s : State} (lat : Nat) (h : s.myWait = none) : s.readyAfter lat = s.cycle + 8 + (lat - 8) := by
  simp [readyAfter, startAt_first h]; omega
theorem leaveIn_first {s : State} (h : s.myWait = none) : s.leaveIn = 7 := by simp [leaveIn, startAt_first h]

/-- A completion of class F without a push writes at once, and a jump sets the PC then; any other one acts with its reply. -/
theorem done_short {s : State} {lat : Nat} {q : Reply} (h : pushes q = false) (hl : lat ≤ 8) (hp : q.pc = none) :
    s.done lat q = (s.put q).next lat := by
  simp [done, h, hl, hp]
theorem done_jump {s : State} {lat : Nat} {q : Reply} {a : Word} (h : pushes q = false) (hl : lat ≤ 8) (hp : q.pc = some a) :
    s.done lat q = (s.put q).jump a := by
  simp [done, h, hl, hp]
theorem done_push {s : State} {lat : Nat} {q : Reply} (h : pushes q = true) : s.done lat q = s.answered lat q := by simp [done, h]
theorem done_long {s : State} {lat : Nat} {q : Reply} (hl : 8 < lat) : s.done lat q = s.answered lat q := by
  simp [done, Nat.not_le.mpr hl]
theorem pushes_write {d : BitVec 5} {v : Word} {srcs : List (BitVec 5)} (h : d.toNat < 24) :
    pushes { srcs := srcs, writes := [(d.toNat, v)] } = false := by simp [pushes]; omega
/-- What an instruction of class F leaves whose destination is a register. -/
theorem wrote_reg {s : State} {srcs : List (BitVec 5)} {d : BitVec 5} {v : Word} (h : d.toNat < 24) :
    wrote s srcs d v = ((s.pops srcs).wx d v).next := by
  unfold wrote; rw [done_short (pushes_write h) (Nat.le_refl 8) rfl]; simp [put]

/-- A request for the executing core's own CLM is there at once. -/
@[simp] theorem atHome_own (s : State) : s.atHome s.rank = .ok () := by simp [atHome, arrives]
/-- A request stands at its core, or the instruction waits; it never traps there. -/
theorem arrives_cases (s : State) (r d : Nat) : s.arrives r d = .ok () ∨ ∃ y, s.arrives r d = waitFor y := by
  unfold arrives
  split
  · exact .inl rfl
  · cases h : s.myWait with
    | none => exact .inr ⟨_, rfl⟩
    | some w =>
      dsimp only
      split
      · exact .inl rfl
      · split
        · split
          · exact .inr ⟨_, rfl⟩
          · split
            · exact .inr ⟨_, rfl⟩
            · exact .inl rfl
        · exact .inr ⟨_, rfl⟩
/-- A release that has ended leaves the state as it is, or cleaned now. -/
theorem releaseNow_ok {s t : State} (h : s.releaseNow = .ok t) : t = s.release s.rank := by
  unfold releaseNow at h; dsimp only at h; split at h
  · simp [waitFor] at h
  · split at h
    · cases h; rfl
    · simp [gone] at h
theorem releasing_ok {s t : State} (h : s.releasing = .ok t) : t = s ∨ t = s.release s.rank := by
  unfold releasing at h
  cases hw : s.myWait with
  | none => simp only [hw] at h; exact .inr (releaseNow_ok h)
  | some w =>
    cases hy : w.why <;> simp only [hw, hy] at h <;> split at h <;> first
      | exact .inr (releaseNow_ok h)
      | exact .inl (Except.ok.inj h).symm
      | simp [waitFor] at h

/-- A load's end traps only on a poisoned unit with the trap enabled, and counts one that it lets pass. -/
theorem settle_cases (s : State) (va : Word) (v : Nat) (p : Bool) (d : Nat) :
    (p = false ∧ s.settle va v p d = .ok (s, v)) ∨ (p = true ∧ s.me.pte = true ∧ s.settle va v p d = stop .poison (unitVa va)) ∨
      (p = true ∧ s.me.pte = false ∧ s.settle va v p d = .ok (s.consume va, d)) := by
  unfold settle; cases p <;> cases h : s.me.pte <;> simp

/-- A berth's wait is what it was told to wait for. -/
theorem nextWait_why (y : Why) (k c : Nat) (i : Issued) (o : Option Wait) : (nextWait y k c i o).why = y := by
  unfold nextWait
  cases o with
  | none => rfl
  | some w =>
    dsimp only; split
    · rename_i h; exact h
    · rfl
/-- A change of a wait touches the cores alone. -/
@[simp] theorem modWait_mem (s : State) (r b : Nat) (f : Wait → Wait) : (s.modWait r b f).mem = s.mem := by
  unfold modWait; split <;> rfl
@[simp] theorem modWait_lock (s : State) (r b : Nat) (f : Wait → Wait) : (s.modWait r b f).lock = s.lock := by
  unfold modWait; split <;> rfl
@[simp] theorem modWait_clusters (s : State) (r b : Nat) (f : Wait → Wait) : (s.modWait r b f).clusters = s.clusters := by
  unfold modWait; split <;> rfl
/-- A reply waits at its berth until it arrives. -/
theorem reply_wait (s : State) (r b : Nat) (q : Reply) (d : Nat) (h : b ≠ 16) :
    ((s.reply r b q d).berthAt r b).wait = (s.berthAt r b).wait.map fun w => { w with reply := some q } := by
  have : (s.reply r b q d).berthAt r b = (s.modBerth r b fun t => { t with wait := t.wait.map fun w => { w with reply := some q } }).berthAt r b := by
    simp [reply, modWait, h, berthAt, State.core]
  rw [this, berthAt_modBerth_self]
@[simp] theorem reply_mem (s : State) (r b : Nat) (q : Reply) (d : Nat) : (s.reply r b q d).mem = s.mem :=
  modWait_mem s r b _
@[simp] theorem reply_lock (s : State) (r b : Nat) (q : Reply) (d : Nat) : (s.reply r b q d).lock = s.lock :=
  modWait_lock s r b _
@[simp] theorem reply_clusters (s : State) (r b : Nat) (q : Reply) (d : Nat) : (s.reply r b q d).clusters = s.clusters :=
  modWait_clusters s r b _
@[simp] theorem storeClm_eq (s : State) (r off n v : Nat) (h : (s.core r).pools = []) : s.storeClm r off n v = s.storeAt (.clm r off) n v := by
  simp [storeClm, h]

end Sys2Proof.Machine
end

