-- ==== Sys2Proof/Laws/Memory.lean ====
section
/-!
SUPPORT. The byte store and every operation of memory: a read after a write, the canonical form kept, and what writes
of one byte leave elsewhere; then releases, cache lines, translation, loads and stores, which all keep the form.
-/
namespace Sys2Proof.Machine

/-! ### The byte store -/

namespace Memory
theorem read_write_self (m : List Host.Cell) (k : Nat) (v : Byte) (lo : Nat)
    (hm : wfFrom lo m = true) : read (write m k v) k = v := by
  induction m generalizing lo with
  | nil => by_cases e : v = 0#8 <;> simp [write, read, e]
  | cons c m ih =>
    obtain ⟨a, b⟩ := c
    simp only [wfFrom, Bool.and_eq_true, decide_eq_true_eq] at hm
    simp only [write]
    split
    · rename_i hk
      by_cases e : v = 0#8
      · simp [e, read, hk, Nat.ne_of_gt hk]
      · simp [e, read]
    · rename_i hk
      split
      · rename_i e; subst e
        by_cases e : v = 0#8
        · simp only [BitVec.ofNat_eq_ofNat, e, if_true]
          cases m with
          | nil => rfl
          | cons d m =>
            obtain ⟨a2, b2⟩ := d
            have := hm.2
            simp only [wfFrom, Bool.and_eq_true, decide_eq_true_eq] at this
            have h3 : k < a2 := this.1.1
            simp [read, Nat.ne_of_gt h3, h3]
        · simp [e, read]
      · rename_i hk2
        have h3 : ¬ a = k := fun e => hk2 e.symm
        simp [read, h3, hk, ih _ hm.2]
/-- A byte below the least listed address reads 0. -/
theorem read_below (m : List Host.Cell) (lo k : Nat) (hm : wfFrom lo m = true) (h : k < lo) : read m k = 0 := by
  cases m with
  | nil => rfl
  | cons c m =>
    obtain ⟨a, b⟩ := c
    simp only [wfFrom, Bool.and_eq_true, decide_eq_true_eq] at hm
    have : k < a := by omega
    simp [read, this, Nat.ne_of_gt this]
theorem read_write_of_ne (m : List Host.Cell) (lo k j : Nat) (v : Byte) (hm : wfFrom lo m = true) (h : j ≠ k) :
    read (write m k v) j = read m j := by
  induction m generalizing lo with
  | nil => by_cases e : v = 0#8 <;> simp [write, read, e, Ne.symm h]
  | cons c m ih =>
    obtain ⟨a, b⟩ := c
    simp only [wfFrom, Bool.and_eq_true, decide_eq_true_eq] at hm
    simp only [write]
    split
    · rename_i hk
      by_cases e : v = 0#8
      · simp [e]
      · simp only [BitVec.ofNat_eq_ofNat, e, if_false, read, Ne.symm h]
        by_cases h1 : j < k
        · have h2 : j < a := by omega
          simp [h1, h2, Nat.ne_of_gt h2]
        · simp [h1]
    · split
      · rename_i e; subst e
        by_cases e : v = 0#8
        · simp only [BitVec.ofNat_eq_ofNat, e, if_true, read, Ne.symm h, if_false]
          by_cases h1 : j < k
          · simp only [h1, if_true]; exact read_below m _ j hm.2 (by omega)
          · simp [h1]
        · simp [e, read, Ne.symm h]
      · simp [read, ih _ hm.2]
theorem wfFrom_write (m : List Host.Cell) (lo k : Nat) (v : Byte) (hm : wfFrom lo m = true) (h : lo ≤ k) :
    wfFrom lo (write m k v) = true := by
  induction m generalizing lo with
  | nil => by_cases e : v = 0#8 <;> simp [write, wfFrom, e, h]
  | cons c m ih =>
    obtain ⟨a, b⟩ := c
    have hm0 := hm
    simp only [wfFrom, Bool.and_eq_true, decide_eq_true_eq] at hm
    simp only [write]
    split
    · rename_i hk
      by_cases e : v = 0#8
      · simpa [e] using hm0
      · have : k + 1 ≤ a := hk
        simp only [BitVec.ofNat_eq_ofNat, e, if_false, wfFrom, Bool.and_eq_true, decide_eq_true_eq, bne_iff_ne, ne_eq, not_false_eq_true, and_true]
        exact ⟨h, ⟨this, by simpa using hm.1.2⟩, hm.2⟩
    · split
      · rename_i e; subst e
        by_cases e : v = 0#8
        · simp only [BitVec.ofNat_eq_ofNat, e, if_true]
          cases m with
          | nil => rfl
          | cons d m =>
            obtain ⟨a2, b2⟩ := d
            have := hm.2
            simp only [wfFrom, Bool.and_eq_true, decide_eq_true_eq] at this ⊢
            refine ⟨⟨by omega, this.1.2⟩, this.2⟩
        · simp [e, wfFrom, h, hm.2]
      · rename_i h1 h2
        simp only [wfFrom, Bool.and_eq_true, decide_eq_true_eq]
        exact ⟨hm.1, ih (a + 1) hm.2 (by omega)⟩
/-- A write keeps the canonical form. -/
theorem wf_write (m : List Host.Cell) (k : Nat) (v : Byte) (hm : wf m = true) : wf (write m k v) = true :=
  wfFrom_write m 0 k v hm (Nat.zero_le k)
theorem wfFrom_mono (m : List Host.Cell) (lo lo' : Nat) (h : lo' ≤ lo) (hm : wfFrom lo m = true) : wfFrom lo' m = true := by
  cases m with
  | nil => rfl
  | cons c m =>
    obtain ⟨a, b⟩ := c
    simp only [wfFrom, Bool.and_eq_true, decide_eq_true_eq] at hm ⊢
    exact ⟨⟨by omega, hm.1.2⟩, hm.2⟩
/-- Dropping bytes keeps the canonical form. -/
theorem wf_filter (m : List Host.Cell) (lo : Nat) (p : Host.Cell → Bool) (hm : wfFrom lo m = true) :
    wfFrom lo (m.filter p) = true := by
  induction m generalizing lo with
  | nil => rfl
  | cons c m ih =>
    obtain ⟨a, b⟩ := c
    simp only [wfFrom, Bool.and_eq_true, decide_eq_true_eq] at hm
    by_cases e : p (a, b) = true
    · simp only [List.filter_cons, e, if_true, wfFrom, Bool.and_eq_true, decide_eq_true_eq]
      exact ⟨hm.1, ih _ hm.2⟩
    · simp only [e, List.filter_cons]
      exact wfFrom_mono _ (a + 1) lo (by omega) (ih _ hm.2)
end Memory

namespace State

/-! ### One byte, n bytes, poison and full/empty bits -/

@[simp] theorem setPoison_mem (s : State) (l : Loc) (p : Bool) : (s.setPoison l p).mem = s.mem := by
  unfold setPoison; split
  · rfl
  · split <;> rfl
@[simp] theorem setFull_mem (s : State) (l : Loc) (p : Bool) : (s.setFull l p).mem = s.mem := by
  unfold setFull; split <;> rfl
/-- What a state keeps when only other fields change. -/
theorem memOk_of_mem {s t : State} (h : t.mem = s.mem) (hs : s.memOk) : t.memOk := by
  unfold memOk at *; rw [h]; exact hs
theorem memOk_modCore {s : State} (r : Nat) (f : Core → Core) (hs : s.memOk) : (s.modCore r f).memOk := hs
theorem memOk_modCluster {s : State} (r : Nat) (f : Cluster → Cluster) (hs : s.memOk) : (s.modCluster r f).memOk := hs
theorem memOk_modMe {s : State} (f : Berth → Berth) (hs : s.memOk) : (s.modMe f).memOk := hs
theorem memOk_setPoison {s : State} (l : Loc) (p : Bool) (hs : s.memOk) : (s.setPoison l p).memOk :=
  memOk_of_mem (by simp) hs
theorem memOk_setFull {s : State} (l : Loc) (p : Bool) (hs : s.memOk) : (s.setFull l p).memOk := memOk_of_mem (by simp) hs
theorem memOk_writeByte {s : State} (l : Loc) (v : Byte) (hs : s.memOk) : (s.writeByte l v).memOk := by
  cases l with
  | hbm pa => exact Memory.wf_write _ _ _ hs
  | clm r off =>
    simp only [writeByte]
    split
    · split <;> exact hs
    · exact Memory.wf_write _ _ _ hs
  | basin cl off => exact hs
theorem memOk_writeN {s : State} (l : Loc) (n v : Nat) (hs : s.memOk) : (s.writeN l n v).memOk := by
  induction n with
  | zero => exact hs
  | succ n ih => exact memOk_writeByte _ _ ih
theorem memOk_storeAt {s : State} (l : Loc) (n v : Nat) (hs : s.memOk) : (s.storeAt l n v).memOk := by
  simp only [storeAt]
  split
  · exact memOk_writeN _ _ _ hs
  · exact iter_keeps memOk _ _ _ (memOk_writeN _ _ _ hs) fun i t _ ht => memOk_setPoison _ _ ht

/-- HBM as a list is read after written, byte by byte. -/
theorem readByte_writeByte_hbm (s : State) (a k : Nat) (v : Byte) (hs : s.memOk) :
    (s.writeByte (.hbm a) v).readByte (.hbm k) = if k = a then v else s.readByte (.hbm k) := by
  simp only [writeByte, readByte]
  split
  · subst_vars; exact Memory.read_write_self _ _ _ 0 hs
  · exact Memory.read_write_of_ne _ 0 _ _ _ hs ‹_›
/-- CLM outside the queue area and the control register of R147 is read after written. -/
theorem readByte_writeByte_clm (s : State) (r off k : Nat) (v : Byte) (hs : s.memOk) (ho : ¬ (0x1000 ≤ off ∧ off < 0x6000)) :
    (s.writeByte (.clm r off) v).readByte (.clm r k) = if k = off then v else s.readByte (.clm r k) := by
  simp only [writeByte, readByte, ho, if_false]
  by_cases hk : 0x1000 ≤ k ∧ k < 0x6000
  · have : k ≠ off := fun e => ho (e ▸ hk)
    simp only [hk, this, and_self, if_true, if_false, queueByte]; rfl
  · simp only [hk, if_false]
    split
    · subst_vars; exact Memory.read_write_self _ _ _ 0 hs
    · exact Memory.read_write_of_ne _ 0 _ _ _ hs (by simp only [Loc.key]; omega)

/-! ### Cache lines, releases and acquires -/

theorem memOk_cleanByte {s : State} (l : Line) (i : Nat) (hs : s.memOk) : (cleanByte l i s).memOk := by
  unfold cleanByte; split
  · exact memOk_writeByte _ _ hs
  · exact hs
theorem memOk_cleanUnit {s : State} (l : Line) (u : Nat) (hs : s.memOk) : (cleanUnit l u s).memOk := by
  unfold cleanUnit; dsimp only; split
  · exact hs
  · split
    · exact memOk_setPoison _ _ hs
    · split
      · exact memOk_setPoison _ _ hs
      · exact hs
theorem memOk_cleanSector {s : State} (l : Line) (k : Nat) (hs : s.memOk) : (s.cleanSector l k).memOk := by
  unfold cleanSector; split
  · exact hs
  · exact iter_keeps memOk _ _ _ (iter_keeps memOk _ _ _ hs fun i t _ h => memOk_cleanByte _ _ h) fun i t _ h => memOk_cleanUnit _ _ h
theorem memOk_cleanLine {s : State} (l : Line) (hs : s.memOk) : (s.cleanLine l).memOk := by
  unfold cleanLine; split
  · exact hs
  · exact iter_keeps memOk _ _ _ hs fun i t _ h => memOk_cleanSector _ _ h
theorem memOk_cleanAll {s : State} (r : Nat) (hs : s.memOk) : (s.cleanAll r).memOk := by
  unfold cleanAll; split
  · exact hs
  · exact memOk_modCore _ _ (foldl_keeps memOk _ _ _ hs fun t l _ h => memOk_cleanLine l h)
theorem memOk_release {s : State} (r : Nat) (hs : s.memOk) : (s.release r).memOk := by
  unfold release; dsimp only; split
  · exact memOk_cleanAll r hs
  · exact memOk_modCore _ _ hs
@[simp] theorem sendOff_mem (s : State) (d : Nat) (i : Instr) (th : Option Nat) : (s.sendOff d i th).mem = s.mem := by
  unfold sendOff; cases th <;> rfl
theorem memOk_sendOff {s : State} (d : Nat) (i : Instr) (th : Option Nat) (hs : s.memOk) : (s.sendOff d i th).memOk :=
  memOk_of_mem (sendOff_mem s d i th) hs
theorem memOk_startRelease {s : State} (r : Nat) (hs : s.memOk) : (s.startRelease r).memOk := by
  unfold startRelease
  exact foldl_keeps memOk _ _ _ (memOk_cleanAll (s := s.modCore r _) r hs) fun t e _ h => memOk_sendOff _ _ _ h
@[simp] theorem afterRelease_mem (s : State) (r least way : Nat) (i : Instr) (th : Option Nat) :
    (s.afterRelease r least way i th).mem = s.mem := by
  unfold afterRelease; split
  · rfl
  · exact sendOff_mem _ _ _ _
theorem memOk_acquire {s : State} (r : Nat) (hs : s.memOk) : (s.acquire r).memOk := hs
theorem memOk_putLine {s : State} (r : Nat) (l : Line) (hs : s.memOk) : (s.putLine r l).memOk := by
  unfold putLine; dsimp only
  refine memOk_modCore _ _ ?_
  split
  · exact hs
  · split
    · exact hs
    · exact memOk_cleanLine (s := s.dropLine r l.asid (l.va * 1024)) _ hs
theorem memOk_bline {s : State} (cl pa : Nat) (hs : s.memOk) : (s.bline cl pa).1.memOk := by
  unfold bline; split
  · exact hs
  · dsimp only; split
    · exact hs
    · exact hs
theorem memOk_fetchSector {s : State} (cl : Nat) (st : Bool) (pa : Nat) (hs : s.memOk) : (s.fetchSector cl st pa).1.memOk := by
  unfold fetchSector; dsimp only; split
  · exact memOk_bline _ _ hs
  · exact hs
theorem memOk_purgeSector {s : State} (r asid va : Nat) (hs : s.memOk) : (s.purgeSector r asid va).memOk := by
  unfold purgeSector; split
  · exact hs
  · exact memOk_putLine _ _ (memOk_cleanSector _ _ hs)

/-! ### Translation -/

theorem memOk_fillTlb {s : State} (cl asid va : Nat) (st : Bool) (w) (hs : s.memOk) : (s.fillTlb cl asid va st w).memOk := by
  unfold fillTlb
  dsimp only
  generalize (w.1 ||| 0x80 ||| (if st then (0x100 : Word) else 0)) = e
  have h := memOk_writeN (.hbm w.2.2) 8 e.toNat hs
  generalize s.writeN (.hbm w.2.2) 8 e.toNat = s1 at h ⊢
  split <;> exact h
/-- What an engine's translation leaves: the state itself, or a leaf cached and its bits set. -/
theorem xlate_state (s : State) (cl : Nat) (w : Who) (k : Kind) (va : Nat) :
    (s.xlate cl w k va).1 = s ∨ ∃ st f, (s.xlate cl w k va).1 = s.fillTlb cl w.asid va st f := by
  unfold xlate; dsimp only
  split
  · split
    · exact .inr ⟨_, _, rfl⟩
    · exact .inl rfl
  · exact .inl rfl
  · exact .inr ⟨_, _, rfl⟩
  · exact .inl rfl
theorem memOk_xlate {s : State} (cl : Nat) (w : Who) (k : Kind) (va : Nat) (hs : s.memOk) : (s.xlate cl w k va).1.memOk := by
  rcases xlate_state s cl w k va with h | ⟨st, f, h⟩
  · rw [h]; exact hs
  · rw [h]; exact memOk_fillTlb _ _ _ _ _ hs

/-! ### Loads and stores -/

theorem memOk_l1Load {s : State} {w : Who} {va : Word} {n : Nat} {r} (hs : s.memOk) (h : s.l1Load w va n = .ok r) : r.1.memOk := by
  unfold l1Load at h
  simp only at h
  split at h
  · simp [waitFor] at h
  · split at h
    · split at h
      · split at h
        · cases h; exact hs
        · simp [stop] at h
      · cases ht : s.translate w .read va with
        | error e => simp [ht, bind, Except.bind] at h
        | ok t =>
          simp only [ht, bind, Except.bind] at h
          cases h
          refine memOk_putLine _ _ (memOk_fetchSector _ _ _ ?_)
          split
          · exact memOk_cleanSector _ _ hs
          · exact memOk_cleanLine _ hs
    · cases ht : s.translate w .read va with
      | error e => simp [ht, bind, Except.bind] at h
      | ok t =>
        simp only [ht, bind, Except.bind] at h
        split at h
        · cases hf : farOk w .read va t.2 n with
          | error e => simp [hf] at h
          | ok _ => simp only [hf] at h; cases h; exact hs
        · cases h; exact memOk_putLine _ _ (memOk_fetchSector _ _ _ hs)
theorem memOk_l1Store {s : State} {w : Who} {va : Word} {n v : Nat} {r} (hs : s.memOk) (h : s.l1Store w va n v = .ok r) :
    r.1.memOk := by
  unfold l1Store at h
  simp only at h
  split at h
  · simp [waitFor] at h
  · split at h
    · split at h
      · simp [stop] at h
      · split at h
        · cases h; exact memOk_putLine _ _ hs
        · cases ht : s.translate w .write va with
          | error e => simp [ht, bind, Except.bind] at h
          | ok t =>
            simp only [ht, bind, Except.bind] at h
            split at h
            · cases h; exact memOk_putLine _ _ hs
            · cases h; exact memOk_putLine _ _ (memOk_cleanLine _ hs)
    · cases ht : s.translate w .write va with
      | error e => simp [ht, bind, Except.bind] at h
      | ok t =>
        simp only [ht, bind, Except.bind] at h
        split at h
        · cases hf : farOk w .write va t.2 n with
          | error e => simp [hf] at h
          | ok _ => simp only [hf] at h; cases h; exact memOk_storeAt _ _ _ hs
        · cases h; exact memOk_putLine _ _ hs
theorem memOk_basinLoad {s : State} {w : Who} {va : Word} {bank off n : Nat} {whole : Bool} {r} (hs : s.memOk)
    (h : s.basinLoad w va bank off n whole = .ok r) : r.1.memOk := by
  unfold basinLoad at h
  simp only [waitFor, stop] at h
  repeat' split at h
  all_goals first
    | (cases h; done)
    | (cases h; exact hs)
theorem memOk_basinStore {s : State} {w : Who} {va : Word} {bank off n v : Nat} {whole : Bool} {r} (hs : s.memOk)
    (h : s.basinStore w va bank off n v whole = .ok r) : r.1.memOk := by
  unfold basinStore at h
  simp only [waitFor, stop] at h
  repeat' split at h
  all_goals first
    | (cases h; done)
    | (cases h; exact memOk_storeAt _ _ _ hs)
    | (cases h; exact hs)
/-- Every load keeps the canonical form of memory. -/
theorem memOk_load {s : State} {va : Word} {n align : Nat} {whole : Bool} {r} (hs : s.memOk)
    (h : s.load va n align whole = .ok r) : r.1.memOk := by
  unfold load at h
  cases ht : s.decodeAddr s.who .read va align with
  | error e => simp [ht, bind, Except.bind] at h
  | ok t =>
    simp only [ht, bind, Except.bind] at h
    cases t with
    | global => exact memOk_l1Load hs h
    | basin bank off => exact memOk_basinLoad hs h
    | clm q off =>
      dsimp only at h
      split at h
      · simp [stop] at h
      · cases ha : s.atHome q with
        | error e => simp [ha] at h
        | ok _ => simp only [ha] at h; cases h; exact hs
/-- Every store keeps it. -/
theorem memOk_store {s : State} {va : Word} {n align v : Nat} {whole : Bool} {r} (hs : s.memOk)
    (h : s.store va n align v whole = .ok r) : r.1.memOk := by
  unfold store at h
  cases ht : s.decodeAddr s.who .write va align with
  | error e => simp [ht, bind, Except.bind] at h
  | ok t =>
    simp only [ht, bind, Except.bind] at h
    cases t with
    | global => exact memOk_l1Store hs h
    | basin bank off => exact memOk_basinStore hs h
    | clm q off =>
      dsimp only at h
      split at h
      · simp [stop] at h
      · split at h
        · simp [waitFor] at h
        · cases ha : s.atHome q with
          | error e => simp [ha] at h
          | ok _ => simp only [ha] at h; cases h; exact memOk_storeAt _ _ _ hs

/-- So do an ordinary store at a CLM home, a release that has ended, a wait and its reply. -/
theorem memOk_storeClm {s : State} (r off n v : Nat) (hs : s.memOk) : (s.storeClm r off n v).memOk := memOk_storeAt _ _ _ hs
theorem memOk_releasing {s t : State} (hs : s.memOk) (h : s.releasing = .ok t) : t.memOk := by
  rcases releasing_ok h with rfl | rfl
  · exact hs
  · exact memOk_release _ hs
theorem memOk_reply {s : State} (r b : Nat) (q : Reply) (d : Nat) (hs : s.memOk) : (s.reply r b q d).memOk :=
  memOk_of_mem (reply_mem s r b q d) hs
@[simp] theorem joinHeld_mem (s : State) (r : Nat) : (s.joinHeld r).mem = s.mem := modWait_mem s _ _ _
theorem block_mem (s : State) (y : Why) : (s.block y).mem = s.mem := by
  unfold block setWait
  cases y <;> dsimp only <;> repeat' (split <;> try simp)
theorem await_mem (s : State) (y : Why) : (s.await y).mem = s.mem := by
  unfold await modMyWait; rw [modWait_mem]; exact block_mem s y
theorem memOk_block {s : State} (y : Why) (hs : s.memOk) : (s.block y).memOk := memOk_of_mem (block_mem s y) hs
theorem memOk_await {s : State} (y : Why) (hs : s.memOk) : (s.await y).memOk := memOk_of_mem (await_mem s y) hs
theorem memOk_answered {s : State} (lat : Nat) (q : Reply) (hs : s.memOk) : (s.answered lat q).memOk :=
  memOk_reply _ _ _ _ (memOk_await _ hs)
theorem memOk_answeredLast {s : State} (lat : Nat) (q : Reply) (hs : s.memOk) : (s.answeredLast lat q).memOk :=
  memOk_reply _ _ _ _ (memOk_await _ hs)

/-- After reset memory has its canonical form. -/
theorem memOk_reset : State.reset.memOk := rfl

end State
end Sys2Proof.Machine
end

