-- ==== Sys2Proof/Laws/PerInstr.lean ====
section
/-!
SUPPORT. The family WordInRange: for each instruction, its encoding as a number fits a 32-bit word (R38), so the word's value
is that number. One lemma for each constructor.
-/
namespace Sys2Proof.Laws.WordInRange

/-- The number the encoding tables give for the instruction fits the 32-bit word. -/
def Statement (i : Instr) : Prop := encodeNat i < 4294967296

theorem add (d : BitVec 5) (a : BitVec 5) (b : BitVec 5) : Statement (.add d a b) := by show 33554432 + d.toNat * 1048576 + a.toNat * 32768 + b.toNat * 1024 < 4294967296; have := d.isLt; have := a.isLt; have := b.isLt; omega
theorem sub (d : BitVec 5) (a : BitVec 5) (b : BitVec 5) : Statement (.sub d a b) := by show 33554433 + d.toNat * 1048576 + a.toNat * 32768 + b.toNat * 1024 < 4294967296; have := d.isLt; have := a.isLt; have := b.isLt; omega
theorem and (d : BitVec 5) (a : BitVec 5) (b : BitVec 5) : Statement (.and d a b) := by show 33554434 + d.toNat * 1048576 + a.toNat * 32768 + b.toNat * 1024 < 4294967296; have := d.isLt; have := a.isLt; have := b.isLt; omega
theorem or (d : BitVec 5) (a : BitVec 5) (b : BitVec 5) : Statement (.or d a b) := by show 33554435 + d.toNat * 1048576 + a.toNat * 32768 + b.toNat * 1024 < 4294967296; have := d.isLt; have := a.isLt; have := b.isLt; omega
theorem xor (d : BitVec 5) (a : BitVec 5) (b : BitVec 5) : Statement (.xor d a b) := by show 33554436 + d.toNat * 1048576 + a.toNat * 32768 + b.toNat * 1024 < 4294967296; have := d.isLt; have := a.isLt; have := b.isLt; omega
theorem andn (d : BitVec 5) (a : BitVec 5) (b : BitVec 5) : Statement (.andn d a b) := by show 33554437 + d.toNat * 1048576 + a.toNat * 32768 + b.toNat * 1024 < 4294967296; have := d.isLt; have := a.isLt; have := b.isLt; omega
theorem orn (d : BitVec 5) (a : BitVec 5) (b : BitVec 5) : Statement (.orn d a b) := by show 33554438 + d.toNat * 1048576 + a.toNat * 32768 + b.toNat * 1024 < 4294967296; have := d.isLt; have := a.isLt; have := b.isLt; omega
theorem sll (d : BitVec 5) (a : BitVec 5) (b : BitVec 5) : Statement (.sll d a b) := by show 33554440 + d.toNat * 1048576 + a.toNat * 32768 + b.toNat * 1024 < 4294967296; have := d.isLt; have := a.isLt; have := b.isLt; omega
theorem srl (d : BitVec 5) (a : BitVec 5) (b : BitVec 5) : Statement (.srl d a b) := by show 33554441 + d.toNat * 1048576 + a.toNat * 32768 + b.toNat * 1024 < 4294967296; have := d.isLt; have := a.isLt; have := b.isLt; omega
theorem sra (d : BitVec 5) (a : BitVec 5) (b : BitVec 5) : Statement (.sra d a b) := by show 33554442 + d.toNat * 1048576 + a.toNat * 32768 + b.toNat * 1024 < 4294967296; have := d.isLt; have := a.isLt; have := b.isLt; omega
theorem ror (d : BitVec 5) (a : BitVec 5) (b : BitVec 5) : Statement (.ror d a b) := by show 33554443 + d.toNat * 1048576 + a.toNat * 32768 + b.toNat * 1024 < 4294967296; have := d.isLt; have := a.isLt; have := b.isLt; omega
theorem addw (d : BitVec 5) (a : BitVec 5) (b : BitVec 5) : Statement (.addw d a b) := by show 33554444 + d.toNat * 1048576 + a.toNat * 32768 + b.toNat * 1024 < 4294967296; have := d.isLt; have := a.isLt; have := b.isLt; omega
theorem subw (d : BitVec 5) (a : BitVec 5) (b : BitVec 5) : Statement (.subw d a b) := by show 33554445 + d.toNat * 1048576 + a.toNat * 32768 + b.toNat * 1024 < 4294967296; have := d.isLt; have := a.isLt; have := b.isLt; omega
theorem mul (d : BitVec 5) (a : BitVec 5) (b : BitVec 5) : Statement (.mul d a b) := by show 33554448 + d.toNat * 1048576 + a.toNat * 32768 + b.toNat * 1024 < 4294967296; have := d.isLt; have := a.isLt; have := b.isLt; omega
theorem mulh (d : BitVec 5) (a : BitVec 5) (b : BitVec 5) : Statement (.mulh d a b) := by show 33554449 + d.toNat * 1048576 + a.toNat * 32768 + b.toNat * 1024 < 4294967296; have := d.isLt; have := a.isLt; have := b.isLt; omega
theorem mulhu (d : BitVec 5) (a : BitVec 5) (b : BitVec 5) : Statement (.mulhu d a b) := by show 33554450 + d.toNat * 1048576 + a.toNat * 32768 + b.toNat * 1024 < 4294967296; have := d.isLt; have := a.isLt; have := b.isLt; omega
theorem mulhsu (d : BitVec 5) (a : BitVec 5) (b : BitVec 5) : Statement (.mulhsu d a b) := by show 33554451 + d.toNat * 1048576 + a.toNat * 32768 + b.toNat * 1024 < 4294967296; have := d.isLt; have := a.isLt; have := b.isLt; omega
theorem div (d : BitVec 5) (a : BitVec 5) (b : BitVec 5) : Statement (.div d a b) := by show 33554452 + d.toNat * 1048576 + a.toNat * 32768 + b.toNat * 1024 < 4294967296; have := d.isLt; have := a.isLt; have := b.isLt; omega
theorem divu (d : BitVec 5) (a : BitVec 5) (b : BitVec 5) : Statement (.divu d a b) := by show 33554453 + d.toNat * 1048576 + a.toNat * 32768 + b.toNat * 1024 < 4294967296; have := d.isLt; have := a.isLt; have := b.isLt; omega
theorem rem (d : BitVec 5) (a : BitVec 5) (b : BitVec 5) : Statement (.rem d a b) := by show 33554454 + d.toNat * 1048576 + a.toNat * 32768 + b.toNat * 1024 < 4294967296; have := d.isLt; have := a.isLt; have := b.isLt; omega
theorem remu (d : BitVec 5) (a : BitVec 5) (b : BitVec 5) : Statement (.remu d a b) := by show 33554455 + d.toNat * 1048576 + a.toNat * 32768 + b.toNat * 1024 < 4294967296; have := d.isLt; have := a.isLt; have := b.isLt; omega
theorem min (d : BitVec 5) (a : BitVec 5) (b : BitVec 5) : Statement (.min d a b) := by show 33554456 + d.toNat * 1048576 + a.toNat * 32768 + b.toNat * 1024 < 4294967296; have := d.isLt; have := a.isLt; have := b.isLt; omega
theorem max (d : BitVec 5) (a : BitVec 5) (b : BitVec 5) : Statement (.max d a b) := by show 33554457 + d.toNat * 1048576 + a.toNat * 32768 + b.toNat * 1024 < 4294967296; have := d.isLt; have := a.isLt; have := b.isLt; omega
theorem minu (d : BitVec 5) (a : BitVec 5) (b : BitVec 5) : Statement (.minu d a b) := by show 33554458 + d.toNat * 1048576 + a.toNat * 32768 + b.toNat * 1024 < 4294967296; have := d.isLt; have := a.isLt; have := b.isLt; omega
theorem maxu (d : BitVec 5) (a : BitVec 5) (b : BitVec 5) : Statement (.maxu d a b) := by show 33554459 + d.toNat * 1048576 + a.toNat * 32768 + b.toNat * 1024 < 4294967296; have := d.isLt; have := a.isLt; have := b.isLt; omega
theorem clz (d : BitVec 5) (a : BitVec 5) : Statement (.clz d a) := by show 33554464 + d.toNat * 1048576 + a.toNat * 32768 < 4294967296; have := d.isLt; have := a.isLt; omega
theorem ctz (d : BitVec 5) (a : BitVec 5) : Statement (.ctz d a) := by show 33554465 + d.toNat * 1048576 + a.toNat * 32768 < 4294967296; have := d.isLt; have := a.isLt; omega
theorem popc (d : BitVec 5) (a : BitVec 5) : Statement (.popc d a) := by show 33554466 + d.toNat * 1048576 + a.toNat * 32768 < 4294967296; have := d.isLt; have := a.isLt; omega
theorem sextb (d : BitVec 5) (a : BitVec 5) : Statement (.sextb d a) := by show 33554467 + d.toNat * 1048576 + a.toNat * 32768 < 4294967296; have := d.isLt; have := a.isLt; omega
theorem sexth (d : BitVec 5) (a : BitVec 5) : Statement (.sexth d a) := by show 33554468 + d.toNat * 1048576 + a.toNat * 32768 < 4294967296; have := d.isLt; have := a.isLt; omega
theorem sextw (d : BitVec 5) (a : BitVec 5) : Statement (.sextw d a) := by show 33554469 + d.toNat * 1048576 + a.toNat * 32768 < 4294967296; have := d.isLt; have := a.isLt; omega
theorem zextw (d : BitVec 5) (a : BitVec 5) : Statement (.zextw d a) := by show 33554470 + d.toNat * 1048576 + a.toNat * 32768 < 4294967296; have := d.isLt; have := a.isLt; omega
theorem addi (d : BitVec 5) (a : BitVec 5) (im : BitVec 15) : Statement (.addi d a im) := by show 67108864 + d.toNat * 1048576 + a.toNat * 32768 + im.toNat < 4294967296; have := d.isLt; have := a.isLt; have := im.isLt; omega
theorem andi (d : BitVec 5) (a : BitVec 5) (im : BitVec 15) : Statement (.andi d a im) := by show 100663296 + d.toNat * 1048576 + a.toNat * 32768 + im.toNat < 4294967296; have := d.isLt; have := a.isLt; have := im.isLt; omega
theorem ori (d : BitVec 5) (a : BitVec 5) (im : BitVec 15) : Statement (.ori d a im) := by show 134217728 + d.toNat * 1048576 + a.toNat * 32768 + im.toNat < 4294967296; have := d.isLt; have := a.isLt; have := im.isLt; omega
theorem xori (d : BitVec 5) (a : BitVec 5) (im : BitVec 15) : Statement (.xori d a im) := by show 167772160 + d.toNat * 1048576 + a.toNat * 32768 + im.toNat < 4294967296; have := d.isLt; have := a.isLt; have := im.isLt; omega
theorem slli (d : BitVec 5) (a : BitVec 5) (n : BitVec 6) : Statement (.slli d a n) := by show 201326592 + d.toNat * 1048576 + a.toNat * 32768 + n.toNat < 4294967296; have := d.isLt; have := a.isLt; have := n.isLt; omega
theorem srli (d : BitVec 5) (a : BitVec 5) (n : BitVec 6) : Statement (.srli d a n) := by show 201330688 + d.toNat * 1048576 + a.toNat * 32768 + n.toNat < 4294967296; have := d.isLt; have := a.isLt; have := n.isLt; omega
theorem srai (d : BitVec 5) (a : BitVec 5) (n : BitVec 6) : Statement (.srai d a n) := by show 201334784 + d.toNat * 1048576 + a.toNat * 32768 + n.toNat < 4294967296; have := d.isLt; have := a.isLt; have := n.isLt; omega
theorem rori (d : BitVec 5) (a : BitVec 5) (n : BitVec 6) : Statement (.rori d a n) := by show 201338880 + d.toNat * 1048576 + a.toNat * 32768 + n.toNat < 4294967296; have := d.isLt; have := a.isLt; have := n.isLt; omega
theorem addiw (d : BitVec 5) (a : BitVec 5) (im : BitVec 15) : Statement (.addiw d a im) := by show 234881024 + d.toNat * 1048576 + a.toNat * 32768 + im.toNat < 4294967296; have := d.isLt; have := a.isLt; have := im.isLt; omega
theorem lui (d : BitVec 5) (im : BitVec 20) : Statement (.lui d im) := by show 268435456 + d.toNat * 1048576 + im.toNat < 4294967296; have := d.isLt; have := im.isLt; omega
theorem auipc (d : BitVec 5) (im : BitVec 20) : Statement (.auipc d im) := by show 301989888 + d.toNat * 1048576 + im.toNat < 4294967296; have := d.isLt; have := im.isLt; omega
theorem cmpEq (p : BitVec 5) (a : BitVec 5) (b : BitVec 5) : Statement (.cmpEq p a b) := by show 335544320 + p.toNat * 1048576 + a.toNat * 32768 + b.toNat * 1024 < 4294967296; have := p.isLt; have := a.isLt; have := b.isLt; omega
theorem cmpNe (p : BitVec 5) (a : BitVec 5) (b : BitVec 5) : Statement (.cmpNe p a b) := by show 335544321 + p.toNat * 1048576 + a.toNat * 32768 + b.toNat * 1024 < 4294967296; have := p.isLt; have := a.isLt; have := b.isLt; omega
theorem cmpLt (p : BitVec 5) (a : BitVec 5) (b : BitVec 5) : Statement (.cmpLt p a b) := by show 335544322 + p.toNat * 1048576 + a.toNat * 32768 + b.toNat * 1024 < 4294967296; have := p.isLt; have := a.isLt; have := b.isLt; omega
theorem cmpLtu (p : BitVec 5) (a : BitVec 5) (b : BitVec 5) : Statement (.cmpLtu p a b) := by show 335544323 + p.toNat * 1048576 + a.toNat * 32768 + b.toNat * 1024 < 4294967296; have := p.isLt; have := a.isLt; have := b.isLt; omega
theorem cmpGe (p : BitVec 5) (a : BitVec 5) (b : BitVec 5) : Statement (.cmpGe p a b) := by show 335544324 + p.toNat * 1048576 + a.toNat * 32768 + b.toNat * 1024 < 4294967296; have := p.isLt; have := a.isLt; have := b.isLt; omega
theorem cmpGeu (p : BitVec 5) (a : BitVec 5) (b : BitVec 5) : Statement (.cmpGeu p a b) := by show 335544325 + p.toNat * 1048576 + a.toNat * 32768 + b.toNat * 1024 < 4294967296; have := p.isLt; have := a.isLt; have := b.isLt; omega
theorem cmpiEq (p : BitVec 5) (a : BitVec 5) (im : BitVec 15) : Statement (.cmpiEq p a im) := by show 369098752 + p.toNat * 1048576 + a.toNat * 32768 + im.toNat < 4294967296; have := p.isLt; have := a.isLt; have := im.isLt; omega
theorem cmpiNe (p : BitVec 5) (a : BitVec 5) (im : BitVec 15) : Statement (.cmpiNe p a im) := by show 402653184 + p.toNat * 1048576 + a.toNat * 32768 + im.toNat < 4294967296; have := p.isLt; have := a.isLt; have := im.isLt; omega
theorem cmpiLt (p : BitVec 5) (a : BitVec 5) (im : BitVec 15) : Statement (.cmpiLt p a im) := by show 436207616 + p.toNat * 1048576 + a.toNat * 32768 + im.toNat < 4294967296; have := p.isLt; have := a.isLt; have := im.isLt; omega
theorem cmpiLtu (p : BitVec 5) (a : BitVec 5) (im : BitVec 15) : Statement (.cmpiLtu p a im) := by show 469762048 + p.toNat * 1048576 + a.toNat * 32768 + im.toNat < 4294967296; have := p.isLt; have := a.isLt; have := im.isLt; omega
theorem cmpiGe (p : BitVec 5) (a : BitVec 5) (im : BitVec 15) : Statement (.cmpiGe p a im) := by show 503316480 + p.toNat * 1048576 + a.toNat * 32768 + im.toNat < 4294967296; have := p.isLt; have := a.isLt; have := im.isLt; omega
theorem cmpiGeu (p : BitVec 5) (a : BitVec 5) (im : BitVec 15) : Statement (.cmpiGeu p a im) := by show 536870912 + p.toNat * 1048576 + a.toNat * 32768 + im.toNat < 4294967296; have := p.isLt; have := a.isLt; have := im.isLt; omega
theorem pand (d : BitVec 5) (a : BitVec 5) (b : BitVec 5) : Statement (.pand d a b) := by show 570425344 + d.toNat * 1048576 + a.toNat * 32768 + b.toNat * 1024 < 4294967296; have := d.isLt; have := a.isLt; have := b.isLt; omega
theorem por (d : BitVec 5) (a : BitVec 5) (b : BitVec 5) : Statement (.por d a b) := by show 570425345 + d.toNat * 1048576 + a.toNat * 32768 + b.toNat * 1024 < 4294967296; have := d.isLt; have := a.isLt; have := b.isLt; omega
theorem pxor (d : BitVec 5) (a : BitVec 5) (b : BitVec 5) : Statement (.pxor d a b) := by show 570425346 + d.toNat * 1048576 + a.toNat * 32768 + b.toNat * 1024 < 4294967296; have := d.isLt; have := a.isLt; have := b.isLt; omega
theorem pandn (d : BitVec 5) (a : BitVec 5) (b : BitVec 5) : Statement (.pandn d a b) := by show 570425347 + d.toNat * 1048576 + a.toNat * 32768 + b.toNat * 1024 < 4294967296; have := d.isLt; have := a.isLt; have := b.isLt; omega
theorem pmov (d : BitVec 5) (a : BitVec 5) : Statement (.pmov d a) := by show 570425348 + d.toNat * 1048576 + a.toNat * 32768 < 4294967296; have := d.isLt; have := a.isLt; omega
theorem pset (d : BitVec 5) (a : BitVec 5) : Statement (.pset d a) := by show 570425349 + d.toNat * 1048576 + a.toNat * 32768 < 4294967296; have := d.isLt; have := a.isLt; omega
theorem psetP (a : BitVec 5) : Statement (.psetP a) := by show 570425349 + a.toNat * 32768 < 4294967296; have := a.isLt; omega
theorem sel (d : BitVec 5) (a : BitVec 5) (b : BitVec 5) (im : BitVec 5) : Statement (.sel d a b im) := by show 603979776 + d.toNat * 1048576 + a.toNat * 32768 + b.toNat * 1024 + im.toNat < 4294967296; have := d.isLt; have := a.isLt; have := b.isLt; have := im.isLt; omega
theorem selP (d : BitVec 5) : Statement (.selP d) := by show 603979776 + d.toNat * 1048576 < 4294967296; have := d.isLt; omega
theorem bpT (p : BitVec 5) (o : BitVec 19) : Statement (.bpT p o) := by show 671612928 + p.toNat * 1048576 + o.toNat < 4294967296; have := p.isLt; have := o.isLt; omega
theorem bpF (p : BitVec 5) (o : BitVec 19) : Statement (.bpF p o) := by show 671088640 + p.toNat * 1048576 + o.toNat < 4294967296; have := p.isLt; have := o.isLt; omega
theorem j (o : BitVec 20) : Statement (.j o) := by show 704643072 + o.toNat < 4294967296; have := o.isLt; omega
theorem jal (d : BitVec 5) (o : BitVec 20) : Statement (.jal d o) := by show 738197504 + d.toNat * 1048576 + o.toNat < 4294967296; have := d.isLt; have := o.isLt; omega
theorem jalr (d : BitVec 5) (a : BitVec 5) (im : BitVec 15) : Statement (.jalr d a im) := by show 771751936 + d.toNat * 1048576 + a.toNat * 32768 + im.toNat < 4294967296; have := d.isLt; have := a.isLt; have := im.isLt; omega
theorem ldb (d : BitVec 5) (a : BitVec 5) (im : BitVec 15) : Statement (.ldb d a im) := by show 939524096 + d.toNat * 1048576 + a.toNat * 32768 + im.toNat < 4294967296; have := d.isLt; have := a.isLt; have := im.isLt; omega
theorem ldbu (d : BitVec 5) (a : BitVec 5) (im : BitVec 15) : Statement (.ldbu d a im) := by show 973078528 + d.toNat * 1048576 + a.toNat * 32768 + im.toNat < 4294967296; have := d.isLt; have := a.isLt; have := im.isLt; omega
theorem ldh (d : BitVec 5) (a : BitVec 5) (im : BitVec 15) : Statement (.ldh d a im) := by show 1006632960 + d.toNat * 1048576 + a.toNat * 32768 + im.toNat < 4294967296; have := d.isLt; have := a.isLt; have := im.isLt; omega
theorem ldhu (d : BitVec 5) (a : BitVec 5) (im : BitVec 15) : Statement (.ldhu d a im) := by show 1040187392 + d.toNat * 1048576 + a.toNat * 32768 + im.toNat < 4294967296; have := d.isLt; have := a.isLt; have := im.isLt; omega
theorem ldw (d : BitVec 5) (a : BitVec 5) (im : BitVec 15) : Statement (.ldw d a im) := by show 1073741824 + d.toNat * 1048576 + a.toNat * 32768 + im.toNat < 4294967296; have := d.isLt; have := a.isLt; have := im.isLt; omega
theorem ldwu (d : BitVec 5) (a : BitVec 5) (im : BitVec 15) : Statement (.ldwu d a im) := by show 1107296256 + d.toNat * 1048576 + a.toNat * 32768 + im.toNat < 4294967296; have := d.isLt; have := a.isLt; have := im.isLt; omega
theorem ldd (d : BitVec 5) (a : BitVec 5) (im : BitVec 15) : Statement (.ldd d a im) := by show 1140850688 + d.toNat * 1048576 + a.toNat * 32768 + im.toNat < 4294967296; have := d.isLt; have := a.isLt; have := im.isLt; omega
theorem stb (b : BitVec 5) (a : BitVec 5) (im : BitVec 15) : Statement (.stb b a im) := by show 1174405120 + b.toNat * 1048576 + a.toNat * 32768 + im.toNat < 4294967296; have := b.isLt; have := a.isLt; have := im.isLt; omega
theorem sth (b : BitVec 5) (a : BitVec 5) (im : BitVec 15) : Statement (.sth b a im) := by show 1207959552 + b.toNat * 1048576 + a.toNat * 32768 + im.toNat < 4294967296; have := b.isLt; have := a.isLt; have := im.isLt; omega
theorem stw (b : BitVec 5) (a : BitVec 5) (im : BitVec 15) : Statement (.stw b a im) := by show 1241513984 + b.toNat * 1048576 + a.toNat * 32768 + im.toNat < 4294967296; have := b.isLt; have := a.isLt; have := im.isLt; omega
theorem std (b : BitVec 5) (a : BitVec 5) (im : BitVec 15) : Statement (.std b a im) := by show 1275068416 + b.toNat * 1048576 + a.toNat * 32768 + im.toNat < 4294967296; have := b.isLt; have := a.isLt; have := im.isLt; omega
theorem ldf (d : BitVec 4) (a : BitVec 5) (im : BitVec 15) : Statement (.ldf d a im) := by show 1308622848 + d.toNat * 1048576 + a.toNat * 32768 + im.toNat < 4294967296; have := d.isLt; have := a.isLt; have := im.isLt; omega
theorem stf (b : BitVec 4) (a : BitVec 5) (im : BitVec 15) : Statement (.stf b a im) := by show 1342177280 + b.toNat * 1048576 + a.toNat * 32768 + im.toNat < 4294967296; have := b.isLt; have := a.isLt; have := im.isLt; omega
theorem ldsync (d : BitVec 5) (a : BitVec 5) (im : BitVec 15) : Statement (.ldsync d a im) := by show 1375731712 + d.toNat * 1048576 + a.toNat * 32768 + im.toNat < 4294967296; have := d.isLt; have := a.isLt; have := im.isLt; omega
theorem stfull (b : BitVec 5) (a : BitVec 5) (im : BitVec 15) : Statement (.stfull b a im) := by show 1409286144 + b.toNat * 1048576 + a.toNat * 32768 + im.toNat < 4294967296; have := b.isLt; have := a.isLt; have := im.isLt; omega
theorem feclr (a : BitVec 5) (im : BitVec 15) : Statement (.feclr a im) := by show 1442840576 + a.toNat * 32768 + im.toNat < 4294967296; have := a.isLt; have := im.isLt; omega
theorem ferd (d : BitVec 5) (a : BitVec 5) (im : BitVec 15) : Statement (.ferd d a im) := by show 1476395008 + d.toNat * 1048576 + a.toNat * 32768 + im.toNat < 4294967296; have := d.isLt; have := a.isLt; have := im.isLt; omega
theorem rld (d : BitVec 5) (a : BitVec 5) (b : BitVec 5) : Statement (.rld d a b) := by show 1509949440 + d.toNat * 1048576 + a.toNat * 32768 + b.toNat * 1024 < 4294967296; have := d.isLt; have := a.isLt; have := b.isLt; omega
theorem rst (a : BitVec 5) (b : BitVec 5) : Statement (.rst a b) := by show 1509949441 + a.toNat * 32768 + b.toNat * 1024 < 4294967296; have := a.isLt; have := b.isLt; omega
theorem pfd (a : BitVec 5) : Statement (.pfd a) := by show 1509949442 + a.toNat * 32768 < 4294967296; have := a.isLt; omega
theorem icpf (a : BitVec 5) : Statement (.icpf a) := by show 1509949443 + a.toNat * 32768 < 4294967296; have := a.isLt; omega
theorem amoAdd (d : BitVec 5) (a : BitVec 5) (b : BitVec 5) (w : BitVec 1) (q : BitVec 1) (r : BitVec 1) : Statement (.amoAdd d a b w q r) := by show 1543503872 + d.toNat * 1048576 + a.toNat * 32768 + b.toNat * 1024 + w.toNat * 32 + q.toNat * 16 + r.toNat * 8 < 4294967296; have := d.isLt; have := a.isLt; have := b.isLt; have := w.isLt; have := q.isLt; have := r.isLt; omega
theorem amoAnd (d : BitVec 5) (a : BitVec 5) (b : BitVec 5) (w : BitVec 1) (q : BitVec 1) (r : BitVec 1) : Statement (.amoAnd d a b w q r) := by show 1543503936 + d.toNat * 1048576 + a.toNat * 32768 + b.toNat * 1024 + w.toNat * 32 + q.toNat * 16 + r.toNat * 8 < 4294967296; have := d.isLt; have := a.isLt; have := b.isLt; have := w.isLt; have := q.isLt; have := r.isLt; omega
theorem amoOr (d : BitVec 5) (a : BitVec 5) (b : BitVec 5) (w : BitVec 1) (q : BitVec 1) (r : BitVec 1) : Statement (.amoOr d a b w q r) := by show 1543504000 + d.toNat * 1048576 + a.toNat * 32768 + b.toNat * 1024 + w.toNat * 32 + q.toNat * 16 + r.toNat * 8 < 4294967296; have := d.isLt; have := a.isLt; have := b.isLt; have := w.isLt; have := q.isLt; have := r.isLt; omega
theorem amoXor (d : BitVec 5) (a : BitVec 5) (b : BitVec 5) (w : BitVec 1) (q : BitVec 1) (r : BitVec 1) : Statement (.amoXor d a b w q r) := by show 1543504064 + d.toNat * 1048576 + a.toNat * 32768 + b.toNat * 1024 + w.toNat * 32 + q.toNat * 16 + r.toNat * 8 < 4294967296; have := d.isLt; have := a.isLt; have := b.isLt; have := w.isLt; have := q.isLt; have := r.isLt; omega
theorem amoMin (d : BitVec 5) (a : BitVec 5) (b : BitVec 5) (w : BitVec 1) (q : BitVec 1) (r : BitVec 1) : Statement (.amoMin d a b w q r) := by show 1543504128 + d.toNat * 1048576 + a.toNat * 32768 + b.toNat * 1024 + w.toNat * 32 + q.toNat * 16 + r.toNat * 8 < 4294967296; have := d.isLt; have := a.isLt; have := b.isLt; have := w.isLt; have := q.isLt; have := r.isLt; omega
theorem amoMax (d : BitVec 5) (a : BitVec 5) (b : BitVec 5) (w : BitVec 1) (q : BitVec 1) (r : BitVec 1) : Statement (.amoMax d a b w q r) := by show 1543504192 + d.toNat * 1048576 + a.toNat * 32768 + b.toNat * 1024 + w.toNat * 32 + q.toNat * 16 + r.toNat * 8 < 4294967296; have := d.isLt; have := a.isLt; have := b.isLt; have := w.isLt; have := q.isLt; have := r.isLt; omega
theorem amoMinu (d : BitVec 5) (a : BitVec 5) (b : BitVec 5) (w : BitVec 1) (q : BitVec 1) (r : BitVec 1) : Statement (.amoMinu d a b w q r) := by show 1543504256 + d.toNat * 1048576 + a.toNat * 32768 + b.toNat * 1024 + w.toNat * 32 + q.toNat * 16 + r.toNat * 8 < 4294967296; have := d.isLt; have := a.isLt; have := b.isLt; have := w.isLt; have := q.isLt; have := r.isLt; omega
theorem amoMaxu (d : BitVec 5) (a : BitVec 5) (b : BitVec 5) (w : BitVec 1) (q : BitVec 1) (r : BitVec 1) : Statement (.amoMaxu d a b w q r) := by show 1543504320 + d.toNat * 1048576 + a.toNat * 32768 + b.toNat * 1024 + w.toNat * 32 + q.toNat * 16 + r.toNat * 8 < 4294967296; have := d.isLt; have := a.isLt; have := b.isLt; have := w.isLt; have := q.isLt; have := r.isLt; omega
theorem amoSwap (d : BitVec 5) (a : BitVec 5) (b : BitVec 5) (w : BitVec 1) (q : BitVec 1) (r : BitVec 1) : Statement (.amoSwap d a b w q r) := by show 1543504384 + d.toNat * 1048576 + a.toNat * 32768 + b.toNat * 1024 + w.toNat * 32 + q.toNat * 16 + r.toNat * 8 < 4294967296; have := d.isLt; have := a.isLt; have := b.isLt; have := w.isLt; have := q.isLt; have := r.isLt; omega
theorem amoCas (d : BitVec 5) (a : BitVec 5) (b : BitVec 5) (w : BitVec 1) (q : BitVec 1) (r : BitVec 1) : Statement (.amoCas d a b w q r) := by show 1543504448 + d.toNat * 1048576 + a.toNat * 32768 + b.toNat * 1024 + w.toNat * 32 + q.toNat * 16 + r.toNat * 8 < 4294967296; have := d.isLt; have := a.isLt; have := b.isLt; have := w.isLt; have := q.isLt; have := r.isLt; omega
theorem amoFadd (d : BitVec 5) (a : BitVec 5) (b : BitVec 5) (q : BitVec 1) (r : BitVec 1) : Statement (.amoFadd d a b q r) := by show 1543504512 + d.toNat * 1048576 + a.toNat * 32768 + b.toNat * 1024 + q.toNat * 16 + r.toNat * 8 < 4294967296; have := d.isLt; have := a.isLt; have := b.isLt; have := q.isLt; have := r.isLt; omega
theorem cmoClean (a : BitVec 5) (b : BitVec 5) (l : BitVec 2) : Statement (.cmoClean a b l) := by show 1577058305 + a.toNat * 32768 + b.toNat * 1024 + l.toNat * 4 < 4294967296; have := a.isLt; have := b.isLt; have := l.isLt; omega
theorem cmoInv (a : BitVec 5) (b : BitVec 5) (l : BitVec 2) : Statement (.cmoInv a b l) := by show 1577058306 + a.toNat * 32768 + b.toNat * 1024 + l.toNat * 4 < 4294967296; have := a.isLt; have := b.isLt; have := l.isLt; omega
theorem cmoClinv (a : BitVec 5) (b : BitVec 5) (l : BitVec 2) : Statement (.cmoClinv a b l) := by show 1577058307 + a.toNat * 32768 + b.toNat * 1024 + l.toNat * 4 < 4294967296; have := a.isLt; have := b.isLt; have := l.isLt; omega
theorem fadd (d : BitVec 4) (a : BitVec 4) (b : BitVec 4) : Statement (.fadd d a b) := by show 1610612736 + d.toNat * 1048576 + a.toNat * 32768 + b.toNat * 1024 < 4294967296; have := d.isLt; have := a.isLt; have := b.isLt; omega
theorem fsub (d : BitVec 4) (a : BitVec 4) (b : BitVec 4) : Statement (.fsub d a b) := by show 1610612737 + d.toNat * 1048576 + a.toNat * 32768 + b.toNat * 1024 < 4294967296; have := d.isLt; have := a.isLt; have := b.isLt; omega
theorem fmul (d : BitVec 4) (a : BitVec 4) (b : BitVec 4) : Statement (.fmul d a b) := by show 1610612738 + d.toNat * 1048576 + a.toNat * 32768 + b.toNat * 1024 < 4294967296; have := d.isLt; have := a.isLt; have := b.isLt; omega
theorem fdiv (d : BitVec 4) (a : BitVec 4) (b : BitVec 4) : Statement (.fdiv d a b) := by show 1610612739 + d.toNat * 1048576 + a.toNat * 32768 + b.toNat * 1024 < 4294967296; have := d.isLt; have := a.isLt; have := b.isLt; omega
theorem fsqrt (d : BitVec 4) (a : BitVec 4) : Statement (.fsqrt d a) := by show 1610612740 + d.toNat * 1048576 + a.toNat * 32768 < 4294967296; have := d.isLt; have := a.isLt; omega
theorem fmin (d : BitVec 4) (a : BitVec 4) (b : BitVec 4) : Statement (.fmin d a b) := by show 1610612741 + d.toNat * 1048576 + a.toNat * 32768 + b.toNat * 1024 < 4294967296; have := d.isLt; have := a.isLt; have := b.isLt; omega
theorem fmax (d : BitVec 4) (a : BitVec 4) (b : BitVec 4) : Statement (.fmax d a b) := by show 1610612742 + d.toNat * 1048576 + a.toNat * 32768 + b.toNat * 1024 < 4294967296; have := d.isLt; have := a.isLt; have := b.isLt; omega
theorem fsgnj (d : BitVec 4) (a : BitVec 4) (b : BitVec 4) : Statement (.fsgnj d a b) := by show 1610612743 + d.toNat * 1048576 + a.toNat * 32768 + b.toNat * 1024 < 4294967296; have := d.isLt; have := a.isLt; have := b.isLt; omega
theorem fsgnjn (d : BitVec 4) (a : BitVec 4) (b : BitVec 4) : Statement (.fsgnjn d a b) := by show 1610612744 + d.toNat * 1048576 + a.toNat * 32768 + b.toNat * 1024 < 4294967296; have := d.isLt; have := a.isLt; have := b.isLt; omega
theorem fsgnjx (d : BitVec 4) (a : BitVec 4) (b : BitVec 4) : Statement (.fsgnjx d a b) := by show 1610612745 + d.toNat * 1048576 + a.toNat * 32768 + b.toNat * 1024 < 4294967296; have := d.isLt; have := a.isLt; have := b.isLt; omega
theorem fclass (d : BitVec 5) (a : BitVec 4) : Statement (.fclass d a) := by show 1610612746 + d.toNat * 1048576 + a.toNat * 32768 < 4294967296; have := d.isLt; have := a.isLt; omega
theorem fma (d : BitVec 4) (a : BitVec 4) (b : BitVec 4) (c : BitVec 4) : Statement (.fma d a b c) := by show 1644167168 + d.toNat * 1048576 + a.toNat * 32768 + b.toNat * 1024 + c.toNat < 4294967296; have := d.isLt; have := a.isLt; have := b.isLt; have := c.isLt; omega
theorem fms (d : BitVec 4) (a : BitVec 4) (b : BitVec 4) (c : BitVec 4) : Statement (.fms d a b c) := by show 1644167184 + d.toNat * 1048576 + a.toNat * 32768 + b.toNat * 1024 + c.toNat < 4294967296; have := d.isLt; have := a.isLt; have := b.isLt; have := c.isLt; omega
theorem fnma (d : BitVec 4) (a : BitVec 4) (b : BitVec 4) (c : BitVec 4) : Statement (.fnma d a b c) := by show 1644167200 + d.toNat * 1048576 + a.toNat * 32768 + b.toNat * 1024 + c.toNat < 4294967296; have := d.isLt; have := a.isLt; have := b.isLt; have := c.isLt; omega
theorem fcmpEq (p : BitVec 5) (a : BitVec 4) (b : BitVec 4) : Statement (.fcmpEq p a b) := by show 1677721600 + p.toNat * 1048576 + a.toNat * 32768 + b.toNat * 1024 < 4294967296; have := p.isLt; have := a.isLt; have := b.isLt; omega
theorem fcmpLt (p : BitVec 5) (a : BitVec 4) (b : BitVec 4) : Statement (.fcmpLt p a b) := by show 1677721601 + p.toNat * 1048576 + a.toNat * 32768 + b.toNat * 1024 < 4294967296; have := p.isLt; have := a.isLt; have := b.isLt; omega
theorem fcmpLe (p : BitVec 5) (a : BitVec 4) (b : BitVec 4) : Statement (.fcmpLe p a b) := by show 1677721602 + p.toNat * 1048576 + a.toNat * 32768 + b.toNat * 1024 < 4294967296; have := p.isLt; have := a.isLt; have := b.isLt; omega
theorem fcmpUn (p : BitVec 5) (a : BitVec 4) (b : BitVec 4) : Statement (.fcmpUn p a b) := by show 1677721603 + p.toNat * 1048576 + a.toNat * 32768 + b.toNat * 1024 < 4294967296; have := p.isLt; have := a.isLt; have := b.isLt; omega
theorem fcvtI32F (d : BitVec 5) (a : BitVec 4) : Statement (.fcvtI32F d a) := by show 1711276032 + d.toNat * 1048576 + a.toNat * 32768 < 4294967296; have := d.isLt; have := a.isLt; omega
theorem fcvtI64F (d : BitVec 5) (a : BitVec 4) : Statement (.fcvtI64F d a) := by show 1711276033 + d.toNat * 1048576 + a.toNat * 32768 < 4294967296; have := d.isLt; have := a.isLt; omega
theorem fcvtFI32 (d : BitVec 4) (a : BitVec 5) : Statement (.fcvtFI32 d a) := by show 1711276034 + d.toNat * 1048576 + a.toNat * 32768 < 4294967296; have := d.isLt; have := a.isLt; omega
theorem fcvtFI64 (d : BitVec 4) (a : BitVec 5) : Statement (.fcvtFI64 d a) := by show 1711276035 + d.toNat * 1048576 + a.toNat * 32768 < 4294967296; have := d.isLt; have := a.isLt; omega
theorem fcvtBfF (d : BitVec 4) (a : BitVec 4) : Statement (.fcvtBfF d a) := by show 1711276036 + d.toNat * 1048576 + a.toNat * 32768 < 4294967296; have := d.isLt; have := a.isLt; omega
theorem fcvtFBf (d : BitVec 4) (a : BitVec 4) : Statement (.fcvtFBf d a) := by show 1711276037 + d.toNat * 1048576 + a.toNat * 32768 < 4294967296; have := d.isLt; have := a.isLt; omega
theorem fcvtHfF (d : BitVec 4) (a : BitVec 4) : Statement (.fcvtHfF d a) := by show 1711276038 + d.toNat * 1048576 + a.toNat * 32768 < 4294967296; have := d.isLt; have := a.isLt; omega
theorem fcvtFHf (d : BitVec 4) (a : BitVec 4) : Statement (.fcvtFHf d a) := by show 1711276039 + d.toNat * 1048576 + a.toNat * 32768 < 4294967296; have := d.isLt; have := a.isLt; omega
theorem fmvx (d : BitVec 5) (a : BitVec 4) : Statement (.fmvx d a) := by show 1744830464 + d.toNat * 1048576 + a.toNat * 32768 < 4294967296; have := d.isLt; have := a.isLt; omega
theorem fmvf (d : BitVec 4) (a : BitVec 5) : Statement (.fmvf d a) := by show 1744830465 + d.toNat * 1048576 + a.toNat * 32768 < 4294967296; have := d.isLt; have := a.isLt; omega
theorem vld (d : BitVec 4) (a : BitVec 5) (im : BitVec 15) : Statement (.vld d a im) := by show 1879048192 + d.toNat * 1048576 + a.toNat * 32768 + im.toNat < 4294967296; have := d.isLt; have := a.isLt; have := im.isLt; omega
theorem vst (b : BitVec 4) (a : BitVec 5) (im : BitVec 15) : Statement (.vst b a im) := by show 1912602624 + b.toNat * 1048576 + a.toNat * 32768 + im.toNat < 4294967296; have := b.isLt; have := a.isLt; have := im.isLt; omega
theorem vlds (d : BitVec 4) (a : BitVec 5) (b : BitVec 5) (m : BitVec 1) : Statement (.vlds d a b m) := by show 1946157056 + d.toNat * 1048576 + a.toNat * 32768 + b.toNat * 1024 + m.toNat * 256 < 4294967296; have := d.isLt; have := a.isLt; have := b.isLt; have := m.isLt; omega
theorem vsts (d : BitVec 4) (a : BitVec 5) (b : BitVec 5) (m : BitVec 1) : Statement (.vsts d a b m) := by show 1946157057 + d.toNat * 1048576 + a.toNat * 32768 + b.toNat * 1024 + m.toNat * 256 < 4294967296; have := d.isLt; have := a.isLt; have := b.isLt; have := m.isLt; omega
theorem vldx (d : BitVec 4) (a : BitVec 5) (b : BitVec 4) (m : BitVec 1) : Statement (.vldx d a b m) := by show 1979711488 + d.toNat * 1048576 + a.toNat * 32768 + b.toNat * 1024 + m.toNat * 256 < 4294967296; have := d.isLt; have := a.isLt; have := b.isLt; have := m.isLt; omega
theorem vstx (d : BitVec 4) (a : BitVec 5) (b : BitVec 4) (m : BitVec 1) : Statement (.vstx d a b m) := by show 1979711489 + d.toNat * 1048576 + a.toNat * 32768 + b.toNat * 1024 + m.toNat * 256 < 4294967296; have := d.isLt; have := a.isLt; have := b.isLt; have := m.isLt; omega
theorem vbcast (d : BitVec 4) (a : BitVec 5) : Statement (.vbcast d a) := by show 2013265920 + d.toNat * 1048576 + a.toNat * 32768 < 4294967296; have := d.isLt; have := a.isLt; omega
theorem vextr (d : BitVec 5) (a : BitVec 4) (n : BitVec 5) : Statement (.vextr d a n) := by show 2013265952 + d.toNat * 1048576 + a.toNat * 32768 + n.toNat < 4294967296; have := d.isLt; have := a.isLt; have := n.isLt; omega
theorem vadd (d : BitVec 4) (a : BitVec 4) (b : BitVec 4) (m : BitVec 1) : Statement (.vadd d a b m) := by show 2046820352 + d.toNat * 2097152 + a.toNat * 131072 + b.toNat * 8192 + m.toNat * 256 < 4294967296; have := d.isLt; have := a.isLt; have := b.isLt; have := m.isLt; omega
theorem vsub (d : BitVec 4) (a : BitVec 4) (b : BitVec 4) (m : BitVec 1) : Statement (.vsub d a b m) := by show 2046820353 + d.toNat * 2097152 + a.toNat * 131072 + b.toNat * 8192 + m.toNat * 256 < 4294967296; have := d.isLt; have := a.isLt; have := b.isLt; have := m.isLt; omega
theorem vmul (d : BitVec 4) (a : BitVec 4) (b : BitVec 4) (m : BitVec 1) : Statement (.vmul d a b m) := by show 2046820354 + d.toNat * 2097152 + a.toNat * 131072 + b.toNat * 8192 + m.toNat * 256 < 4294967296; have := d.isLt; have := a.isLt; have := b.isLt; have := m.isLt; omega
theorem vfma (d : BitVec 4) (a : BitVec 4) (b : BitVec 4) (c : BitVec 4) (m : BitVec 1) : Statement (.vfma d a b c m) := by show 2046820355 + d.toNat * 2097152 + a.toNat * 131072 + b.toNat * 8192 + c.toNat * 512 + m.toNat * 256 < 4294967296; have := d.isLt; have := a.isLt; have := b.isLt; have := c.isLt; have := m.isLt; omega
theorem vfms (d : BitVec 4) (a : BitVec 4) (b : BitVec 4) (c : BitVec 4) (m : BitVec 1) : Statement (.vfms d a b c m) := by show 2046820356 + d.toNat * 2097152 + a.toNat * 131072 + b.toNat * 8192 + c.toNat * 512 + m.toNat * 256 < 4294967296; have := d.isLt; have := a.isLt; have := b.isLt; have := c.isLt; have := m.isLt; omega
theorem vmin (d : BitVec 4) (a : BitVec 4) (b : BitVec 4) (m : BitVec 1) : Statement (.vmin d a b m) := by show 2046820357 + d.toNat * 2097152 + a.toNat * 131072 + b.toNat * 8192 + m.toNat * 256 < 4294967296; have := d.isLt; have := a.isLt; have := b.isLt; have := m.isLt; omega
theorem vmax (d : BitVec 4) (a : BitVec 4) (b : BitVec 4) (m : BitVec 1) : Statement (.vmax d a b m) := by show 2046820358 + d.toNat * 2097152 + a.toNat * 131072 + b.toNat * 8192 + m.toNat * 256 < 4294967296; have := d.isLt; have := a.isLt; have := b.isLt; have := m.isLt; omega
theorem vabs (d : BitVec 4) (a : BitVec 4) (m : BitVec 1) : Statement (.vabs d a m) := by show 2046820359 + d.toNat * 2097152 + a.toNat * 131072 + m.toNat * 256 < 4294967296; have := d.isLt; have := a.isLt; have := m.isLt; omega
theorem vrcp (d : BitVec 4) (a : BitVec 4) (m : BitVec 1) : Statement (.vrcp d a m) := by show 2046820360 + d.toNat * 2097152 + a.toNat * 131072 + m.toNat * 256 < 4294967296; have := d.isLt; have := a.isLt; have := m.isLt; omega
theorem vrsq (d : BitVec 4) (a : BitVec 4) (m : BitVec 1) : Statement (.vrsq d a m) := by show 2046820361 + d.toNat * 2097152 + a.toNat * 131072 + m.toNat * 256 < 4294967296; have := d.isLt; have := a.isLt; have := m.isLt; omega
theorem vexp2 (d : BitVec 4) (a : BitVec 4) (m : BitVec 1) : Statement (.vexp2 d a m) := by show 2046820362 + d.toNat * 2097152 + a.toNat * 131072 + m.toNat * 256 < 4294967296; have := d.isLt; have := a.isLt; have := m.isLt; omega
theorem vlog2 (d : BitVec 4) (a : BitVec 4) (m : BitVec 1) : Statement (.vlog2 d a m) := by show 2046820363 + d.toNat * 2097152 + a.toNat * 131072 + m.toNat * 256 < 4294967296; have := d.isLt; have := a.isLt; have := m.isLt; omega
theorem viadd (d : BitVec 4) (a : BitVec 4) (b : BitVec 4) (m : BitVec 1) : Statement (.viadd d a b m) := by show 2080374784 + d.toNat * 2097152 + a.toNat * 131072 + b.toNat * 8192 + m.toNat * 256 < 4294967296; have := d.isLt; have := a.isLt; have := b.isLt; have := m.isLt; omega
theorem visub (d : BitVec 4) (a : BitVec 4) (b : BitVec 4) (m : BitVec 1) : Statement (.visub d a b m) := by show 2080374785 + d.toNat * 2097152 + a.toNat * 131072 + b.toNat * 8192 + m.toNat * 256 < 4294967296; have := d.isLt; have := a.isLt; have := b.isLt; have := m.isLt; omega
theorem vimul (d : BitVec 4) (a : BitVec 4) (b : BitVec 4) (m : BitVec 1) : Statement (.vimul d a b m) := by show 2080374786 + d.toNat * 2097152 + a.toNat * 131072 + b.toNat * 8192 + m.toNat * 256 < 4294967296; have := d.isLt; have := a.isLt; have := b.isLt; have := m.isLt; omega
theorem vand (d : BitVec 4) (a : BitVec 4) (b : BitVec 4) (m : BitVec 1) : Statement (.vand d a b m) := by show 2080374787 + d.toNat * 2097152 + a.toNat * 131072 + b.toNat * 8192 + m.toNat * 256 < 4294967296; have := d.isLt; have := a.isLt; have := b.isLt; have := m.isLt; omega
theorem vor (d : BitVec 4) (a : BitVec 4) (b : BitVec 4) (m : BitVec 1) : Statement (.vor d a b m) := by show 2080374788 + d.toNat * 2097152 + a.toNat * 131072 + b.toNat * 8192 + m.toNat * 256 < 4294967296; have := d.isLt; have := a.isLt; have := b.isLt; have := m.isLt; omega
theorem vxor (d : BitVec 4) (a : BitVec 4) (b : BitVec 4) (m : BitVec 1) : Statement (.vxor d a b m) := by show 2080374789 + d.toNat * 2097152 + a.toNat * 131072 + b.toNat * 8192 + m.toNat * 256 < 4294967296; have := d.isLt; have := a.isLt; have := b.isLt; have := m.isLt; omega
theorem vsll (d : BitVec 4) (a : BitVec 4) (b : BitVec 4) (m : BitVec 1) : Statement (.vsll d a b m) := by show 2080374790 + d.toNat * 2097152 + a.toNat * 131072 + b.toNat * 8192 + m.toNat * 256 < 4294967296; have := d.isLt; have := a.isLt; have := b.isLt; have := m.isLt; omega
theorem vsrl (d : BitVec 4) (a : BitVec 4) (b : BitVec 4) (m : BitVec 1) : Statement (.vsrl d a b m) := by show 2080374791 + d.toNat * 2097152 + a.toNat * 131072 + b.toNat * 8192 + m.toNat * 256 < 4294967296; have := d.isLt; have := a.isLt; have := b.isLt; have := m.isLt; omega
theorem vsra (d : BitVec 4) (a : BitVec 4) (b : BitVec 4) (m : BitVec 1) : Statement (.vsra d a b m) := by show 2080374792 + d.toNat * 2097152 + a.toNat * 131072 + b.toNat * 8192 + m.toNat * 256 < 4294967296; have := d.isLt; have := a.isLt; have := b.isLt; have := m.isLt; omega
theorem vcmpEq (a : BitVec 4) (b : BitVec 4) (m : BitVec 1) : Statement (.vcmpEq a b m) := by show 2113929216 + a.toNat * 131072 + b.toNat * 8192 + m.toNat * 256 < 4294967296; have := a.isLt; have := b.isLt; have := m.isLt; omega
theorem vcmpNe (a : BitVec 4) (b : BitVec 4) (m : BitVec 1) : Statement (.vcmpNe a b m) := by show 2113929217 + a.toNat * 131072 + b.toNat * 8192 + m.toNat * 256 < 4294967296; have := a.isLt; have := b.isLt; have := m.isLt; omega
theorem vcmpLt (a : BitVec 4) (b : BitVec 4) (m : BitVec 1) : Statement (.vcmpLt a b m) := by show 2113929218 + a.toNat * 131072 + b.toNat * 8192 + m.toNat * 256 < 4294967296; have := a.isLt; have := b.isLt; have := m.isLt; omega
theorem vcmpLtu (a : BitVec 4) (b : BitVec 4) (m : BitVec 1) : Statement (.vcmpLtu a b m) := by show 2113929219 + a.toNat * 131072 + b.toNat * 8192 + m.toNat * 256 < 4294967296; have := a.isLt; have := b.isLt; have := m.isLt; omega
theorem vcmpGe (a : BitVec 4) (b : BitVec 4) (m : BitVec 1) : Statement (.vcmpGe a b m) := by show 2113929220 + a.toNat * 131072 + b.toNat * 8192 + m.toNat * 256 < 4294967296; have := a.isLt; have := b.isLt; have := m.isLt; omega
theorem vcmpGeu (a : BitVec 4) (b : BitVec 4) (m : BitVec 1) : Statement (.vcmpGeu a b m) := by show 2113929221 + a.toNat * 131072 + b.toNat * 8192 + m.toNat * 256 < 4294967296; have := a.isLt; have := b.isLt; have := m.isLt; omega
theorem vcmpFeq (a : BitVec 4) (b : BitVec 4) (m : BitVec 1) : Statement (.vcmpFeq a b m) := by show 2113929224 + a.toNat * 131072 + b.toNat * 8192 + m.toNat * 256 < 4294967296; have := a.isLt; have := b.isLt; have := m.isLt; omega
theorem vcmpFlt (a : BitVec 4) (b : BitVec 4) (m : BitVec 1) : Statement (.vcmpFlt a b m) := by show 2113929225 + a.toNat * 131072 + b.toNat * 8192 + m.toNat * 256 < 4294967296; have := a.isLt; have := b.isLt; have := m.isLt; omega
theorem vcmpFle (a : BitVec 4) (b : BitVec 4) (m : BitVec 1) : Statement (.vcmpFle a b m) := by show 2113929226 + a.toNat * 131072 + b.toNat * 8192 + m.toNat * 256 < 4294967296; have := a.isLt; have := b.isLt; have := m.isLt; omega
theorem vcmpFun (a : BitVec 4) (b : BitVec 4) (m : BitVec 1) : Statement (.vcmpFun a b m) := by show 2113929227 + a.toNat * 131072 + b.toNat * 8192 + m.toNat * 256 < 4294967296; have := a.isLt; have := b.isLt; have := m.isLt; omega
theorem vsel (d : BitVec 4) (a : BitVec 4) (b : BitVec 4) : Statement (.vsel d a b) := by show 2147483648 + d.toNat * 2097152 + a.toNat * 131072 + b.toNat * 8192 < 4294967296; have := d.isLt; have := a.isLt; have := b.isLt; omega
theorem vshuf (d : BitVec 4) (a : BitVec 4) (b : BitVec 4) (m : BitVec 1) : Statement (.vshuf d a b m) := by show 2147483649 + d.toNat * 2097152 + a.toNat * 131072 + b.toNat * 8192 + m.toNat * 256 < 4294967296; have := d.isLt; have := a.isLt; have := b.isLt; have := m.isLt; omega
theorem vslideUp (d : BitVec 4) (a : BitVec 4) (b : BitVec 4) (m : BitVec 1) (n : BitVec 5) : Statement (.vslideUp d a b m n) := by show 2147483776 + d.toNat * 2097152 + a.toNat * 131072 + b.toNat * 8192 + m.toNat * 256 + n.toNat < 4294967296; have := d.isLt; have := a.isLt; have := b.isLt; have := m.isLt; have := n.isLt; omega
theorem vslideDn (d : BitVec 4) (a : BitVec 4) (b : BitVec 4) (m : BitVec 1) (n : BitVec 5) : Statement (.vslideDn d a b m n) := by show 2147483808 + d.toNat * 2097152 + a.toNat * 131072 + b.toNat * 8192 + m.toNat * 256 + n.toNat < 4294967296; have := d.isLt; have := a.isLt; have := b.isLt; have := m.isLt; have := n.isLt; omega
theorem vcvtI32F (d : BitVec 4) (a : BitVec 4) (m : BitVec 1) (r : BitVec 3) : Statement (.vcvtI32F d a m r) := by show 2181038080 + d.toNat * 2097152 + a.toNat * 131072 + m.toNat * 256 + r.toNat < 4294967296; have := d.isLt; have := a.isLt; have := m.isLt; have := r.isLt; omega
theorem vcvtFI32 (d : BitVec 4) (a : BitVec 4) (m : BitVec 1) (r : BitVec 3) : Statement (.vcvtFI32 d a m r) := by show 2181038088 + d.toNat * 2097152 + a.toNat * 131072 + m.toNat * 256 + r.toNat < 4294967296; have := d.isLt; have := a.isLt; have := m.isLt; have := r.isLt; omega
theorem vcvtBfF (d : BitVec 4) (a : BitVec 4) (h : BitVec 1) (m : BitVec 1) (r : BitVec 3) : Statement (.vcvtBfF d a h m r) := by show 2181038096 + d.toNat * 2097152 + a.toNat * 131072 + h.toNat * 512 + m.toNat * 256 + r.toNat < 4294967296; have := d.isLt; have := a.isLt; have := h.isLt; have := m.isLt; have := r.isLt; omega
theorem vcvtFBf (d : BitVec 4) (a : BitVec 4) (h : BitVec 1) (m : BitVec 1) : Statement (.vcvtFBf d a h m) := by show 2181038109 + d.toNat * 2097152 + a.toNat * 131072 + h.toNat * 512 + m.toNat * 256 < 4294967296; have := d.isLt; have := a.isLt; have := h.isLt; have := m.isLt; omega
theorem vcvtHfF (d : BitVec 4) (a : BitVec 4) (h : BitVec 1) (m : BitVec 1) (r : BitVec 3) : Statement (.vcvtHfF d a h m r) := by show 2181038112 + d.toNat * 2097152 + a.toNat * 131072 + h.toNat * 512 + m.toNat * 256 + r.toNat < 4294967296; have := d.isLt; have := a.isLt; have := h.isLt; have := m.isLt; have := r.isLt; omega
theorem vcvtFHf (d : BitVec 4) (a : BitVec 4) (h : BitVec 1) (m : BitVec 1) : Statement (.vcvtFHf d a h m) := by show 2181038125 + d.toNat * 2097152 + a.toNat * 131072 + h.toNat * 512 + m.toNat * 256 < 4294967296; have := d.isLt; have := a.isLt; have := h.isLt; have := m.isLt; omega
theorem vencT0 (d : BitVec 4) (a : BitVec 4) (q : BitVec 2) (m : BitVec 1) : Statement (.vencT0 d a q m) := by show 2181038144 + d.toNat * 2097152 + a.toNat * 131072 + q.toNat * 512 + m.toNat * 256 < 4294967296; have := d.isLt; have := a.isLt; have := q.isLt; have := m.isLt; omega
theorem vencT1 (d : BitVec 4) (a : BitVec 4) (q : BitVec 2) (m : BitVec 1) : Statement (.vencT1 d a q m) := by show 2181038145 + d.toNat * 2097152 + a.toNat * 131072 + q.toNat * 512 + m.toNat * 256 < 4294967296; have := d.isLt; have := a.isLt; have := q.isLt; have := m.isLt; omega
theorem vencE2 (d : BitVec 4) (a : BitVec 4) (e : BitVec 3) (m : BitVec 1) : Statement (.vencE2 d a e m) := by show 2181038146 + d.toNat * 2097152 + a.toNat * 131072 + e.toNat * 512 + m.toNat * 256 < 4294967296; have := d.isLt; have := a.isLt; have := e.isLt; have := m.isLt; omega
theorem vdecT0 (d : BitVec 4) (a : BitVec 4) (q : BitVec 2) (m : BitVec 1) : Statement (.vdecT0 d a q m) := by show 2181038208 + d.toNat * 2097152 + a.toNat * 131072 + q.toNat * 512 + m.toNat * 256 < 4294967296; have := d.isLt; have := a.isLt; have := q.isLt; have := m.isLt; omega
theorem vdecT1 (d : BitVec 4) (a : BitVec 4) (q : BitVec 2) (m : BitVec 1) : Statement (.vdecT1 d a q m) := by show 2181038209 + d.toNat * 2097152 + a.toNat * 131072 + q.toNat * 512 + m.toNat * 256 < 4294967296; have := d.isLt; have := a.isLt; have := q.isLt; have := m.isLt; omega
theorem vdecE2 (d : BitVec 4) (a : BitVec 4) (e : BitVec 3) (m : BitVec 1) : Statement (.vdecE2 d a e m) := by show 2181038210 + d.toNat * 2097152 + a.toNat * 131072 + e.toNat * 512 + m.toNat * 256 < 4294967296; have := d.isLt; have := a.isLt; have := e.isLt; have := m.isLt; omega
theorem dtabLd (t : BitVec 1) (a : BitVec 5) (im : BitVec 15) : Statement (.dtabLd t a im) := by show 2214592512 + t.toNat * 1048576 + a.toNat * 32768 + im.toNat < 4294967296; have := t.isLt; have := a.isLt; have := im.isLt; omega
theorem vred (d : BitVec 4) (a : BitVec 4) (m : BitVec 1) (k : BitVec 4) : Statement (.vred d a m k) := by show 2248146944 + d.toNat * 2097152 + a.toNat * 131072 + m.toNat * 256 + k.toNat < 4294967296; have := d.isLt; have := a.isLt; have := m.isLt; have := k.isLt; omega
theorem vscan (d : BitVec 4) (a : BitVec 4) (m : BitVec 1) (k : BitVec 4) : Statement (.vscan d a m k) := by show 2248147008 + d.toNat * 2097152 + a.toNat * 131072 + m.toNat * 256 + k.toNat < 4294967296; have := d.isLt; have := a.isLt; have := m.isLt; have := k.isLt; omega
theorem vscanl (d : BitVec 4) (a : BitVec 4) (b : BitVec 4) (c : BitVec 4) (m : BitVec 1) (f : BitVec 4) : Statement (.vscanl d a b c m f) := by show 2248147072 + d.toNat * 2097152 + a.toNat * 131072 + b.toNat * 8192 + c.toNat * 512 + m.toNat * 256 + f.toNat < 4294967296; have := d.isLt; have := a.isLt; have := b.isLt; have := c.isLt; have := m.isLt; have := f.isLt; omega
theorem vdotbX8 (d : BitVec 4) (a : BitVec 4) (b : BitVec 4) (sc : BitVec 4) (q : BitVec 2) : Statement (.vdotbX8 d a b sc q) := by show 2281701376 + d.toNat * 2097152 + a.toNat * 131072 + b.toNat * 8192 + sc.toNat * 512 + q.toNat * 4 < 4294967296; have := d.isLt; have := a.isLt; have := b.isLt; have := sc.isLt; have := q.isLt; omega
theorem vdotbX4 (d : BitVec 4) (a : BitVec 4) (b : BitVec 4) (sc : BitVec 4) (e : BitVec 3) : Statement (.vdotbX4 d a b sc e) := by show 2281701377 + d.toNat * 2097152 + a.toNat * 131072 + b.toNat * 8192 + sc.toNat * 512 + e.toNat * 4 < 4294967296; have := d.isLt; have := a.isLt; have := b.isLt; have := sc.isLt; have := e.isLt; omega
theorem mmaBf (c : BitVec 3) (a : BitVec 5) (n : BitVec 1) (t : BitVec 1) (k : BitVec 3) : Statement (.mmaBf c a n t k) := by show 2415919104 + c.toNat * 4194304 + a.toNat * 131072 + n.toNat * 16 + t.toNat * 8 + k.toNat < 4294967296; have := c.isLt; have := a.isLt; have := n.isLt; have := t.isLt; have := k.isLt; omega
theorem mmaHf (c : BitVec 3) (a : BitVec 5) (n : BitVec 1) (t : BitVec 1) (k : BitVec 3) : Statement (.mmaHf c a n t k) := by show 2449473536 + c.toNat * 4194304 + a.toNat * 131072 + n.toNat * 16 + t.toNat * 8 + k.toNat < 4294967296; have := c.isLt; have := a.isLt; have := n.isLt; have := t.isLt; have := k.isLt; omega
theorem mmaE4 (c : BitVec 3) (a : BitVec 5) (n : BitVec 1) (t : BitVec 1) (k : BitVec 3) : Statement (.mmaE4 c a n t k) := by show 2483027968 + c.toNat * 4194304 + a.toNat * 131072 + n.toNat * 16 + t.toNat * 8 + k.toNat < 4294967296; have := c.isLt; have := a.isLt; have := n.isLt; have := t.isLt; have := k.isLt; omega
theorem mmaE45 (c : BitVec 3) (a : BitVec 5) (n : BitVec 1) (t : BitVec 1) (k : BitVec 3) : Statement (.mmaE45 c a n t k) := by show 2516582400 + c.toNat * 4194304 + a.toNat * 131072 + n.toNat * 16 + t.toNat * 8 + k.toNat < 4294967296; have := c.isLt; have := a.isLt; have := n.isLt; have := t.isLt; have := k.isLt; omega
theorem mmaE5 (c : BitVec 3) (a : BitVec 5) (n : BitVec 1) (t : BitVec 1) (k : BitVec 3) : Statement (.mmaE5 c a n t k) := by show 2550136832 + c.toNat * 4194304 + a.toNat * 131072 + n.toNat * 16 + t.toNat * 8 + k.toNat < 4294967296; have := c.isLt; have := a.isLt; have := n.isLt; have := t.isLt; have := k.isLt; omega
theorem mmaX8 (c : BitVec 3) (a : BitVec 5) (sc : BitVec 5) (n : BitVec 1) (t : BitVec 1) (k : BitVec 3) : Statement (.mmaX8 c a sc n t k) := by show 2583691264 + c.toNat * 4194304 + a.toNat * 131072 + sc.toNat * 4096 + n.toNat * 16 + t.toNat * 8 + k.toNat < 4294967296; have := c.isLt; have := a.isLt; have := sc.isLt; have := n.isLt; have := t.isLt; have := k.isLt; omega
theorem mmaX84 (c : BitVec 3) (a : BitVec 5) (sc : BitVec 5) (n : BitVec 1) (t : BitVec 1) (k : BitVec 3) : Statement (.mmaX84 c a sc n t k) := by show 2617245696 + c.toNat * 4194304 + a.toNat * 131072 + sc.toNat * 4096 + n.toNat * 16 + t.toNat * 8 + k.toNat < 4294967296; have := c.isLt; have := a.isLt; have := sc.isLt; have := n.isLt; have := t.isLt; have := k.isLt; omega
theorem mmaX4 (c : BitVec 3) (a : BitVec 5) (sc : BitVec 5) (n : BitVec 1) (t : BitVec 1) (k : BitVec 3) : Statement (.mmaX4 c a sc n t k) := by show 2650800128 + c.toNat * 4194304 + a.toNat * 131072 + sc.toNat * 4096 + n.toNat * 16 + t.toNat * 8 + k.toNat < 4294967296; have := c.isLt; have := a.isLt; have := sc.isLt; have := n.isLt; have := t.isLt; have := k.isLt; omega
theorem mmaI8 (c : BitVec 3) (a : BitVec 5) (n : BitVec 1) (t : BitVec 1) (k : BitVec 3) : Statement (.mmaI8 c a n t k) := by show 2684354560 + c.toNat * 4194304 + a.toNat * 131072 + n.toNat * 16 + t.toNat * 8 + k.toNat < 4294967296; have := c.isLt; have := a.isLt; have := n.isLt; have := t.isLt; have := k.isLt; omega
theorem acq (c : BitVec 3) : Statement (.acq c) := by show 2717908992 + c.toNat * 1048576 < 4294967296; have := c.isLt; omega
theorem rel (c : BitVec 3) : Statement (.rel c) := by show 2717908993 + c.toNat * 1048576 < 4294967296; have := c.isLt; omega
theorem azero (c : BitVec 3) : Statement (.azero c) := by show 2717908994 + c.toNat * 1048576 < 4294967296; have := c.isLt; omega
theorem apois (d : BitVec 5) (c : BitVec 3) : Statement (.apois d c) := by show 2717908995 + d.toNat * 1048576 + c.toNat * 32768 < 4294967296; have := d.isLt; have := c.isLt; omega
theorem ald (c : BitVec 3) (a : BitVec 5) : Statement (.ald c a) := by show 2751463424 + c.toNat * 4194304 + a.toNat * 131072 < 4294967296; have := c.isLt; have := a.isLt; omega
theorem ast (c : BitVec 3) (a : BitVec 5) (sc : BitVec 1) (r : BitVec 3) (f : BitVec 4) : Statement (.ast c a sc r f) := by show 2751465472 + c.toNat * 4194304 + a.toNat * 131072 + sc.toNat * 128 + r.toNat * 16 + f.toNat < 4294967296; have := c.isLt; have := a.isLt; have := sc.isLt; have := r.isLt; have := f.isLt; omega
theorem arow (d : BitVec 4) (c : BitVec 3) (b : BitVec 5) : Statement (.arow d c b) := by show 2785017856 + d.toNat * 1048576 + c.toNat * 32768 + b.toNat * 1024 < 4294967296; have := d.isLt; have := c.isLt; have := b.isLt; omega
theorem awr (c : BitVec 3) (a : BitVec 4) (b : BitVec 5) : Statement (.awr c a b) := by show 2785017857 + c.toNat * 1048576 + a.toNat * 32768 + b.toNat * 1024 < 4294967296; have := c.isLt; have := a.isLt; have := b.isLt; omega
theorem bld (a : BitVec 5) (b : BitVec 5) : Statement (.bld a b) := by show 2818572288 + a.toNat * 32768 + b.toNat * 1024 < 4294967296; have := a.isLt; have := b.isLt; omega
theorem brot (a : BitVec 5) : Statement (.brot a) := by show 2818572289 + a.toNat * 32768 < 4294967296; have := a.isLt; omega
theorem bstat (d : BitVec 5) : Statement (.bstat d) := by show 2818572290 + d.toNat * 1048576 < 4294967296; have := d.isLt; omega
theorem tldt (a : BitVec 5) (b : BitVec 5) : Statement (.tldt a b) := by show 2818572291 + a.toNat * 32768 + b.toNat * 1024 < 4294967296; have := a.isLt; have := b.isLt; omega
theorem spawn (p : BitVec 5) (o : BitVec 20) : Statement (.spawn p o) := by show 2952790016 + p.toNat * 1048576 + o.toNat < 4294967296; have := p.isLt; have := o.isLt; omega
theorem spawnc (o : BitVec 20) : Statement (.spawnc o) := by show 2986344448 + o.toNat < 4294967296; have := o.isLt; omega
theorem spawnr (n : BitVec 5) (o : BitVec 20) : Statement (.spawnr n o) := by show 3019898880 + n.toNat * 1048576 + o.toNat < 4294967296; have := n.isLt; have := o.isLt; omega
theorem nextch (o : BitVec 20) : Statement (.nextch o) := by show 3053453312 + o.toNat < 4294967296; have := o.isLt; omega
theorem await : Statement .await := by show 3087007744 < 4294967296;  omega
theorem exit : Statement .exit := by show 3087007745 < 4294967296;  omega
theorem yield : Statement .yield := by show 3087007746 < 4294967296;  omega
theorem moor : Statement .moor := by show 3087007747 < 4294967296;  omega
theorem unmoor : Statement .unmoor := by show 3087007748 < 4294967296;  omega
theorem frame (d : BitVec 5) : Statement (.frame d) := by show 3087007749 + d.toNat * 1048576 < 4294967296; have := d.isLt; omega
theorem cancel (a : BitVec 5) : Statement (.cancel a) := by show 3087007750 + a.toNat * 32768 < 4294967296; have := a.isLt; omega
theorem place (d : BitVec 5) (a : BitVec 5) (b : BitVec 5) : Statement (.place d a b) := by show 3087007751 + d.toNat * 1048576 + a.toNat * 32768 + b.toNat * 1024 < 4294967296; have := d.isLt; have := a.isLt; have := b.isLt; omega
theorem rankof (d : BitVec 5) (a : BitVec 5) (p : BitVec 15) : Statement (.rankof d a p) := by show 3120562176 + d.toNat * 1048576 + a.toNat * 32768 + p.toNat < 4294967296; have := d.isLt; have := a.isLt; have := p.isLt; omega
theorem alloc (d : BitVec 5) (a : BitVec 5) : Statement (.alloc d a) := by show 3221225472 + d.toNat * 1048576 + a.toNat * 32768 < 4294967296; have := d.isLt; have := a.isLt; omega
theorem free (a : BitVec 5) : Statement (.free a) := by show 3221225473 + a.toNat * 32768 < 4294967296; have := a.isLt; omega
theorem ruleend : Statement .ruleend := by show 3221225474 < 4294967296;  omega
theorem netaud (d : BitVec 5) : Statement (.netaud d) := by show 3221225475 + d.toNat * 1048576 < 4294967296; have := d.isLt; omega
theorem nstat (d : BitVec 5) (a : BitVec 5) : Statement (.nstat d a) := by show 3221225476 + d.toNat * 1048576 + a.toNat * 32768 < 4294967296; have := d.isLt; have := a.isLt; omega
theorem portp (d : BitVec 5) (a : BitVec 5) : Statement (.portp d a) := by show 3254779904 + d.toNat * 1048576 + a.toNat * 32768 < 4294967296; have := d.isLt; have := a.isLt; omega
theorem porta (d : BitVec 5) (a : BitVec 5) (k : BitVec 2) : Statement (.porta d a k) := by show 3254779904 + d.toNat * 1048576 + a.toNat * 32768 + k.toNat < 4294967296; have := d.isLt; have := a.isLt; have := k.isLt; omega
theorem portn (d : BitVec 5) (a : BitVec 5) (b : BitVec 5) : Statement (.portn d a b) := by show 3254779908 + d.toNat * 1048576 + a.toNat * 32768 + b.toNat * 1024 < 4294967296; have := d.isLt; have := a.isLt; have := b.isLt; omega
theorem link (a : BitVec 5) (b : BitVec 5) : Statement (.link a b) := by show 3288334336 + a.toNat * 32768 + b.toNat * 1024 < 4294967296; have := a.isLt; have := b.isLt; omega
theorem join (a : BitVec 5) (b : BitVec 5) : Statement (.join a b) := by show 3288334337 + a.toNat * 32768 + b.toNat * 1024 < 4294967296; have := a.isLt; have := b.isLt; omega
theorem linkn (a : BitVec 5) (b : BitVec 5) : Statement (.linkn a b) := by show 3288334338 + a.toNat * 32768 + b.toNat * 1024 < 4294967296; have := a.isLt; have := b.isLt; omega
theorem paydup (a : BitVec 5) (b : BitVec 5) : Statement (.paydup a b) := by show 3321888768 + a.toNat * 32768 + b.toNat * 1024 < 4294967296; have := a.isLt; have := b.isLt; omega
theorem paydrop (d : BitVec 5) (a : BitVec 5) (im : BitVec 5) : Statement (.paydrop d a im) := by show 3321888769 + d.toNat * 1048576 + a.toNat * 32768 + im.toNat * 32 < 4294967296; have := d.isLt; have := a.isLt; have := im.isLt; omega
theorem payown (a : BitVec 5) (im : BitVec 5) : Statement (.payown a im) := by show 3321888770 + a.toNat * 32768 + im.toNat * 32 < 4294967296; have := a.isLt; have := im.isLt; omega
theorem chbind (l : BitVec 3) (f : BitVec 2) (a : BitVec 5) (p : BitVec 15) : Statement (.chbind l f a p) := by show 3489660928 + l.toNat * 4194304 + f.toNat * 1048576 + a.toNat * 32768 + p.toNat < 4294967296; have := l.isLt; have := f.isLt; have := a.isLt; have := p.isLt; omega
theorem chfree (a : BitVec 5) : Statement (.chfree a) := by show 3523215360 + a.toNat * 32768 < 4294967296; have := a.isLt; omega
theorem chstat (d : BitVec 5) (a : BitVec 5) : Statement (.chstat d a) := by show 3523215361 + d.toNat * 1048576 + a.toNat * 32768 < 4294967296; have := d.isLt; have := a.isLt; omega
theorem cbar (im : BitVec 4) : Statement (.cbar im) := by show 3556769792 + im.toNat < 4294967296; have := im.isLt; omega
theorem cbarcfg (d : BitVec 5) (a : BitVec 5) (im : BitVec 4) : Statement (.cbarcfg d a im) := by show 3556770048 + d.toNat * 1048576 + a.toNat * 32768 + im.toNat < 4294967296; have := d.isLt; have := a.isLt; have := im.isLt; omega
theorem sluCopy (d : BitVec 5) (a : BitVec 5) (b : BitVec 5) (f : BitVec 1) (e : BitVec 1) : Statement (.sluCopy d a b f e) := by show 3590324224 + d.toNat * 1048576 + a.toNat * 32768 + b.toNat * 1024 + f.toNat * 512 + e.toNat * 256 < 4294967296; have := d.isLt; have := a.isLt; have := b.isLt; have := f.isLt; have := e.isLt; omega
theorem sluFill (d : BitVec 5) (a : BitVec 5) (b : BitVec 5) (f : BitVec 1) (e : BitVec 1) : Statement (.sluFill d a b f e) := by show 3590324225 + d.toNat * 1048576 + a.toNat * 32768 + b.toNat * 1024 + f.toNat * 512 + e.toNat * 256 < 4294967296; have := d.isLt; have := a.isLt; have := b.isLt; have := f.isLt; have := e.isLt; omega
theorem sluStat (d : BitVec 5) (a : BitVec 5) : Statement (.sluStat d a) := by show 3590324226 + d.toNat * 1048576 + a.toNat * 32768 < 4294967296; have := d.isLt; have := a.isLt; omega
theorem sluCan (a : BitVec 5) : Statement (.sluCan a) := by show 3590324227 + a.toNat * 32768 < 4294967296; have := a.isLt; omega
theorem scOpen (d : BitVec 5) (a : BitVec 5) (b : BitVec 5) : Statement (.scOpen d a b) := by show 3623878656 + d.toNat * 1048576 + a.toNat * 32768 + b.toNat * 1024 < 4294967296; have := d.isLt; have := a.isLt; have := b.isLt; omega
theorem scStep (d : BitVec 5) (a : BitVec 5) (b : BitVec 5) (im : BitVec 5) : Statement (.scStep d a b im) := by show 3623878657 + d.toNat * 1048576 + a.toNat * 32768 + b.toNat * 1024 + im.toNat * 32 < 4294967296; have := d.isLt; have := a.isLt; have := b.isLt; have := im.isLt; omega
theorem scMask (r : BitVec 5) (a : BitVec 5) (b : BitVec 5) : Statement (.scMask r a b) := by show 3623878658 + r.toNat * 1048576 + a.toNat * 32768 + b.toNat * 1024 < 4294967296; have := r.isLt; have := a.isLt; have := b.isLt; omega
theorem scFork (d : BitVec 5) (a : BitVec 5) : Statement (.scFork d a) := by show 3623878659 + d.toNat * 1048576 + a.toNat * 32768 < 4294967296; have := d.isLt; have := a.isLt; omega
theorem scRoll (a : BitVec 5) (b : BitVec 5) : Statement (.scRoll a b) := by show 3623878660 + a.toNat * 32768 + b.toNat * 1024 < 4294967296; have := a.isLt; have := b.isLt; omega
theorem scSave (a : BitVec 5) (b : BitVec 5) : Statement (.scSave a b) := by show 3623878661 + a.toNat * 32768 + b.toNat * 1024 < 4294967296; have := a.isLt; have := b.isLt; omega
theorem scLoad (d : BitVec 5) (a : BitVec 5) : Statement (.scLoad d a) := by show 3623878662 + d.toNat * 1048576 + a.toNat * 32768 < 4294967296; have := d.isLt; have := a.isLt; omega
theorem scClose (a : BitVec 5) : Statement (.scClose a) := by show 3623878663 + a.toNat * 32768 < 4294967296; have := a.isLt; omega
theorem scStat (d : BitVec 5) (a : BitVec 5) (b : BitVec 5) : Statement (.scStat d a b) := by show 3623878664 + d.toNat * 1048576 + a.toNat * 32768 + b.toNat * 1024 < 4294967296; have := d.isLt; have := a.isLt; have := b.isLt; omega
theorem rng (d : BitVec 5) (a : BitVec 5) (b : BitVec 5) : Statement (.rng d a b) := by show 3657433088 + d.toNat * 1048576 + a.toNat * 32768 + b.toNat * 1024 < 4294967296; have := d.isLt; have := a.isLt; have := b.isLt; omega
theorem rngu (d : BitVec 4) (a : BitVec 5) (b : BitVec 5) : Statement (.rngu d a b) := by show 3657433089 + d.toNat * 1048576 + a.toNat * 32768 + b.toNat * 1024 < 4294967296; have := d.isLt; have := a.isLt; have := b.isLt; omega
theorem smpLoc (d : BitVec 5) (a : BitVec 5) (b : BitVec 5) : Statement (.smpLoc d a b) := by show 3690987520 + d.toNat * 1048576 + a.toNat * 32768 + b.toNat * 1024 < 4294967296; have := d.isLt; have := a.isLt; have := b.isLt; omega
theorem smpMrg (d : BitVec 5) (a : BitVec 5) (b : BitVec 5) : Statement (.smpMrg d a b) := by show 3690987521 + d.toNat * 1048576 + a.toNat * 32768 + b.toNat * 1024 < 4294967296; have := d.isLt; have := a.isLt; have := b.isLt; omega
theorem smpTopk (d : BitVec 5) (a : BitVec 5) (b : BitVec 5) : Statement (.smpTopk d a b) := by show 3690987522 + d.toNat * 1048576 + a.toNat * 32768 + b.toNat * 1024 < 4294967296; have := d.isLt; have := a.isLt; have := b.isLt; omega
theorem rpt (n : BitVec 8) (l : BitVec 2) (sc : BitVec 1) (m : BitVec 12) : Statement (.rpt n l sc m) := by show 3758096384 + n.toNat * 131072 + l.toNat * 32768 + sc.toNat * 8192 + m.toNat < 4294967296; have := n.isLt; have := l.isLt; have := sc.isLt; have := m.isLt; omega
theorem rptD (n : BitVec 8) (l : BitVec 2) (sc : BitVec 1) (m : BitVec 12) : Statement (.rptD n l sc m) := by show 3758112768 + n.toNat * 131072 + l.toNat * 32768 + sc.toNat * 8192 + m.toNat < 4294967296; have := n.isLt; have := l.isLt; have := sc.isLt; have := m.isLt; omega
theorem borrow (d : BitVec 5) (a : BitVec 5) : Statement (.borrow d a) := by show 3791650816 + d.toNat * 1048576 + a.toNat * 32768 < 4294967296; have := d.isLt; have := a.isLt; omega
theorem giveb : Statement .giveb := by show 3791650817 < 4294967296;  omega
theorem xmovt (d : BitVec 5) (a : BitVec 5) (c : BitVec 5) : Statement (.xmovt d a c) := by show 3825205248 + d.toNat * 1048576 + a.toNat * 32768 + c.toNat * 1024 < 4294967296; have := d.isLt; have := a.isLt; have := c.isLt; omega
theorem xmovf (d : BitVec 5) (a : BitVec 5) (c : BitVec 5) : Statement (.xmovf d a c) := by show 3825205249 + d.toNat * 1048576 + a.toNat * 32768 + c.toNat * 1024 < 4294967296; have := d.isLt; have := a.isLt; have := c.isLt; omega
theorem csrr (d : BitVec 5) (c : BitVec 12) : Statement (.csrr d c) := by show 3892318208 + d.toNat * 1048576 + c.toNat < 4294967296; have := d.isLt; have := c.isLt; omega
theorem csrw (d : BitVec 5) (a : BitVec 5) (c : BitVec 12) : Statement (.csrw d a c) := by show 3892322304 + d.toNat * 1048576 + a.toNat * 32768 + c.toNat < 4294967296; have := d.isLt; have := a.isLt; have := c.isLt; omega
theorem csrs (d : BitVec 5) (a : BitVec 5) (c : BitVec 12) : Statement (.csrs d a c) := by show 3892326400 + d.toNat * 1048576 + a.toNat * 32768 + c.toNat < 4294967296; have := d.isLt; have := a.isLt; have := c.isLt; omega
theorem csrc (d : BitVec 5) (a : BitVec 5) (c : BitVec 12) : Statement (.csrc d a c) := by show 3892330496 + d.toNat * 1048576 + a.toNat * 32768 + c.toNat < 4294967296; have := d.isLt; have := a.isLt; have := c.isLt; omega
theorem ecall : Statement .ecall := by show 3925868544 < 4294967296;  omega
theorem ebreak : Statement .ebreak := by show 3925868545 < 4294967296;  omega
theorem tret : Statement .tret := by show 3925868546 < 4294967296;  omega
theorem wfi : Statement .wfi := by show 3925868547 < 4294967296;  omega
theorem isync : Statement .isync := by show 3925868548 < 4294967296;  omega
theorem lnch (d : BitVec 5) (a : BitVec 5) : Statement (.lnch d a) := by show 3959422976 + d.toNat * 1048576 + a.toNat * 32768 < 4294967296; have := d.isLt; have := a.isLt; omega
theorem lcancel (a : BitVec 5) : Statement (.lcancel a) := by show 3959422977 + a.toNat * 32768 < 4294967296; have := a.isLt; omega
theorem pspill (d : BitVec 5) (a : BitVec 5) (b : BitVec 5) : Statement (.pspill d a b) := by show 3992977408 + d.toNat * 1048576 + a.toNat * 32768 + b.toNat * 1024 < 4294967296; have := d.isLt; have := a.isLt; have := b.isLt; omega
theorem prest (d : BitVec 5) (a : BitVec 5) (b : BitVec 5) : Statement (.prest d a b) := by show 3992977409 + d.toNat * 1048576 + a.toNat * 32768 + b.toNat * 1024 < 4294967296; have := d.isLt; have := a.isLt; have := b.isLt; omega
theorem repeatBufferWord (_a0 : Nat) : Statement (.repeatBufferWord _a0) := by show 0 < _; decide
theorem interruptEntry (_a0 : Nat) (_a1 : Nat) : Statement (.interruptEntry _a0 _a1) := by show 0 < _; decide
theorem replyArrival (_a0 : Nat) (_a1 : Nat) : Statement (.replyArrival _a0 _a1) := by show 0 < _; decide
theorem registerFileDrowse (_a0 : Nat) (_a1 : Nat) : Statement (.registerFileDrowse _a0 _a1) := by show 0 < _; decide
theorem docking (_a0 : Nat) : Statement (.docking _a0) := by show 0 < _; decide
theorem bargeArrival (_a0 : Nat) (_a1 : Sent Packet) : Statement (.bargeArrival _a0 _a1) := by show 0 < _; decide
theorem spillReturn (_a0 : Nat) : Statement (.spillReturn _a0) := by show 0 < _; decide
theorem frameIncrement (_a0 : BitVec 32) (_a1 : Nat) (_a2 : Nat) : Statement (.frameIncrement _a0 _a1 _a2) := by show 0 < _; decide
theorem frameDecrement (_a0 : Sent (BitVec 32)) : Statement (.frameDecrement _a0) := by show 0 < _; decide
theorem resumeMessage (_a0 : Nat) (_a1 : Nat) (_a2 : Sent Nat) : Statement (.resumeMessage _a0 _a1 _a2) := by show 0 < _; decide
theorem chunkClaim (_a0 : BitVec 32) (_a1 : Nat) (_a2 : Nat) (_a3 : BitVec 64) : Statement (.chunkClaim _a0 _a1 _a2 _a3) := by show 0 < _; decide
theorem stealRequest (_a0 : Nat) : Statement (.stealRequest _a0) := by show 0 < _; decide
theorem stealServe (_a0 : Nat) : Statement (.stealServe _a0) := by show 0 < _; decide
theorem detectionPass (_a0 : Nat) : Statement (.detectionPass _a0) := by show 0 < _; decide
theorem pairMessage (_a0 : Nat) (_a1 : Sent Packet) : Statement (.pairMessage _a0 _a1) := by show 0 < _; decide
theorem freeSlotReturn (_a0 : Nat) (_a1 : Nat) (_a2 : Sent Nat) : Statement (.freeSlotReturn _a0 _a1 _a2) := by show 0 < _; decide
theorem poolAudit (_a0 : Nat) (_a1 : Nat) : Statement (.poolAudit _a0 _a1) := by show 0 < _; decide
theorem channelEntryArrival (_a0 : Nat) (_a1 : Nat) (_a2 : Nat) (_a3 : Nat) (_a4 : Nat) (_a5 : Nat) (_a6 : Nat) (_a7 : BitVec 64) : Statement (.channelEntryArrival _a0 _a1 _a2 _a3 _a4 _a5 _a6 _a7) := by show 0 < _; decide
theorem channelFreedNotice (_a0 : Nat) (_a1 : Nat) (_a2 : Nat) (_a3 : Nat) (_a4 : Nat) (_a5 : Nat) : Statement (.channelFreedNotice _a0 _a1 _a2 _a3 _a4 _a5) := by show 0 < _; decide
theorem deadlockProbeSend (_a0 : Nat) (_a1 : Nat) : Statement (.deadlockProbeSend _a0 _a1) := by show 0 < _; decide
theorem deadlockProbeReceive (_a0 : Nat) (_a1 : Nat) (_a2 : List (BitVec 32)) : Statement (.deadlockProbeReceive _a0 _a1 _a2) := by show 0 < _; decide
theorem barrierArrival (_a0 : Nat) (_a1 : Nat) (_a2 : Nat) (_a3 : Nat) : Statement (.barrierArrival _a0 _a1 _a2 _a3) := by show 0 < _; decide
theorem barrierTimeout (_a0 : Nat) (_a1 : Nat) : Statement (.barrierTimeout _a0 _a1) := by show 0 < _; decide
theorem brotTimeout (_a0 : Nat) : Statement (.brotTimeout _a0) := by show 0 < _; decide
theorem mmaStep (_a0 : Nat) : Statement (.mmaStep _a0) := by show 0 < _; decide
theorem latchFillDone (_a0 : Nat) (_a1 : Nat) : Statement (.latchFillDone _a0 _a1) := by show 0 < _; decide
theorem ringSend (_a0 : Nat) : Statement (.ringSend _a0) := by show 0 < _; decide
theorem ringTransferDone (_a0 : Nat) : Statement (.ringTransferDone _a0) := by show 0 < _; decide
theorem dtabSortDone (_a0 : Nat) (_a1 : Nat) : Statement (.dtabSortDone _a0 _a1) := by show 0 < _; decide
theorem basinSwitchDone (_a0 : Nat) (_a1 : Nat) : Statement (.basinSwitchDone _a0 _a1) := by show 0 < _; decide
theorem sluiceBurst (_a0 : Nat) : Statement (.sluiceBurst _a0) := by show 0 < _; decide
theorem scRequestService (_a0 : Nat) : Statement (.scRequestService _a0) := by show 0 < _; decide
theorem walkDone (_a0 : Nat) (_a1 : BitVec 8) (_a2 : Nat) : Statement (.walkDone _a0 _a1 _a2) := by show 0 < _; decide
theorem timerExpiry (_a0 : Nat) : Statement (.timerExpiry _a0) := by show 0 < _; decide
theorem budgetExpiry (_a0 : Nat) (_a1 : Nat) : Statement (.budgetExpiry _a0 _a1) := by show 0 < _; decide
theorem preemptRequest (_a0 : Nat) : Statement (.preemptRequest _a0) := by show 0 < _; decide
theorem restoreStart (_a0 : Nat) (_a1 : BitVec 64) : Statement (.restoreStart _a0 _a1) := by show 0 < _; decide
theorem heldMessageRelease (_a0 : Nat) : Statement (.heldMessageRelease _a0) := by show 0 < _; decide
theorem jobTake : Statement .jobTake := by show 0 < _; decide
theorem launchAdmission (_a0 : Nat) : Statement (.launchAdmission _a0) := by show 0 < _; decide
theorem jqtailWrite (_a0 : BitVec 64) : Statement (.jqtailWrite _a0) := by show 0 < _; decide
theorem jqcancel (_a0 : BitVec 64) : Statement (.jqcancel _a0) := by show 0 < _; decide
theorem ctxWrite (_a0 : Nat) (_a1 : BitVec 64) : Statement (.ctxWrite _a0 _a1) := by show 0 < _; decide
theorem tlbinvAsid (_a0 : BitVec 8) : Statement (.tlbinvAsid _a0) := by show 0 < _; decide
theorem tlbinvRange (_a0 : BitVec 8) (_a1 : BitVec 64) (_a2 : BitVec 64) : Statement (.tlbinvRange _a0 _a1 _a2) := by show 0 < _; decide
theorem tlbinvAll : Statement .tlbinvAll := by show 0 < _; decide
theorem shootdownDone : Statement .shootdownDone := by show 0 < _; decide
theorem hostBar2Read (_a0 : Nat) (_a1 : Nat) : Statement (.hostBar2Read _a0 _a1) := by show 0 < _; decide
theorem hostBar2Write (_a0 : Nat) (_a1 : List (BitVec 8)) : Statement (.hostBar2Write _a0 _a1) := by show 0 < _; decide
theorem debugHalt (_a0 : Nat) (_a1 : BitVec 16) : Statement (.debugHalt _a0 _a1) := by show 0 < _; decide
theorem berthHalted (_a0 : Nat) (_a1 : Nat) : Statement (.berthHalted _a0 _a1) := by show 0 < _; decide
theorem debugResume (_a0 : Nat) (_a1 : BitVec 16) : Statement (.debugResume _a0 _a1) := by show 0 < _; decide
theorem debugDataWrite (_a0 : Nat) (_a1 : BitVec 64) : Statement (.debugDataWrite _a0 _a1) := by show 0 < _; decide
theorem corecfgWrite (_a0 : Nat) (_a1 : BitVec 64) : Statement (.corecfgWrite _a0 _a1) := by show 0 < _; decide
theorem hqctlWrite (_a0 : Nat) (_a1 : BitVec 64) : Statement (.hqctlWrite _a0 _a1) := by show 0 < _; decide
theorem bascfgWrite (_a0 : Nat) (_a1 : BitVec 64) : Statement (.bascfgWrite _a0 _a1) := by show 0 < _; decide
theorem timecmpWrite (_a0 : Nat) (_a1 : BitVec 64) : Statement (.timecmpWrite _a0 _a1) := by show 0 < _; decide
theorem registerWrite (_a0 : DevReg) (_a1 : BitVec 64) : Statement (.registerWrite _a0 _a1) := by show 0 < _; decide
theorem atgoWrite (_a0 : BitVec 64) : Statement (.atgoWrite _a0) := by show 0 < _; decide
theorem attestReportDone : Statement .attestReportDone := by show 0 < _; decide
theorem eccCorrected (_a0 : ErrUnit) : Statement (.eccCorrected _a0) := by show 0 < _; decide
theorem eccUncorrectable (_a0 : ErrUnit) : Statement (.eccUncorrectable _a0) := by show 0 < _; decide
theorem flitCrcError (_a0 : FlitErr) : Statement (.flitCrcError _a0) := by show 0 < _; decide
theorem linkFlitError (_a0 : Nat × Bool) : Statement (.linkFlitError _a0) := by show 0 < _; decide
theorem fatalError (_a0 : ErrUnit) : Statement (.fatalError _a0) := by show 0 < _; decide
theorem scrub (_a0 : Nat) (_a1 : Nat) : Statement (.scrub _a0 _a1) := by show 0 < _; decide
theorem telemetryPoll : Statement .telemetryPoll := by show 0 < _; decide
theorem clusterRetire (_a0 : Nat) : Statement (.clusterRetire _a0) := by show 0 < _; decide
theorem powerMeasurement (_a0 : Nat) : Statement (.powerMeasurement _a0) := by show 0 < _; decide
theorem thermalTrip (_a0 : Int) : Statement (.thermalTrip _a0) := by show 0 < _; decide
theorem powerOnReset (_a0 : BootInput) : Statement (.powerOnReset _a0) := by show 0 < _; decide
theorem smbusReadPower : Statement .smbusReadPower := by show 0 < _; decide
theorem smbusReadTemperature : Statement .smbusReadTemperature := by show 0 < _; decide
theorem smbusReadReady : Statement .smbusReadReady := by show 0 < _; decide
theorem smbusWritePlim (_a0 : Nat × BitVec 8) : Statement (.smbusWritePlim _a0) := by show 0 < _; decide
theorem smbusReadBoot : Statement .smbusReadBoot := by show 0 < _; decide
theorem illegalInstruction (_a0 : BitVec 32) : Statement (.illegalInstruction _a0) := by show 0 < _; decide
theorem fetchFault (_a0 : BitVec 64) : Statement (.fetchFault _a0) := by show 0 < _; decide
theorem dumpCopyDone : Statement .dumpCopyDone := by show 0 < _; decide
theorem pcieConfigurationRequest (_a0 : Nat) : Statement (.pcieConfigurationRequest _a0) := by show 0 < _; decide

end Sys2Proof.Laws.WordInRange

namespace Sys2Proof

/-- The word's value is the encoding's number. -/
theorem encode_toNat (i : Instr) (h : Laws.WordInRange.Statement i) : (encode i).toNat = encodeNat i := by
  simp only [encode, BitVec.toNat_ofNat]
  exact Nat.mod_eq_of_lt h

end Sys2Proof
end

