-- ==== Sys2Proof/Tests/Slice0.lean ====
section
/-!
SUPPORT. Tests: ill-formed terms refused, words written out from the encoding tables, single steps on small states with the
results the spec gives, and for each statement states that meet its hypotheses.
-/
namespace Sys2Proof.Tests
set_option Elab.async false
open Sys2Proof.Machine Sys2Proof.Machine.State Sys2Proof.Spec

/-! ### Small states -/

/-- A barge of launch 7 in user mode with interrupts on, at address 0x10000. -/
def hdr0 : Hdr := ⟨0, 7, 2, 1, false, .ordinary, false⟩
def barge : Berth := { Berth.reset with hdr := some hdr0, tstat := 4, pc := 0x10000 }
/-- The device after reset with that barge in berth 0 of core 0, changed by f. -/
def at0 (f : Berth → Berth) : State := State.reset.modMe fun _ => f barge
def xs (l : List (Nat × Word)) (b : Berth) : Berth := { b with x := l.foldl (fun x e => vset x e.1 e.2) b.x }
def fs (l : List (Nat × W32)) (b : Berth) : Berth := { b with f := l.foldl (fun x e => vset x e.1 e.2) b.f }
/-- That barge with x registers set. -/
def withX (l : List (Nat × Word)) : State := at0 (xs l)
/-- In supervisor mode. -/
def superX (l : List (Nat × Word)) : State := at0 fun b => { xs l b with tstat := 1 }
abbrev Out := Host.Outcome State Fault Refusal
/-- What a test looks at in the next state. -/
def see {α : Type} (o : Out) (f : State → α) (d : α) : α := match o with | .next t => f t | _ => d
/-- The outcome after the reply that the barge of berth 0 waits for. -/
def done (o : Out) : Out := match o with | .next t => exec (.replyArrival 0 0) t | x => x
/-- The outcome of the instruction again, once its wait has come to cycle c. -/
def again (i : Instr) (c : Nat) (o : Out) : Out := match o with | .next t => exec i { t with cycle := c } | x => x
def xOf (o : Out) (n : Nat) : Word := see o (fun t => vget t.me.x n 0) 0xBAD
def fOf (o : Out) (n : Nat) : W32 := see o (fun t => vget t.me.f n 0) 0xBAD
def pcOf (o : Out) : Word := see o (fun t => t.me.pc) 0xBAD
def pOf (o : Out) (i : Nat) : Bool := see o (fun t => t.me.p.getLsbD i) false
def causeOf (o : Out) : Word := see o (fun t => t.me.tcause) 0xBAD
/-! ### Ill-formed terms -/

/-- One ill-formed term for each check of `Instr.wf`: a source that may not be read, a destination that may not be written,
a register both read and written, a predicate or register that may not be 0, a field out of its range, and an event's
rank, berth, cluster, port, identifier, half, table, bank or context out of range. -/
theorem test_ill_formed : ∀ i ∈ ([
    .add 24 1 2, .add 3 28 2, .add 3 1 28, .clz 27 1, .addi 3 31 0, .lui 24 0, .cmpEq 1 28 2, .cmpiEq 1 28 0, .pset 0 1, .pset 1 28, .psetP 29,
    .sel 3 1 2 0, .sel 24 1 2 1, .selP 25, .stb 28 1 0, .stb 1 28 0, .feclr 28 0, .rst 1 28, .amoAdd 24 1 2 0 0 0, .amoCas 28 1 2 0 0 0,
    .amoFadd 3 1 28 0 0, .cmoClean 1 2 3, .fcvtFI32 1 28, .vlds 1 28 2 0, .vldx 1 28 2 0, .vextr 24 1 0, .vcvtI32F 1 2 0 4, .vcvtBfF 1 2 0 0 6,
    .vred 1 2 0 12, .vscanl 1 2 3 15 0 0, .vscanl 1 2 3 1 0 5, .vdotbX8 1 2 3 15 0, .mmaBf 1 28 0 0 0, .mmaX8 1 2 0 0 0 0, .ast 1 2 0 6 0, .ast 1 2 0 0 5,
    .arow 1 1 28, .spawn 28 0, .spawnr 0 0, .spawnr 23 0, .rankof 3 1 0x4001, .rankof 3 1 0, .porta 3 1 0, .chbind 0 0 1 0x4001, .chfree 23, .chstat 3 23,
    .sluCopy 24 1 2 0 0, .scStep 24 1 2 0, .scMask 28 1 2, .smpTopk 28 1 2, .xmovt 16 1 1, .xmovt 1 24 0, .xmovf 1 0 3, .xmovt 1 1 4,
    .csrr 3 0x00A, .csrw 24 1 0, .csrr 3 0x10B, .repeatBufferWord 9216, .interruptEntry 0 16, .frameIncrement 0 9216 0, .stealServe 576,
    .channelEntryArrival 0 0 8 0 0 0 0 0, .channelEntryArrival 0 0 0 0 16 0 0 0, .channelFreedNotice 0 0 0 0 0 8, .deadlockProbeReceive 0 16 [],
    .barrierArrival 0 16 0 0, .barrierTimeout 576 0, .latchFillDone 0 2, .dtabSortDone 0 2, .basinSwitchDone 0 16, .walkDone 576 0 0,
    .ctxWrite 256 0] : List Instr), i.wf = false := by decide
/-- The edges of those ranges are well formed. -/
theorem test_well_formed : ∀ i ∈ ([
    .add 31 27 24, .amoCas 23 27 27 1 1 1, .vcvtI32F 1 2 0 5, .vcvtBfF 1 2 0 0 5, .vred 1 2 0 11, .vscanl 1 2 3 14 1 4, .ast 7 27 1 5 4, .spawnr 22 0,
    .rankof 3 0 0x3FFF, .rankof 3 1 0x4000, .chfree 31, .xmovt 0 0 3, .csrr 3 0x10A, .csrr 3 9, .interruptEntry 9215 15, .ctxWrite 255 0] : List Instr), i.wf = true := by decide
/-! ### Words: every encoded instruction's word, its fields put where the encoding tables of the spec have them -/

/-- Each word decodes to the instruction beside it. -/
abbrev reads (l : List (W32 × Instr)) : Prop := ∀ e ∈ l, decodeWord e.1 = .ok e.2

theorem test_decode_integer_1 : reads [
    (0b0000001_00011_00101_00110_0000000000, .add 3 5 6),
    (0b0000001_00011_00101_00110_0000000001, .sub 3 5 6),
    (0b0000001_00011_00101_00110_0000000010, .and 3 5 6),
    (0b0000001_00011_00101_00110_0000000011, .or 3 5 6),
    (0b0000001_00011_00101_00110_0000000100, .xor 3 5 6),
    (0b0000001_00011_00101_00110_0000000101, .andn 3 5 6),
    (0b0000001_00011_00101_00110_0000000110, .orn 3 5 6),
    (0b0000001_00011_00101_00110_0000001000, .sll 3 5 6),
    (0b0000001_00011_00101_00110_0000001001, .srl 3 5 6),
    (0b0000001_00011_00101_00110_0000001010, .sra 3 5 6),
    (0b0000001_00011_00101_00110_0000001011, .ror 3 5 6),
    (0b0000001_00011_00101_00110_0000001100, .addw 3 5 6),
    (0b0000001_00011_00101_00110_0000001101, .subw 3 5 6),
    (0b0000001_00011_00101_00110_0000010000, .mul 3 5 6),
    (0b0000001_00011_00101_00110_0000010001, .mulh 3 5 6),
    (0b0000001_00011_00101_00110_0000010010, .mulhu 3 5 6)] := by decide
theorem test_decode_integer_2 : reads [
    (0b0000001_00011_00101_00110_0000010011, .mulhsu 3 5 6),
    (0b0000001_00011_00101_00110_0000011000, .min 3 5 6),
    (0b0000001_00011_00101_00110_0000011001, .max 3 5 6),
    (0b0000001_00011_00101_00110_0000011010, .minu 3 5 6),
    (0b0000001_00011_00101_00110_0000011011, .maxu 3 5 6),
    (0b0000001_00011_00101_000000000100000, .clz 3 5),
    (0b0000001_00011_00101_000000000100001, .ctz 3 5),
    (0b0000001_00011_00101_000000000100010, .popc 3 5),
    (0b0000001_00011_00101_000000000100011, .sextb 3 5),
    (0b0000001_00011_00101_000000000100100, .sexth 3 5),
    (0b0000001_00011_00101_000000000100101, .sextw 3 5),
    (0b0000001_00011_00101_000000000100110, .zextw 3 5),
    (0b0000001_00011_00101_00110_0000010100, .div 3 5 6),
    (0b0000001_00011_00101_00110_0000010101, .divu 3 5 6),
    (0b0000001_00011_00101_00110_0000010110, .rem 3 5 6),
    (0b0000001_00011_00101_00110_0000010111, .remu 3 5 6)] := by decide
theorem test_decode_immediate : reads [
    (0b0000010_00011_00101_001001000110100, .addi 3 5 4660),
    (0b0000011_00011_00101_001001000110100, .andi 3 5 4660),
    (0b0000100_00011_00101_001001000110100, .ori 3 5 4660),
    (0b0000101_00011_00101_001001000110100, .xori 3 5 4660),
    (0b0000111_00011_00101_001001000110100, .addiw 3 5 4660),
    (0b0001000_00011_00010010001101000101, .lui 3 74565),
    (0b0001001_00011_00010010001101000101, .auipc 3 74565),
    (0b0000110_00011_00101_000000000_001001, .slli 3 5 9),
    (0b0000110_00011_00101_001000000_001001, .srli 3 5 9),
    (0b0000110_00011_00101_010000000_001001, .srai 3 5 9),
    (0b0000110_00011_00101_011000000_001001, .rori 3 5 9)] := by decide
theorem test_decode_compare_and_predicate_1 : reads [
    (0b0001010_00100_00101_00110_0000000000, .cmpEq 4 5 6),
    (0b0001010_00100_00101_00110_0000000001, .cmpNe 4 5 6),
    (0b0001010_00100_00101_00110_0000000010, .cmpLt 4 5 6),
    (0b0001010_00100_00101_00110_0000000011, .cmpLtu 4 5 6),
    (0b0001010_00100_00101_00110_0000000100, .cmpGe 4 5 6),
    (0b0001010_00100_00101_00110_0000000101, .cmpGeu 4 5 6),
    (0b0001011_00100_00101_001001000110100, .cmpiEq 4 5 4660),
    (0b0001100_00100_00101_001001000110100, .cmpiNe 4 5 4660),
    (0b0001101_00100_00101_001001000110100, .cmpiLt 4 5 4660),
    (0b0001110_00100_00101_001001000110100, .cmpiLtu 4 5 4660),
    (0b0001111_00100_00101_001001000110100, .cmpiGe 4 5 4660),
    (0b0010000_00100_00101_001001000110100, .cmpiGeu 4 5 4660),
    (0b0010001_00011_00101_00110_0000000000, .pand 3 5 6),
    (0b0010001_00011_00101_00110_0000000001, .por 3 5 6),
    (0b0010001_00011_00101_00110_0000000010, .pxor 3 5 6),
    (0b0010001_00011_00101_00110_0000000011, .pandn 3 5 6)] := by decide
theorem test_decode_compare_and_predicate_2 : reads [
    (0b0010001_00011_00101_000000000000100, .pmov 3 5),
    (0b0010001_00011_00101_000000000000101, .pset 3 5),
    (0b0010001_00000_00101_000000000000101, .psetP 5),
    (0b0010010_00011_00101_00110_00000_01010, .sel 3 5 6 10),
    (0b0010010_00011_00000000000000000000, .selP 3)] := by decide
theorem test_decode_branch : reads [
    (0b0010100_00100_1_0010010001101000101, .bpT 4 74565),
    (0b0010100_00100_0_0010010001101000101, .bpF 4 74565),
    (0b0010101_00000_00010010001101000101, .j 74565),
    (0b0010110_00011_00010010001101000101, .jal 3 74565),
    (0b0010111_00011_00101_001001000110100, .jalr 3 5 4660)] := by decide
theorem test_decode_float_1 : reads [
    (0b0110000_0_0011_0_0101_0_0110_0000000000, .fadd 3 5 6),
    (0b0110000_0_0011_0_0101_0_0110_0000000001, .fsub 3 5 6),
    (0b0110000_0_0011_0_0101_0_0110_0000000010, .fmul 3 5 6),
    (0b0110000_0_0011_0_0101_0_0110_0000000011, .fdiv 3 5 6),
    (0b0110000_0_0011_0_0101_000000000000100, .fsqrt 3 5),
    (0b0110000_0_0011_0_0101_0_0110_0000000101, .fmin 3 5 6),
    (0b0110000_0_0011_0_0101_0_0110_0000000110, .fmax 3 5 6),
    (0b0110000_0_0011_0_0101_0_0110_0000000111, .fsgnj 3 5 6),
    (0b0110000_0_0011_0_0101_0_0110_0000001000, .fsgnjn 3 5 6),
    (0b0110000_0_0011_0_0101_0_0110_0000001001, .fsgnjx 3 5 6),
    (0b0110000_00011_0_0101_000000000001010, .fclass 3 5),
    (0b0110001_0_0011_0_0101_0_0110_000000_0010, .fma 3 5 6 2),
    (0b0110001_0_0011_0_0101_0_0110_000001_0010, .fms 3 5 6 2),
    (0b0110001_0_0011_0_0101_0_0110_000010_0010, .fnma 3 5 6 2),
    (0b0110010_00100_0_0101_0_0110_0000000000, .fcmpEq 4 5 6),
    (0b0110010_00100_0_0101_0_0110_0000000001, .fcmpLt 4 5 6)] := by decide
theorem test_decode_float_2 : reads [
    (0b0110010_00100_0_0101_0_0110_0000000010, .fcmpLe 4 5 6),
    (0b0110010_00100_0_0101_0_0110_0000000011, .fcmpUn 4 5 6),
    (0b0110011_00011_0_0101_000000000000000, .fcvtI32F 3 5),
    (0b0110011_00011_0_0101_000000000000001, .fcvtI64F 3 5),
    (0b0110011_0_0011_00101_000000000000010, .fcvtFI32 3 5),
    (0b0110011_0_0011_00101_000000000000011, .fcvtFI64 3 5),
    (0b0110011_0_0011_0_0101_000000000000100, .fcvtBfF 3 5),
    (0b0110011_0_0011_0_0101_000000000000101, .fcvtFBf 3 5),
    (0b0110011_0_0011_0_0101_000000000000110, .fcvtHfF 3 5),
    (0b0110011_0_0011_0_0101_000000000000111, .fcvtFHf 3 5),
    (0b0110100_00011_0_0101_000000000000000, .fmvx 3 5),
    (0b0110100_0_0011_00101_000000000000001, .fmvf 3 5)] := by decide
theorem test_decode_repeat_and_borrow : reads [
    (0b1110000_00001001_01_0_1_0_000010100101, .rpt 9 1 1 165),
    (0b1110000_00001001_01_1_1_0_000010100101, .rptD 9 1 1 165)] := by decide
theorem test_decode_borrow : reads [
    (0b1110001_00011_00101_000000000000000, .borrow 3 5),
    (0b1110001_0000000000000000000000001, .giveb),
    (0b1110010_00011_00101_00001_0000000000, .xmovt 3 5 1),
    (0b1110010_00011_00101_00001_0000000001, .xmovf 3 5 1)] := by decide
theorem test_decode_vector_memory : reads [
    (0b0111000_0_0011_00101_001001000110100, .vld 3 5 4660),
    (0b0111001_0_0110_00101_001001000110100, .vst 6 5 4660),
    (0b0111010_0_0011_00101_00110_0_1_00000000, .vlds 3 5 6 1),
    (0b0111010_0_0011_00101_00110_0_1_00000001, .vsts 3 5 6 1),
    (0b0111011_0_0011_00101_0_0110_0_1_00000000, .vldx 3 5 6 1),
    (0b0111011_0_0011_00101_0_0110_0_1_00000001, .vstx 3 5 6 1)] := by decide
theorem test_decode_vector_lane_1 : reads [
    (0b0111100_0_0011_00101_000000000000000, .vbcast 3 5),
    (0b0111100_00011_0_0101_0000000001_01001, .vextr 3 5 9),
    (0b0111101_0011_0101_0110_0000_1_00000000, .vadd 3 5 6 1),
    (0b0111101_0011_0101_0110_0000_1_00000001, .vsub 3 5 6 1),
    (0b0111101_0011_0101_0110_0000_1_00000010, .vmul 3 5 6 1),
    (0b0111101_0011_0101_0110_0010_1_00000011, .vfma 3 5 6 2 1),
    (0b0111101_0011_0101_0110_0010_1_00000100, .vfms 3 5 6 2 1),
    (0b0111101_0011_0101_0110_0000_1_00000101, .vmin 3 5 6 1),
    (0b0111101_0011_0101_0110_0000_1_00000110, .vmax 3 5 6 1),
    (0b0111101_0011_0101_00000000_1_00000111, .vabs 3 5 1),
    (0b0111101_0011_0101_00000000_1_00001000, .vrcp 3 5 1),
    (0b0111101_0011_0101_00000000_1_00001001, .vrsq 3 5 1),
    (0b0111101_0011_0101_00000000_1_00001010, .vexp2 3 5 1),
    (0b0111101_0011_0101_00000000_1_00001011, .vlog2 3 5 1),
    (0b0111110_0011_0101_0110_0000_1_00000000, .viadd 3 5 6 1),
    (0b0111110_0011_0101_0110_0000_1_00000001, .visub 3 5 6 1)] := by decide
theorem test_decode_vector_lane_2 : reads [
    (0b0111110_0011_0101_0110_0000_1_00000010, .vimul 3 5 6 1),
    (0b0111110_0011_0101_0110_0000_1_00000011, .vand 3 5 6 1),
    (0b0111110_0011_0101_0110_0000_1_00000100, .vor 3 5 6 1),
    (0b0111110_0011_0101_0110_0000_1_00000101, .vxor 3 5 6 1),
    (0b0111110_0011_0101_0110_0000_1_00000110, .vsll 3 5 6 1),
    (0b0111110_0011_0101_0110_0000_1_00000111, .vsrl 3 5 6 1),
    (0b0111110_0011_0101_0110_0000_1_00001000, .vsra 3 5 6 1),
    (0b0111111_0000_0101_0110_0000_1_00000000, .vcmpEq 5 6 1),
    (0b0111111_0000_0101_0110_0000_1_00000001, .vcmpNe 5 6 1),
    (0b0111111_0000_0101_0110_0000_1_00000010, .vcmpLt 5 6 1),
    (0b0111111_0000_0101_0110_0000_1_00000011, .vcmpLtu 5 6 1),
    (0b0111111_0000_0101_0110_0000_1_00000100, .vcmpGe 5 6 1),
    (0b0111111_0000_0101_0110_0000_1_00000101, .vcmpGeu 5 6 1),
    (0b0111111_0000_0101_0110_0000_1_00001000, .vcmpFeq 5 6 1),
    (0b0111111_0000_0101_0110_0000_1_00001001, .vcmpFlt 5 6 1),
    (0b0111111_0000_0101_0110_0000_1_00001010, .vcmpFle 5 6 1)] := by decide
theorem test_decode_vector_lane_3 : reads [
    (0b0111111_0000_0101_0110_0000_1_00001011, .vcmpFun 5 6 1),
    (0b1000000_0011_0101_0110_0000000000000, .vsel 3 5 6),
    (0b1000000_0011_0101_0110_0000_1_00000001, .vshuf 3 5 6 1),
    (0b1000000_0011_0101_0110_0000_1_100_01001, .vslideUp 3 5 6 1 9),
    (0b1000000_0011_0101_0110_0000_1_101_01001, .vslideDn 3 5 6 1 9)] := by decide
theorem test_decode_vector_convert : reads [
    (0b1000001_0011_0101_00000000_1_00000_001, .vcvtI32F 3 5 1 1),
    (0b1000001_0011_0101_00000000_1_00001_001, .vcvtFI32 3 5 1 1),
    (0b1000001_0011_0101_0000000_1_1_00010_001, .vcvtBfF 3 5 1 1 1),
    (0b1000001_0011_0101_0000000_1_1_00011101, .vcvtFBf 3 5 1 1),
    (0b1000001_0011_0101_0000000_1_1_00100_001, .vcvtHfF 3 5 1 1 1),
    (0b1000001_0011_0101_0000000_1_1_00101101, .vcvtFHf 3 5 1 1),
    (0b1000001_0011_0101_000000_10_1_01000000, .vencT0 3 5 2 1),
    (0b1000001_0011_0101_000000_10_1_01000001, .vencT1 3 5 2 1),
    (0b1000001_0011_0101_00000_001_1_01000010, .vencE2 3 5 1 1),
    (0b1000001_0011_0101_000000_10_1_10000000, .vdecT0 3 5 2 1),
    (0b1000001_0011_0101_000000_10_1_10000001, .vdecT1 3 5 2 1),
    (0b1000001_0011_0101_00000_001_1_10000010, .vdecE2 3 5 1 1),
    (0b1000010_0000_1_00101_001001000110100, .dtabLd 1 5 4660)] := by decide
theorem test_decode_reduction : reads [
    (0b1000011_0011_0101_00000000_1_0000_0010, .vred 3 5 1 2),
    (0b1000011_0011_0101_00000000_1_0100_0010, .vscan 3 5 1 2),
    (0b1000011_0011_0101_0110_0010_1_1000_0001, .vscanl 3 5 6 2 1 1),
    (0b1000100_0011_0101_0110_0001_00000_10_00, .vdotbX8 3 5 6 1 2),
    (0b1000100_0011_0101_0110_0001_0000_001_01, .vdotbX4 3 5 6 1 1)] := by decide
theorem test_decode_matrix : reads [
    (0b1010001_00_010_00000000000000000000, .acq 2),
    (0b1010001_00_010_00000000000000000001, .rel 2),
    (0b1010001_00_010_00000000000000000010, .azero 2),
    (0b1010001_00011_00_010_000000000000011, .apois 3 2),
    (0b1010010_010_00101_00000000000000000, .ald 2 5),
    (0b1010010_010_00101_000001000_1_001_0001, .ast 2 5 1 1 1),
    (0b1010011_0_0011_00_010_00110_0000000000, .arow 3 2 6),
    (0b1010011_00_010_0_0101_00110_0000000001, .awr 2 5 6)] := by decide
theorem test_decode_latch : reads [
    (0b1010100_00000_00101_00110_0000000000, .bld 5 6),
    (0b1010100_00000_00101_00110_0000000011, .tldt 5 6),
    (0b1010100_00000_00101_000000000000001, .brot 5),
    (0b1010100_00011_00000000000000000010, .bstat 3),
    (0b1001000_010_00101_000000000000_1_1_010, .mmaBf 2 5 1 1 2),
    (0b1001001_010_00101_000000000000_1_1_010, .mmaHf 2 5 1 1 2),
    (0b1001010_010_00101_000000000000_1_1_010, .mmaE4 2 5 1 1 2),
    (0b1001011_010_00101_000000000000_1_1_010, .mmaE45 2 5 1 1 2),
    (0b1001100_010_00101_000000000000_1_1_010, .mmaE5 2 5 1 1 2),
    (0b1001101_010_00101_00001_0000000_1_1_010, .mmaX8 2 5 1 1 1 2),
    (0b1001110_010_00101_00001_0000000_1_1_010, .mmaX84 2 5 1 1 1 2),
    (0b1001111_010_00101_00001_0000000_1_1_010, .mmaX4 2 5 1 1 1 2),
    (0b1010000_010_00101_000000000000_1_1_010, .mmaI8 2 5 1 1 2)] := by decide
theorem test_decode_barge : reads [
    (0b1011100_0000000000000000000000000, .await)] := by decide
theorem test_decode_memory_1 : reads [
    (0b0011100_00011_00101_001001000110100, .ldb 3 5 4660),
    (0b0011101_00011_00101_001001000110100, .ldbu 3 5 4660),
    (0b0011110_00011_00101_001001000110100, .ldh 3 5 4660),
    (0b0011111_00011_00101_001001000110100, .ldhu 3 5 4660),
    (0b0100000_00011_00101_001001000110100, .ldw 3 5 4660),
    (0b0100001_00011_00101_001001000110100, .ldwu 3 5 4660),
    (0b0100010_00011_00101_001001000110100, .ldd 3 5 4660),
    (0b0100011_00110_00101_001001000110100, .stb 6 5 4660),
    (0b0100100_00110_00101_001001000110100, .sth 6 5 4660),
    (0b0100101_00110_00101_001001000110100, .stw 6 5 4660),
    (0b0100110_00110_00101_001001000110100, .std 6 5 4660),
    (0b0100111_0_0011_00101_001001000110100, .ldf 3 5 4660),
    (0b0101000_0_0110_00101_001001000110100, .stf 6 5 4660),
    (0b0101001_00011_00101_001001000110100, .ldsync 3 5 4660),
    (0b0101010_00110_00101_001001000110100, .stfull 6 5 4660),
    (0b0101011_00000_00101_001001000110100, .feclr 5 4660)] := by decide
theorem test_decode_memory_2 : reads [
    (0b0101100_00011_00101_001001000110100, .ferd 3 5 4660),
    (0b0101101_00011_00101_00110_0000000000, .rld 3 5 6),
    (0b0101101_00000_00101_00110_0000000001, .rst 5 6),
    (0b0101101_00000_00101_000000000000010, .pfd 5),
    (0b0101101_00000_00101_000000000000011, .icpf 5),
    (0b0101110_00011_00101_00110_0000_1_1_1_000, .amoAdd 3 5 6 1 1 1),
    (0b0101110_00011_00101_00110_0001_1_1_1_000, .amoAnd 3 5 6 1 1 1),
    (0b0101110_00011_00101_00110_0010_1_1_1_000, .amoOr 3 5 6 1 1 1),
    (0b0101110_00011_00101_00110_0011_1_1_1_000, .amoXor 3 5 6 1 1 1),
    (0b0101110_00011_00101_00110_0100_1_1_1_000, .amoMin 3 5 6 1 1 1),
    (0b0101110_00011_00101_00110_0101_1_1_1_000, .amoMax 3 5 6 1 1 1),
    (0b0101110_00011_00101_00110_0110_1_1_1_000, .amoMinu 3 5 6 1 1 1),
    (0b0101110_00011_00101_00110_0111_1_1_1_000, .amoMaxu 3 5 6 1 1 1),
    (0b0101110_00011_00101_00110_1000_1_1_1_000, .amoSwap 3 5 6 1 1 1),
    (0b0101110_00011_00101_00110_1001_1_1_1_000, .amoCas 3 5 6 1 1 1),
    (0b0101110_00011_00101_00110_10100_1_1_000, .amoFadd 3 5 6 1 1)] := by decide
theorem test_decode_memory_3 : reads [
    (0b0101111_00000_00101_00110_000000_01_01, .cmoClean 5 6 1),
    (0b0101111_00000_00101_00110_000000_01_10, .cmoInv 5 6 1),
    (0b0101111_00000_00101_00110_000000_01_11, .cmoClinv 5 6 1)] := by decide
theorem test_decode_spawn : reads [
    (0b1011000_00100_00010010001101000101, .spawn 4 74565),
    (0b1011001_00000_00010010001101000101, .spawnc 74565),
    (0b1011010_01001_00010010001101000101, .spawnr 9 74565),
    (0b1011011_00000_00010010001101000101, .nextch 74565),
    (0b1011100_0000000000000000000000001, .exit),
    (0b1011100_0000000000000000000000010, .yield),
    (0b1011100_0000000000000000000000011, .moor),
    (0b1011100_0000000000000000000000100, .unmoor),
    (0b1011100_00011_00000000000000000101, .frame 3),
    (0b1011100_00000_00101_000000000000110, .cancel 5),
    (0b1011100_00011_00101_00110_0000000111, .place 3 5 6),
    (0b1011101_00011_00000_000000100000010, .rankof 3 0 258)] := by decide
theorem test_decode_channel : reads [
    (0b1101000_101_10_00101_000000100000010, .chbind 5 2 5 258),
    (0b1101001_00000_11001_000000000000000, .chfree 25),
    (0b1101001_00011_11001_000000000000001, .chstat 3 25),
    (0b1101010_00011_00101_00000010000_1010, .cbarcfg 3 5 10),
    (0b1101010_000000000000000000000_1010, .cbar 10),
    (0b1101011_00011_00101_00110_1_1_00000000, .sluCopy 3 5 6 1 1),
    (0b1101011_00011_00101_00110_1_1_00000001, .sluFill 3 5 6 1 1),
    (0b1101011_00011_00101_000000000000010, .sluStat 3 5),
    (0b1101011_00000_00101_000000000000011, .sluCan 5)] := by decide
theorem test_decode_net : reads [
    (0b1100010_00000_00101_00110_0000000000, .link 5 6),
    (0b1100010_00000_00101_00110_0000000001, .join 5 6),
    (0b1100010_00000_00101_00110_0000000010, .linkn 5 6),
    (0b1100000_00000_00101_000000000000001, .free 5),
    (0b1100011_00000_00101_00110_0000000000, .paydup 5 6),
    (0b1100011_00011_00101_00000_01010_00001, .paydrop 3 5 10),
    (0b1100011_00000_00101_00000_01010_00010, .payown 5 10),
    (0b1100000_00011_00101_000000000000000, .alloc 3 5),
    (0b1100000_0000000000000000000000010, .ruleend),
    (0b1100000_00011_00000000000000000011, .netaud 3),
    (0b1100000_00011_00101_000000000000100, .nstat 3 5),
    (0b1100001_00011_00101_000000000000000, .portp 3 5),
    (0b1100001_00011_00101_0000000000000_10, .porta 3 5 2),
    (0b1100001_00011_00101_00110_0000000100, .portn 3 5 6)] := by decide
theorem test_decode_system : reads [
    (0b1110100_00011_00000001_000000000110, .csrr 3 6),
    (0b1110100_00011_00101_010_000000000110, .csrw 3 5 6),
    (0b1110100_00011_00101_011_000000000110, .csrs 3 5 6),
    (0b1110100_00011_00101_100_000000000110, .csrc 3 5 6),
    (0b1110101_0000000000000000000000000, .ecall),
    (0b1110101_0000000000000000000000001, .ebreak),
    (0b1110101_0000000000000000000000010, .tret),
    (0b1110101_0000000000000000000000011, .wfi),
    (0b1110101_0000000000000000000000100, .isync),
    (0b1110111_00011_00101_00110_0000000000, .pspill 3 5 6),
    (0b1110111_00011_00101_00110_0000000001, .prest 3 5 6),
    (0b1110110_00011_00101_000000000000000, .lnch 3 5),
    (0b1110110_00000_00101_000000000000001, .lcancel 5)] := by decide
theorem test_decode_staircase : reads [
    (0b1101100_00011_00101_00110_0000000000, .scOpen 3 5 6),
    (0b1101100_00011_00101_00110_01010_00001, .scStep 3 5 6 10),
    (0b1101100_00011_00101_000000000000011, .scFork 3 5),
    (0b1101100_00000_00101_00110_0000000100, .scRoll 5 6),
    (0b1101100_00000_00101_000000000000111, .scClose 5),
    (0b1101100_00011_00101_00110_0000001000, .scStat 3 5 6),
    (0b1101100_00001_00101_00110_0000000010, .scMask 1 5 6),
    (0b1101100_00000_00101_00110_0000000101, .scSave 5 6),
    (0b1101100_00011_00101_000000000000110, .scLoad 3 5)] := by decide
theorem test_decode_sampling : reads [
    (0b1101101_00011_00101_00110_0000000000, .rng 3 5 6),
    (0b1101101_0_0011_00101_00110_0000000001, .rngu 3 5 6),
    (0b1101110_00011_00101_00110_0000000000, .smpLoc 3 5 6),
    (0b1101110_00011_00101_00110_0000000010, .smpTopk 3 5 6),
    (0b1101110_00011_00101_00110_0000000001, .smpMrg 3 5 6)] := by decide
/-- The words the spec itself gives as examples (R78, R84, R89, R104, R110, R115, R126, R130, R132, R139, R190, R195, R295,
R322, R376). -/
theorem test_decode_examples : reads [
    (0x02531C14, .div 5 6 7), (0x2C100010, .jal 1 16), (0x2E008000, .jalr 0 1 0), (0x62110C04, .fma 1 2 3 4), (0x7A246903, .vfma 1 2 3 4 1),
    (0x70260080, .vld 2 12 128), (0xA2100000, .acq 1), (0xA2608003, .apois 6 1), (0xA45C0851, .ast 1 14 0 5 1), (0xA6309400, .arow 3 1 5),
    (0x90580000, .mmaBf 1 12 0 0 0), (0x9A98D003, .mmaX8 2 12 13 0 0 3), (0x52560000, .ldsync 5 12 0), (0x5C061C20, .amoAdd 0 12 7 1 0 0),
    (0xE802A006, .csrw 0 5 6), (0xD80634A1, .scStep 0 12 13 5), (0xD8963802, .scMask 9 12 14), (0xD8F60003, .scFork 15 12),
    (0x04000000, .addi 0 0 0), (0x02501806, .orn 5 0 6), (0x8264000D, .vcvtFI32 3 2 0 5)] := by decide

/-- Words that are no instructions: the guards, a reserved opcode and function, a must-be-zero bit, an unused field, bit 4 of
an f field, a channel port read or written the wrong way, an unassigned CSR, CSRR with a source (R25, R41, R43, R46). -/
theorem test_decode_illegal : ([0, 0xFFFFFFFF, 0x26000000, 0x02000007, 0x0C000040, 0x02000420, 0x61000000, 0x020E0000, 0x03800000, 0xE800100A,
    0xE8009001, 0xD4000010, 0x8600000C] : List W32).all (fun w => match decodeWord w with | .ok _ => false | .error _ => true) = true := by decide +kernel

/-! ### Single steps: scalar -/

theorem test_add_wraps : xOf (exec (.add 3 1 2) (withX [(1, 0xFFFFFFFFFFFFFFFF), (2, 3)])) 3 = 2 := by decide
theorem test_sub_same_register : xOf (exec (.sub 1 1 1) (withX [(1, 5)])) 1 = 0 := by decide
theorem test_addw_sign : xOf (exec (.addw 3 1 2) (withX [(1, 0x7FFFFFFF), (2, 1)])) 3 = 0xFFFFFFFF80000000 := by decide
theorem test_sra_amount_mod_64 : xOf (exec (.sra 3 1 2) (withX [(1, -16), (2, 66)])) 3 = -4 := by decide
theorem test_mulhsu : xOf (exec (.mulhsu 3 1 2) (withX [(1, -1), (2, 0xFFFFFFFFFFFFFFFF)])) 3 = -1 := by decide
theorem test_clz_zero : xOf (exec (.clz 3 1) (withX [])) 3 = 64 := by decide
/-- The table of R78. -/
theorem test_division : [xOf (exec (.div 3 1 2) (withX [(1, -7), (2, 2)])) 3, xOf (exec (.rem 3 1 2) (withX [(1, -7), (2, 2)])) 3,
    xOf (exec (.divu 3 1 2) (withX [(1, 7)])) 3, xOf (exec (.remu 3 1 2) (withX [(1, 7)])) 3,
    xOf (exec (.div 3 1 2) (withX [(1, 0x8000000000000000), (2, -1)])) 3,
    xOf (exec (.rem 3 1 2) (withX [(1, 0x8000000000000000), (2, -1)])) 3] = [-3, -1, 0xFFFFFFFFFFFFFFFF, 7, 0x8000000000000000, 0] := by decide
theorem test_andi_zero_extends : xOf (exec (.andi 3 1 0x7FFF) (withX [(1, -1)])) 3 = 0x7FFF := by decide
theorem test_addi_sign_extends : xOf (exec (.addi 3 1 0x7FFF) (withX [(1, 0)])) 3 = -1 := by decide
/-- R376: LI of 0x1234_5FFF begins with LUI of 0x12346. -/
theorem test_lui : xOf (exec (.lui 5 0x12346) (withX [])) 5 = 0x12346000 := by decide
theorem test_cmpi_ltu_sign_extends : pOf (exec (.cmpiLtu 4 1 0x7FFF) (withX [(1, 5)])) 4 = true := by decide
theorem test_pset_p_keeps_p0 : see (exec (.psetP 1) (withX [(1, 0xF0)])) (fun t => t.me.p) 0 = 0xF1 := by decide
theorem test_write_x0 : see (exec (.add 0 1 1) (withX [(1, 5)])) (fun t => t.rx 0) 7 = 0 := by decide
theorem test_branch : pcOf (exec (.bpT 0 0x7FFFF) (withX [])) = 0xFFFC := by decide
theorem test_jalr_same_register : (fun o => (pcOf o, xOf o 1)) (exec (.jalr 1 1 0) (withX [(1, 0x2000)])) = (0x2000, 0x10004) := by decide
theorem test_jalr_misaligned : causeOf (exec (.jalr 1 1 2) (withX [(1, 0x2000)])) = 1 := by decide

/-! ### Single steps: floating point -/

/-- R89's example: FMA of 1 + 2^-23, 1 - 2^-23 and -1 is exactly -2^-46 and raises no flag. -/
theorem test_fma_exact : (fun o => (fOf o 1, see o (fun t => t.me.fcsr) 9)) (exec (.fma 1 2 3 4)
    (at0 (fs [(2, 0x3F800001), (3, 0x3F7FFFFE), (4, 0xBF800000)]))) = (0xA8800000, 0) := by decide
/-- The same through FMUL: 1.0, with NX. -/
theorem test_fmul_inexact : (fun o => (fOf o 1, see o (fun t => t.me.fcsr) 9)) (exec (.fmul 1 2 3)
    (at0 (fs [(2, 0x3F800001), (3, 0x3F7FFFFE)]))) = (0x3F800000, 1) := by decide
theorem test_fdiv_by_zero : (fun o => (fOf o 1, see o (fun t => t.me.fcsr) 9)) (exec (.fdiv 1 2 3) (at0 (fs [(2, 0xBF800000)]))) = (0xFF800000, 8) := by decide
theorem test_fsqrt_negative : (fun o => (fOf o 1, see o (fun t => t.me.fcsr) 9)) (exec (.fsqrt 1 2) (at0 (fs [(2, 0xBF800000)]))) = (0x7FC00000, 16) := by decide
theorem test_fmin_zeros : fOf (exec (.fmin 1 2 3) (at0 (fs [(3, 0x80000000)]))) 1 = 0x80000000 := by decide
theorem test_fsgnjx : fOf (exec (.fsgnjx 1 2 3) (at0 (fs [(2, 0xBF800000), (3, 0x80000000)]))) 1 = 0x3F800000 := by decide
theorem test_fclass_signalling : xOf (exec (.fclass 3 2) (at0 (fs [(2, 0x7F800001)]))) 3 = 256 := by decide
theorem test_fcmp_eq_zeros : pOf (exec (.fcmpEq 4 2 3) (at0 (fs [(3, 0x80000000)]))) 4 = true := by decide
/-- The table of worked conversions: 3.3 to BF16. -/
theorem test_fcvt_bf : (fun o => (fOf o 1, see o (fun t => t.me.fcsr) 9)) (exec (.fcvtBfF 1 2) (at0 (fs [(2, 0x40533333)]))) = (0x4053, 1) := by decide
theorem test_fcvt_i32_saturates : (fun o => (xOf o 3, see o (fun t => t.me.fcsr) 9)) (exec (.fcvtI32F 3 2) (at0 (fs [(2, 0xCF800000)]))) = (0xFFFFFFFF80000000, 16) := by decide
theorem test_fmvx_zero_extends : xOf (exec (.fmvx 3 2) (at0 (fs [(2, 0xFFC00001)]))) 3 = 0xFFC00001 := by decide
/-- The worked conversions into E4M3, E2M1, E5M2: 1.5, 500.0 with SAT clear and set, 2.5, 57,344.0. -/
theorem test_narrow : (convert e4m3 .rne false (f32 0x3FC00000), convert e4m3 .rne false (f32 0x43FA0000), convert e4m3 .rne true (f32 0x43FA0000),
    convert e2m1 .rne false (f32 0x40200000), convert e5m2 .rne false (f32 0x47600000)) = ((0x3C, 0), (0x7F, 5), (0x7E, 5), (4, 1), (0x7B, 0)) := by decide
/-- The block of R69's worked example: 1.5 * 4.0 - 3.0 * 0.5 with scales 0.75 and 2.0 gives t = 6.75. -/
theorem test_vx4_block : accumulate false 0 (blockTS [(e2m1.decode 3, e2m1.decode 6), (e2m1.decode 13, e2m1.decode 1)]
    (s20.decode 0x3F400) (s20.decode 0x40000)) = 0x40D80000 := by decide

/-! ### Single steps: vector -/

def vs (l : List (Nat × VReg)) (b : Berth) : Berth := { b with v := l.foldl (fun x e => vset x e.1 e.2) b.v }
def vLane (o : Out) (d i : Nat) : W32 := see o (fun t => lane (vget t.me.v d 0) i) 0xBAD
theorem test_viadd_masked : (fun o => (vLane o 1 0, vLane o 1 1, vLane o 1 2)) (exec (.viadd 1 2 3 1)
    (at0 fun b => { vs [(1, ofLanes fun _ => 9), (2, ofLanes fun _ => 0xFFFFFFFF), (3, ofLanes fun _ => 3)] b with p := 5 })) = (2, 9, 2) := by decide +kernel
theorem test_vslide_up : (fun o => (vLane o 1 0, vLane o 1 1, vLane o 1 31)) (exec (.vslideUp 1 2 3 0 1)
    (at0 (vs [(2, ofLanes fun i => BitVec.ofNat 32 i), (3, ofLanes fun i => BitVec.ofNat 32 (100 + i))]))) = (131, 0, 30) := by decide +kernel
theorem test_vcmp_keeps_p0 : see (exec (.vcmpEq 2 3 0) (at0 (vs [(3, ofLanes fun i => if i = 31 then 0 else 1)]))) (fun t => t.me.p) 0 = 0x80000001 := by decide +kernel
theorem test_vextr_sign : xOf (exec (.vextr 3 2 31) (at0 (vs [(2, ofLanes fun i => if i = 31 then 0x80000000 else 0)]))) 3 = 0xFFFFFFFF80000000 := by decide +kernel
theorem test_vector_moors : see (exec (.vbcast 1 2) (withX [(2, 7)])) (fun t => (t.me.moored, lane (vget t.me.v 1 0) 31)) (false, 0) = (true, 7) := by decide +kernel
/-! ### States that meet the hypotheses: registers, ports, scalar instructions -/

def bind (p : Nat) (q : Port) (b : Berth) : Berth := { b with ports := vset b.ports p q }
/-- Berths 0 and 1 of core 0 with a channel each way; two entries wait at qi0, and qi3 is bound, empty and freed. -/
def chan : State :=
  (at0 fun b => bind 3 ⟨true, 0, 2, 4, true, [], 0, []⟩ (bind 2 ⟨true, 0, 2, 5, false, [], 0, []⟩
    (bind 0 ⟨true, 0, 1, 4, false, [5, 6], 0, []⟩ (bind 4 ⟨true, 0, 1, 0, false, [], 0, []⟩ b)))).modBerth 0 1 fun b =>
    bind 4 ⟨true, 0, 0, 0, false, [], 0, []⟩ (bind 0 ⟨true, 0, 0, 4, false, [], 0, []⟩ b)

/-- Ready: registers at the ends of their range, and ports (every statement with `Ready`). -/
theorem test_meets_Ready : Ready (withX []) [0, 23] 23 ∧ Ready (withX []) [0] 0 ∧ Ready (withX []) [] 23 ∧ Ready (superX []) [1, 2] 3 :=
  ⟨ready_regs (by decide) (by decide), ready_regs (by decide) (by decide), ready_regs (by decide) (by decide), ready_regs (by decide) (by decide)⟩
theorem test_meets_Ready_ports : Ready chan [24, 1, 24] 28 := by
  refine ⟨?_, .inr ?_⟩
  · intro r hr
    have e : r = 24 ∨ r = 1 ∨ r = 24 := by simpa using hr
    rcases e with rfl | rfl | rfl
    · exact .inr (by decide +kernel)
    · exact .inl (by decide)
    · exact .inr (by decide +kernel)
  · decide +kernel
theorem test_meets_RegisterWrites : (23 : BitVec 5).toNat < 24 ∧ (23 : BitVec 5) ≠ 0 ∧ (1 : BitVec 5) ≠ 23 ∧ (31 : BitVec 5) ≠ 0 ∧
    ((9215 : Nat) ≠ (withX []).rank ∨ 15 % 16 ≠ (withX []).berth % 16) := by decide +kernel
theorem test_meets_PortChecks : (24 ≤ (31 : BitVec 5).toNat ∧ (port (withX []).me 7).bound = false) ∧
    (24 ≤ (27 : BitVec 5).toNat ∧ (port chan.me 3).q = [] ∧ (port chan.me 3).freed = true) ∧
    (24 ≤ (26 : BitVec 5).toNat ∧ (port chan.me 2).bound = true ∧ chan.myCore.shut = false ∧ (port chan.me 2).q = [] ∧ (port chan.me 2).freed = false) := by
  decide +kernel
/-- A barge at the last word below 2^52, and one at 0. -/
def high : State := at0 fun b => { xs [(1, 0x000FFFFFFFFFFFFC), (2, 0xFFFFFFFFFFFFFFFC)] b with pc := 0x000FFFFFFFFFFFFC, p := 3 }
theorem test_meets_Jumps : (high.rp 0 = true ∧ (high.me.pc + 4 * (0 : BitVec 19).signExtend 64).toNat < 2 ^ 52) ∧ high.rp 1 = true ∧ high.rp 2 = false ∧
    (high.me.pc + 4 * (-1 : BitVec 20).signExtend 64).toNat < 2 ^ 52 ∧ ((high.rx 1 + (0 : BitVec 15).signExtend 64).toNat % 4 = 0 ∧
      (high.rx 1 + (0 : BitVec 15).signExtend 64).toNat < 2 ^ 52) := by decide +kernel
theorem test_meets_JumpTraps : high.buffered = false ∧ (high.rp 0 = true ∧ 2 ^ 52 ≤ (high.me.pc + 4 * (1 : BitVec 19).signExtend 64).toNat) ∧
    (high.rp 2 = false ∧ 2 ^ 52 ≤ (high.me.pc + 4 * (1 : BitVec 19).signExtend 64).toNat) ∧ 2 ^ 52 ≤ (high.me.pc + 4 * (1 : BitVec 20).signExtend 64).toNat ∧
    (high.rx 1 + (1 : BitVec 15).signExtend 64).toNat % 4 ≠ 0 ∧ ((high.rx 1 + (4 : BitVec 15).signExtend 64).toNat % 4 = 0 ∧
      2 ^ 52 ≤ (high.rx 1 + (4 : BitVec 15).signExtend 64).toNat) := by decide +kernel
theorem test_fetch_beyond : (fun o => (causeOf o, see o (fun t => t.me.tval) 0)) (exec (.j 1) high) = (2, 0x10000000000000) := by decide +kernel
theorem test_port_pop : see (exec (.add 3 24 24) chan) (fun t => (vget t.me.x 3 0, (port t.me 0).q)) (0, []) = (10, [6]) := by decide +kernel
/-- The entry is handed over at the write-back; the popped ones count as held until then. -/
theorem test_port_push : see (again (.replyArrival 0 0) 7 (exec (.addi 28 0 9) chan))
    (fun t => ((port (t.berthAt 0 1) 0).q, t.agenda.getLast?, t.me.readyAt)) ([9], none, 0) = ([], some (7, .channelEntryArrival 0 1 0 0 0 4 7 9), 8) := by decide +kernel
theorem test_port_pop_held : see (exec (.add 3 24 24) chan) (fun t => (t.entries (port t.me 0), ({ t with cycle := 7 } : State).entries (port t.me 0))) (9, 9) = (2, 1) := by
  decide +kernel
theorem test_port_unbound : causeOf (exec (.add 3 25 1) (withX [])) = 14 := by decide +kernel

/-! ### Repetition and borrowing -/

/-- A user page's entry: valid, R, W, X, U, A and D, with the page number's bits zero. -/
def pageAll : Word := 0x19F
/-- A line of core 0's instruction cache for address 0x10000 with these first words. -/
def iline (ws : List W32) : ILine := ⟨2, 0x200, 0x10000, pageAll, BitVec.ofNat 1024 (ws.foldr (fun w n => w.toNat + 2 ^ 32 * n) 0), 0⟩
/-- The barge about to fetch these words. -/
def runs (ws : List W32) (f : Berth → Berth := id) : State := (at0 f).modMyCore fun c => { c with icache := [iline ws] }
/-- RPT.D of 3 repetitions of VADD v1, v2, v3. -/
def rptdCode : State := runs [rptWord 2 0 true 0 0, 0x7A246000]
/-- RPT of 3 repetitions of 1 word, ADDI x5, x5, 1. -/
def rptCode : State := runs [rptWord 2 0 false 0 0, 0x04528001]
/-- A state whose repetition buffer runs VADD v1, v2, v3 twice more. -/
def bufWith (s : State) (w : W32 := 0x7A246000) : State :=
  s.modMyCore fun c => { c with buffer := some ⟨0, 0, ⟨0x10000, [w], 2, 1, 0, 0, 0, true⟩, none, 0⟩ }
def inBlock (idx k cnt : Nat) : State := at0 fun b => { b with rpt := some ⟨0x10000, [0x04528001, 0x04528001], cnt, 0, 0, k, idx, false⟩, moored := true }
theorem test_meets_Repetition_advance : (∃ k, (inBlock 0 0 1).me.rpt = some k ∧ (inBlock 0 0 1).buffered = false ∧ k.idx + 1 < k.words.length) ∧
    (∃ k, (inBlock 1 0 1).me.rpt = some k ∧ k.words.length ≤ k.idx + 1 ∧ k.k < k.cnt) ∧
    (∃ k, (inBlock 1 1 1).me.rpt = some k ∧ k.words.length ≤ k.idx + 1 ∧ k.cnt ≤ k.k) := by
  refine ⟨⟨_, rfl, ?_⟩, ⟨_, rfl, ?_⟩, ⟨_, rfl, ?_⟩⟩ <;> decide +kernel
def isOk {α : Type} (r : Run α) : Bool := match r with | .ok _ => true | .error _ => false
theorem isOk_ex {α : Type} {r : Run α} (h : isOk r = true) : ∃ a, r = .ok a := by
  cases r with
  | error e => exact absurd h Bool.false_ne_true
  | ok a => exact ⟨a, rfl⟩
def okWith {α : Type} (r : Run α) (p : α → Bool) : Bool := match r with | .ok a => p a | .error _ => false
theorem okWith_ex {α : Type} {r : Run α} {p : α → Bool} (h : okWith r p = true) : ∃ a, r = .ok a ∧ p a = true := by
  cases r with
  | error e => exact absurd h Bool.false_ne_true
  | ok a => exact ⟨a, rfl, h⟩
theorem test_meets_Repetition_starts : (∃ e, captureBlock rptCode rptCode.who rptCode.me.pc (rptWord 2 0 false 0 0) false 2 0 0 0 0 0 rptCode.me.moored = .ok e) ∧
    (∃ e, captureBlock rptdCode rptdCode.who rptdCode.me.pc (rptWord 2 0 true 0 0) true 2 0 0 0 0 0 true = .ok e) ∧
    rptdCode.myCore.buffer = none ∧ (bufWith rptdCode).myCore.buffer ≠ none :=
  ⟨isOk_ex (by decide +kernel), isOk_ex (by decide +kernel), by decide +kernel, by decide +kernel⟩
/-- RPT of 1 word with these words behind it: a mask bit beyond LEN, an excluded opcode, an illegal word, a field that names
x0, and in RPT.D a scalar word. -/
def refusals : List (Nat × W32) := [(8, 0x04528001), (0, 0x2C000000), (0, 0x020003FF), (1, 0x04028001), (0, 0x04528001)]
theorem test_meets_RepeatRefusals : (∃ ws, codeWords rptCode rptCode.who rptCode.me.pc 1 = .ok ws) ∧ rptCode.buffered = false ∧
    (refusals.map fun e => (checkBlock false 7 ⟨0, [e.2], 2, 1, e.1, 0, 0, true⟩, checkBlock true 7 ⟨0, [e.2], 2, 1, e.1, 0, 0, true⟩)) =
      [(some 7, some 7), (some 7, some 7), (some 0x020003FF, some 0x020003FF), (some 7, some 7), (none, some 7)] ∧
    checkBlock true 7 ⟨0, [0x7A246000], 2, 1, 0, 0, 0, true⟩ = none ∧ checkBlock true 7 ⟨0, [0x7A0000FF], 2, 1, 0, 0, 0, true⟩ = some 0x7A0000FF :=
  ⟨isOk_ex (by decide +kernel), by decide +kernel, by decide +kernel, by decide +kernel, by decide +kernel⟩
def bufBlock : Block := ⟨0x10000, [0x7A246000], 2, 0, 0, 0, 0, true⟩
def bufState : State := (at0 id).modMyCore fun c => { c with buffer := some ⟨0, 0, bufBlock, none, 0⟩ }
/-- The owner's file is drowsy. -/
theorem test_meets_Repetition_drowsy : let s := bufState.modBerth 0 0 fun b => { b with drowsy := true }
    bufDue s 0 = true ∧ (s.core 0).buffer = some ⟨0, 0, bufBlock, none, 0⟩ ∧ (s.berthAt 0 0).drowsy = true ∧ (bufState.berthAt 0 0).drowsy = false := by decide +kernel
theorem test_meets_Repetition_buffer : bufDue (bufWith (at0 id) 0x7C246000) 0 = true ∧
    decodeBlockWord 0x7C246000 = .ok (.viadd 1 2 3 0) ∧ stepWord ⟨0x10000, [0x7C246000], 2, 1, 0, 0, 0, true⟩ 0 0 = 0x7C246000 ∧
    bufDue bufState 0 = true ∧ (bufState.core 0).buffer = some ⟨0, 0, bufBlock, none, 0⟩ ∧
    decodeBlockWord (stepWord bufBlock bufBlock.k bufBlock.idx) = .ok (.vadd 1 2 3 0) ∧
    (match execBlockWord (.vadd 1 2 3 0) { bufState with rank := 0, berth := 0, buffered := true } with
      | .next t => (t.core 0).buffer.isSome && (t.core 0).instret != (bufState.core 0).instret
      | _ => false) = true ∧ ({ bufState with buffered := true } : State).myCore.buffer = some ⟨0, 0, bufBlock, none, 0⟩ := by decide +kernel
theorem test_meets_Repetition_buffer_steps : (0 + 1 < [(1 : W32), 2].length) ∧ ([(1 : W32)].length ≤ 0 + 1 ∧ 0 < 2) ∧ ([(1 : W32)].length ≤ 0 + 1 ∧ 2 ≤ 2) := by decide
theorem test_repeat : see (exec (.rpt 2 0 0 0) rptCode) (fun t => (t.me.pc, t.me.moored, t.me.rpt.map Block.cnt)) (0, false, none) = (0x10004, true, some 2) := by decide +kernel
theorem test_borrow : (fun o => (xOf o 3, see o (fun t => t.me.borrowed) none)) (done (exec (.borrow 3 1) (withX [(1, 16)]))) = (1, some 1) := by decide +kernel
def borrows : State := (at0 fun b => { xs [(1, 5)] b with borrowed := some 15 }).modBerth 0 15 fun b => { b with lent := some 0 }
theorem test_meets_Borrowing : ((withX [(1, 16)]).me.borrowed = none ∧ borrowChoice 0 (withX [(1, 16)]).myCore ((withX [(1, 16)]).rx 1) = some 1) ∧
    borrowChoice 0 (withX []).myCore ((withX []).rx 1) = none ∧ (let s := see (exec (.borrow 3 1) (withX [(1, 16)])) id State.reset
      (∃ w, (s.berthAt 0 0).wait = some w ∧ w.reply = some { srcs := [1], borrow := some (3, 16), past := true } ∧ w.issued.acc = none) ∧
      (s.berthAt 0 0).drowsy = false) ∧ (borrows.me.borrowed = some 15 ∧ 15 % 16 ≠ borrows.berth % 16 ∧ borrows.buffered = false) ∧
    ((15 : BitVec 5).toNat < 16 ∧ (23 : BitVec 5).toNat < 24 ∧ (23 : BitVec 5) ≠ 0) := by decide +kernel
theorem test_xmovt : see (exec (.xmovt 23 1 0) borrows) (fun t => vget (t.berthAt 0 15).x 23 0) 0 = 5 := by decide +kernel

/-! ### Vector instructions -/

theorem test_meets_LaneResults : (∀ k < 32, ((0 : BitVec 1) = 0 ∨ k = 0 ∨ (1 : W32).getLsbD k = true) → (0 : Flags) = 0) ∧ (withX []).me.rpt = none ∧
    (withX []).buffered = false := by decide +kernel
theorem test_meets_VectorMoves : (withX []).myCore.sort0 ≤ (withX []).cycle ∧ (withX []).myCore.sort1 ≤ (withX []).cycle := by decide +kernel
theorem test_meets_Reductions : (∀ x y z : W32, (x ^^^ y) ^^^ z = x ^^^ (y ^^^ z)) ∧ (List.replicate 31 (5 : W32)).length = 31 := by
  refine ⟨fun x y z => BitVec.xor_assoc x y z, by decide⟩
theorem test_vred_sum : vLane (exec (.vred 1 2 0 0) (at0 (vs [(2, ofLanes fun i => if i < 2 then 0x3F800000 else 0)]))) 1 31 = 0x40000000 := by decide +kernel

/-! ### Memory instructions -/

def isNext (o : Out) : Bool := match o with | .next _ => true | _ => false
theorem isNext_ex {o : Out} (h : isNext o = true) : ∃ t, o = .next t := by
  cases o with
  | next t => exact ⟨t, rfl⟩
  | fault _ => exact absurd h Bool.false_ne_true
  | refused _ => exact absurd h Bool.false_ne_true
/-- x1 at the first word of CLM that a user may reach, x2 at the last. -/
def clm : State := withX [(1, 0x000E000000008000), (2, 0x000E00000001FFF8), (3, 0x0123456789ABCDEF), (4, 1), (5, 0x000E00000001FF80)]
theorem test_meets_AtClm : AtClm (addr clm 1 0) 0x8000 128 ∧ AtClm (addr clm 5 0) 0x1FF80 128 ∧ AtClm (addr clm 2 0) 0x1FFF8 8 ∧ AtClm (addr clm 2 4) 0x1FFFC 4 ∧
    AtClm (addr clm 2 6) 0x1FFFE 2 ∧ AtClm (addr clm 2 7) 0x1FFFF 1 ∧ AtClm (clm.rx 2 + clm.rx 0) 0x1FFF8 8 ∧ AtClm (clm.rx 1) 0x8000 4 := by
  unfold AtClm addr; decide +kernel
theorem test_meets_Settled : Clean clm 0x8000 128 ∧ Clean clm 0x1FFF8 8 ∧ Settled clm 0x8000 128 ∧ Settled clm 0x1FFF8 8 ∧ clm.poisoned (here clm 0x8000) = false ∧
    clm.isFull (here clm 0x8000) = false := by
  unfold Clean Settled here; decide +kernel
/-- The core's way to its neighbour: the request of a wait that began, and stands there, in cycle 0. -/
def far (w : Option Wait) : State := { (at0 fun b => { xs [(1, 0x000F000000028000)] b with wait := w }) with
  launches := [⟨7, 1, 0, 2, 1, false, 0, 0, 8, 8, 0x10000, 0, 0, 0x8000, 64, 0, 0x20000, 1, 0, none, 0, false, [], []⟩]
  lock := { Lock.reset with ranks := [(0, ⟨true, false, 0⟩)] } }
theorem test_meets_RemoteLoads : ((far none).rx 1 + (far none).rx 0).toNat = 15 * 2 ^ 48 + 1 * 2 ^ 17 + 0x8000 ∧ (far none).inRect (far none).me.lid 1 = true ∧
    (far none).rankHeld 1 = false ∧ (far none).myWait = none ∧ (at0 id).rankHeld 1 = true ∧
    (far (some (startWait (.remote 0) 1 0))).myWait = some (startWait (.remote 0) 1 0) ∧ (startWait (.remote 0) 1 0).home = false ∧
    (far (some (startWait (.remote 9) 1 0))).cycle < 9 := by decide +kernel
theorem test_meets_Releases : (at0 id).myWait = none ∧ ((at0 id).release (at0 id).rank).myCore.relEnd ≤ (at0 id).cycle ∧
    (far (some (startWait (.cleaning 9) 1 0))).myWait = some (startWait (.cleaning 9) 1 0) ∧ (startWait (.cleaning 9) 1 0).released = false ∧
    ((at0 id).myCore.l1.all fun l => l.dirty == 0) = true ∧ okWith clm.releasing (fun _ => true) = true ∧
    (at0 id).cycle < (((at0 id).modMyCore fun c => { c with relEnd := 50 }).release (at0 id).rank).myCore.relEnd := by decide +kernel
theorem test_meets_StoreFrame : clm.memOk ∧ (1 : BitVec 5).toNat < 24 ∧ ∃ t, exec (.std 3 2 0) clm = .next t :=
  ⟨by unfold State.memOk; decide +kernel, by decide, isNext_ex (by decide +kernel)⟩
/-- The unit at 0x8000 is poisoned; the second state traps on it. -/
def poisonedState : State := clm.setPoison (here clm 0x8000) true
theorem test_meets_PoisonedLoad : poisonedState.anyPoison (here poisonedState 0x8000) 8 = true ∧ poisonedState.me.pte = false ∧
    (poisonedState.modMe fun b => { b with tstat := 0x8000000000000004 ||| 0xFF4 }).me.pte = true ∧ poisonedState.buffered = false := by unfold here; decide +kernel
theorem test_meets_AddressTraps : (addr clm 4 0).toNat % 2 ≠ 0 ∧ (addr clm 4 1).toNat % 4 ≠ 0 ∧ (addr clm 4 3).toNat % 8 ≠ 0 ∧ clm.buffered = false ∧ clm.me.user = true ∧
    (addr clm 1 (-8)).toNat = 14 * 2 ^ 48 + 0x7FF8 ∧ (addr clm 1 (-0x4000)).toNat = 14 * 2 ^ 48 + 0x4000 := by unfold addr; decide +kernel
/-- The word at 0x8000 is full; nobody waits for it. -/
def fullWord : State := clm.setFull (here clm 0x8000) true
theorem test_meets_FullEmpty : fullWord.isFull (here fullWord 0x8000) = true ∧ fullWord.earlier (.full (here fullWord 0x8000).key) = false ∧
    fullWord.poisoned (here fullWord 0x8000) = false ∧ clm.isFull (here clm 0x8000) = false ∧ clm.buffered = false ∧
    (here clm 0x8008).key / 8 ≠ (here clm 0x8000).key / 8 := by unfold here; decide +kernel
def lanesState : State := at0 fun b => { xs [(1, 0x000E000000008000), (2, 4)] b with v := vset b.v 3 (ofLanes fun i => BitVec.ofNat 32 (4 * i)) }
/-- What a run of lanes gives is an answer without poison. -/
def lanesOk (f : LaneOp) (addr : Nat → Word) (m : BitVec 1) (n : Nat) : Bool :=
  okWith (lanesRun f lanesState addr (active lanesState.me.p m) n State.moor) fun e => e.2.2.1 == 0
theorem test_meets_VectorMemory : lanesState.myWait = none ∧
    (∀ i < 32, LaneHere lanesState (strideAddr lanesState 1 2 i) (0x8000 + 4 * i) ∧ LaneHere lanesState (indexAddr lanesState 1 3 i) (0x8000 + 4 * i)) ∧
    lanesOk (loadLane (strideAddr lanesState 1 2)) (strideAddr lanesState 1 2) 0 32 = true ∧ lanesOk (loadLane (indexAddr lanesState 1 3)) (indexAddr lanesState 1 3) 1 32 = true ∧
    lanesOk (storeLane (strideAddr lanesState 1 2) 5) (strideAddr lanesState 1 2) 0 32 = true ∧
    lanesOk (storeLane (indexAddr lanesState 1 3) 5) (indexAddr lanesState 1 3) 1 32 = true ∧ (addr lanesState 1 0).toNat % 128 = 0 := by
  unfold LaneHere AtClm Clean here addr; decide +kernel
theorem test_meets_VectorMemory_table : lanesOk (loadLane fun i => addr lanesState 1 0 + w64 (4 * i)) (fun i => addr lanesState 1 0 + w64 (4 * i)) 0 256 = true := by
  unfold addr; decide +kernel
/-- Two lanes, one at the next core's CLM: the local one is performed at once, the other when its request stands there. -/
theorem test_lanes_apart : see (exec (.vlds 4 1 2 1) (far none |>.modMe fun b => { b with x := vset (vset b.x 1 0x000E000000008000) 2 0x1000000020000, p := 3 }))
    (fun t => (t.myWait.map Wait.why, (t.myWait.bind fun w => w.issued.lanes).map Lanes.done)) (none, none) = (some (.remote 7), some 1) := by decide +kernel
theorem test_meets_CacheOperations : Plain clm ∧ 13 * 2 ^ 48 ≤ (clm.rx 1).toNat ∧ clm.rx 0 = 0 ∧ clm.myCore.l1Busy ≤ clm.cycle ∧
    (clm.rx 4).toNat < min ((clm.rx 4).toNat + (clm.rx 4).toNat) (13 * 2 ^ 48) := by unfold Plain; decide +kernel
/-- Context 2 maps the 64 KiB page at 0x10000 through three levels of tables. -/
def paged : State := (({ at0 id with lock := { (at0 id).lock with ctx := [(2, 0x8000000000010000)] } } : State).writeN (.hbm 0x10000) 8 0x18001).writeN (.hbm 0x18000) 8 0x20001
  |>.writeN (.hbm 0x20008) 8 0x3001F
def walking : State := paged.modCluster 0 fun c => { c with walks := [(2, 1)] }
theorem test_meets_Walks : (paged.walk 2 0x10000).isSome = true ∧ (walking.cluster 0).walks.contains ((2 : BitVec 8).toNat, 1) = true ∧
    (walking.cluster 0).walks.contains ((2 : BitVec 8).toNat, 2) = false ∧ (walking.walk (2 : BitVec 8).toNat (1 * 65536)).isSome = true := by decide +kernel
/-- Bytes are little-endian; a load extends by its sign. -/
theorem test_std : see (exec (.std 3 1 0) clm) (fun t => (t.readByte (.clm 0 0x8000), t.readByte (.clm 0 0x8007))) (0, 0) = (0xEF, 0x01) := by decide +kernel
theorem test_ldb : xOf (exec (.ldb 6 1 0) (clm.writeN (.clm 0 0x8000) 1 0x80)) 6 = 0xFFFFFFFFFFFFFF80 := by decide +kernel
theorem test_ldhu : xOf (exec (.ldhu 6 1 2) (clm.writeN (.clm 0 0x8000) 8 0x8001FFFF0000)) 6 = 0xFFFF := by decide +kernel
theorem test_ldw_misaligned : (fun o => (causeOf o, see o (fun t => t.me.tval) 0)) (exec (.ldw 6 1 2) clm) = (1, 0x000E000000008002) := by decide +kernel
theorem test_user_clm : (fun o => (causeOf o, see o (fun t => t.me.tval) 0)) (exec (.ldd 6 1 0x7FF8) clm) = (3, 0x000E000000007FF8) := by decide +kernel
theorem test_amoAdd : (fun o => (xOf o 6, see o (fun t => t.readN (.clm 0 0x8000) 4) 0)) (exec (.amoAdd 6 1 4 0 0 0) (clm.writeN (.clm 0 0x8000) 4 0xFFFFFFFF)) =
    (0xFFFFFFFFFFFFFFFF, 0) := by decide +kernel
theorem test_amoCas : see (exec (.amoCas 6 1 3 1 0 0) clm) (fun t => t.readN (.clm 0 0x8000) 8) 0 = 0x0123456789ABCDEF := by decide +kernel
theorem test_stfull : see (exec (.stfull 3 1 0) clm) (fun t => (t.isFull (.clm 0 0x8000), t.isFull (.clm 0 0x8008))) (false, false) = (true, false) := by decide +kernel
theorem test_ldsync_empty : see (exec (.ldsync 6 1 0) clm) (fun t => (t.me.pc, t.me.wait.isSome)) (0, false) = (0x10000, true) := by decide +kernel
theorem test_ldsync_full : (fun o => (xOf o 6, see o (fun t => t.isFull (.clm 0 0x8000)) true)) (exec (.ldsync 6 1 0) (fullWord.writeN (.clm 0 0x8000) 8 77)) = (77, false) := by
  decide +kernel
theorem test_vlds : vLane (exec (.vlds 4 1 2 0) (lanesState.writeN (.clm 0 0x8004) 4 9)) 4 1 = 9 := by decide +kernel

/-! ### Barges and frames -/

/-- Launch 7 on an 8 by 8 rectangle at the device's corner, and the barge with its frame at 0x6000. -/
def launch7 : Launch := ⟨7, 1, 0, 2, 1, false, 0, 0, 8, 8, 0x10000, 0, 0, 0x8000, 64, 0, 0x20000, 1, 0, none, 0, false, [], []⟩
def launched (f : Berth → Berth) : State := { at0 f with launches := [launch7] }
def framed (f : Berth → Berth) : State := (launched fun b => { f b with fr := 0x6000 }).newRec 0x6000 false 0
def counted (n : Nat) (f : Berth → Berth) : State := (framed f).fset 0x6000 0 4 n
def packet : Packet := ⟨hdr0, 0x10000, 1, 0, Vector.replicate 24 0, Vector.replicate 16 0, false, false, []⟩
/-- A wait that began in cycle 0, for `y`. -/
def wait0 (y : Why) (q : Option Reply) : Wait := { startWait y 1 0 with reply := q }
def waits (q : Option Reply) : State := at0 fun b => { b with wait := some { wait0 .lock q with hold := true } }
def reply0 : Reply := { writes := [(3, 5)] }
theorem test_meets_Replies : (waits none).me.wait.isSome = true ∧ (at0 id).me.wait = none ∧
    (∃ w, ((waits (some reply0)).berthAt 0 0).wait = some w ∧ w.reply = some reply0 ∧ ((waits (some reply0)).berthAt 0 0).drowsy = false) ∧
    reply0.trap = none ∧ reply0.again = false ∧ reply0.pc = none ∧ ({ reply0 with pc := some 4 } : Reply).pc = some 4 ∧
    ({ reply0 with trap := some (.loadf, 0) } : Reply).trap = some (.loadf, 0) ∧ reply0.refetch = false ∧ reply0.srcs = [] ∧ reply0.acquire = false ∧
    ((waits (some reply0)).berthAt 0 0).readyAt ≤ (waits (some reply0)).cycle + 1 := by
  refine ⟨by decide +kernel, by decide +kernel, ⟨{ wait0 .lock (some reply0) with hold := true }, ?_⟩, ?_⟩ <;> decide +kernel
/-- A reply that pushes onto qo0, which has been freed or never bound; one behind a write-back; a drowsy file; the answers that end
no instruction. -/
theorem test_meets_Replies_pushes : pushes { writes := [(28, 5)] } = true ∧ (chan.modPort 0 0 4 fun q => { q with freed := true }).checkFreed 28 = some 28 ∧
    (at0 id).checkFreed 31 = some 31 ∧ chan.checkFreed 28 = none ∧ chan.myCore.relEnd ≤ chan.cycle ∧ (chan.release chan.rank).myCore.relEnd ≤ chan.cycle ∧ ({ reply0 with past := true } : Reply).past = true ∧
    ({ reply0 with refetch := true } : Reply).refetch = true ∧ ({ reply0 with again := true } : Reply).again = true ∧
    (((waits (some reply0)).modMe fun b => { b with drowsy := true }).berthAt 0 0).drowsy = true := by decide +kernel
theorem test_reply_freed : causeOf (exec (.replyArrival 0 0) ((chan.modPort 0 0 4 fun q => { q with freed := true }).modMe fun b => { b with
    wait := some { wait0 .lock (some { writes := [(28, 5)] }) with hold := true } })) = 14 := by decide +kernel
theorem test_meets_LongEffects : pushes { writes := [(23, 5)] } = false ∧ (at0 id).buffered = false ∧ (at0 id).me.wait = none ∧ Plain (at0 id) := by
  unfold Plain; decide +kernel
theorem test_meets_Mooring : holds (at0 id) = false ∧ holds borrows = true := by decide +kernel
def places : State := launched (xs [(1, 679), (2, 0x1FFFF), (3, 680), (4, 0x20000), (5, 9216)])
theorem test_meets_Places : ((places.rx 1).toNat < 9216 ∧ places.inRect places.me.lid (places.rx 1).toNat = true ∧ (places.rx 2).toNat < 0x20000) ∧
    places.inRect places.me.lid (places.rx 3).toNat = false ∧ 0x20000 ≤ (places.rx 4).toNat ∧ 9216 ≤ (places.rx 5).toNat ∧ places.buffered = false := by decide +kernel
theorem test_meets_Cancels : (framed id).me.fr.toNat = 0x6000 ∧ frank 0x6000 = (framed id).rank ∧ (framed id).inRect (framed id).me.lid (framed id).rank = true ∧
    0x6000 ≤ 0x6000 % 131072 ∧ (framed id).liveRec 0x6000 = true ∧ (framed id).secondHalf (framed id).rank ((0x6000 % 131072 - 0x6000) / 32) = false ∧
    (framed id).fget 0x6000 12 2 = (framed id).me.lid ∧ (launched id).liveRec 0x7FE0 = false ∧ 0x7FE0 % 32 = 0 ∧ 0x6001 % 32 ≠ 0 := by decide +kernel
theorem test_meets_ExitBarge : (at0 id).inBuffer (at0 id).rank (at0 id).berth = false := by decide +kernel
theorem test_meets_ExitBarge_parent : (at0 fun b => { b with hdr := some { hdr0 with pfh := 0x6000 } }).me.header.pfh ≠ 0 ∧ (at0 id).me.header.pfh = 0 ∧
    okWith (at0 fun b => { b with hdr := some { hdr0 with pfh := 0x6000 } }).releasing (fun _ => true) = true ∧ bufState.inBuffer 0 0 = true := by decide +kernel
/-- A barge with a parent, while a release of its core runs, and with a dirty line. -/
def childOf (f : Core → Core) : State := (at0 fun b => { b with hdr := some { hdr0 with pfh := 0x6000 } }).modMyCore f
def dirtyLine : Line := ⟨2, 0xC0, false, 0x100, 0, 0x4019F, byteMask 0 8, byteMask 0 8, 5, 0, 0⟩
def goneRun {α : Type} (r : Run α) : Bool := match r with | .error (.gone _) => true | _ => false
def waitRun {α : Type} (r : Run α) : Bool := match r with | .error (.wait _) => true | _ => false
def traps {α : Type} (r : Run α) : Bool := match r with | .error (.trap _ _) => true | _ => false
theorem test_meets_Replies_release : chan.cycle < (chan.modMyCore fun c => { c with relEnd := 50 }).myCore.relEnd ∧
    chan.cycle < ((chan.modMyCore fun c => { c with l1 := [dirtyLine] }).release chan.rank).myCore.relEnd ∧ ({ reply0 with cleaned := true } : Reply).cleaned = true ∧
    reply0.borrow = none ∧ reply0.csr = none ∧ reply0.brot = false := by decide +kernel
theorem test_meets_ExitBarge_waits : waitRun (childOf fun c => { c with relEnd := 50 }).releasing = true ∧
    goneRun (childOf fun c => { c with l1 := [dirtyLine] }).releasing = true := by decide +kernel
theorem test_meets_Yields : bufState.cancelled = false ∧ (at0 id).cancelled = false ∧ (at0 id).me.pinned = false ∧ (at0 fun b => { b with moored := true }).me.pinned = true := by decide +kernel
theorem test_meets_Awaits : (framed id).cancelled = false ∧ (framed id).me.wait = none ∧ (framed id).me.fr.toNat ≠ 0 ∧ (framed id).fget 0x6000 0 4 = 0 ∧
    frank 0x6000 = (framed id).rank ∧ (counted 1 id).fget 0x6000 0 4 ≠ 0 ∧ (counted 1 id).me.pinned = false ∧
    (counted 1 id).launch (counted 1 id).me.lid = some launch7 ∧ (at0 id).me.fr.toNat = 0 ∧
    (counted 1 fun b => { b with moored := true }).me.pinned = true ∧ (counted 1 fun b => { b with moored := true }).fget 0x6000 0 4 ≠ 0 := by decide +kernel
/-- A launch with a packet in every park slot of core 0. -/
theorem park_full (l : Launch) (h : ∀ i < 4096, (0, i, packet) ∈ l.parked) : parkSlot l 0 = none :=
  List.find?_eq_none.mpr fun i hi => by simpa using ⟨packet, h i ((mem_upTo 4096 i).mp hi)⟩
theorem test_meets_Awaits_full : ∃ l, (∀ i < 4096, (0, i, packet) ∈ l) ∧ parkSlot { launch7 with parked := l } 0 = none := by
  have h : ∃ l : List (Nat × Nat × Packet), ∀ i < 4096, (0, i, packet) ∈ l :=
    ⟨(List.range 4096).map fun i => (0, i, packet), by intro i hi; simp [hi]⟩
  obtain ⟨l, h⟩ := h
  exact ⟨l, h, park_full _ h⟩
theorem test_meets_Awaits_slot : ∃ i, parkSlot launch7 0 = some i := by
  refine Option.isSome_iff_exists.mp (List.find?_isSome.mpr ⟨0, ?_, by decide⟩)
  exact (mem_upTo 4096 0).mpr (by decide)
/-- Memory in which the flags of core 0's first n frame records say LIVE, and nothing else stands. -/
def recMem : Nat → List Host.Cell
  | 0 => []
  | n + 1 => Memory.write (recMem n) (Loc.clm 0 (0x6004 + 32 * n)).key 8
def RecsLive (n : Nat) (m : List Host.Cell) : Prop :=
  (∀ i < n, Memory.read m (Loc.clm 0 (0x6004 + 32 * i)).key = 8) ∧ ∀ j, (∀ i < n, j ≠ (Loc.clm 0 (0x6004 + 32 * i)).key) → Memory.read m j = 0
theorem recMem_live (n : Nat) : Memory.wf (recMem n) = true ∧ RecsLive n (recMem n) := by
  induction n with
  | zero => exact ⟨rfl, fun i h => absurd h (Nat.not_lt_zero i), fun _ _ => rfl⟩
  | succ n ih =>
    obtain ⟨hw, h1, h2⟩ := ih
    refine ⟨Memory.wf_write _ _ _ hw, fun i hi => ?_, fun j hj => ?_⟩
    · by_cases e : i = n
      · subst e; exact Memory.read_write_self _ _ _ 0 hw
      · have hne : (Loc.clm 0 (0x6004 + 32 * i)).key ≠ (Loc.clm 0 (0x6004 + 32 * n)).key := by simp only [Loc.key]; omega
        exact (Memory.read_write_of_ne _ 0 _ _ _ hw hne).trans (h1 i (by omega))
    · exact (Memory.read_write_of_ne _ 0 _ _ _ hw (hj n n.lt_succ_self)).trans (h2 j fun i hi => hj i (by omega))
def withMem (s : State) (m : List Host.Cell) : State := { s with mem := m }
theorem recs_live (s : State) (m : List Host.Cell) (hm : RecsLive 256 m) (i : Nat) (h : i < 256) : (withMem s m).liveRec (recHandle 0 i) = true := by
  have e (k : Nat) : ((frec (recHandle 0 i)).plus 4).plus k = .clm 0 (0x6004 + 32 * i + k) := by
    simp only [frec, recHandle, Loc.plus]; congr 1 <;> omega
  have rd (k : Nat) (hk : k < 4) : (withMem s m).readByte (((frec (recHandle 0 i)).plus 4).plus k) = Memory.read m (Loc.clm 0 (0x6004 + 32 * i + k)).key := by
    have n : ¬ (0x1000 ≤ 0x6004 + 32 * i + k ∧ 0x6004 + 32 * i + k < 0x6000) := by omega
    rw [e k]
    exact if_neg n
  have z (k : Nat) (hk : 0 < k ∧ k < 4) : Memory.read m (Loc.clm 0 (0x6004 + 32 * i + k)).key = 0 :=
    hm.2 _ fun j _ => by simp only [Loc.key]; omega
  simp only [State.liveRec, State.fflag, State.fget, State.readN, rd 0 (by omega), rd 1 (by omega), rd 2 (by omega), rd 3 (by omega),
    z 1 (by omega), z 2 (by omega), z 3 (by omega), Nat.add_zero, hm.1 i h]
  decide
theorem find_none (n : Nat) (p : Nat → Bool) (h : ∀ i < n, p i = false) : (upTo n).find? p = none :=
  List.find?_eq_none.mpr fun i hi => by simp [h i ((mem_upTo n i).mp hi)]
theorem recs_full (s : State) (m : List Host.Cell) (hm : RecsLive 256 m)
    (l : (s.rank :: (ringAfter s.rank).filter fun r => r != s.rank && s.inRect s.me.lid r) = [0]) : (withMem s m).homeRec false = none := by
  have g : (withMem s m).freeRec 0 false = none := find_none 256 _ fun i hi => by simp [State.recFree, recs_live s m hm i hi]
  have e : (withMem s m).homeRec false =
    (withMem s m).firstRec false (s.rank :: (ringAfter s.rank).filter fun r => r != s.rank && s.inRect s.me.lid r) := rfl
  rw [e, l]; simp [State.firstRec, g]
theorem test_meets_SpawnCounts_full : ∃ m, RecsLive 256 m ∧ (withMem (at0 id) m).homeRec false = none := by
  have l : ((at0 id).rank :: (ringAfter (at0 id).rank).filter fun r => r != (at0 id).rank && (at0 id).inRect (at0 id).me.lid r) = [0] := by decide +kernel
  obtain ⟨m, hm⟩ : ∃ m, RecsLive 256 m := ⟨_, (recMem_live 256).2⟩
  exact ⟨m, hm, recs_full _ m hm l⟩
theorem test_meets_SpawnCounts : waitRun ((framed id).modMyCore fun c => { c with relEnd := 50 }).releasing = true ∧
    goneRun ((framed id).modMyCore fun c => { c with l1 := [dirtyLine] }).releasing = true ∧ isOk (framed id).releasing = true ∧
    (counted 0xFFFFFFFF id).fget 0x6000 0 4 = 0xFFFFFFFF ∧ frank 0x26000 ≠ (framed id).rank ∧ (launched id).homeRec false ≠ none ∧
    (at0 id).me.fr = 0 ∧ (waits (some reply0)).acked = false ∧
    ((waits none).modMyWait fun w => { w with acked := true }).acked = true := by decide +kernel
/-- Place words: here; one row down; out of the rectangle; off the device. -/
def spawns (w : Word) : State := framed (xs [(1, w)])
theorem test_meets_Spawns : Ready (spawns 0) [1] 0 ∧ isOk (spawns 0).spawnCount = true ∧ (spawns 0).acked = false ∧ (spawns 0).cancelled = false ∧ bit ((spawns 0).rx 1) 8 = false ∧ (spawns 0).me.fr ≠ 0 ∧
    frank (spawns 0).me.fr.toNat = (spawns 0).rank ∧ (spawns 0).fget (spawns 0).me.fr.toNat 0 4 ≠ 0xFFFFFFFF ∧
    (bit ((spawns 0x08000100).rx 1) 8 = true ∧ placeRank 0 (wordDy 0x08000100) (wordDx 0x08000100) = some 768 ∧ (spawns 0x08000100).inRect (spawns 0).me.lid 768 = false) ∧
    placeRank 0 (wordDy 0xFF000100) (wordDx 0xFF000100) = none ∧ (spawns 0).buffered = false :=
  ⟨ready_regs (by decide) (by decide), by decide +kernel⟩
theorem test_meets_Spawns_first : (launched id).me.fr = 0 ∧ (launched id).homeRec false = some 0x6000 ∧ frank 0x6000 = (launched id).rank ∧
    (((launched id).newRec 0x6000 false (launched id).me.header.pfh.toNat).modMe fun b => { b with fr := BitVec.ofNat 32 0x6000 }).fget 0x6000 0 4 ≠ 0xFFFFFFFF := by decide +kernel
def ranged (f : Berth → Berth) : State := (at0 fun b => f { b with hdr := some { hdr0 with pfh := 0x6000 } }).newRec 0x6000 true 0
/-- A range of 0 to 10 (x1, x2) with chunks of at least 1 and one worker. -/
def range10 : State := framed (xs [(1, 0), (2, 0x100000000000A)])
theorem test_meets_SpawnForms : (at0 fun b => { b with moored := true }).me.pinned = true ∧ (framed id).me.pinned = false ∧ isOk (framed id).spawnCount = true ∧
    sint 48 ((range10.rx (1 + 1)).toNat % 2 ^ 48) = 10 ∧ sint 48 ((range10.rx 1).toNat % 2 ^ 48) = 0 ∧ range10.homeRec true = some 0x6040 ∧
    okWith range10.spawnCount (fun t => t.homeRec true == some 0x6040) = true ∧
    ((ranged id).me.header.pfh.toNat ≠ 0 ∧ (ranged id).liveRec 0x6000 = true ∧ (ranged id).isRange 0x6000 = true ∧ (ranged id).canc 0x6000 = false) ∧
    (at0 id).me.header.pfh.toNat = 0 := by decide +kernel
/-- A range frame with 10 left of 10, chunks of at least 3, and 4 workers. -/
def claims : State := ((((ranged id).fset 0x6000 32 8 0).fset 0x6000 40 8 10).fset 0x6000 48 4 3).fset 0x6000 52 2 4
theorem test_meets_SpawnForms_cancelled : ((ranged id).fmark 0x6000 0 true).canc 0x6000 = true ∧ ((ranged id).fmark 0x6000 0 true).liveRec 0x6000 = true ∧
    ((ranged id).fmark 0x6000 0 true).isRange 0x6000 = true ∧ ((ranged id).fmark 0x6000 0 true).inBuffer 0 0 = false ∧ (ranged id).acked = false ∧
    (framed id).liveRec 0x7FE0 = false ∧ (framed id).isRange 0x6000 = false := by decide +kernel
theorem test_meets_ChunkClaims : 0 < sint 64 (claims.fget (0x6000 : BitVec 32).toNat 40 8) - sint 64 (claims.fget (0x6000 : BitVec 32).toNat 32 8) ∧
    sint 64 ((ranged id).fget (0x6000 : BitVec 32).toNat 40 8) - sint 64 ((ranged id).fget (0x6000 : BitVec 32).toNat 32 8) ≤ 0 := by decide +kernel
theorem test_chunk : see (exec (.chunkClaim 0x6000 0 0 0x10004) claims) (fun t => t.fget 0x6000 32 8) 0 = 3 := by decide +kernel
theorem test_meets_FrameMessages : (framed id).fget (0x6000 : BitVec 32).toNat 0 4 ≠ 0xFFFFFFFF ∧ ((at0 id).incRecv 0 7).liveRec 0x6000 = false ∧
    (((counted 2 id).incRecv 0 7).liveRec 0x6000 = true ∧ ((counted 2 id).incRecv 0 7).isRange 0x6000 = false ∧ 1 < ((counted 2 id).incRecv 0 7).fget 0x6000 0 4) ∧
    ((((ranged id).fset 0x6000 54 2 2).incRecv 0 7).isRange 0x6000 = true ∧ 1 < (((ranged id).fset 0x6000 54 2 2).incRecv 0 7).fget 0x6000 54 2) := by decide +kernel
theorem test_meets_FrameMessages_last : (((ranged id).fset 0x6000 54 2 1).incRecv 0 7).isRange 0x6000 = true ∧
    (((ranged id).fset 0x6000 54 2 1).incRecv 0 7).liveRec 0x6000 = true ∧ (((ranged id).fset 0x6000 54 2 1).incRecv 0 7).fget 0x6000 54 2 = 1 ∧
    ((counted 1 id).incRecv 0 7).fget 0x6000 0 4 = 1 ∧ (counted 0xFFFFFFFF id).fget (0x6000 : BitVec 32).toNat 0 4 = 0xFFFFFFFF ∧
    ((counted 1 id).fmark 0x6000 2 true).fflag 0x6000 2 = true ∧ (counted 1 id).fflag 0x6000 2 = false ∧
    ((((counted 1 id).modMyCore fun c => { c with orphans := [0x6000] })).core (frank 0x6000)).orphans.contains 0x6000 = true := by decide +kernel
def parked : State := { at0 id with launches := [{ launch7 with parked := [(5, 0, packet)] }] }
theorem test_meets_Resumes : (at0 id).launch 7 = none ∧ parked.launch 7 = some { launch7 with parked := [(5, 0, packet)] } ∧
    [(5, 0, packet)].find? (fun e => e.1 == 5 && e.2.1 == 0) = some (5, 0, packet) ∧
    (packet.hdr.cl && packet.hdr.pfh != 0 && parked.canc packet.hdr.pfh.toNat) = false := by decide +kernel
def queued (n : Nat) (f : Core → Core := id) : State :=
  (State.reset.modCore 1 fun c => f { c with cap := 64, queue := (upTo n).map fun i => ⟨i, { packet with hdr := { hdr0 with stl := true } }, i, none⟩ })
theorem test_meets_Arrivals : ({ at0 id with launches := [{ launch7 with cancel := true }] } : State).dropsBarges packet.hdr.lid.toNat = true ∧
    (at0 id).dropsBarges packet.hdr.lid.toNat = false := by decide +kernel
theorem test_meets_QueueEntry : ((queued 63).core 1).spillq = [] ∧ ((queued 63).core 1).queue.length < ((queued 63).core 1).cap ∧
    ((queued 64).core 1).cap ≤ ((queued 64).core 1).queue.length ∧ (queued 64).launch packet.hdr.lid.toNat = none ∧
    spillReady (queued 32 fun c => { c with spillq := [(packet, 3, 0)] }) 1 = true ∧ spillReady (queued 33 fun c => { c with spillq := [(packet, 3, 0)] }) 1 = false ∧
    ((queued 64 fun c => { c with overq := [packet] }).core 1).overq ≠ [] ∧ ((queued 64).core 1).overq = [] ∧ ((queued 64).core 1).spillq.length < 4096 ∧
    (queued 63).dropsBarges packet.hdr.lid.toNat = false := by decide +kernel
theorem test_meets_QueueEntry_more : segFull ((queued 64 fun c => { c with overq := [packet] }).core 1) 7 = true ∧ segFull ((queued 64).core 1) 7 = false ∧
    ((queued 64).core 1).queue.length = 64 ∧ ((queued 2).core 1).queue.length < 64 ∧ ({ queued 64 with launches := [launch7] } : State).launch 7 = some launch7 ∧
    ((queued 33 fun c => { c with spillq := [(packet, 3, 0)], spillAt := some 0 }).core 1).spillAt = some 0 ∧
    spillReady (queued 33 fun c => { c with spillq := [(packet, 3, 0)], spillAt := some 0 }) 1 = true ∧ ((queued 2).core 1).spillAt = none := by decide +kernel
theorem test_spill_returns : see (exec (.spillReturn 1) (queued 32 fun c => { c with spillq := (upTo 9).map fun i => (packet, 3, i) }))
    (fun t => ((t.core 1).queue.length, (t.core 1).spillq.length, (t.core 1).spillAt)) (0, 0, none) = (40, 1, some 1) := by decide +kernel
def docks : State := let s := queued 2 fun c => { c with corecfg := 0xFFFF }; { s with lock := { s.lock with ready := [0] } }
theorem test_meets_Docks : dockReady docks 1 = true ∧ dockBerth docks.cycle (docks.core 1) = some 0 ∧
    (∃ e, dockChoice docks.cycle (docks.core 1).queue 0 = some e ∧ e.pk.norule = false) := by
  refine ⟨by decide +kernel, by decide +kernel, ⟨⟨0, { packet with hdr := { hdr0 with stl := true } }, 0, none⟩, ?_⟩⟩
  decide +kernel
theorem test_docking : see (exec (.docking 1) docks) (fun t => ((t.berthAt 1 0).pc, (t.berthAt 1 0).tstat, (t.berthAt 1 0).readyAt)) (0, 0, 0) = (0x10000, 4, 10) := by
  decide +kernel
/-- Core 0's idle neighbour has two candidates. -/
def thief : State := { (queued 2).modCore 0 fun c => { c with corecfg := 0xFFFF } with launches := [launch7] }
theorem test_meets_Steals : stealReady thief 0 = true ∧ stealServeReady (thief.modCluster 0 fun c => { c with steals := [0] }) 0 = true ∧
    victimOf thief 0 (ringRanks 0) = some 1 ∧ victimOf (queued 0) 0 (ringRanks 0) = none ∧
    (minBy (fun e => e.arr * 64 + e.slot) (stealable thief 0 1)).map QEnt.slot = some 0 := by decide +kernel
theorem test_exit : see (exec .exit (at0 id)) (fun t => t.me.hdr.isNone) false = true := by decide +kernel
theorem test_spawn : see (exec (.spawn 1 4) (spawns 0)) (fun t => (t.fget 0x6000 0 4, (t.core 0).queue.map (fun e => e.pk.pc))) (0, []) = (1, [0x10010]) := by decide +kernel
theorem test_place : xOf (exec (.place 6 1 2) places) 6 = 0x000F0000054FFFFF := by decide +kernel
theorem test_rankof : xOf (exec (.rankof 6 0 0x80) places) 6 = 96 := by decide +kernel
theorem test_rankof_outside : xOf (exec (.rankof 6 0 0x7F) places) 6 = 0xFFFFFFFFFFFFFFFF := by decide +kernel
theorem test_unmoor_holding : causeOf (exec .unmoor borrows) = 0 ∧ see (exec .unmoor borrows) (fun t => t.me.tval) 0 = 0xB8000004 := by decide +kernel

/-! ### Matrix instructions -/

/-- The barge owns accumulator 7; its core's latch half 1 is FULL. -/
def owner (f : Core → Core) (l : List (Nat × Word)) : State := ((at0 fun b => { xs l b with moored := true }).modMyCore fun c =>
  f ((c.setAcc 7 { c.acc 7 with owner := some 0 }).setHalf 1 { c.half 1 with st := .full }))
def mats : State := owner id [(1, 0x000E000000008000), (2, 0x000E00000001F000), (3, 2), (4, 0x000E00000001FF80), (5, 66)]
theorem test_meets_Accumulators : (mats.myCore.acc 6).owner = none ∧ (mats.myCore.acc 6).relp = false ∧ mats.earlier (.acq mats.rank 6) = false ∧
    mats.owns 7 = true ∧ mats.accBusy mats.rank 7 = false ∧ (mats.myCore.acc 7).pois.getLsbD ((mats.rx 3).toNat % 32) = false ∧ mats.owns 0 = false ∧
    mats.buffered = false := by decide +kernel
theorem test_meets_AccumulatorMemory : (mats.rx 2).toNat = 14 * 2 ^ 48 + 0x1F000 ∧ 0x8000 ≤ 0x1F000 ∧ 0x1F000 % 128 = 0 ∧ 0x1F000 + 4096 ≤ 0x20000 ∧
    poisonRows mats mats.rank 0x1F000 32 = 0 ∧ 0x8000 + 1024 * (astFmt (0 : BitVec 4).toNat).2 ≤ 0x20000 ∧
    (mats.matrixReads 0x8000 (1024 * (astFmt (0 : BitVec 4).toNat).2)) = false := by decide +kernel
def sends (d : Option Nat) : State := owner (fun c => { c.setHalf 0 { c.half 0 with st := .full, desc := 0 } with sends := [⟨0, 0, false, d⟩] }) []
/-- An MMA of two steps whose step `st` ends in cycle 4, and one that has not started. -/
def mma0 (st : Nat) : Mma := ⟨0, 7, 0, 0x000E000000008000, 0, 2, false, false, 1, 0, 0, st, 4, 0, none, 0, 0, none, false⟩
def multiplying (st : Nat) : State := { owner (fun c => { c with mq := [mma0 st] }) [] with cycle := 4 }
def multiplies : State := owner (fun c => { c with mq := [{ mma0 0 with due := 0 }] }) []
theorem test_meets_LatchFills : (mats.rx 1).toNat = 14 * 2 ^ 48 + 0x8000 ∧ 0x8000 + descBytes ((mats.rx 3).toNat % 128) ≤ 0x20000 ∧
    mats.mayFill mats.rank (fillTarget mats 2) mats.issueSeq = true ∧ mats.myWait = none ∧
    (sends none).mayFill 0 0 (sends none).issueSeq = false ∧ ((sends none).core 0).curh = 0 ∧ ((mats.core 0).half 0).fill = none ∧
    (((owner (fun c => c.setHalf 0 { c.half 0 with st := .filling, fill := some (0, 0x8000, 2, 9, true) }) []).core 0).half 0).fill =
      some (0, 0x8000, 2, 9, true) ∧ descSc 42 = true ∧ descSc 2 = false := by decide +kernel
theorem test_meets_LatchFills_wait : ∃ w, (at0 fun b => { b with wait := some (wait0 (.fill 1) none) }).myWait = some w ∧ w.why = .fill 1 := ⟨_, rfl, rfl⟩
/-- Core 0's BROT of a ring send, not started or ending in cycle 9. -/
def asks (d : Option Nat) : Send := ⟨0, 0, false, d⟩
def brots (f : Core → Core) : State := owner (fun c => f { c with brot := some ⟨0, 0, 0, false, true, false⟩, sends := [asks none] }) []
def brotWait : Wait := let w := startWait .brot 1 0; { w with issued := { w.issued with latch := .brot } }
/-- That BROT waits. -/
def brotsWait (f : Core → Core) : State := (brots f).modBerth 0 0 fun b => { b with wait := some brotWait }
/-- Core 0's berth 1 has issued a BROT before, which waits. -/
def behind : State := { mats.modBerth 0 1 (fun b => { b with wait := some brotWait }) with ticket := 5 }
theorem test_meets_LatchSwaps : myBrot mats = false ∧ mats.myCore.brot = none ∧ brotBefore mats = false ∧
    (mats.myCore.half (1 - mats.myCore.curh)).st = .full ∧ mats.myCore.curh < 2 ∧ mats.fillBefore mats.rank (1 - mats.myCore.curh) mats.issueSeq = false ∧ brotBefore behind = true ∧
    ((at0 id).myCore.half (1 - (at0 id).myCore.curh)).st ≠ .full ∧ mats.myCore.sdone = false ∧
    myBrot { brots id with berth := 1 } = false ∧ (brots id).myCore.brot ≠ none := by decide +kernel
theorem test_meets_LatchRing : ringSendReady (sends none) 0 = true ∧ 0 ≠ ringNext 0 ∧ ((sends none).core 0).sends = [asks none] ∧ ringSendReady mats 0 = false ∧
    ((sends (some 9)).core 0).sends = [asks (some 9)] ∧ (asks (some 9)).till ≠ none ∧ (asks none).till = none ∧
    descSc ((sends none).core 0).curh = false ∧ ((((owner (fun c => { c.setHalf 0 { c.half 0 with st := .draining, desc := 2 } with
      sends := [{ asks (some 9) with full := true }] }) []).core 0).half 0).st = .draining) := by decide +kernel
theorem test_meets_BrotTimeouts : brotStalled mats 0 = none ∧ brotStalled { brotsWait id with cycle := 0x1000000 } 0 = some 0 ∧
    ((brotsWait id).core 0).probecfg.getLsbD 1 = false ∧ ((brotsWait fun c => { c with probecfg := 2 }).core 0).probecfg.getLsbD 1 = true ∧
    (brotsWait id).myCore.brot.map Brot.buffered = some false := by decide +kernel
theorem test_meets_MmaIssue : mats.owns (7 : BitVec 3).toNat = true ∧ mats.me.pte = false ∧ (mats.rx 2).toNat = 14 * 2 ^ 48 + 0x1F000 ∧
    0x8000 + ((7 : BitVec 3).toNat + 1) * 128 * 16 ≤ 0x20000 ∧ ((mats.rx 4).toNat = 14 * 2 ^ 48 + 0x1FF80 ∧ 0x1FF80 % 128 = 0 ∧ 0x1FF80 + 128 * ((0 : BitVec 3).toNat + 1) ≤ 0x20000) ∧
    accQueued mats (7 : BitVec 3).toNat = false ∧ accQueued multiplies (7 : BitVec 3).toNat = true ∧ mats.buffered = false ∧ mats.myWait = none ∧
    mats.owns (0 : BitVec 3).toNat = false := by
  decide +kernel
theorem test_meets_MmaSteps : mmaDue (multiplying 0) 0 = true ∧ (mma0 0).due ≠ 0 ∧ (mma0 0).acc < 8 ∧ (mma0 0).st + 1 < (mma0 0).n ∧
    mmaDue (multiplying 1) 0 = true ∧ (mma0 1).n ≤ (mma0 1).st + 1 ∧ (multiplying 1).poison = [] ∧ (((multiplying 1).core 0).half (mma0 1).half).pois = false ∧
    (mma0 1).pois = 0 ∧ (((multiplying 1).core 0).acc (mma0 1).acc).pois = 0 ∧ (mma0 1).bufAt = none := by decide +kernel
/-- An MMA with the poison trap on at its last step, its B tile or a unit of its A tile poisoned, or poisoned in a step before. -/
def wideMma (first : Option Word) : Mma := { mma0 1 with wide := true, first := first, pois := if first.isSome then 1 else 0 }
def poisonedMma (half : Bool) (first : Option Word) : State :=
  let s := (multiplying 1).modMyCore fun c => { c.setHalf 1 { c.half 1 with pois := half } with mq := [wideMma first] }
  if half then s else s.setPoison (.clm 0 0x8808) true
theorem test_meets_MmaSteps_poison : mmaDue (poisonedMma true none) 0 = true ∧ (wideMma none).wide = true ∧ (wideMma none).n ≤ (wideMma none).st + 1 ∧
    (((poisonedMma true none).core 0).half (wideMma none).half).pois = true ∧ (poisonedMma true none).poison = [] ∧
    (poisonedMma false none).poisoned (.clm 0 (0x8000 + 128 * 16 * 1 + 8 * 1)) = true ∧ mmaBitsA (wideMma none).fmt = 16 ∧
    (wideMma (some 0x8008)).pois.getLsbD 0 = true ∧ (wideMma (some 0x8008)).first = some 0x8008 := by decide +kernel
theorem test_meets_Accumulators_busy : multiplies.owns 7 = true ∧ multiplies.accBusy multiplies.rank 7 = true ∧
    (mats.modMe fun b => { b with wait := some { startWait .slow 1 0 with issued := { (startWait .slow 1 0).issued with acc := some 7 } } }).accBusy 0 7 = true := by
  decide +kernel
theorem test_meets_LatchFills_held : (mats.modMyCore fun c => c.setHalf 0 { c.half 0 with st := .filling, fill := some (1, 0x8000, 2, 9, false) }).mayFill 0 0 0 = false ∧
    (0x10000 : Nat) + descBytes ((mats.rx 3).toNat % 128) ≤ 0x20000 := by decide +kernel
theorem test_acq : see (exec (.acq 6) mats) (fun t => ((t.myCore.acc 6).owner, t.me.moored)) (none, false) = (some 0, true) := by decide +kernel
theorem test_azero : see (exec (.azero 7) (owner (fun c => c.setAcc 7 { c.acc 7 with data := 5, pois := 3 }) [])) (fun t => ((t.myCore.acc 7).data == 0, (t.myCore.acc 7).pois)) (false, 9) =
    (true, 0) := by decide +kernel
/-- An ILL of these reports the instruction's word (R286). -/
theorem test_ill_words : ([Instr.mmaX4 0 4 5 1 1 7, .mmaBf 0 3 0 1 2, .apois 6 0, .arow 3 0 2, .spawnc 4, .nextch 2].all fun i =>
    see (exec i (at0 fun b => { b with moored := true, borrowed := some 1 })) (fun t => t.me.tcause == 0 && t.me.tval == (encode i).setWidth 64) false) = true := by
  decide +kernel
theorem test_rel_not_owned : causeOf (exec (.rel 0) mats) = 0 := by decide +kernel
theorem test_mma_queued : see (exec (.mmaBf 7 1 0 0 0) mats) (fun t => t.myCore.mq.map Mma.n) [] = [1] := by decide +kernel

/-! ### Channels, probes, barriers and the sluice -/

def port2 : State := launched fun b => bind 0 ⟨true, 1, 0, 4, false, [7], 0, []⟩ (bind 4 ⟨true, 1, 0, 0, false, [], 2, []⟩ (bind 5 ⟨true, 1, 0, 1, false, [], 0, []⟩ b))
theorem test_meets_Channels : port2.myCore.shut = false ∧ (port port2.me (3 : BitVec 3).toNat).bound = false ∧ placeRank port2.rank (fieldDy 0x001) (fieldDx 0x001) = some 1 ∧
    port2.inRect port2.me.lid 1 = true ∧ (port port2.me (0 : BitVec 3).toNat).bound = true ∧ port2.buffered = false ∧
    ((port port2.me ((24 : BitVec 5).toNat - 24)).bound = true ∧ (24 : BitVec 5).toNat - 24 < 4) ∧
    ((port port2.me ((29 : BitVec 5).toNat - 24)).bound = true ∧ (port port2.me ((29 : BitVec 5).toNat - 24)).undel = 0) ∧
    (port port2.me ((31 : BitVec 5).toNat - 24)).bound = false ∧ fieldInd 0x4000 = true := by decide +kernel
/-- A far port on the core and one elsewhere, a held entry, and a core that has been stopped. -/
theorem test_meets_Pushes : (port chan.me 4).frank = chan.rank ∧ (port port2.me 5).frank ≠ port2.rank ∧ (24 : BitVec 5).toNat = 24 + 0 ∧
    (port chan.me 0).q ≠ [] ∧ 0 < chan.leaveIn ∧ ((at0 id).modMyCore fun c => { c with pre := .stopped }).myCore.shut = true := by decide +kernel
theorem test_push_unbound : see (exec (.channelEntryArrival 0 1 0 0 0 4 7 9) (chan.modPort 0 1 0 fun q => { q with fberth := 2 }))
    (fun t => ((port (t.berthAt 0 1) 0).q, (t.counts 0 7).recv)) ([9], 0) = ([], 1) := by decide +kernel
theorem test_meets_ChannelMessages : port2.boundTo 0 0 0 1 0 4 = true ∧ port2.boundTo 0 0 4 1 0 0 = true ∧ port2.boundTo 0 0 7 1 0 0 = false ∧ port2.boundTo 1 0 0 0 0 7 = false := by
  decide +kernel
/-- The barge waits for an entry at qi0 from core 1's berth 3. -/
def blocked : State := { (at0 fun b => bind 0 ⟨true, 1, 3, 4, false, [], 0, []⟩ { b with wait := some (startWait (.chan 0) 1 0) }).modMyCore
  (fun c => { c with probecfg := 0x21 }) with cycle := 3 }
/-- A word of its block in the repetition buffer waits for accumulator 1, which berth 3 owns. -/
def stuck : State := { bufState.modMyCore (fun c => { (c.setAcc 1 { c.acc 1 with owner := some 3 }) with
  probecfg := 0x21, buffer := some ⟨0, 0, bufBlock, some (startWait (.acq 0 1) 1 0), 0⟩ }) with cycle := 3 }
theorem test_meets_DeadlockProbes_buffer : probeDue stuck 0 0 = true ∧ blockedOn stuck 0 0 = some (startWait (.acq 0 1) 1 0, (0, 3), true) := by decide +kernel
theorem test_meets_DeadlockProbes_wait : blockedOn blocked 0 0 = some (startWait (.chan 0) 1 0, (1, 3), false) := by decide +kernel
theorem test_meets_DeadlockProbes : probeDue blocked 0 0 = true ∧ probeDue (at0 id) 0 0 = false ∧ waitEdge blocked 0 0 = some (1, 3) ∧ waitEdge (at0 id) 0 0 = none ∧
    [probeId 1 3].head? ≠ some (probeId 0 0) ∧ [probeId 0 0, probeId 1 3].head? = some (probeId 0 0) ∧ (List.replicate 16 (probeId 0 0)).length ≤ 16 := by decide +kernel
theorem test_meets_DeadlockProbes_mem : blocked.memOk := rfl
theorem test_meets_BarrierInstructions : 1 ≤ ((withX [(1, 256)]).rx 1).toNat % 512 ∧ ((withX [(1, 256)]).rx 1).toNat % 512 ≤ 256 ∧
    ((withX []).rx 1).toNat % 512 = 0 ∧ 256 < ((withX [(1, 257)]).rx 1).toNat % 512 ∧ (withX []).buffered = false ∧
    okWith (withX []).releasing (fun _ => true) = true ∧ (withX []).myWait = none := by decide +kernel
/-- CBARCFG's request, under way to the unit and there. -/
def asksBar : State := at0 fun b => { xs [(1, 256)] b with wait := some (startWait (.remote 13) 1 0) }
theorem test_meets_BarrierInstructions_wait : asksBar.myWait = some (startWait (.remote 13) 1 0) ∧ asksBar.cycle < 13 ∧ ({ asksBar with cycle := 13 } : State).cycle = 13 := by
  refine ⟨rfl, ?_⟩; decide +kernel
/-- Berths 0 and 1 of core 0 wait at barrier 3, whose count is 2; berth 1 has arrived. -/
def barred (n : Nat) : State := modBarrier ((at0 fun b => { b with wait := some { startWait (.barrier 0 3) 2 0 with hold := true } }).modBerth 0 1 fun b =>
  { b with wait := some { startWait (.barrier 0 3) 1 0 with hold := true } }) 0 3 fun k => { k with count := n, arr := 1, waiters := [(0, 1)] }
theorem test_meets_BarrierArrivals : atBarrier (barred 2) 0 0 0 3 = true ∧ atBarrier (barred 2) 0 2 0 3 = false ∧ (0, 0) ∉ (barrier ((barred 2).cluster 0) 3).waiters ∧
    (barrier ((barred 3).cluster 0) 3).arr + 1 < (barrier ((barred 3).cluster 0) 3).count ∧
    (barrier ((barred 2).cluster 0) 3).count ≤ (barrier ((barred 2).cluster 0) 3).arr + 1 ∧ ((barred 2).berthAt 0 1).wait ≠ none := by decide +kernel
def late (bste : Bool) : State := { (barred 3).modCore 0 (fun c => { c with probecfg := if bste then 2 else 0 }) with cycle := 1 }
theorem test_meets_BarrierTimeouts : barrierStalled (barred 3) 0 3 = false ∧ barrierStalled (late false) 0 3 = true ∧
    (∀ e ∈ (barrier ((late false).cluster 0) 3).waiters, ((late false).core e.1).probecfg.getLsbD 1 = false) ∧
    barrierStalled (late true) 0 3 = true ∧ (barrier ((late true).cluster 0) 3).waiters = [(0, 1)] ∧ ((late true).core 0).probecfg.getLsbD 1 = true := by decide +kernel
def copies : State := withX [(1, 0x000E000000008000), (2, 0x000E00000001FFF0), (3, 16), (4, 4), (5, 0x1234)]
theorem test_meets_SluiceInstructions : ((copies.rx 2).toNat = 14 * 2 ^ 48 + 0x1FFF0 ∧ 0x1FFF0 + (copies.rx 3).toNat % 2 ^ 32 ≤ 0x20000) ∧
    (copies.rx 1).toNat = 14 * 2 ^ 48 + 0x8000 ∧ sluSlot (copies.cluster (clusterOf copies.rank)) = some 0 ∧ copies.earlier (.slot (clusterOf copies.rank)) = false ∧
    (copies.rx 4).toNat % 8 ≠ 0 ∧ (copies.rx 4).toNat / 2 ^ 22 % 2 ^ 10 < 576 ∧ sluFind copies (copies.rx 4) = none ∧ okWith copies.releasing (fun _ => true) = true := by decide +kernel
def filling (st : SluSt) : State := (withX [(1, 64)]).modCluster 0 fun c => { c with
  slu := [(0, ⟨1, st, some 0x55, 0x000E000000008000, 0, 16, 0, false, 0, 7, 2, true, 0, []⟩)] }
theorem test_meets_SluiceCancel : (sluFind (filling .queued) ((filling .queued).rx 1)).map (fun e => e.2.2.st) = some .queued ∧
    (sluFind (filling .running) ((filling .running).rx 1)).map (fun e => e.2.2.st) = some .running := by decide +kernel
theorem test_meets_SluiceBursts : sluDue (at0 id) 0 = false ∧ sluDue (filling .queued) 0 = true ∧ ((filling .queued).cluster 0).sluAt ≤ (filling .queued).cycle ∧
    ((filling .queued).cluster 0).slu.length = 1 ∧ ((filling .queued).held.any fun e => burstOf e.2 == some 0) = false := by decide +kernel
theorem test_meets_SluiceBursts_mem : (filling .queued).memOk := rfl
theorem test_fill_burst : see (exec (.sluiceBurst 0) (filling .queued)) (fun t => (t.readN (.clm 0 0x8008) 8, t.readN (.clm 0 0x8010) 8)) (0, 0) = (0x55, 0) := by decide +kernel
theorem test_chbind : see (exec (.chbind 3 1 0 0x001) port2) (fun t => (port t.me 3).frank) 9 = 1 ∧ causeOf (exec (.chbind 0 1 0 0x001) port2) = 14 := by decide +kernel
theorem test_cbarcfg : (fun o => (xOf (done o) 6, see o (fun t => (barrier (t.cluster 0) 3).count) 0)) (again (.cbarcfg 6 1 3) 13 (exec (.cbarcfg 6 1 3) (withX [(1, 256)]))) =
    (barWord (barrier ((at0 id).cluster 0) 3), 256) := by decide +kernel
theorem test_cbarcfg_way : see (exec (.cbarcfg 6 1 3) (withX [(1, 256)])) (fun t => ((barrier (t.cluster 0) 3).count, t.me.wait.map Wait.why)) (0, none) =
    ((barrier ((at0 id).cluster 0) 3).count, some (.remote 13)) := by decide +kernel
theorem test_sluStat_stale : xOf (done (again (.sluStat 6 4) 13 (exec (.sluStat 6 4) copies))) 6 = 6 := by decide +kernel

/-! ### The net -/

def pool7 : Pool := ⟨7, 512, 8, [4, 5, 6, 7], [0, 1, 2, 3], 4, 0, 9, 0, 0, false⟩
/-- Launch 7 has a pool of 8 slots on cores 0 and 1, four of them nodes with a header of kind 5. -/
def netState (l : List (Nat × Word)) : State :=
  let s := ((launched (xs l)).modCore 0 fun c => { c with pools := [pool7] }).modCore 1 fun c => { c with pools := [pool7] }
  [0x8000, 0x8040, 0x8080, 0x80C0, 0x20000 + 0x8040].foldl (fun t a => t.netWrite a 0x0050000000070000) s
def node0 : Word := 0x000F000000008000
theorem test_meets_Slots : (1 ≤ (0x0010000000000000 : Word).toNat / 2 ^ 52 ∧ (0xFFC0000000000000 : Word).toNat / 2 ^ 52 ≤ 4092) ∧ (0 : Word).toNat / 2 ^ 52 = 0 ∧
    4092 < (0xFFD0000000000000 : Word).toNat / 2 ^ 52 ∧ (netState []).pool 0 7 = some pool7 ∧ pool7.busy ≤ (netState []).cycle ∧ (netState []).me.lid = 7 ∧
    poolBusy (netState []) 0 7 = false ∧ poolBusy (launched id) 0 7 = false ∧ (netState []).buffered = false := by decide +kernel
theorem test_meets_Slots_full : allocCore (launched id) = none := by decide +kernel
theorem test_meets_Slots_free : inStore (netState []) 0x8040 = true ∧ 1 ≤ ((netState []).netRead 0x8040).toNat / 2 ^ 52 ∧ ((netState []).netRead 0x8040).toNat / 2 ^ 52 ≤ 4092 ∧
    ((netState []).netRead 0x8040).toNat / 2 ^ 16 % 2 ^ 16 = (netState []).me.lid ∧ (netState []).slotHeld 0x8040 = false ∧ netRank 0x8040 = (netState []).rank := by decide +kernel
/-- The rank table marks the cluster of ranks 0 to 15 valid. -/
def reachable (s : State) : State := { s with lock := { s.lock with ranks := [(0, ⟨true, false, 0⟩)] } }
/-- Core 0's own pool is used up, and its request for a slot stands at core 1. -/
def there : State := ((reachable (netState [])).modCore 0 fun c => { c with pools := [{ pool7 with free := [], count := 0 }] }).modMe fun b =>
  { b with wait := some (startWait (.remote 0) 1 0) }
theorem test_meets_Slots_far : inStore (netState []) 0x28040 = true ∧ ((netState []).netRead 0x28040).toNat / 2 ^ 16 % 2 ^ 16 = 7 ∧ (netState []).slotHeld 0x28040 = false ∧
    netRank 0x28040 ≠ (netState []).rank ∧ (reachable (netState [])).rankHeld (netRank 0x28040) = false ∧ (netState []).pool (netRank 0x28040) 7 = some pool7 ∧
    (netState []).myWait = none ∧ okWith (there.atHome 1) (fun _ => true) = true ∧ okWith (there.arrives 1 20) (fun _ => true) = true ∧
    allocCore there = some (1, 0) ∧ poolBusy there 0 7 = false := by
  decide +kernel
def allocs : State := netState [(1, 0x0050000000000000)]
theorem test_meets_FreshNode : 512 ≤ pool7.base ∧ 4 < pool7.slots ∧ pool7.base + pool7.slots ≤ 2048 ∧ ∃ t, exec (.alloc 2 1) allocs = .next t :=
  ⟨by decide, by decide, by decide, isNext_ex (by decide +kernel)⟩
theorem test_meets_FreshNode_mem : (launched id).memOk := rfl
theorem test_alloc : (fun o => (xOf o 2, see o (fun t => t.netRead 0x8100) 0)) (exec (.alloc 2 1) allocs) = (0x000F000000008100, 0x0050000000070000) := by decide +kernel
theorem test_meets_PortWords : (netState []).rx 0 = 0 ∧ (netState []).rank < 9216 ∧ (netState []).inRect 7 0 = true ∧
    (node0.toNat = 15 * 2 ^ 48 + 0x8000 ∧ 0x8000 % 64 = 0) ∧ ((node0 + 8).toNat = 15 * 2 ^ 48 + 0x8008 ∧ 0x8008 % 64 ≠ 0) ∧
    (0xFFD : Word).toNat % 2 ^ 12 = 0xFFD ∧ (0xFFC : Word).toNat % 2 ^ 12 ≤ 4092 ∧ (0x1000 : Word).toNat % 2 ^ 12 = 0 := by decide +kernel
theorem test_meets_Audits : auditDue { netState [] with cycle := 9 } 0 7 = true ∧ auditDue (netState []) 0 7 = false ∧ pool7.bad = false := by decide +kernel
def tombs : State := (netState []).netWrite 0x8040 0xFFF0000000000000
theorem test_meets_SlotReturns : (at0 id).pool 0 7 = none ∧ tombs.pool 0 7 = some pool7 ∧ (tombs.netRead (0 * 131072 + 64 * (pool7.base + 1))).toNat / 2 ^ 52 = 0xFFF ∧
    (tombs.netRead (0 * 131072 + 64 * (pool7.base + 2))).toNat / 2 ^ 52 ≠ 0xFFF ∧
    ((netState []).modCore 0 fun c => { c with pools := [{ pool7 with busy := 5 }] }).cycle < 5 := by decide +kernel
theorem test_audit : see (done (exec (.netaud 2) tombs)) (fun t => (vget t.me.x 2 0, (t.pool 0 7).map Pool.used)) (9, none) = (1, some [0, 2, 3]) := by
  decide +kernel
theorem test_meets_RuleEnd : (at0 fun b => { b with hdr := some { hdr0 with kind := .pair } }).me.hdr = some { hdr0 with kind := .pair } ∧
    (at0 id).me.hdr = some hdr0 ∧ hdr0.kind ≠ .pair ∧
    okWith (at0 fun b => { b with hdr := some { hdr0 with kind := .pair } }).releasing (fun t => !t.inBuffer t.rank t.berth) = true := by decide +kernel
def pairBarge (f : Core → Core) : State := (at0 fun b => { b with hdr := some { hdr0 with kind := .pair } }).modMyCore f
theorem test_meets_RuleEnd_buffer : (bufState.modMe fun b => { b with hdr := some { hdr0 with kind := .pair } }).inBuffer 0 0 = true := by decide +kernel
theorem test_meets_RuleEnd_waits : waitRun (pairBarge fun c => { c with relEnd := 50 }).releasing = true ∧
    goneRun (pairBarge fun c => { c with l1 := [dirtyLine] }).releasing = true ∧ (pairBarge id).me.header.pfh = 0 := by decide +kernel
/-- A link sequence holds word 1 of the slot at 0x8040; its header is poisoned; its pool's bitmap was lost. -/
theorem test_meets_Slots_held : ((netState []).netWrite 0x8048 (busyWord 0)).slotHeld 0x8040 = true ∧
    ((netState []).setPoison (netLoc 0x8040) true).poisoned (netLoc 0x8040) = true ∧
    (((netState []).modPool 0 7 fun p => { p with bad := true }).pool 0 7).map Pool.bad = some true ∧
    (netState []).me.lid = 7 ∧ (netState []).rank = 0 := by decide +kernel
/-- Auxiliary ports 0x8010 and 0x8050 are wired to each other, as are 0x8090 and 0x80D0. -/
def wired (l : List (Nat × Word)) : State := ((((netState l).netWrite 0x8010 (auxWord 0x8050)).netWrite 0x8050 (auxWord 0x8010)).netWrite 0x8090 (auxWord 0x80D0)).netWrite
  0x80D0 (auxWord 0x8090)
theorem test_meets_OwnAux : OwnAux (wired []) 0x8010 ∧ OwnAux (wired []) 0x8050 ∧ OwnAux (wired []) 0x8090 ∧ OwnAux (wired []) 0x80D0 := by
  unfold OwnAux; decide +kernel
theorem test_meets_OwnNode : OwnNode (netState []) node0 0x8000 ∧ OwnNode (netState []) (node0 + 0xC0) 0x80C0 := by unfold OwnNode; decide +kernel
/-- That barge's link sequence, with the answers it has so far, has a step that started in cycle 8 and acts in cycle 11. -/
def linking (l : List (Nat × Word)) (log : List (Word × Bool)) : State :=
  { ((wired l).modMe fun b => { b with wait := some (startWait (.sequence 11 8 log) 1 0) }) with cycle := 11 }
theorem test_meets_Links : (wired [(1, auxWord 0x8010)]).rx 1 = auxWord 0x8010 ∧ (portTag nulWord = 3 ∧ portTag 0x8005000000000003 = 4 ∧ badEnd 0x8005000000000003 = false) ∧
    (at0 id).dropsBarges (at0 id).me.lid = false := by decide +kernel
theorem test_meets_SequencesStart : seqRuns (wired []) = none ∧ okWith (wired []).releasing (fun t => !seqTaken t) = true ∧
    (wired []).cycle < max (wired []).startAt (wired []).myCore.seqAt + 3 ∧
    okWith ((wired []).modBerth 0 1 fun b => { b with wait := some (startWait (.sequence 11 8 []) 1 0) }).releasing (fun t => seqTaken t) = true := by
  decide +kernel
/-- Every step of a sequence: its wait, with the answers of those before it, and what it finds in its word. -/
theorem test_meets_LocalLinks (log : List (Word × Bool)) : (linking [] log).myWait = some (startWait (.sequence 11 8 log) 1 0) ∧
    (startWait (.sequence 11 8 log) 1 0).why = .sequence 11 8 log ∧ (linking [] log).cycle = 8 + 3 ∧ ({ linking [] log with cycle := 9 } : State).cycle < 8 + 3 :=
  ⟨rfl, rfl, rfl, by show 9 < 11; omega⟩
theorem test_meets_LocalLinks_words : (linking [] []).netRead 0x8010 = auxWord 0x8050 ∧ (linking [] []).netRead 0x8050 = auxWord 0x8010 ∧
    (linking [] []).netRead 0x8090 = auxWord 0x80D0 ∧ (linking [] []).netRead 0x80D0 = auxWord 0x8090 ∧
    (((linking [] []).netWrite 0x8090 (busyWord 0x8010)).netRead 0x8090) = busyWord 0x8010 := by decide +kernel
theorem test_meets_LocalLinks_principal : (wired [(1, auxWord 0x8010), (2, w64 (2 ^ 61 + 0x8080))]).rx 2 = w64 (2 ^ 61 + 0x8080) ∧
    netRank 0x8080 = (wired []).rank ∧ 0x8080 % 64 = 0 := by decide +kernel
/-- A launch whose rule table has an entry for two principal ports. -/
def tabled (c : Nat) (log : List (Word × Bool)) : State := { linking [(1, nulWord), (2, nulWord)] log with launches := [{ launch7 with rules := 0x40000, k := 4 }], cycle := c }
theorem test_meets_ActivePairs : (linking [(1, nulWord), (2, nulWord)] []).rx 1 = nulWord ∧ (linking [(1, nulWord), (2, nulWord)] []).rx 2 = nulWord ∧
    ruleAddr (myLaunch (linking [] [])) 0xFFD 0xFFD = none ∧ 8 ≤ (linking [] []).cycle ∧ ((linking [] []).release (linking [] []).rank).releaseTime (linking [] []).rank = 0 ∧
    (∃ va, ruleAddr (myLaunch (tabled 117 [(0, false)])) 0xFFD 0xFFD = some va) ∧ (tabled 117 [(0, false)]).cycle = 8 + 109 ∧
    ((tabled 118 [(0, false), (0, false)]).release 0).releaseTime 0 = 0 ∧ (linking [] []).dropsBarges (linking [] []).me.lid = false := by
  refine ⟨?_, ?_, ?_, ?_, ?_, ⟨0x40024, ?_⟩, ?_⟩ <;> decide +kernel
theorem test_link_nul : see (exec (.link 1 2) (linking [(1, auxWord 0x8010), (2, nulWord)] [])) (fun t => (t.netRead 0x8010, t.netRead 0x8050, t.me.wait.map Wait.why)) (9, 9, none) =
    (redirWord nulWord, auxWord 0x8010, some (.sequence 15 12 [(auxWord 0x8050, false)])) := by decide +kernel
theorem test_join_end : see (exec (.join 1 2) ((linking [(1, auxWord 0x8010), (2, auxWord 0x8090)] [(auxWord 0x80D0, false), (auxWord 0x8050, false), (auxWord 0x8010, false),
    (auxWord 0x8090, false), (0, false)]).netWrite 0x8090 (busyWord 0x8010))) (fun t => (t.netRead 0x8090, t.me.wait.isSome, t.me.readyAt)) (9, true, 0) = (0, false, 12) := by decide +kernel
theorem test_link_of_no_port : causeOf (exec (.link 1 2) (netState [(1, 5), (2, nulWord)])) = 16 := by decide +kernel
/-- Node 0 holds a counted tile at 0x9000, with two holders. -/
def tiled : State := (((netState [(1, node0), (2, node0 + 0x40)]).netWrite 0x8000 0x0052000000070000).netWrite 0x8028 0x000E000000009010).writeN (.clm 0 0x9000) 4 2
theorem test_meets_Payloads : OwnNode tiled (tiled.rx 1) 0x8000 ∧ (tiled.netRead 0x8000).toNat / 2 ^ 48 % 4 = 2 ∧ AtClm ((tiled.netRead 0x8028 &&& 0xFFFFFFFFFFFFF) - 16) 0x9000 4 ∧
    tiled.poisoned (netLoc 0x8028) = false ∧ okWith tiled.releasing (fun u => !u.poisoned (here tiled 0x9000) && u.readN (here tiled 0x9000) 4 == 2) = true ∧ Settled tiled 0x9000 4 := by unfold OwnNode AtClm Settled here; decide +kernel
theorem test_meets_Payloads_other : ((netState []).netRead 0x8000).toNat / 2 ^ 48 % 4 = 0 ∧ (((netState []).netWrite 0x8000 0x0051000000070000).netRead 0x8000).toNat / 2 ^ 48 % 4 = 1 ∧
    (((netState []).netWrite 0x8000 0x0053000000070000).netRead 0x8000).toNat / 2 ^ 48 % 4 = 3 ∧ OwnNode tiled (tiled.rx 2) 0x8040 := by unfold OwnNode; decide +kernel
theorem test_meets_Payloads_steps : tiled.counted = none ∧ (tiled.modMe fun b => { b with wait := some { startWait .slow 1 0 with
    issued := { (startWait .slow 1 0).issued with counted := some (2, 0x000E000000009000) } } }).counted = some (2, 0x000E000000009000) ∧
    okWith (tiled.writeN (.clm 0 0x9000) 4 0).releasing (fun u => u.readN (here tiled 0x9000) 4 == 0) = true := by decide +kernel
/-- The count is raised first; the slot is written once its reply is back. -/
theorem test_paydup : see (exec (.paydup 1 2) tiled) (fun t => (t.readN (.clm 0 0x9000) 4, t.netRead 0x8068)) (0, 9) = (3, 0) := by decide +kernel
theorem test_paydup_slot : see (again (.paydup 1 2) 40 (exec (.paydup 1 2) tiled)) (fun t => (t.readN (.clm 0 0x9000) 4, t.netRead 0x8068)) (0, 0) = (3, 0x000E000000009010) := by decide +kernel
theorem test_paydrop : (fun o => (pOf o 3, xOf o 4, see o (fun t => t.readN (.clm 0 0x9000) 4) 9)) (again (.paydrop 4 1 3) 40 (exec (.paydrop 4 1 3) tiled)) = (false, 0, 1) := by decide +kernel

/-! ### The staircase, draws and sampling -/

/-- Engine 0 is ready; x1 names its slot 0. -/
def engine (l : List (Nat × Word)) : State := let s := launched (xs l); { s with lock := { s.lock with scReady := [0] } }
def stairs : State := engine [(1, 1), (2, 0x000E000000009FF8), (3, 64 * 2 ^ 20), (4, 0x10000), (5, 2 ^ 32), (6, 575 * 65536)]
theorem test_meets_StaircaseRequests : stairs.lock.scReady.contains 0 = true ∧ (stairs.cluster 0).scq.length < 64 ∧ stairs.roomAsked 0 = false ∧
    clusterOf stairs.rank = 0 ∧ ((stairs.rx 1).toNat < 2 ^ 32 ∧ (stairs.rx 1).toNat / 2 ^ 16 % 2 ^ 10 = 0) ∧ stairs.rx 1 ≠ 0 ∧ stairs.rx 0 = 0 ∧
    ((stairs.rx 4).toNat % 64 = 0 ∧ (stairs.rx 4).toNat < 13 * 2 ^ 48) ∧
    ((stairs.rx 3).toNat % 2 ^ 20 % 64 = 0 ∧ (stairs.rx 3).toNat / 2 ^ 20 % 2 ^ 22 = 64 ∧ (stairs.rx 2).toNat = 14 * 2 ^ 48 + 0x9FF8 ∧ 0x9FF8 % 8 = 0) ∧
    (stairs.buffered = false ∧ 2 ^ 32 ≤ (stairs.rx 5).toNat ∧ stairs.lock.scReady.contains ((stairs.rx 6).toNat / 2 ^ 16 % 2 ^ 10) = false) := by decide +kernel
def request : ScReq := ⟨.fork, 0, 0, 6, 0, 1, 0, 0, 7, 2, 2, true, [1]⟩
def asked (q : ScReq) : State := (engine []).modCluster 0 fun c => { c with scq := [(0, q)] }
theorem test_meets_EngineService : scDue stairs 0 = false ∧ scDue (asked request) 0 = true ∧ ((asked request).cluster 0).scq = [(0, request)] ∧ request.op ≠ .mask ∧
    request.op ≠ .opening ∧ request.op ≠ .load ∧ request.a ≠ 0 ∧ findStair ((asked request).cluster 0) request.a request.lid = none := by decide +kernel
theorem test_meets_EngineService_save : scDue (asked { request with op := .save }) 0 = true ∧ findStair ((asked { request with op := .save }).cluster 0) request.a request.lid = none := by
  decide +kernel
def slot0 : StairSlot := ⟨0x10000, 5, ⟨3, 0, 0, false, 9⟩, [⟨1, 0, 0, false, 7⟩, ⟨2, 0, 0, false, 8⟩], false, 7, 2⟩
theorem test_meets_Handles : freeStair ((at0 id).cluster 0) = some 0 ∧ (8 : Nat) ≠ slot0.lid := by decide +kernel
def opened : State := (engine []).modCluster 0 fun c => (openStair 0 c slot0).1
theorem test_meets_Rollback : alGet (opened.cluster 0).sslots 0 = some slot0 ∧ slot0.hist.length < (3 : Word).toNat ∧ (2 : Word).toNat ≤ slot0.hist.length := by decide +kernel
theorem test_handle : findStair (opened.cluster 0) 1 7 = some (0, slot0) := by decide +kernel
def draws : State := launched (xs [(1, 0x0000000200000001), (2, 5)])
theorem test_meets_Draws : draws.me.rngsrc.getLsbD 0 = false ∧ candNan (candWord 0x3F800000 3) = false ∧ noneWord.getLsbD 31 = true := by decide +kernel
/-- Two logits, 1.0 and 2.0, at 0x9000 and their parameters at 0x8000: N = 2, K = 2, temperature 0. -/
def logits : State := (((launched (xs [(1, 0x000E000000009000), (2, 0x000E000000008000), (3, 0x000E00000000A000)])).writeN (.clm 0 0x8000) 8 0).writeN (.clm 0 0x8008) 8
  (2 * 2 ^ 32)).writeN (.clm 0 0x8010) 8 (2 * 2 ^ 32) |>.writeN (.clm 0 0x9000) 8 0x400000003F800000
theorem test_meets_Sampling : (smpParams (logits.readN (.clm logits.rank 0x8000) 32)).n = 2 ∧ (smpParams (logits.readN (.clm logits.rank 0x8000) 32)).base = 0 ∧
    (smpParams (logits.readN (.clm logits.rank 0x8000) 32)).k = 2 ∧ (smpParams (logits.readN (.clm logits.rank 0x8000) 32)).msk = false ∧
    (f32 (smpParams (logits.readN (.clm logits.rank 0x8000) 32)).temp).isZero = true ∧ (logits.rx 1).toNat = 14 * 2 ^ 48 + 0x9000 ∧ (logits.rx 2).toNat = 14 * 2 ^ 48 + 0x8000 ∧
    (logits.rx 3).toNat = 14 * 2 ^ 48 + 0xA000 ∧ logits.anyPoison (.clm logits.rank 0x8000) 32 = false ∧ logits.anyPoison (.clm logits.rank 0x9000) 8 = false ∧
    smpBad true (logits.readN (.clm logits.rank 0x8000) 32) = false ∧ smpBad false (logits.readN (.clm logits.rank 0x8000) 32) = false ∧ logits.matrixReads 0xA000 16 = false := by
  decide +kernel
theorem test_smpLoc : xOf (done (exec (.smpLoc 6 1 2) logits)) 6 = candWord 0x40000000 1 := by decide +kernel
theorem test_smpTopk : see (exec (.smpTopk 3 1 2) logits) (fun t => t.readN (.clm 0 0xA008) 8) 0 = (candWord 0x3F800000 0).toNat := by decide +kernel
theorem test_scOpen_waits : see (exec (.scOpen 6 4 1) stairs) (fun t => (t.me.wait.isSome, (t.cluster 0).scq.length)) (false, 0) = (true, 1) := by decide +kernel
theorem test_scFork_no_engine : causeOf (exec (.scFork 7 6) stairs) = 15 := by decide +kernel

/-! ### Control registers, traps, interrupts and the debugger -/

theorem test_meets_CsrInstructions : (superX []).me.user = false ∧ (at0 id).me.user = true ∧ csrUser 0x006 = 2 ∧ csrUser 0x10A = 1 ∧ csrUser 0xFFF = 0 ∧ csrUser 0x000 = 0 ∧
    (at0 id).buffered = false ∧ (23 : BitVec 5) ≠ 0 := by decide +kernel
/-- CSRW waits for its write-back. -/
theorem test_meets_CsrInstructions_reply : see (exec (.csrw 3 1 0x10A) (superX [(1, 5)])) (fun t => (t.berthAt 0 0).wait.map fun w => (w.reply, w.issued.acc)) none =
      some (some { srcs := [1], csr := some ⟨2, 0x10A, 5, 3⟩, past := true }, none) ∧
    (superX [(1, 5)]).me.drowsy = false ∧ csrUser 0x10A = 1 ∧ (23 : BitVec 5).toNat < 24 ∧ chan.checkFreed 28 = none := by decide +kernel
theorem test_bascfg : see (done (exec (.csrw 3 1 0x10A) (superX [(1, 5)]))) (fun t => ((t.bankOf 0 0).next, t.me.pc)) (none, 0) = (some (1, 128), 0x10004) := by decide +kernel
theorem test_meets_OutsideWrites : ((queued 2).core 1).queue ≠ [] ∧ ((queued 0).core 1).queue = [] ∧
    (((at0 id).modCore 1 fun c => { c with corecfg := 0 }).core 1).enabled 3 = false ∧ ((at0 id).berthAt 1 3).idle = true ∧ (8 : Word).getLsbD 3 = true := by decide +kernel
theorem test_meets_CsrFields : ((at0 id).core 0).eccAt ≠ (at0 id).cycle + 1 := by decide +kernel
theorem test_csrs : (fun o => (xOf o 6, see o (fun t => t.me.fcsr) 0)) (done (exec (.csrs 6 1 0x006) (withX [(1, 0x10)]))) = (0, 0x10) := by decide +kernel
/-- CORECFG holds what it held until the write-back. -/
theorem test_corecfg_late : (fun o => (see o (fun t => t.myCore.corecfg) 9, see (done o) (fun t => t.myCore.corecfg) 9)) (exec (.csrw 0 1 0x101) (superX [(1, 5)])) =
    (State.reset.myCore.corecfg, 5) := by decide +kernel
theorem test_csr_closed : causeOf (exec (.csrr 6 0x000) (withX [])) = 0 ∧ see (exec (.csrr 6 0x000) (withX [])) (fun t => t.me.tpc) 0 = 0x10000 := by decide +kernel
theorem test_hqctl : see (exec (.hqctlWrite 1 32) (queued 0)) (fun t => (t.core 1).cap) 0 = 32 := by decide +kernel
theorem test_meets_TrapEntry : 3 < 4 ∧ 255 < 256 := by decide
def onTrap (b : Berth) : Berth := { b with tstat := 1, tpc := 0x20000, entry := true }
theorem test_meets_TrapInstructions : (at0 id).myCore.dbgctl.getLsbD 33 = false ∧ ((at0 id).modMyCore fun c => { c with dbgctl := 2 ^ 33 }).myCore.dbgctl.getLsbD 33 = true ∧
    (at0 id).me.entry = false ∧ (at0 onTrap).me.entry = true ∧ (at0 onTrap).buffered = false := by decide +kernel
theorem test_meets_TrapReturn : ((at0 onTrap).me.user = false ∧ (at0 onTrap).me.tstat.toNat / 2 ^ 8 % 4 = 0 ∧ (at0 onTrap).me.started = false) ∧ (at0 id).me.user = true ∧
    ((at0 id).me.rpt = none ∧ (at0 id).me.pc.toNat < 2 ^ 52 ∧ (at0 id).me.pc.toNat % 4 = 0) ∧ intPending (at0 onTrap).me = false ∧
    intPending (at0 fun b => { onTrap b with pTimer := true }).me = true := by decide +kernel
/-- A handler about to return into the block of RPT, or of RPT.D, at 0x10000; into a repetition that it has not; and on a page without X. -/
def returns (s : State) (t : Word) : State := s.modMe fun b => { b with tstat := t, tpc := 0x10004, tscr := 0x20000 }
def noExec : State := (at0 id).modCluster 0 fun c => { c with tlb := [⟨2, 1, false, 0x10197⟩] }
theorem test_meets_TrapReturn_blocks : isOk (tretBlock (returns rptCode 0x101) false) = true ∧ (returns rptCode 0x101).me.user = false ∧
    (returns rptCode 0x101).me.tstat.toNat / 2 ^ 8 % 4 = 1 ∧ isOk (tretBlock (returns rptdCode 0x201) true) = true ∧ (returns rptdCode 0x201).me.tstat.toNat / 2 ^ 8 % 4 = 2 ∧
    (returns rptdCode 0x201).myCore.buffer = none ∧ (returns (bufWith rptdCode) 0x201).myCore.buffer ≠ none ∧ isOk (tretBlock (returns (bufWith rptdCode) 0x201) true) = true ∧
    traps (tretBlock (returns rptCode 0x5101) false) = true ∧ traps (codeWord noExec noExec.who 0x10000) = true ∧ (returns rptCode 0x101).me.started = false := by decide +kernel
theorem test_ecall : see (exec .ecall (at0 id)) (fun t => (t.me.tcause, t.me.tpc, t.me.tstat, t.me.pc)) (0, 0, 0, 9) = (5, 0x10000, 0x9, 0) := by decide +kernel
theorem test_ebreak_halts : see (exec .ebreak ((at0 id).modMyCore fun c => { c with dbgctl := 2 ^ 33 })) (fun t => (t.me.halt, t.me.pc)) (.no, 0) = (.asked, 0x10000) := by decide +kernel
theorem test_tret : see (exec .tret (at0 fun b => { onTrap b with tstat := 0xB })) (fun t => (t.me.pc, t.me.tstat)) (0, 0) = (0x20000, 5) := by decide +kernel
theorem test_wfi_user : causeOf (exec .wfi (at0 id)) = 0 ∧ see (exec .wfi (at0 id)) (fun t => t.me.tval) 0 = 0xEA000003 := by decide +kernel
def pend (f : Berth → Berth) : State := { at0 f with cycle := 2 }
theorem test_meets_InterruptEntries : entryDue (at0 id) 0 0 = none ∧ entryDue (pend fun b => { b with pTimer := true }) 0 0 = some .timer ∧
    entryDue (pend fun b => { b with pTimer := true, pDebug := true }) 0 0 = some .debug ∧ entryDue (pend fun b => { b with pPreempt := true }) 0 0 = some .preempt ∧
    entryDue (pend fun b => { b with tstat := 0x20, pBudget := true }) 0 0 = some .budget ∧ ((pend id).berthAt 0 0).bufTrap = none ∧
    (pend fun b => { b with pPreempt := true }).inBuffer 0 0 = false := by decide +kernel
theorem test_meets_InterruptEntries_idle : entryDue (pend fun b => { b with pTimer := true, hdr := none, started := true }) 0 0 = none ∧
    (pend fun b => { b with pTimer := true }).me.hdr.isSome = true ∧ (pend fun b => { b with tstat := 0 }).me.tstat.getLsbD 2 = false := by decide +kernel
/-- A word of berth 0's block in the repetition buffer has trapped. -/
def trapping : State := pend fun b => { b with bufTrap := some ⟨.poison, 0x8000, 0x10008, 3, 1⟩ }
theorem test_meets_InterruptEntries_buffer : entryDue trapping 0 0 = some .poison ∧ (trapping.berthAt 0 0).bufTrap = some ⟨.poison, 0x8000, 0x10008, 3, 1⟩ ∧
    (trapping.berthAt 0 0).rpt = none := by decide +kernel
def events : State := { (at0 id).modMyCore fun c => { c with timecmp := 0x8000000000000005, sort0 := 5, sort1 := 6 } with cycle := 5 }
theorem test_meets_CoreEvents : timerDue events 0 = true ∧ timerDue (at0 id) 0 = false ∧ (events.core 0).sort0 ≠ 0 ∧ (events.core 0).sort0 ≤ events.cycle ∧
    events.cycle < (events.core 0).sort1 ∧ budgetDue (at0 fun b => { b with tstat := 0x24 }) 0 0 = true ∧ drowseDue { at0 id with cycle := 1025 } 0 0 = true ∧ switchDue events 0 3 = false ∧
    (let s := events.modBank 0 3 fun k => { k with next := some (1, 5) }
     (s.bankOf 0 3).next = some (1, 5) ∧ (s.bankOf 0 3).again = none) := by decide +kernel
def halts (h : Halt) (n : Word) : State := (at0 fun b => { b with halt := h }).modMyCore fun c => { c with dbgsel := n }
theorem test_meets_Debugger : haltDue (at0 id) 0 0 = false ∧ haltDue (halts .asked 0) 0 0 = true ∧ stateCode (at0 id) 0 0 ≠ 4 ∧ stateCode (halts .halted 23) 0 0 = 4 ∧
    ((halts .halted 23).core 0).dbgsel = w64 (256 * 0 + 23) ∧ ((halts .halted 128).core 0).dbgsel = w64 (256 * 0 + 128) ∧ ((halts .halted 47).core 0).dbgsel = w64 (256 * 0 + 32 + 15) ∧
    ((halts .halted 95).core 0).dbgsel = w64 (256 * 0 + 64 + 31) ∧ ((halts .halted 96).core 0).dbgsel = w64 (256 * 0 + 96) ∧
    ((at0 id).core 0).dbgctl.getLsbD 32 = false ∧ (((at0 id).modMyCore fun c => { c with dbgctl := 2 ^ 32 }).core 0).dbgctl.getLsbD 32 = true := by decide +kernel
theorem test_meets_Debugger_more : ((halts .halted 169).core 0).dbgsel = w64 (256 * 0 + 160 + 9) ∧ stateCode (halts .halted 169) 0 0 = 4 ∧
    (((halts .halted 1).modMe fun b => { b with drowsy := true }).berthAt 0 0).drowsy = true ∧ stateCode (at0 id) 0 (((at0 id).core 0).dbgsel.toNat / 2 ^ 8 % 16) ≠ 4 := by
  decide +kernel
theorem test_debug_data : see (exec (.debugDataWrite 0 77) (halts .halted 23)) (fun t => vget t.me.x 23 0) 0 = 77 := by decide +kernel
theorem test_timer_entry : see (exec (.interruptEntry 0 0) (pend fun b => { b with pTimer := true })) (fun t => (t.me.tcause, t.me.pc, t.me.pTimer)) (0, 0, true) =
    (0x8000000000000021, 0x40, false) := by decide +kernel

/-! ### Global memory, the basin, and migration -/

/-- x1 names byte 16 of page 3 of context 2, which core 0's cluster maps with this entry; core 0's L1 holds these lines. -/
def glob (pte : Word) (ls : List Line := []) (bc : List BLine := []) (w : Option Wait := none) : State :=
  ((at0 fun b => { xs [(1, 0x30010), (2, 0x400), (3, 7)] b with wait := w }).modMyCore fun c => { c with l1 := ls }).modCluster 0 fun c =>
    { c with tlb := if pte = 0 then [] else [⟨2, 3, false, pte⟩], bcache := bc }
/-- A line of that address, at physical address 0x40000. -/
def gline (pte : Word) (valid dirty : BitVec 1024) : Line := ⟨2, 0xC0, false, 0x100, 0, pte, valid, dirty, 5, 0, 0⟩
/-- Leaves of that page: R, W, X and U; no U; DEV; STDY; D clear; and another device's memory (log 18). -/
def ptes : List Word := [0x4019F, 0x4018F, 0x401D7, 0x400BB, 0x4009F]
def maps (k : Kind) (pte : Word) : Bool := okWith ((glob pte).translate (glob pte).who k 0x30010) fun e => e == (pte, 0x40010)
theorem test_meets_Global : let s := glob 0x4019F
    addr s 1 0 = 0x30010 ∧ s.migratesFar (addr s 1 0) 8 .read = none ∧ s.migratesFar (addr s 1 0) 8 .write = none ∧ s.myCore.l1Busy ≤ s.cycle ∧
    (addr s 1 0).toNat < 13 * 2 ^ 48 ∧ (addr s 1 0).toNat % 8 = 0 ∧ s.lineOf s.rank s.who.asid 0x30010 = none ∧ s.buffered = false ∧
    (ptes.map fun p => (maps .read p, maps .write p)) = [(true, true), (false, false), (true, true), (true, false), (true, false)] ∧
    pteDev 0x401D7 = true ∧ pteDev 0x4019F = false ∧ pteStdy 0x4019F = false ∧ pteStdy 0x400BB = true ∧ isFarClm 0x40010 = false ∧ isFar 0x40010 = false ∧
    s.poisonBits (0x40010 / 128 * 128) 16 = 0 ∧ s.anyPoison (.hbm 0x40010) 8 = false ∧ (s.myCore.l1.filter fun o => o.va % 8 == 0xC0 % 8).length < 4 := by
  unfold addr; decide +kernel
theorem test_meets_Global_misses : (waitRun ((glob 0).translate (glob 0).who .read 0x30010) ∧ waitRun ((glob 0x4009F).translate (glob 0x4009F).who .write 0x30010)) ∧
    traps ((glob 0x4018F).translate (glob 0x4018F).who .read 0x30010) ∧ traps ((glob 0x400BB).translate (glob 0x400BB).who .write 0x30010) ∧
    (let s := glob 0x400BB [] [⟨0x100, 9, 0⟩];
      (s.cluster (clusterOf s.rank)).bcache.find? (fun l => l.pa == 0x40010 / 1024) = some ⟨0x100, 9, 0⟩ ∧ fld (0 : BitVec 128) (0x40010 % 1024 / 128 * 16) 16 = 0) := by
  decide +kernel
theorem test_meets_Global_hits : let l := gline 0x4019F (secMask 0) 0
    let m := gline 0x4019F (byteMask 0 8) (byteMask 0 8)
    let s := glob 0x4019F [l]
    s.lineOf s.rank s.who.asid 0x30010 = some l ∧ l.covers 16 8 = true ∧ l.poisonedIn 16 8 = false ∧ permOk s.me.user .read l.pte = true ∧
    permOk s.me.user .write l.pte = true ∧ pteD l.pte = true ∧ permOk s.me.user .read 0x4018F = false ∧ permOk s.me.user .write 0x4018F = false ∧
    m.covers 16 8 = false ∧ m.pa = 0x40010 / 1024 ∧ ((glob 0x4019F [m]).cleanSector m 0).poisonBits (0x40010 / 128 * 128) 16 = 0 ∧
    (s.purgeSector s.rank s.who.asid 0x30010).poisoned (.hbm 0x40010) = false ∧ s.rx 1 = addr s 1 0 := by
  unfold addr; decide +kernel
/-- The ranges of a cache operation: below the end of global memory, inside one mapped page; the L1 holds one dirty line. -/
theorem test_meets_CacheLines : let l := gline 0x4019F (secMask 0) (byteMask 0 8)
    let s := glob 0x4019F [l]
    s.rx 1 = 0x30010 ∧ s.rx 2 = 0x400 ∧ 0x30010 / 65536 = (0x30010 + 0x400 - 1) / 65536 ∧ s.memOk ∧
    ((s.mapped (clusterOf s.rank) s.who 0x30000).2 = some 0x40000) ∧ (s.core s.rank).l1 = [l] ∧ sectorIn l s.who.asid 0x30010 0x30410 0 = true ∧
    sectorIn l s.who.asid 0x30410 0x30810 0 = false ∧ l.dirty.getLsbD 0 = true := by unfold State.memOk; decide +kernel
/-- A bank of the basin in a mode, holding these entries, with x1 at an offset of the window of bank 15. -/
def bankState (mode off : Nat) (q : List (Word × Bool)) (next : Option (Nat × Nat) := none) (full : List Nat := []) : State :=
  { (withX [(1, w64 (0x000D0000001E0000 + off)), (3, 7)]).modBank 0 15 fun _ => ⟨mode, next, none, q, 0⟩ with full := full }
theorem test_meets_BasinWindow : (addr (bankState 1 131064 []) 1 0).toNat = 13 * 2 ^ 48 + 15 * 131072 + 131064 ∧
    ((bankState 1 0 []).bankOf (clusterOf 0) 15 = ⟨1, none, none, [], 0⟩ ∧ (bankState 1 0 []).anyPoison (.basin 0 (15 * 131072)) 8 = false ∧
      (bankState 1 0 []).isFull (.basin 0 (15 * 131072)) = false ∧ isOk (bankState 1 0 []).releasing = true) ∧
    (let l : Loc := .basin 0 (15 * 131072)
      let s := bankState 1 0 [] none [l.key / 8]
      s.isFull l = true ∧ s.earlier (.full l.key) = false ∧ s.poisoned l = false) ∧
    ((bankState 2 0 []).bankOf (clusterOf 0) 15 = ⟨2, none, none, [], 0⟩ ∧ (bankState 2 0 []).earlier (.fifo 0 15 true) = false) ∧
    ((bankState 2 8 [(4, false), (5, true)]).bankOf (clusterOf 0) 15).fifo = (4, false) :: [(5, true)] ∧
    (bankState 2 8 [(4, false)]).earlier (.fifo 0 15 false) = false ∧
    16384 ≤ ((bankState 2 0 (List.replicate 16384 (0, false))).bankOf (clusterOf 0) 15).fifo.length ∧
    ((bankState 0 0 []).bankOf (clusterOf 0) 15).mode = 0 ∧ ((bankState 1 0 [] (some (2, 128))).bankOf (clusterOf 0) 15).next ≠ none := by
  unfold addr; decide +kernel
theorem test_meets_Migrations : let s := far none
    (addr s 1 0).toNat = 15 * 2 ^ 48 + 1 * 131072 + 0x8000 ∧ (s.rx 1).toNat = 15 * 2 ^ 48 + 1 * 131072 + 0x8000 ∧ s.buffered = false ∧ s.me.pinned = false ∧
    1 ≠ s.rank ∧ s.inRect s.me.lid 1 = true ∧ s.inRect s.me.lid 9215 = false ∧ s.me.header.lid.toNat = s.me.lid ∧ s.myWait = none := by
  unfold addr; decide +kernel
theorem test_basin_push : see (exec (.std 3 1 0) (bankState 2 0 [])) (fun t => (t.bankOf 0 15).fifo) [] = [(7, false)] := by decide +kernel
theorem test_fifo_count : xOf (done (exec (.ldd 4 1 0) (bankState 2 16 [(4, false), (5, false)]))) 4 = 2 := by decide +kernel
theorem test_migrate : see (exec (.ldd 3 1 0) (far none)) (fun t => (t.me.hdr.isNone, (t.counts 0 7).sent)) (false, 0) = (true, 1) := by decide +kernel

/-! ### Rounding -/

theorem test_meets_ExactOperations : (f32 0x7FC00000).isNan = true ∧ (f32 0x7F800001).isSig = true ∧ f32 0x7F800000 = .inf false ∧
    f32 0x3F800000 = .num false (2 ^ 23) (-23) ∧ f32 0x80000000 = .num true 0 (-149) ∧ envRne.mode ≠ .sr := by decide +kernel
/-- The first tables have NaN entries, a table of zeros none, and one of ones nothing else. -/
theorem test_meets_TableEncoding : (∃ c < 256, (dtabVal dtabT0 c).isNan = true) ∧ (∃ c < 256, (dtabVal dtabT0 c).isNan = false) ∧
    (∀ c < 256, (dtabVal 0 c).isNan = false) ∧ (∀ c < 256, (dtabVal (BitVec.allOnes 4864) c).isNan = true) ∧
    dtabVal dtabT0 1 = .num false 1024 (-19) ∧ (∀ c < 256, ¬ ((dtabVal 0 c).isZero = true ∧ (dtabVal 0 c).neg = true)) ∧
    ((dtabVal 0 0).isZero = true ∧ (dtabVal 0 0).neg = false) := by decide +kernel
theorem test_meets_BlockSums : (mulExact (.nan false) (.num false 1 0)).1.isNan = true ∧ (mulExact (.inf true) (.num false 1 0)).1 = .inf true ∧
    (mulExact (.inf true) (.num true 1 0)).1 = .inf false ∧ (mulExact (.num true 3 (-2)) (.num false 5 (-4))).1 = .num true 15 (-6) := by decide +kernel

/-! ### Numbers that meet the hypotheses of the arithmetic statements -/

theorem test_meets_numbers : f32 0x3F800000 = .num false 0x800000 (-23) ∧ f32 0xBF800000 = .num true 0x800000 (-23) ∧ f32 0 = .num false 0 (-149) ∧
    f32 0x7F800000 = .inf false ∧ f32 0xFF800000 = .inf true ∧ (f32 0x7F800001).isNan = true ∧ (f32 0x7F800001).isSig = true ∧ (f32 0x7FC00000).isSig = false ∧
    (f32 0).isZero = true := by decide +kernel
theorem test_meets_Comparisons : Below (f32 0x3F800000) (f32 0x40000000) ∧ Below (f32 0xFF800000) (f32 0xBF800000) ∧ ¬ Below (f32 0) (f32 0x80000000) := by
  have a : f32 0x3F800000 = .num false 0x800000 (-23) := by decide +kernel
  have b : f32 0x40000000 = .num false 0x800000 (-22) := by decide +kernel
  have c : f32 0xFF800000 = .inf true := by decide +kernel
  have d : f32 0xBF800000 = .num true 0x800000 (-23) := by decide +kernel
  have e : f32 0 = .num false 0 (-149) := by decide +kernel
  have g : f32 0x80000000 = .num true 0 (-149) := by decide +kernel
  rw [a, b, c, d, e, g]
  refine ⟨(by decide : signed false (units 0x800000 (-23) (-23)) < signed false (units 0x800000 (-22) (-23))), rfl,
    (by decide : ¬ signed false (units 0 (-149) (-149)) < signed true (units 0 (-149) (-149)))⟩
theorem test_meets_Conversions : (fp16.decode 0x7E00).isNan = true ∧ fp16.decode 0x7C00 = .inf false ∧ fp16.decode 0x3C00 = .num false 1024 (-10) ∧ fp16 ∈ [fp16, bf16, e4m3, e5m2, e2m1] := by
  refine ⟨?_, ?_, ?_, .head _⟩ <;> decide +kernel
/-- Whole numbers and others at each end: 1.0, 1.5, 129.5 and -200.5; and the power of two at and below 1.0 and 1.5. -/
theorem test_meets_RootsAndPowers : f32 0x3FC00000 = .num false 0xC00000 (-23) ∧ f32 0x43018000 = .num false 0x818000 (-16) ∧ f32 0xC3488000 = .num true 0xC88000 (-16) ∧
    (1 * units 1 0 (-23) ≤ signed false (units 0x800000 (-23) (-23)) ∧ signed false (units 0x800000 (-23) (-23)) = 1 * units 1 0 (-23)) ∧
    (1 * units 1 0 (-23) ≤ signed false (units 0xC00000 (-23) (-23)) ∧ signed false (units 0xC00000 (-23) (-23)) < (1 + 1) * units 1 0 (-23)) ∧
    (129 * units 1 0 (-16) ≤ signed false (units 0x818000 (-16) (-16)) ∧ signed false (units 0x818000 (-16) (-16)) < (129 + 1) * units 1 0 (-16)) ∧
    ((-201) * units 1 0 (-16) ≤ signed true (units 0xC88000 (-16) (-16)) ∧ signed true (units 0xC88000 (-16) (-16)) < (-201 + 1) * units 1 0 (-16)) ∧
    (units 1 0 (-23) ≤ units 0xC00000 (-23) (-23) ∧ units 0xC00000 (-23) (-23) < 2 * units 1 0 (-23) ∧ units 0xC00000 (-23) (-23) ≠ units 1 0 (-23)) := by decide +kernel
/-- A value of each format's binades with a result that stays finite, and one of E2M1 that does not. -/
theorem test_meets_StochasticRounding : fp32 ∈ [fp32, fp16, bf16, e4m3, e5m2, e2m1] ∧ fp32.qmin ≤ (-22 : Int) ∧ (-22 : Int) ≤ fp32.qmax ∧
    (2 ^ fp32.mw * units 1 (-22) (-22) ≤ units 3 0 (-22) ∧ units 3 0 (-22) < 2 ^ (fp32.mw + 1) * units 1 (-22) (-22)) ∧ fp32.decode fp32.maxBits = .num false 0xFFFFFF 104 ∧
    e2m1.decode e2m1.maxBits = .num false 3 1 ∧ (2 ^ e2m1.mw * units 1 e2m1.qmax 0 ≤ units 100 0 0 ∧ units 3 1 0 < units (units 100 0 0 / units 1 e2m1.qmax 0) e2m1.qmax 0) := by
  refine ⟨.head _, ?_⟩; decide +kernel
theorem test_sr_up : roundTo fp32 .sr false false 0x1000001 0 0x80000000 = (0x4B800001, 1) ∧ roundTo fp32 .sr false false 0x1000001 0 0x7FFFFFFF = (0x4B800000, 1) := by decide +kernel
theorem test_max_of_zeros : fMinMax true 0x80000000 0 = (0, 0) ∧ fMinMax false 0 0x80000000 = (0x80000000, 0) := by decide +kernel
theorem test_to_int_tie : toInt 32 .rne 0x40200000 = (2, 1) ∧ toInt 32 .rne 0x4F000000 = (2 ^ 31 - 1, 16) := by decide +kernel

/-! ### The lockhouse -/

def lockState (f : Lock → Lock) (b : Berth → Berth := id) : State := let s := launched b; { s with lock := f s.lock }
theorem test_meets_LaunchInstructions : ((superX [(1, 64)]).me.user = false ∧ ((superX [(1, 64)]).rx 1).toNat % 64 = 0) ∧ ((superX [(1, 65)]).rx 1).toNat % 64 ≠ 0 ∧
    (at0 id).me.user = true ∧ (superX []).buffered = false := by decide +kernel
def supers (f : Core → Core) : State := (superX [(1, 64)]).modMyCore f
theorem test_meets_LaunchInstructions_waits : isOk (supers id).releasing = true ∧ waitRun (supers fun c => { c with relEnd := 50 }).releasing = true ∧
    goneRun (supers fun c => { c with l1 := [dirtyLine] }).releasing = true := by decide +kernel
theorem test_meets_Cancelled : (launched id).launch 7 = some launch7 ∧ launch7.cancel = false := by decide +kernel
def takes (f : Lock → Lock) : State := lockState fun k => f { k with running := true, nextJob := 1 }
theorem test_meets_Jobs : takeDue (at0 id) = false ∧ takeDue (takes fun k => { k with inbox := [0x1000] }) = true ∧ (nextRecord (takes fun k => { k with inbox := [0x1000] })).isSome = true ∧
    (takes fun k => { k with inbox := [0x1000] }).lock.inbox = [0x1000] := by decide +kernel
theorem test_meets_Jobs_ring : (takes fun k => { k with jqbase := 0x2000, jqsize := 16, jqtail := 5, jqhead := 4 }).lock.inbox = [] ∧
    jqRuns (takes fun k => { k with jqbase := 0x2000, jqsize := 16, jqtail := 5, jqhead := 4 }).lock = true ∧ takeDue (takes fun k => { k with jqbase := 0x2000, jqsize := 16, jqtail := 5, jqhead := 4 }) = true ∧
    llcPoison ((takes id).setPoison (.hbm 0x1038) true) 0x1000 64 = true ∧ llcPoison (takes id) 0x1000 64 = false := by decide +kernel
theorem test_jqtail : see (exec (.jqtailWrite 5) (takes fun k => { k with jqsize := 4 })) (fun t => t.lock.jqtail) 9 = 0 ∧
    see (exec (.jqtailWrite 4) (takes fun k => { k with jqsize := 4 })) (fun t => t.lock.jqtail) 9 = 4 := by decide +kernel
/-- Memory that holds context 2's tables, one 256 MiB page at 0, and the launch descriptor of job 1 with K as given. -/
def admits (k : Nat) : State :=
  let s : State := { State.reset with lock := { Lock.reset with ctx := [(2, 0x8000000000010000)], ready := [0], jobs := [⟨1, 0x1000, 1, 0, false, 0⟩] } }
  ((((((((s.writeN (.hbm 0x10000) 8 0x18001).writeN (.hbm 0x18000) 8 0x19F).writeN (.hbm 0x1040) 8 0x100000).writeN (.hbm 0x1050) 2 k).writeN (.hbm 0x1054) 2 0x102).writeN
    (.hbm 0x105C) 2 512).writeN (.hbm 0x105E) 2 64).writeN (.hbm 0x1080) 8 0x200000)
theorem test_meets_Admission : admitDue (at0 id) 1 = none ∧ (admitDue (admits 0) 1).map (fun e => admitCode (admits 0) e.2) = some 0 ∧
    (admitDue (admits 1) 1).map (fun e => admitCode (admits 1) e.2) = some 2 ∧ (admitDue (admits 0) 1).map (fun e => (admits 0).lock.needShoot.contains e.2.asid) = some false := by
  decide +kernel
theorem test_meets_Admission_shoot : (admitDue ((admits 0).withLock fun k => { k with needShoot := [2] }) 1).map (fun e =>
    ((admits 0).withLock fun k => { k with needShoot := [2] }).lock.needShoot.contains e.2.asid) = some true := by decide +kernel
theorem test_admission : see (exec (.launchAdmission 1) (admits 0)) (fun t => t.launches.map fun l => (l.state, l.nsslots)) [] = [(1, 64)] ∧
    see (exec (.launchAdmission 1) (admits 1)) (fun t => t.readN (.hbm 0x10B8) 4) 0 = 0x20004 := by decide +kernel
def passes (p : Option (Nat × Nat × Nat × Nat)) (n : Nat) : State := { at0 id with launches := [{ launch7 with pass := p, nextPass := n }] }
theorem test_meets_Quiescence : passDue (passes none 5) { launch7 with pass := none, nextPass := 5 } = false ∧ passDue (passes none 0) launch7 = true ∧
    sums (passes none 0) launch7 = (0, 0, 0, 0) ∧ (passes (some (0, 0, 0, 0)) 0).launch 7 = some { launch7 with pass := some (0, 0, 0, 0) } ∧
    (launch7.pass ≠ some (sums (passes none 0) launch7)) := by decide +kernel
theorem test_meets_ContextWrites : (launched id).launches.any (fun l => l.live && l.asid == 2) = true ∧ (launched id).launches.any (fun l => l.live && l.asid == 3) = false := by decide +kernel
theorem test_ctx : see (exec (.ctxWrite 255 0xFFFFFFFFFFFFFFFF) (launched id)) (fun t => t.ctx 255) 0 = 0x8000FFFFFFFF8000 := by decide +kernel
theorem test_meets_Shootdowns_both : (0x80000300 : Word).getLsbD 31 = true ∧ (0x80000300 : Word).getLsbD 8 = true ∧ (0x80000300 : Word).getLsbD 9 = true := by decide
/-- Two pages in cluster 0's translation unit. -/
def glob0 (g : Nat) : State := (at0 id).modCluster 0 fun c => { c with tlb := [⟨2, g, false, 0x4019F⟩, ⟨2, g + 1, false, 0x4019F⟩] }
/-- A range of one byte takes the whole page's entry and line with it, and leaves the next page's. -/
theorem test_shoot_range : see (exec (.tlbinvRange 2 0x3FFFF 1) ((glob0 3).modMyCore fun c => { c with l1 := [dirtyLine, { dirtyLine with va := 0x100 }] }))
    (fun t => ((t.cluster 0).tlb.map TlbEnt.gran, t.myCore.l1.map Line.va)) ([], []) = ([4], [0x100]) := by decide +kernel
theorem test_meets_Shootdowns : (at0 id).lock.tlbinv.getLsbD 31 = false ∧ (lockState fun k => { k with tlbinv := 0x80000000 }).lock.tlbinv.getLsbD 31 = true := by decide +kernel
def hbmUp : State := lockState fun k => { k with hbm := 0xFF }
theorem test_meets_HostWindow : hbmUp.lock.hbm = 0xFF ∧ hbmUp.lock.bar2off.toNat + 0x7FFFFFFFF8 + 8 ≤ 2 ^ 39 ∧ (at0 id).lock.hbm ≠ 0xFF := by decide +kernel
theorem test_meets_HostWindow_mem : hbmUp.memOk := rfl
theorem test_host : see (exec (.hostBar2Write 8 [1, 2]) hbmUp) (fun t => (t.readN (.hbm 8) 2, t.readByte (.hbm 10))) (0, 9) = (0x201, 0) := by decide +kernel

/-! ### Pre-emption, errors, bring-up -/

def preempts (p : Pre) (f : Berth → Berth) : State := (at0 f).modMyCore fun c => { c with pre := p, corecfg := 0xFFFF }
theorem test_meets_PreemptRequests : ((preempts .asked id).core 0).pre ≠ .none ∧ ((preempts .none id).core 0).pre = .none ∧ ((preempts .none id).berthAt 0 0).hdr ≠ none ∧
    leadBerth ((preempts .stopped id).core 0) = some 0 ∧ startReady (preempts .stopped id) 0 = false ∧ ((preempts .stopped id).core 0).pre = .stopped ∧
    ((preempts .none fun b => { b with hdr := none }).berthAt 0 0).hdr = none := by decide +kernel
/-- The core's cluster is ready and in use. -/
def usable (s : State) : State := s.withLock fun k => { k with ready := [0], ranks := [(0, ⟨true, false, 0⟩)] }
theorem test_meets_PreemptRequests_start : startReady (usable (preempts .stopped fun b => { b with hdr := none })) 0 = true := by decide +kernel
theorem test_restore_start : see (exec (.restoreStart 0 0x100000) (usable (preempts .stopped fun b => { b with hdr := none }))) (fun t => (t.me.pc, vget t.me.x 3 0)) (0, 0) =
    (0x80, 0x100000) := by decide +kernel
/-- A supervisor in the middle of a pre-emption, with its buffer at 0x100000 of context 2. -/
def buffered0 (p : Pre) (parts : Word) : State := let s := admits 0
  let b := { xs [(1, 0x100000), (2, parts)] barge with tstat := 1 }
  { (s.modMe fun _ => b).modMyCore fun c => { c with pre := p, corecfg := 0xFFFF } with launches := [launch7] }
theorem test_meets_SpillAndRestore : (at0 id).me.user = true ∧ (superX []).myCore.pre = .none ∧ isOk (openBuf (buffered0 .asked 7) .write 0x100000) = true ∧
    spillWaits (buffered0 .asked 7) 7 = false ∧ (buffered0 .asked 7).me.user = false ∧ (7 : Word).getLsbD 3 = false ∧ (15 : Word).getLsbD 3 = true ∧
    isOk (openBuf (buffered0 .starting 0) .read 0x100000) = true ∧ (buffered0 .asked 7).me.hdr ≠ none := by decide +kernel
theorem test_meets_SpillAndRestore_waits : spillWaits ((buffered0 .asked 7).modBerth 0 1 fun _ => barge) 7 = true ∧
    okWith (buffered0 .asked 7).releasing (fun _ => true) = true ∧ (5 : Word).getLsbD 2 = true ∧
    okWith (openBuf ((buffered0 .starting 0).writeN (.hbm (0x100000 + 0x4F8)) 8 (2 ^ 63)) .read 0x100000) (fun e => (bufGet e.1 e.2 0x4F8).getLsbD 63) = true := by
  decide +kernel
theorem test_meets_SpillAndRestore_slot : okWith (openBuf ((buffered0 .starting 0).writeN (.clm 0 248) 8 (2 ^ 63)) .read 0x100000) (fun e => slotValid e.1 0) = true := by decide +kernel
/-- PSPILL Q waits for its release; PREST has no poison in its way, or a poisoned unit in the buffer's Q part. -/
theorem test_meets_SpillAndRestore_more : okWith (openBuf ((buffered0 .asked 7).modMyCore fun c => { c with relEnd := 50 }) .write 0x100000) (fun e => waitRun e.1.releasing) = true ∧
    okWith (openBuf ((buffered0 .asked 7).modMyCore fun c => { c with l1 := [dirtyLine] }) .write 0x100000) (fun e => goneRun e.1.releasing) = true ∧
    okWith (openBuf (buffered0 .starting 1) .read 0x100000) (fun e => restPoison e.1 e.2 0x100000 1 0 == none) = true ∧
    okWith (openBuf ((buffered0 .starting 1).setPoison (.hbm 0x100008) true) .read 0x100000) (fun e => restPoison e.1 e.2 0x100000 1 0 == some 0x100008) = true := by
  decide +kernel
theorem test_meets_SpillAndRestore_valid : okWith (openBuf (buffered0 .starting 4) .read 0x100000) (fun e => validPoison e.1 e.2 0x100000 false == none) = true ∧
    okWith (openBuf ((buffered0 .starting 4).setPoison (.clm 0 248) true) .read 0x100000) (fun e => validPoison e.1 e.2 0x100000 false == some 0x000E0000000000F8) = true ∧
    (4 : Word).getLsbD 2 = true ∧ (4 : Word).getLsbD 0 = false := by decide +kernel
theorem test_meets_ArrayErrors_more : ((bankState 1 0 []).bankOf 0 (15 * 131072 / 131072)).mode = 1 ∧ ((bankState 2 0 [(4, false)]).bankOf 0 15).fifo[0]? = some (4, false) ∧
    ((glob 0x4019F [gline 0x4019F (secMask 0) (byteMask 0 8)]).core 0).l1 = [gline 0x4019F (secMask 0) (byteMask 0 8)] ∧
    (gline 0x4019F (secMask 0) 0).va = 0x30010 / 1024 ∧ fld (secMask 0) (8 * (0x30010 % 1024 / 8)) 8 ≠ 0 := by decide +kernel
theorem test_fifo_error : see (exec (.eccUncorrectable (.basin 0 (15 * 131072 + 8))) (bankState 2 8 [(4, false), (5, false)])) (fun t => (t.bankOf 0 15).fifo) [] =
    [(4, false), (5, true)] := by decide +kernel
theorem test_meets_ArrayErrors : clmFatal 0x8000 = false ∧ clmFatal 0x6000 = true ∧ clmFatal 0 = true ∧ (31 : Nat) < 32 := by decide +kernel
def flying : State := { at0 id with agenda := [(9, .barrierArrival 0 0 0 0), (9, .freeSlotReturn 1 2 ⟨7, 0⟩)] }
theorem test_meets_LinkErrors : flying.agenda[2]? = none ∧ flying.agenda[0]? = some (9, .barrierArrival 0 0 0 0) ∧ flying.agenda[1]? = some (9, .freeSlotReturn 1 2 ⟨7, 0⟩) ∧
    (at0 id).lock.links.getLsbD 15 = false ∧ (lockState fun k => { k with links := 0x8000 }).lock.links.getLsbD 15 = true ∧
    (∀ r k lid, Instr.barrierArrival 0 0 0 0 ≠ .freeSlotReturn r k lid) :=
  ⟨by decide +kernel, by decide +kernel, by decide +kernel, by decide +kernel, by decide +kernel, fun _ _ _ h => Instr.noConfusion h⟩
theorem test_meets_LinkErrors_eighth : inMesh (.replyArrival 0 0) = true ∧ (8 : Nat) ≤ (⟨0, 8, 0⟩ : FlitErr).fails := by decide +kernel
/-- A dump is in progress, that of a thermal trip behind it. -/
def rec0 : ErrRec := ⟨5, 2, 0, 0, 0, 0, 1⟩
theorem test_meets_FatalErrors_trip : (lockState fun k => { k with dumping := true, dumpPend := [rec0], trip := some rec0 }).lock.dumpPend = [rec0] ∧
    (lockState fun k => { k with dumping := true, dumpPend := [rec0], trip := some rec0 }).lock.trip = some rec0 ∧ (at0 id).lock.trip ≠ some rec0 := by decide +kernel
theorem test_meets_FatalErrors : struck (launched id) .package launch7 = true ∧ fatalCluster (.clm 0 0) = some 0 ∧ (at0 id).lock.dumping = false ∧
    (lockState fun k => { k with dumping := true }).lock.dumpPend = [] := by decide +kernel
def repairs (hard : Bool) (n : Nat) : State := lockState fun k => { k with running := true, hbm := 0xFF, failing := [(0, hard)], spares := n }
theorem test_meets_Repairs : scrubNext (at0 id) = none ∧ scrubNext (repairs true 1) = some (0, 0) ∧ pollDue (at0 id) = false ∧ pollDue (repairs true 1) = true ∧
    retireDue (at0 id) 0 = false ∧ retireDue (repairs true 0) 0 = true ∧ retireDue (repairs true 2) 0 = true ∧
    (let s : State := { repairs false 1 with cores := (ringRanks 0).map fun r => (r, { Core.reset with pre := .stopped }) }
     retireDue s 0 = true ∧ alGet s.lock.failing 0 = some false ∧ alGet s.lock.moving 0 = none) ∧
    (let s := (repairs false 1).withLock fun k => { k with moving := [(0, 0)] }
     retireDue s 0 = true ∧ alGet s.lock.moving 0 ≠ none) := by decide +kernel
/-- Core 0, in a pre-emption, has its context buffer's first granule at 0x100000. -/
theorem test_meets_ArrayErrors_owner : hbmOwner (at0 id) 0x100008 = none ∧
    hbmOwner ((preempts .stopped id).modMyCore fun c => { c with bufPas := [0x100000] }) 0x100008 = some 0 := by decide +kernel
/-- What makes a firmware slot valid is left open (Config.sm2Verify, Config.sm3), so the clauses about a valid slot have no closed witness. -/
theorem test_meets_PowerOn : bootSlot none none = none := rfl
def boots : BootInput := ⟨none, none, none, none, none, 0xFF, 0xFFFF, [0, 5], [0], 4, 1⟩
/-- The boot with nothing on the drives, at a stage. -/
def booting (n : Nat) : State := { State.reset with lock := { Lock.reset with boot := some boots, stage := n, toTest := [5] } }
theorem test_meets_BootSteps : nextAct (booting 1) = .boot boots ∧ bootDrive (booting 1).lock { boots with drive0 := some (none, none) } = some (0, none, none) ∧
    (booting 4).lock.toTest = [5] ∧ (booting 4).lock.stage = 4 := by decide +kernel
theorem test_boot : (bootStep 0 boots (booting 2).lock).stage = 3 ∧ (bootStep 0 boots (booting 4).lock).ready = [5] ∧
    (bootStep 0 boots { (booting 4).lock with toTest := [] }).stage = 5 := by decide +kernel
theorem test_power_on_halts : see (exec (.powerOnReset boots) (at0 id)) (fun t => (t.lock.stage, t.lock.running, t.cores.length)) (0, true, 9) = (1, false, 0) ∧
    see (step (booting 1)) (fun t => (t.lock.stage, t.lock.running)) (0, true) = (15, false) := by
  decide +kernel
theorem test_meets_Attestation : (1 : Word).getLsbD 0 = true ∧ (0 : Word).getLsbD 0 = false ∧ (at0 id).lock.atgo = false ∧ (lockState fun k => { k with atgo := true }).lock.atgo = true := by
  decide +kernel
theorem test_meets_Board : (at0 id).lock.plimNext * (([5000] : List Nat).take 10).length < total [5000] ∧ (839 : Int) < 8 * 105 ∧ (1000 : Nat) ≤ 3600 := by decide +kernel
theorem test_meets_DeviceRegisters : (9215 : Nat) < 9216 ∧ (0x300000000 : Word) &&& 0xFFFFFFFF = 0 := by decide
theorem test_plim : see (exec (.smbusWritePlim (3600, pec [0x98, 4, 0x10, 0x0E])) (at0 id)) (fun t => t.lock.plimNext) 0 = 3600 ∧ see (exec (.smbusWritePlim (3600, 0)) (at0 id)) (fun t => t.outs) [] = [.nack] := by decide +kernel
theorem test_uncorrectable : see (exec (.eccUncorrectable (.clm 0 0x8000)) (at0 id)) (fun t => (t.poisoned (.clm 0 0x8000), t.poisoned (.clm 0 0x8008))) (false, true) = (true, false) := by decide +kernel

/-! ### Steps -/

theorem test_meets_DecodeEncode : (Instr.add 3 1 2).wf = true ∧ (Instr.add 3 1 2).encoded = true ∧ (Instr.chbind 7 3 27 0x3FFF).wf = true ∧ (Instr.chbind 7 3 27 0x3FFF).encoded = true := by
  decide +kernel
theorem test_meets_OneWordEach : decodeWord (encode (.amoCas 23 27 27 1 1 1)) = .ok (.amoCas 23 27 27 1 1 1) := by decide +kernel
/-- The barge is about to run ADDI x5, x5, 1. -/
def addsOne : State := runs [0x04528001]
theorem test_meets_StepRunsDecoded : nextAct addsOne = .issue 0 0 ∧ (addsOne.berthAt 0 0).drowsy = false ∧ (takeSlot addsOne 0 0).me.rpt = none ∧
    fetchAt (takeSlot addsOne 0 0) (takeSlot addsOne 0 0).me.pc = .word 0x04528001 ∧ decodeWord 0x04528001 = .ok (.addi 5 5 1) ∧
    boardConflict (takeSlot addsOne 0 0) 0x04528001 = false := by decide +kernel
/-- The barge is about to run VADD v1, v2, v3 while its own block of the same word is in the repetition buffer. -/
def meetsBuffer : State := (runs [0x7A246000]).modMyCore fun c => { c with buffer := some ⟨0, 9, bufBlock, none, 0⟩ }
theorem test_meets_StepRunsDecoded_buffer : nextAct meetsBuffer = .issue 0 0 ∧ fetchAt (takeSlot meetsBuffer 0 0) 0x10000 = .word 0x7A246000 ∧
    boardConflict ((takeSlot meetsBuffer 0 0).modMe fun k => { k with entry := false }) 0x7A246000 = true := by decide +kernel
theorem test_meets_StepRunsDecoded_illegal : nextAct (runs [0]) = .issue 0 0 ∧ fetchAt (takeSlot (runs [0]) 0 0) 0x10000 = .word 0 ∧ decodeWord 0 = .error .opcode := by decide +kernel
/-- The barge's page is mapped with an entry, and its line is not in the instruction cache; with no entry it waits for a walk; without X it faults. -/
def cold (pte : Word) : State := (at0 id).modCluster 0 fun c => { c with tlb := if pte = 0 then [] else [⟨2, 1, false, pte⟩] }
def fetchKind (f : Fetched) : Nat := match f with | .word _ => 0 | .filled _ _ => 1 | .wait _ => 2 | .fault c => if c = .fetch then 3 else 4
theorem test_meets_StepRunsDecoded_misses : ([0x1019F, 0, 0x10197].map fun p =>
    (nextAct (cold p), (takeSlot (cold p) 0 0).me.rpt, fetchKind (fetchAt (takeSlot (cold p) 0 0) (takeSlot (cold p) 0 0).me.pc))) =
    [(.issue 0 0, none, 1), (.issue 0 0, none, 2), (.issue 0 0, none, 3)] := by decide +kernel
theorem test_fetch_waits : see (step (cold 0x1019F)) (fun t => (t.me.wait.isSome, t.me.pc, t.myCore.icache.length)) (false, 0, 0) = (true, 0x10000, 1) := by decide +kernel
theorem test_step : xOf (step addsOne) 5 = 1 ∧ pcOf (step addsOne) = 0x10004 := by decide +kernel
theorem test_meets_Ticks : nextAct State.reset = .tick := by decide +kernel
theorem test_meets_StepKeepsMemory : State.reset.memOk ∧ ∃ t, step State.reset = .next t := ⟨memOk_reset, isNext_ex (by decide +kernel)⟩
theorem test_meets_RegisterFrames : Plain (at0 id) ∧ (∀ x ∈ ([1, 23] : List (BitVec 5)), x.toNat < 24) := by unfold Plain; decide +kernel
theorem test_withFetchWord : xOf (step (State.reset.withFetchWord 32 0x04528001)) 5 = 1 ∧ decodeTableWord 32 0x04528001 = some (.addi 5 5 1) := by decide +kernel
theorem test_fsgnjx_both : fOf (exec (.fsgnjx 1 2 3) (at0 (fs [(2, 0xBF800000), (3, 0x80000000)]))) 1 = 0x3F800000 := by decide +kernel
theorem test_fclass_nan : xOf (exec (.fclass 1 2) (at0 (fs [(2, 0x7F800001)]))) 1 = 256 := by decide +kernel

end Sys2Proof.Tests
end

section
/-! PROOFS OF THE SCOPE. What the canonical form of memory depends on: a state's memory alone. -/
namespace Sys2Proof.Machine

namespace State
/-- A change of any other field leaves the form of memory as it is. -/
@[simp] theorem memOk_mk (s : State) {cycle rank berth : Nat} {buffered : Bool} {cores clusters basin full poison launches lock agenda held inputs
    outs ticket free powerOff} :
    (mk cycle rank berth buffered cores clusters s.mem basin full poison launches lock agenda held inputs outs ticket free powerOff).memOk ↔
      s.memOk := Iff.rfl
@[simp] theorem memOk_ite (c : Prop) [Decidable c] (s t : State) : (if c then s else t).memOk ↔ if c then s.memOk else t.memOk := by
  split <;> rfl
/-- A fold, or an iteration, of steps that leave memory's form as it is does so too. -/
@[simp] theorem foldl_memOk {α : Type} (f : State → α → State) (hf : ∀ t a, (f t a).memOk ↔ t.memOk) (l : List α) (s : State) :
    (l.foldl f s).memOk ↔ s.memOk := by
  induction l generalizing s with
  | nil => rfl
  | cons a l ih => exact (ih _).trans (hf s a)
@[simp] theorem iter_memOk (f : Nat → State → State) (hf : ∀ i t, (f i t).memOk ↔ t.memOk) (n : Nat) (s : State) :
    (iter f n s).memOk ↔ s.memOk := by
  induction n with
  | zero => rfl
  | succ n ih => exact (hf n _).trans ih
/-- A fold, or an iteration, of steps that keep memory's form keeps it. -/
theorem memOk_foldl {α : Type} {f : State → α → State} {s : State} (hs : s.memOk) (hf : ∀ t a, t.memOk → (f t a).memOk) (l : List α) :
    (l.foldl f s).memOk := foldl_keeps memOk f l s hs fun t a _ => hf t a
theorem memOk_iter {f : Nat → State → State} {s : State} (hs : s.memOk) (hf : ∀ i t, t.memOk → (f i t).memOk) (n : Nat) :
    (iter f n s).memOk := iter_keeps memOk f n s hs fun i t _ => hf i t
end State
end Sys2Proof.Machine
end

section
/-! PROOFS OF THE SCOPE. Updates that leave memory alone, and those of memory itself. -/
namespace Sys2Proof.Machine

namespace State
@[simp] theorem setCore_memOk (s : State) (r : Nat) (c : Core) : (s.setCore r c).memOk ↔ s.memOk := Iff.rfl
@[simp] theorem modCore_memOk (s : State) (r : Nat) (f : Core → Core) : (s.modCore r f).memOk ↔ s.memOk := Iff.rfl
@[simp] theorem setBerth_memOk (s : State) (r b : Nat) (x : Berth) : (s.setBerth r b x).memOk ↔ s.memOk := Iff.rfl
@[simp] theorem modBerth_memOk (s : State) (r b : Nat) (f : Berth → Berth) : (s.modBerth r b f).memOk ↔ s.memOk := Iff.rfl
@[simp] theorem modMyCore_memOk (s : State) (f : Core → Core) : (s.modMyCore f).memOk ↔ s.memOk := Iff.rfl
@[simp] theorem setMe_memOk (s : State) (b : Berth) : (s.setMe b).memOk ↔ s.memOk := Iff.rfl
@[simp] theorem modMe_memOk (s : State) (f : Berth → Berth) : (s.modMe f).memOk ↔ s.memOk := Iff.rfl
@[simp] theorem setCluster_memOk (s : State) (cl : Nat) (c : Cluster) : (s.setCluster cl c).memOk ↔ s.memOk := Iff.rfl
@[simp] theorem modCluster_memOk (s : State) (cl : Nat) (f : Cluster → Cluster) : (s.modCluster cl f).memOk ↔ s.memOk := Iff.rfl
@[simp] theorem as_memOk (s : State) (r b : Nat) : (s.as r b).memOk ↔ s.memOk := Iff.rfl
@[simp] theorem back_memOk (t s : State) : (t.back s).memOk ↔ t.memOk := Iff.rfl
@[simp] theorem withLock_memOk (s : State) (f : Lock → Lock) : (s.withLock f).memOk ↔ s.memOk := Iff.rfl
@[simp] theorem out_memOk (s : State) (o : Out) : (s.out o).memOk ↔ s.memOk := Iff.rfl
@[simp] theorem setWait_memOk (s : State) (w : Wait) : (s.setWait w).memOk ↔ s.memOk := by simp [setWait]
@[simp] theorem later_memOk (s : State) (delay : Nat) (i : Instr) : (s.later delay i).memOk ↔ s.memOk := Iff.rfl
@[simp] theorem fresh_memOk (s : State) : (s.fresh).memOk ↔ s.memOk := Iff.rfl
@[simp] theorem modLaunch_memOk (s : State) (lid : Nat) (f : Launch → Launch) : (s.modLaunch lid f).memOk ↔ s.memOk := Iff.rfl
end State
@[simp] theorem logErr_memOk (s : State) (e : ErrRec) : (logErr s e).memOk ↔ s.memOk := Iff.rfl
namespace State
@[simp] theorem setPoison_memOk (s : State) (l : Loc) (p : Bool) : (s.setPoison l p).memOk ↔ s.memOk := by simp [setPoison]
@[simp] theorem setFull_memOk (s : State) (l : Loc) (f : Bool) : (s.setFull l f).memOk ↔ s.memOk := by simp [setFull]
@[simp] theorem cleanUnit_memOk (l : Line) (u : Nat) (s : State) : (cleanUnit l u s).memOk ↔ s.memOk := by simp [cleanUnit]
@[simp] theorem sendOff_memOk (s : State) (delay : Nat) (i : Instr) (thief : Option Nat) : (s.sendOff delay i thief).memOk ↔ s.memOk := by
  unfold sendOff; split <;> simp
@[simp] theorem afterRelease_memOk (s : State) (r least way : Nat) (i : Instr) (thief : Option Nat) :
    (s.afterRelease r least way i thief).memOk ↔ s.memOk := by
  unfold afterRelease; split <;> simp
@[simp] theorem acquire_memOk (s : State) (r : Nat) : (s.acquire r).memOk ↔ s.memOk := Iff.rfl
@[simp] theorem gain_memOk (s : State) : (s.gain).memOk ↔ s.memOk := by simp [gain]
@[simp] theorem dropLine_memOk (s : State) (r asid va : Nat) : (s.dropLine r asid va).memOk ↔ s.memOk := Iff.rfl
@[simp] theorem bline_memOk (s : State) (cl pa : Nat) : (s.bline cl pa).1.memOk ↔ s.memOk := by unfold bline; dsimp only; (repeat' split) <;> simp
@[simp] theorem fetchSector_memOk (s : State) (cl : Nat) (steady : Bool) (pa : Nat) : (s.fetchSector cl steady pa).1.memOk ↔ s.memOk := by
  unfold fetchSector; split <;> simp
@[simp] theorem modBank_memOk (s : State) (cl n : Nat) (f : Bank → Bank) : (s.modBank cl n f).memOk ↔ s.memOk := Iff.rfl
@[simp] theorem countField_memOk (s : State) (r lo : Nat) : (s.countField r lo).memOk ↔ s.memOk := Iff.rfl
@[simp] theorem countPoison_memOk (s : State) (r lid a : Nat) : (s.countPoison r lid a).memOk ↔ s.memOk := Iff.rfl
@[simp] theorem consume_memOk (s : State) (va : Word) : (s.consume va).memOk ↔ s.memOk := Iff.rfl
@[simp] theorem enter_memOk (s : State) (c : Cause) (tval tpc : Word) (rpts k idx : Nat) (rkm : Bool) :
    (s.enter c tval tpc rpts k idx rkm).memOk ↔ s.memOk := Iff.rfl
@[simp] theorem takeTrap_memOk (s : State) (c : Cause) (tval : Word) : (s.takeTrap c tval).memOk ↔ s.memOk := by unfold takeTrap; split <;> simp
@[simp] theorem bufTrap_memOk (s : State) (c : Cause) (tval : Word) : (s.bufTrap c tval).memOk ↔ s.memOk := by unfold bufTrap; split <;> simp
@[simp] theorem trapNow_memOk (s : State) (c : Cause) (tval : Word) : (s.trapNow c tval).memOk ↔ s.memOk := by simp [trapNow]
@[simp] theorem modWait_memOk (s : State) (r b : Nat) (f : Wait → Wait) : (s.modWait r b f).memOk ↔ s.memOk := by simp [modWait]
@[simp] theorem modMyWait_memOk (s : State) (f : Wait → Wait) : (s.modMyWait f).memOk ↔ s.memOk := by simp [modMyWait]
@[simp] theorem noteIssued_memOk (s : State) (f : Issued → Issued) : (s.noteIssued f).memOk ↔ s.memOk := by simp [noteIssued]
@[simp] theorem joinHeld_memOk (s : State) (r : Nat) : (s.joinHeld r).memOk ↔ s.memOk := by simp [joinHeld]
@[simp] theorem block_memOk (s : State) (y : Why) : (s.block y).memOk ↔ s.memOk := by unfold block; split <;> simp
@[simp] theorem await_memOk (s : State) (y : Why) : (s.await y).memOk ↔ s.memOk := by simp [await]
@[simp] theorem reply_memOk (s : State) (r b : Nat) (q : Reply) (delay : Nat) : (s.reply r b q delay).memOk ↔ s.memOk := by simp [reply]
@[simp] theorem retire_memOk (s : State) : (s.retire).memOk ↔ s.memOk := Iff.rfl
@[simp] theorem next_memOk (s : State) (lat : Nat) : (s.next lat).memOk ↔ s.memOk := by simp [next]
@[simp] theorem jump_memOk (s : State) (t : Word) : (s.jump t).memOk ↔ s.memOk := Iff.rfl
@[simp] theorem moor_memOk (s : State) : (s.moor).memOk ↔ s.memOk := Iff.rfl
@[simp] theorem modCounts_memOk (s : State) (r lid : Nat) (f : Counts → Counts) : (s.modCounts r lid f).memOk ↔ s.memOk := Iff.rfl
@[simp] theorem incLive_memOk (s : State) (r lid : Nat) : (s.incLive r lid).memOk ↔ s.memOk := Iff.rfl
@[simp] theorem decLive_memOk (s : State) (r lid : Nat) : (s.decLive r lid).memOk ↔ s.memOk := Iff.rfl
@[simp] theorem incPend_memOk (s : State) (r lid : Nat) : (s.incPend r lid).memOk ↔ s.memOk := Iff.rfl
@[simp] theorem decPend_memOk (s : State) (r lid : Nat) : (s.decPend r lid).memOk ↔ s.memOk := Iff.rfl
@[simp] theorem incSent_memOk (s : State) (r lid : Nat) : (s.incSent r lid).memOk ↔ s.memOk := Iff.rfl
@[simp] theorem incRecv_memOk (s : State) (r lid : Nat) : (s.incRecv r lid).memOk ↔ s.memOk := Iff.rfl
@[simp] theorem modPort_memOk (s : State) (r b p : Nat) (f : Port → Port) : (s.modPort r b p f).memOk ↔ s.memOk := Iff.rfl
@[simp] theorem pop_memOk (s : State) (r : BitVec 5) : (s.pop r).memOk ↔ s.memOk := by simp [pop]
@[simp] theorem pops_memOk (s : State) (l : List (BitVec 5)) : (s.pops l).memOk ↔ s.memOk := by
  induction l with
  | nil => rfl
  | cons r l ih => simp [pops, ih]
@[simp] theorem push_memOk (s : State) (p : Nat) (v : Word) : (s.push p v).memOk ↔ s.memOk := Iff.rfl
@[simp] theorem wx_memOk (s : State) (d : BitVec 5) (v : Word) : (s.wx d v).memOk ↔ s.memOk := by simp [wx]
@[simp] theorem wf_memOk (s : State) (d : BitVec 4) (v : W32) : (s.wf d v).memOk ↔ s.memOk := Iff.rfl
@[simp] theorem wv_memOk (s : State) (d : BitVec 4) (v : VReg) : (s.wv d v).memOk ↔ s.memOk := Iff.rfl
@[simp] theorem wp_memOk (s : State) (i : BitVec 5) (v : Bool) : (s.wp i v).memOk ↔ s.memOk := by simp [wp]
@[simp] theorem flag_memOk (s : State) (f : Flags) : (s.flag f).memOk ↔ s.memOk := by simp [flag]
@[simp] theorem setTable_memOk (s : State) (r t : Nat) (v : DTab) : (s.setTable r t v).memOk ↔ s.memOk := Iff.rfl
@[simp] theorem put_memOk (s : State) (q : Reply) : (s.put q).memOk ↔ s.memOk := by unfold put; dsimp only; (repeat' split) <;> simp
@[simp] theorem answered_memOk (s : State) (lat : Nat) (q : Reply) : (s.answered lat q).memOk ↔ s.memOk := by simp [answered]
@[simp] theorem answeredLast_memOk (s : State) (lat : Nat) (q : Reply) : (s.answeredLast lat q).memOk ↔ s.memOk := by simp [answeredLast]
@[simp] theorem atWriteBack_memOk (s : State) (q : Reply) : (s.atWriteBack q).memOk ↔ s.memOk := by simp [atWriteBack]
@[simp] theorem done_memOk (s : State) (lat : Nat) (q : Reply) : (s.done lat q).memOk ↔ s.memOk := by
  unfold done; cases q.pc <;> simp
@[simp] theorem drain_memOk (s : State) (r h : Nat) : (s.drain r h).memOk ↔ s.memOk := by simp [drain]
@[simp] theorem drainAfter_memOk (s : State) (r : Nat) (w : Option Wait) : (s.drainAfter r w).memOk ↔ s.memOk := by unfold drainAfter; split <;> simp
@[simp] theorem giveBack_memOk (s : State) (r b now : Nat) : (s.giveBack r b now).memOk ↔ s.memOk := by unfold giveBack; split <;> simp
@[simp] theorem leave_memOk (s : State) (r b : Nat) : (s.leave r b).memOk ↔ s.memOk := by simp [leave]
@[simp] theorem depart_memOk (s : State) : (s.depart).memOk ↔ s.memOk := by simp [depart]
@[simp] theorem sendBarge_memOk (s : State) (r : Nat) (pk : Packet) : (s.sendBarge r pk).memOk ↔ s.memOk := by simp [sendBarge]
@[simp] theorem dockInto_memOk (s : State) (r b : Nat) (pk : Packet) (arr : Nat) : (s.dockInto r b pk arr).memOk ↔ s.memOk := Iff.rfl
end State

end Sys2Proof.Machine
end

section
/-! PROOFS OF THE SCOPE. Runs and outcomes that keep memory in canonical form. -/
namespace Sys2Proof.Machine
open State

/-- The state in which an instruction stops short of advancing has its memory in canonical form. -/
def Stop.memOk : Stop → Prop
  | .gone t => t.memOk
  | _ => True
/-- A run answers with what satisfies P, or stops short with its memory in canonical form. -/
def Keeps {α : Type} (P : α → Prop) : Run α → Prop
  | .ok a => P a
  | .error e => e.memOk
/-- A meaning that answers a next state answers one with its memory in canonical form. -/
def NextOk : Host.Outcome State Fault Refusal → Prop
  | .next t => t.memOk
  | _ => True

section
variable {α β : Type} {P Q : α → Prop}
@[simp] theorem Stop.memOk_trap (c : Cause) (v : Word) : (Stop.trap c v).memOk := trivial
@[simp] theorem Stop.memOk_wait (y : Why) : (Stop.wait y).memOk := trivial
@[simp] theorem Stop.memOk_gone (t : State) : (Stop.gone t).memOk ↔ t.memOk := Iff.rfl
@[simp] theorem keeps_ok (a : α) : Keeps P (.ok a : Run α) ↔ P a := Iff.rfl
@[simp] theorem keeps_pure (a : α) : Keeps P (pure a : Run α) ↔ P a := Iff.rfl
@[simp] theorem keeps_error (e : Stop) : Keeps P (.error e : Run α) ↔ e.memOk := Iff.rfl
@[simp] theorem keeps_stop (c : Cause) (v : Word) : Keeps P (stop c v : Run α) := trivial
@[simp] theorem keeps_waitFor (y : Why) : Keeps P (waitFor y : Run α) := trivial
@[simp] theorem keeps_gone (t : State) : Keeps P (gone t : Run α) ↔ t.memOk := Iff.rfl
@[simp] theorem keeps_ite (c : Prop) [Decidable c] (x y : Run α) : Keeps P (if c then x else y) ↔ if c then Keeps P x else Keeps P y := by
  split <;> rfl
@[simp] theorem keeps_bind {P : β → Prop} (x : Run α) (f : α → Run β) : Keeps P (x >>= f) ↔ Keeps (fun a => Keeps P (f a)) x := by
  cases x <;> rfl
theorem Keeps.imp {x : Run α} (h : Keeps P x) (k : ∀ a, P a → Q a) : Keeps Q x := by
  cases x with
  | ok a => exact k a h
  | error e => exact h
/-- A run that only ever traps or waits keeps what its answer keeps. -/
theorem keeps_iff {x : Run α} (h : Keeps (fun _ => True) x) : Keeps P x ↔ ∀ a, x = .ok a → P a := by
  cases x with
  | ok a => simp
  | error e => simpa using h

@[simp] theorem nextOk_next (t : State) : NextOk (.next t) ↔ t.memOk := Iff.rfl
@[simp] theorem nextOk_ite (c : Prop) [Decidable c] (x y : Host.Outcome State Fault Refusal) :
    NextOk (if c then x else y) ↔ if c then NextOk x else NextOk y := by split <;> rfl
end

/-! ### Runs that only trap or wait -/

namespace State
variable {P : Unit → Prop}
@[simp] theorem keeps_translate {P : Word × Nat → Prop} (s : State) (w : Who) (k : Kind) (va : Word) :
    Keeps P (s.translate w k va) ↔ ∀ a, s.translate w k va = .ok a → P a := by
  apply keeps_iff
  unfold translate; dsimp only; (repeat' split) <;> simp
@[simp] theorem keeps_decodeAddr {P : Target → Prop} (s : State) (w : Who) (k : Kind) (va : Word) (n : Nat) :
    Keeps P (s.decodeAddr w k va n) ↔ ∀ a, s.decodeAddr w k va n = .ok a → P a := by
  apply keeps_iff
  unfold decodeAddr; simp
@[simp] theorem keeps_farOk (w : Who) (k : Kind) (va : Word) (pa n : Nat) :
    Keeps P (farOk w k va pa n) ↔ ∀ a, farOk w k va pa n = .ok a → P a := by
  apply keeps_iff
  unfold farOk; (repeat' split) <;> simp
@[simp] theorem keeps_arrives (s : State) (r d : Nat) : Keeps P (s.arrives r d) ↔ ∀ a, s.arrives r d = .ok a → P a := by
  apply keeps_iff
  unfold arrives; (repeat' split) <;> simp
@[simp] theorem keeps_atHome (s : State) (r : Nat) : Keeps P (s.atHome r) ↔ ∀ a, s.atHome r = .ok a → P a := keeps_arrives s r _
theorem stays_checkIn (s : State) (r : BitVec 5) : Keeps (fun _ => True) (s.checkIn r) := by
  unfold checkIn; simp
theorem stays_checkOut (s : State) (r : BitVec 5) : Keeps (fun _ => True) (s.checkOut r) := by
  unfold checkOut; simp
theorem stays_checkIns (s : State) (l : List (BitVec 5)) : Keeps (fun _ => True) (s.checkIns l) := by
  induction l with
  | nil => simp [checkIns]
  | cons r l ih =>
    have hr := stays_checkIn s r
    unfold checkIns; split
    · exact ih
    · simp_all
theorem stays_checkPorts (s : State) (l : List (BitVec 5)) (d : BitVec 5) : Keeps (fun _ => True) (s.checkPorts l d) := by
  have hr := stays_checkIns s l
  unfold checkPorts; split
  · exact stays_checkOut s d
  · simp_all
@[simp] theorem keeps_checkIns (s : State) (l : List (BitVec 5)) : Keeps P (s.checkIns l) ↔ ∀ a, s.checkIns l = .ok a → P a :=
  keeps_iff (stays_checkIns s l)
@[simp] theorem keeps_checkOut (s : State) (r : BitVec 5) : Keeps P (s.checkOut r) ↔ ∀ a, s.checkOut r = .ok a → P a :=
  keeps_iff (stays_checkOut s r)
@[simp] theorem keeps_checkPorts (s : State) (l : List (BitVec 5)) (d : BitVec 5) :
    Keeps P (s.checkPorts l d) ↔ ∀ a, s.checkPorts l d = .ok a → P a := keeps_iff (stays_checkPorts s l d)
end State
end Sys2Proof.Machine
end

section
/-! PROOFS OF THE SCOPE. How instructions end, and what they load, store and move. -/
namespace Sys2Proof.Machine
open State
namespace State

/-! ### Loads, stores and releases -/

section
variable {s : State} (hs : s.memOk)
include hs
theorem keeps_l1Load {P} {w : Who} {va : Word} {n : Nat} (h : ∀ r, r.1.memOk → P r) : Keeps P (s.l1Load w va n) := by
  refine (keeps_iff ?_).2 fun r e => h r (memOk_l1Load hs e)
  unfold l1Load; dsimp only; (repeat' split) <;>
    simp only [keeps_bind, keeps_translate, keeps_farOk, keeps_ite, keeps_waitFor, keeps_ok, keeps_stop, implies_true, ite_self]
theorem keeps_l1Store {P} {w : Who} {va : Word} {n v : Nat} (h : ∀ r, r.1.memOk → P r) : Keeps P (s.l1Store w va n v) := by
  refine (keeps_iff ?_).2 fun r e => h r (memOk_l1Store hs e)
  unfold l1Store; dsimp only; (repeat' split) <;>
    simp only [keeps_bind, keeps_translate, keeps_farOk, keeps_ite, keeps_waitFor, keeps_ok, keeps_stop, implies_true, ite_self]
theorem keeps_basinLoad {P} {w : Who} {va : Word} {bank off n : Nat} {whole : Bool} (h : ∀ r, r.1.memOk → P r) :
    Keeps P (s.basinLoad w va bank off n whole) := by
  refine (keeps_iff ?_).2 fun r e => h r (memOk_basinLoad hs e)
  unfold basinLoad; dsimp only; (repeat' split) <;> simp
theorem keeps_basinStore {P} {w : Who} {va : Word} {bank off n v : Nat} {whole : Bool} (h : ∀ r, r.1.memOk → P r) :
    Keeps P (s.basinStore w va bank off n v whole) := by
  refine (keeps_iff ?_).2 fun r e => h r (memOk_basinStore hs e)
  unfold basinStore; dsimp only; (repeat' split) <;> simp
/-- A load and a store anywhere, performed at their home when the request stands there already, too. -/
theorem keeps_load {P} {va : Word} {n align : Nat} {whole there : Bool} (h : ∀ r, r.1.memOk → P r) :
    Keeps P (s.load va n align whole there) := by
  simp only [load, keeps_bind, keeps_decodeAddr]
  intro t _
  cases t with
  | global => exact keeps_l1Load hs h
  | basin => exact keeps_basinLoad hs h
  | clm r off => dsimp only; split <;> simp [h, hs]
theorem keeps_store {P} {va : Word} {n align v : Nat} {whole there : Bool} (h : ∀ r, r.1.memOk → P r) :
    Keeps P (s.store va n align v whole there) := by
  simp only [store, keeps_bind, keeps_decodeAddr]
  intro t _
  cases t with
  | global => exact keeps_l1Store hs h
  | basin => exact keeps_basinStore hs h
  | clm r off => dsimp only; split <;> simp [h, memOk_storeClm, hs]
theorem keeps_settle {P} {va : Word} {v d : Nat} {pois : Bool} (h : ∀ r, r.1.memOk → P r) : Keeps P (s.settle va v pois d) := by
  unfold settle; (repeat' split) <;> simp [h, hs]
theorem keeps_releaseNow {P} (h : ∀ t, t.memOk → P t) : Keeps P s.releaseNow := by
  have hr := memOk_release s.rank hs
  unfold releaseNow; (repeat' split) <;> simp [h, hr]
theorem keeps_releasing {P} (h : ∀ t, t.memOk → P t) : Keeps P s.releasing := by
  unfold releasing; (repeat' split) <;> simp [keeps_releaseNow hs h, h _ hs]

/-! ### Barges on their way -/

theorem memOk_putBytes {cl : Nat} {w : Who} {va : Nat} {l : List Byte} : (s.putBytes cl w va l).memOk := by
  induction l generalizing s va with
  | nil => exact hs
  | cons b l ih =>
    refine ih ?_
    have hx := memOk_xlate cl w .write va hs
    split
    · exact memOk_writeByte _ _ hx
    · exact hx
theorem memOk_imagePacket {cl : Nat} {pk : Packet} {arr va : Nat} : (s.imagePacket cl pk arr va).memOk := memOk_putBytes hs
theorem memOk_enqueue {r : Nat} {pk : Packet} {hold : Option Nat} : (s.enqueue r pk hold).memOk := by
  unfold enqueue; dsimp only; (repeat' split) <;> simp [hs, memOk_imagePacket]
theorem memOk_migrate {r : Nat} : (s.migrate r).memOk := by simp [migrate, memOk_release, hs]
theorem memOk_migrateFar {dev r : Nat} : (s.migrateFar dev r).memOk := by simp [migrateFar, memOk_release, hs]

/-! ### How an instruction ends -/

theorem nextOk_finish {r : Run State} : NextOk (s.finish r) ↔ Keeps memOk r := by
  unfold finish; split <;> simp [hs]
theorem nextOk_finishMoored {r : Run State} : NextOk (s.finishMoored r) ↔ Keeps memOk r := by
  unfold finishMoored; split
  · simp [hs]
  · exact nextOk_finish hs
theorem nextOk_putX {srcs d v fl} : NextOk (s.putX srcs d v fl) := by
  refine (nextOk_finish hs).2 ?_
  have hp := stays_checkPorts s srcs d
  split <;> simp_all
theorem nextOk_putS {srcs} {f : State → State} (hf : ∀ t, t.memOk → (f t).memOk) : NextOk (s.putS srcs f) := by
  refine (nextOk_finish hs).2 ?_
  have hp := stays_checkIns s srcs
  split
  · simpa using hf _ ((pops_memOk s srcs).2 hs)
  · simp_all
end
end State
end Sys2Proof.Machine
end

section
/-! PROOFS OF THE SCOPE. More updates that leave memory alone. -/
namespace Sys2Proof.Machine
open State

namespace State
@[simp] theorem noticeFreed_memOk (s : State) (r b p : Nat) : (s.noticeFreed r b p).memOk ↔ s.memOk := by simp [noticeFreed]
@[simp] theorem freePort_memOk (s : State) (r b p : Nat) : (s.freePort r b p).memOk ↔ s.memOk := by simp [freePort]
end State
@[simp] theorem modBarrier_memOk (s : State) (cl id : Nat) (f : Barrier → Barrier) : (modBarrier s cl id f).memOk ↔ s.memOk := Iff.rfl
@[simp] theorem withdrawBarrier_memOk (s : State) (cl id r b : Nat) : (withdrawBarrier s cl id r b).memOk ↔ s.memOk := Iff.rfl
@[simp] theorem repliesIn_memOk (s : State) (d : Nat) (q : Reply) : (repliesIn s d q).memOk ↔ s.memOk := by simp [repliesIn]
namespace State
@[simp] theorem sendDecrement_memOk (s : State) (r lid h back : Nat) : (s.sendDecrement r lid h back).memOk ↔ s.memOk := by simp [sendDecrement]
@[simp] theorem letGo_memOk (s : State) (rel : State → Nat → Nat → State) (fp : State → Nat → Nat → Nat → State) (r b now : Nat)
    (hrel : ∀ t r n, (rel t r n).memOk ↔ t.memOk) (hfp : ∀ t r b p, (fp t r b p).memOk ↔ t.memOk) :
    (s.letGo rel fp r b now).memOk ↔ s.memOk := by simp [letGo, hrel, hfp]
@[simp] theorem relAcc_memOk (s : State) (r n : Nat) : (s.relAcc r n).memOk ↔ s.memOk := Iff.rfl
@[simp] theorem freeAcc_memOk (s : State) (r n : Nat) : (s.freeAcc r n).memOk ↔ s.memOk := by simp [freeAcc]
end State
@[simp] theorem consumeRange_memOk (r lid off n : Nat) (s : State) : (consumeRange r lid off n s).memOk ↔ s.memOk := by simp [consumeRange]
@[simp] theorem openBrot_memOk (s : State) (ring : Bool) : (openBrot s ring).memOk ↔ s.memOk := Iff.rfl
@[simp] theorem swapHalves_memOk (s : State) (r : Nat) : (swapHalves s r).memOk ↔ s.memOk := by simp [swapHalves]
@[simp] theorem closeBrot_memOk (s : State) (r : Nat) : (closeBrot s r).memOk ↔ s.memOk := by unfold closeBrot; split <;> simp
@[simp] theorem mmaEnd_memOk (s : State) (r : Nat) (m : Mma) (bad : W32) : (mmaEnd s r m bad).memOk ↔ s.memOk := by simp [mmaEnd]
@[simp] theorem mmaStart_memOk (s : State) (r : Nat) : (mmaStart s r).memOk ↔ s.memOk := by unfold mmaStart; split <;> simp
@[simp] theorem mmaConsume_memOk (s : State) (r : Nat) (m : Mma) (aOff wa sOff : Nat) (half : Bool) :
    (mmaConsume s r m aOff wa sOff half).memOk ↔ s.memOk := by
  simp [mmaConsume]
@[simp] theorem chunkReply_memOk (t : State) (r b : Nat) (target : Word) (d : Nat) (a5 : Option (Word × Word)) :
    (chunkReply t r b target d a5).memOk ↔ t.memOk := by
  unfold chunkReply; split <;> simp
namespace State
@[simp] theorem dropped_memOk (s : State) : (s.dropped).memOk ↔ s.memOk := Iff.rfl
@[simp] theorem fillIcache_memOk (s : State) (r asid va : Nat) (p : Word) (pa : Nat) : (s.fillIcache r asid va p pa).memOk ↔ s.memOk := by
  simp [fillIcache]
@[simp] theorem cmoBasin_memOk (s : State) (cl lo hi va pa : Nat) : (s.cmoBasin cl lo hi va pa).memOk ↔ s.memOk := Iff.rfl
@[simp] theorem modPool_memOk (s : State) (r lid : Nat) (f : Pool → Pool) : (s.modPool r lid f).memOk ↔ s.memOk := Iff.rfl
end State
@[simp] theorem fetchWait_memOk (t : State) (lat : Nat) : (fetchWait t lat).memOk ↔ t.memOk := by simp [fetchWait]
@[simp] theorem claimFile_memOk (d : BitVec 5) (req : Word) (s : State) : (claimFile d req s).memOk ↔ s.memOk := by unfold claimFile; split <;> simp
namespace State
@[simp] theorem emptyBank_memOk (s : State) (cl n : Nat) : (s.emptyBank cl n).memOk ↔ s.memOk := by simp [emptyBank]
@[simp] theorem startSwitch_memOk (s : State) (cl n m : Nat) : (s.startSwitch cl n m).memOk ↔ s.memOk := by simp [startSwitch]
@[simp] theorem writeBank_memOk (s : State) (cl n m : Nat) : (s.writeBank cl n m).memOk ↔ s.memOk := by
  unfold writeBank; dsimp only; (repeat' split) <;> simp
@[simp] theorem writeBascfg_memOk (s : State) (cl : Nat) (v : Word) : (s.writeBascfg cl v).memOk ↔ s.memOk := by simp [writeBascfg]
@[simp] theorem writeCorecfg_memOk (s : State) (r : Nat) (v : Word) : (s.writeCorecfg r v).memOk ↔ s.memOk := by simp [writeCorecfg]
@[simp] theorem csrPut_memOk (s : State) (r b num : Nat) (v : Word) : (s.csrPut r b num v).memOk ↔ s.memOk := by unfold csrPut; split <;> simp
end State
@[simp] theorem writeCsr_memOk (w : CsrWrite) (s : State) : (writeCsr w s).memOk ↔ s.memOk := by simp [writeCsr]
@[simp] theorem actLate_memOk (q : Reply) (s : State) : (actLate q s).memOk ↔ s.memOk := by unfold actLate; dsimp only; (repeat' split) <;> simp
@[simp] theorem finishReply_memOk (w : Wait) (q : Reply) (t : State) : (finishReply w q t).memOk ↔ t.memOk := by
  unfold finishReply; dsimp only; (repeat' split) <;> simp
@[simp] theorem replyAgain_memOk (t : State) (q : Reply) (delay : Nat) : (replyAgain t q delay).memOk ↔ t.memOk := by simp [replyAgain]
@[simp] theorem clearBank_memOk (s : State) (cl n : Nat) : (clearBank s cl n).memOk ↔ s.memOk := Iff.rfl
namespace State
@[simp] theorem halting_memOk (s : State) : (s.halting).memOk ↔ s.memOk := Iff.rfl
@[simp] theorem endPart_memOk (s : State) (r b : Nat) : (s.endPart r b).memOk ↔ s.memOk := by simp [endPart]
end State
@[simp] theorem withdraw_memOk (s : State) (r b : Nat) : (withdraw s r b).memOk ↔ s.memOk := by unfold withdraw; dsimp only; (repeat' split) <;> simp
@[simp] theorem debugWake_memOk (s : State) (r : Nat) : (debugWake s r).memOk ↔ s.memOk := by simp [debugWake]
@[simp] theorem debugRead_memOk (s : State) (r : Nat) : (debugRead s r).1.memOk ↔ s.memOk := by simp [debugRead]
@[simp] theorem cancelCore_memOk (lid : Nat) (s : State) (r : Nat) : (cancelCore lid s r).memOk ↔ s.memOk := by simp [cancelCore]
@[simp] theorem cancelLaunch_memOk (s : State) (lid : Nat) : (cancelLaunch s lid).memOk ↔ s.memOk := by unfold cancelLaunch; split <;> simp
@[simp] theorem removeBarge_memOk (s : State) (r b : Nat) : (removeBarge s r b).memOk ↔ s.memOk := by simp [removeBarge]
@[simp] theorem startBerth_memOk (s : State) (r b : Nat) (lead : Bool) (x3 : Word) : (startBerth s r b lead x3).memOk ↔ s.memOk := Iff.rfl
@[simp] theorem takeOut_memOk (s : State) (r n : Nat) : (takeOut s r n).memOk ↔ s.memOk := Iff.rfl
@[simp] theorem vacate_memOk (s : State) (lat : Nat) : (vacate s lat).memOk ↔ s.memOk := by simp [vacate]
@[simp] theorem resend_memOk (buf : CtxBuf) (r n : Nat) (s : State) : (resend buf r n s).memOk ↔ s.memOk := by
  refine foldl_memOk _ (fun t i => ?_) _ s
  (repeat' split) <;> simp
@[simp] theorem moveCounts_memOk (src r lid : Nat) (pend : Bool) (s : State) : (moveCounts src r lid pend s).memOk ↔ s.memOk := by simp [moveCounts]
@[simp] theorem restL_memOk (buf : CtxBuf) (same : Bool) (s : State) : (restL buf same s).memOk ↔ s.memOk := Iff.rfl
@[simp] theorem countUnit_memOk (s : State) (k : Nat) : (countUnit s k).memOk ↔ s.memOk := Iff.rfl
@[simp] theorem logAt_memOk (s : State) (cls : Nat) (un : ErrUnit) : (logAt s cls un).memOk ↔ s.memOk := Iff.rfl
@[simp] theorem markFailing_memOk (s : State) (cl : Nat) : (markFailing s cl).memOk ↔ s.memOk := Iff.rfl
@[simp] theorem clmCorrected_memOk (s : State) (r : Nat) : (clmCorrected s r).memOk ↔ s.memOk := by simp [clmCorrected]
@[simp] theorem poisonBank_memOk (s : State) (cl off : Nat) : (poisonBank s cl off).memOk ↔ s.memOk := by
  unfold poisonBank; dsimp only; (repeat' split) <;> simp
@[simp] theorem readCore_memOk (s : State) (r : Nat) : (readCore s r).memOk ↔ s.memOk := Iff.rfl
@[simp] theorem restored_memOk (s : State) (r : Nat) : (restored s r).memOk ↔ s.memOk := by unfold restored; dsimp only; (repeat' split) <;> simp
@[simp] theorem updateImage_memOk (s : State) (f : FwSlot) : (updateImage s f).memOk ↔ s.memOk := by simp [updateImage]
@[simp] theorem debugBlock_memOk (s : State) (r i : Nat) : (debugBlock s r i).1.memOk ↔ s.memOk := by unfold debugBlock; split <;> simp
@[simp] theorem bar0Read_memOk (s : State) (off : Nat) : (bar0Read s off).1.memOk ↔ s.memOk := by
  unfold bar0Read; dsimp only; (repeat' split) <;> simp
@[simp] theorem smbusAnswer_memOk (s : State) (cmd : Byte) (data : List Byte) : (smbusAnswer s cmd data).memOk ↔ s.memOk := Iff.rfl
namespace State
@[simp] theorem noteVector_memOk (t : State) (w : W32) : (t.noteVector w).memOk ↔ t.memOk := by simp [noteVector]
end State
@[simp] theorem takeSlot_memOk (s : State) (r b : Nat) : (takeSlot s r b).memOk ↔ s.memOk := Iff.rfl
@[simp] theorem tick_memOk (s : State) : (tick s).memOk ↔ s.memOk := Iff.rfl
@[simp] theorem placeWord32_memOk (s : State) (w : Nat) : (placeWord32 s w).memOk ↔ s.memOk := Iff.rfl

end Sys2Proof.Machine
end

section
/-! PROOFS OF THE SCOPE. Scalar and vector forms. -/
namespace Sys2Proof.Machine
open State

/-! ### More runs that only trap or wait -/

section
variable {P : Unit → Prop} {R : Nat → Prop}
@[simp] theorem keeps_reaches (s : State) (d : Nat) : Keeps P (reaches s d) ↔ ∀ a, reaches s d = .ok a → P a := by
  apply keeps_iff
  unfold reaches; (repeat' split) <;> simp
@[simp] theorem keeps_sluRange (s : State) (k : Kind) (va : Word) (n : Nat) : Keeps P (sluRange s k va n) ↔ ∀ a, sluRange s k va n = .ok a → P a := by
  apply keeps_iff
  simp only [sluRange, keeps_bind, keeps_decodeAddr]
  intro t _; (repeat' split) <;> simp
@[simp] theorem keeps_matOperand (s : State) (va : Word) (n : Nat) (k : Kind) :
    Keeps R (matOperand s va n k) ↔ ∀ a, matOperand s va n k = .ok a → R a := by
  apply keeps_iff
  simp only [matOperand, keeps_bind, keeps_decodeAddr]
  intro t _; (repeat' split) <;> simp
@[simp] theorem keeps_scStop {α : Type} {P : α → Prop} (code : Nat) (h : Option Word) : Keeps P (scStop code h : Run α) := keeps_stop _ _
@[simp] theorem keeps_handleCl (s : State) (h : Word) : Keeps R (handleCl s h) ↔ ∀ a, handleCl s h = .ok a → R a := by
  apply keeps_iff
  unfold handleCl; dsimp only; split <;> simp
@[simp] theorem keeps_ownCl (s : State) : Keeps R (ownCl s) ↔ ∀ a, ownCl s = .ok a → R a := by
  apply keeps_iff
  unfold ownCl; dsimp only; split <;> simp
@[simp] theorem keeps_recCheck (s : State) (k : Kind) (a : Word) : Keeps P (recCheck s k a) ↔ ∀ u, recCheck s k a = .ok u → P u := by
  apply keeps_iff
  simp only [recCheck, keeps_bind, keeps_decodeAddr]
  intro t _; split <;> simp
@[simp] theorem keeps_maskDest (s : State) (v : Word) (n : Nat) : Keeps P (maskDest s v n) ↔ ∀ a, maskDest s v n = .ok a → P a := by
  apply keeps_iff
  simp only [maskDest, keeps_bind, keeps_decodeAddr]
  intro t _; (repeat' split) <;> simp
@[simp] theorem keeps_fullPlace {P} (s : State) (va : Word) (k : Kind) : Keeps P (fullPlace s va k) ↔ ∀ a, fullPlace s va k = .ok a → P a := by
  apply keeps_iff
  simp only [fullPlace, keeps_bind, keeps_decodeAddr]
  intro t _; (repeat' split) <;> simp
@[simp] theorem keeps_nodeOperand (s : State) (v : Word) : Keeps R (nodeOperand s v) ↔ ∀ a, nodeOperand s v = .ok a → R a := by
  apply keeps_iff
  simp [nodeOperand]
@[simp] theorem keeps_portOperand (s : State) (v : Word) : Keeps R (portOperand s v) ↔ ∀ a, portOperand s v = .ok a → R a := by
  apply keeps_iff
  simp [portOperand]
@[simp] theorem keeps_endOperand (v : Word) : Keeps P (endOperand v) ↔ ∀ a, endOperand v = .ok a → P a := by
  apply keeps_iff
  simp [endOperand]
@[simp] theorem keeps_linkChecks (s : State) (ports named : List Nat) :
    Keeps P (linkChecks s ports named) ↔ ∀ a, linkChecks s ports named = .ok a → P a := by
  apply keeps_iff
  unfold linkChecks; (repeat' split) <;> simp
@[simp] theorem keeps_payNode (s : State) (v : Word) : Keeps R (payNode s v) ↔ ∀ a, payNode s v = .ok a → R a := by
  apply keeps_iff
  simp only [payNode, keeps_bind, keeps_nodeOperand]
  intro n _; (repeat' split) <;> simp
@[simp] theorem keeps_ownClm (s : State) (k : Kind) (va : Word) (align n : Nat) :
    Keeps R (ownClm s k va align n) ↔ ∀ a, ownClm s k va align n = .ok a → R a := by
  apply keeps_iff
  simp only [ownClm, keeps_bind, keeps_decodeAddr]
  intro t _; (repeat' split) <;> simp
end

section
variable {s : State} (hs : s.memOk)
include hs

/-! ### Scalar results and jumps -/

theorem nextOk_putF {d r} : NextOk (putF s d r) := nextOk_putS hs (by simp)
theorem nextOk_putP {p r} : NextOk (putP s p r) := nextOk_putS hs (by simp)
theorem keeps_goTo {t : Word} : Keeps memOk (goTo s t) := by simp [goTo, hs]
theorem keeps_goLinked {srcs d} {t : Word} : Keeps memOk (goLinked s srcs d t) := by simp [goLinked, hs]
theorem nextOk_execBpT {p o} : NextOk (execBpT p o s) := by
  refine (nextOk_finish hs).2 ?_
  split <;> simp [keeps_goTo, hs]
theorem nextOk_execBpF {p o} : NextOk (execBpF p o s) := by
  refine (nextOk_finish hs).2 ?_
  split <;> simp [keeps_goTo, hs]
theorem nextOk_execJ {o} : NextOk (execJ o s) := (nextOk_finish hs).2 (keeps_goTo hs)
theorem nextOk_execJal {d o} : NextOk (execJal d o s) := by
  refine (nextOk_finish hs).2 ?_
  have hp := stays_checkOut s d
  split <;> simp_all [keeps_goLinked]
theorem nextOk_execJalr {d a im} : NextOk (execJalr d a im s) := by
  refine (nextOk_finish hs).2 ?_
  have hp := stays_checkPorts s [a] d
  split <;> simp_all [keeps_goLinked]

/-! ### Vector results -/

theorem nextOk_putV {d v fl} : NextOk (putV s d v fl) := (nextOk_finish hs).2 (by simp [hs])
theorem nextOk_vcompare {a b m f} : NextOk (vcompare s a b m f) := by simp [vcompare, hs]
theorem nextOk_execVbcast {d a} : NextOk (execVbcast d a s) := by
  refine (nextOk_finishMoored hs).2 ?_
  have hp := stays_checkIns s [a]
  split <;> simp_all
theorem nextOk_execVextr {d a n} : NextOk (execVextr d a n s) := by
  refine (nextOk_finishMoored hs).2 ?_
  have hp := stays_checkOut s d
  split <;> simp_all
theorem nextOk_execVscanl {d a b c m f} : NextOk (execVscanl d a b c m f s) := by simp [execVscanl, hs]
theorem nextOk_blockDot {d sc ps} : NextOk (blockDot s d sc ps) := by simp [blockDot, hs]
theorem nextOk_encodeTable {n d a q m} : NextOk (encodeTable s n d a q m) := by
  unfold encodeTable; dsimp only; split
  · exact (nextOk_finishMoored hs).2 trivial
  · exact nextOk_putV hs

/-! ### The accesses of lanes -/

omit hs in
/-- A run over lanes keeps the form of memory when each lane's access does. -/
theorem keeps_eachLane {f : LaneOp} (hf : ∀ t i, t.memOk → Keeps (fun r => r.1.memOk) (f t i)) {act : Nat → Bool} (hs : s.memOk) (n : Nat) :
    Keeps (fun r => r.1.memOk) (eachLane f s act n) := by
  induction n with
  | zero => exact hs
  | succ n ih =>
    simp only [eachLane, keeps_bind]
    refine ih.imp fun r hr => ?_
    simp only [keeps_ite, keeps_bind, keeps_ok]
    split
    · exact (hf _ _ hr).imp fun _ h => h
    · exact hr
omit hs in
theorem keeps_loadLane {addr} (t : State) (i : Nat) (ht : t.memOk) : Keeps (fun r => r.1.memOk) (loadLane addr t i) :=
  keeps_load ht fun _ h => h
omit hs in
theorem keeps_storeLane {addr v} (t : State) (i : Nat) (ht : t.memOk) : Keeps (fun r => r.1.memOk) (storeLane addr v t i) := by
  simp only [storeLane, keeps_bind]
  exact keeps_store ht fun _ h => h
theorem keeps_lanesRun {f : LaneOp} (hf : ∀ t i, t.memOk → Keeps (fun r => r.1.memOk) (f t i)) {addr act n} {leave : State → State}
    (hl : ∀ t, (leave t).memOk ↔ t.memOk) : Keeps (fun r => r.1.memOk) (lanesRun f s addr act n leave) := by
  have hn : ∀ act, Keeps (fun r => r.1.memOk) (eachLane f s act n) := fun _ => keeps_eachLane hf hs n
  simp only [lanesRun, keeps_ite, keeps_bind, keeps_ok]
  split
  · refine (hn _).imp fun _ _ => (hn _).imp fun r hr => ?_
    split <;> simp [hl, hr]
  · refine (hn _).imp fun r hr => ?_
    split <;> simp [hl, hr]
theorem keeps_settleLanes {addr v p d} : Keeps (fun r => r.1.memOk) (settleLanes s addr v p d) := by
  unfold settleLanes; simp [hs]
theorem nextOk_execVld {d a im} : NextOk (execVld d a im s) := by
  refine (nextOk_finishMoored hs).2 ?_
  simp only [keeps_bind, keeps_checkIns]
  intro _ _
  refine keeps_load hs fun r hr => ?_
  simp only [keeps_ite, keeps_bind, keeps_ok, done_memOk, moor_memOk]
  split
  · exact (keeps_eachLane keeps_loadLane hr 32).imp fun q hq => (keeps_settleLanes hq).imp fun _ h => h
  · exact hr
theorem nextOk_execVst {b a im} : NextOk (execVst b a im s) := by
  refine (nextOk_finishMoored hs).2 ?_
  simp only [keeps_bind, keeps_checkIns]
  intro _ _
  exact keeps_store hs fun r hr => by simpa using hr
theorem nextOk_gather {d srcs m addr base} : NextOk (gather s d srcs m addr base) := by
  refine (nextOk_finishMoored hs).2 ?_
  simp only [keeps_bind, keeps_checkIns]
  intro _ _
  exact (keeps_lanesRun hs keeps_loadLane moor_memOk).imp fun q hq => (keeps_settleLanes hq).imp fun _ h => by simpa using h
theorem nextOk_scatter {d srcs m addr base} : NextOk (scatter s d srcs m addr base) := by
  refine (nextOk_finishMoored hs).2 ?_
  simp only [keeps_bind, keeps_checkIns]
  intro _ _
  exact (keeps_lanesRun hs keeps_storeLane moor_memOk).imp fun q hq => by simpa using hq
theorem nextOk_execDtabLd {t a im} : NextOk (execDtabLd t a im s) := by
  refine (nextOk_finish hs).2 ?_
  simp only [keeps_bind, keeps_checkIns]
  intro _ _
  split
  · trivial
  · simp only [keeps_bind]
    exact (keeps_lanesRun hs keeps_loadLane fun _ => Iff.rfl).imp fun q hq => (keeps_settleLanes hq).imp fun _ h => by simpa using h
end
end Sys2Proof.Machine
end

section
/-! PROOFS OF THE SCOPE. Accumulators and the matrix unit. -/
namespace Sys2Proof.Machine
open State
section
variable {s : State} (hs : s.memOk)
include hs

/-! ### Accumulators -/

theorem nextOk_execAcq {c} : NextOk (execAcq c s) := (nextOk_finishMoored hs).2 (by simp [hs])
theorem nextOk_execRel {c} : NextOk (execRel c s) := (nextOk_finish hs).2 (by simp [hs])
theorem nextOk_onAcc {α : Type} {n w} {checks : Run α} {f : α → Run State} (h : Keeps (fun x => Keeps memOk (f x)) checks) :
    NextOk (onAcc s n w checks f) := by
  refine (nextOk_finishMoored hs).2 ?_
  simp only [keeps_ite, keeps_bind, keeps_stop, keeps_waitFor]
  split
  · trivial
  · exact h.imp fun x hx => by split <;> trivial
omit hs in
@[simp] theorem keeps_accMoves (s : State) (n lat : Nat) (a : BitVec 5) : Keeps memOk (accMoves s n lat a) ↔ s.memOk := by simp [accMoves]
theorem nextOk_execAzero {c} : NextOk (execAzero c s) := nextOk_onAcc hs (by simp [hs])
theorem nextOk_execApois {d c} : NextOk (execApois d c s) := nextOk_onAcc hs (by simp [hs])
theorem nextOk_execAld {c a} : NextOk (execAld c a s) := nextOk_onAcc hs (by simp [hs])
theorem nextOk_execArow {d c b} : NextOk (execArow d c b s) := nextOk_onAcc hs (by simp [hs])
theorem nextOk_execAwr {c a b} : NextOk (execAwr c a b s) := nextOk_onAcc hs (by simp [hs])
omit hs in
theorem memOk_astRows {s : State} {off e pois rows} (n : Nat) {t : State} (ht : t.memOk) : (astRows s off e pois rows n t).1.memOk := by
  induction n with
  | zero => exact ht
  | succ n ih => simpa [astRows] using memOk_storeAt _ _ _ ih
theorem nextOk_execAst {c a sc r f} : NextOk (execAst c a sc r f s) := nextOk_onAcc hs (by simp [memOk_astRows, hs])

/-! ### The latch and the matrix unit -/

theorem nextOk_finishMatrix {latch reads} {r : Run State} (h : Keeps memOk r) : NextOk (finishMatrix s latch reads r) := by
  unfold finishMatrix; split
  · simp [hs]
  · simp [hs]
  · exact (nextOk_finish hs).2 h
theorem nextOk_fillHalf {a b tr} : NextOk (fillHalf s a b tr) := nextOk_finishMatrix hs (by simp [hs])
theorem nextOk_execBstat {d} : NextOk (execBstat d s) := by
  refine (nextOk_finish hs).2 ?_
  have hp := stays_checkOut s d
  split <;> simp_all
theorem nextOk_issueMma {fmt op c a sc n t k} : NextOk (issueMma s fmt op c a sc n t k) := by
  refine nextOk_finishMatrix hs ?_
  simp [hs]
theorem nextOk_execBrot {a} : NextOk (execBrot a s) := by
  refine nextOk_finishMatrix hs ?_
  by_cases hm : myBrot s = true <;> simp [hm, hs]
end
end Sys2Proof.Machine
end

section
/-! PROOFS OF THE SCOPE. Probes, barriers and the sluice. -/
namespace Sys2Proof.Machine
open State
section
variable {s : State} (hs : s.memOk)
include hs

/-! ### Probes, the barrier and the sluice -/

theorem nextOk_execDeadlockProbeReceive {r b ids} : NextOk (execDeadlockProbeReceive r b ids s) := by
  unfold execDeadlockProbeReceive; dsimp only; (repeat' split) <;> simp +contextual [memOk_foldl, memOk_storeAt, hs]
theorem nextOk_execCbarcfg {d a im} : NextOk (execCbarcfg d a im s) := by
  refine (nextOk_finish hs).2 ?_
  simp only [keeps_bind, keeps_checkPorts]
  intro _ _; split <;> simp [hs]
theorem nextOk_execSluStat {d a} : NextOk (execSluStat d a s) := by
  refine (nextOk_finish hs).2 ?_
  simp [hs]
theorem nextOk_execSluCan {a} : NextOk (execSluCan a s) := by
  refine nextOk_putS hs fun t => ?_
  (repeat' split) <;> simp
theorem nextOk_sluIssue {d a b f e copy} : NextOk (sluIssue d a b f e copy s) := by
  refine (nextOk_finish hs).2 ?_
  simp only [keeps_bind, keeps_checkIns, keeps_sluRange, keeps_ite, keeps_stop, keeps_ok, if_true_left]
  intro _ _ _ _ _ _ _
  split
  · intro _ _; split
    · exact keeps_releasing hs fun t ht => by split <;> simp [ht]
    · split <;> simp [hs]
  · split
    · exact keeps_releasing hs fun t ht => by split <;> simp [ht]
    · split <;> simp [hs]

/-- A translation for another's devices, too, keeps the form of memory: it is that of `memOk_xlate`, or writes a leaf. -/
theorem memOk_xlate_devs {cl w k va devs} : (s.xlate cl w k va devs).1.memOk := by
  unfold xlate; dsimp only; (repeat' split) <;> simp [memOk_fillTlb, hs]
theorem memOk_sluPlace {c k va} : (sluPlace s c k va).1.memOk := by
  unfold sluPlace; dsimp only; (repeat' split) <;> simp [memOk_xlate_devs, hs]
theorem memOk_sluRead {c va} (n : Nat) : (sluRead s c va n).1.memOk := by
  induction n with
  | zero => exact hs
  | succ n ih => unfold sluRead; (repeat' split) <;> simp_all [memOk_sluPlace]
theorem memOk_sluDests {c va} (n : Nat) : (sluDests s c va n).1.memOk := by
  induction n with
  | zero => exact hs
  | succ n ih => unfold sluDests; split <;> simp_all [memOk_sluPlace]
theorem memOk_sluWrite {fe e} : (sluWrite fe s e).memOk := by
  unfold sluWrite; dsimp only; split <;> simp [memOk_storeAt, hs]
omit hs in
@[simp] theorem sluPoison_memOk (c : Slu) (va : Word) (l : List (Nat × Bool)) (i : Nat) (s : State) : (sluPoison c va l i s).memOk ↔ s.memOk := by
  induction l generalizing i s with
  | nil => rfl
  | cons e l ih => simp [sluPoison, ih]
theorem nextOk_execSluiceBurst {cl} : NextOk (execSluiceBurst cl s) := by
  unfold execSluiceBurst; split
  · exact hs
  · split
    · exact hs
    · rename_i slot c _
      have hr := memOk_sluRead hs (c := c) (va := c.src + w64 c.cursor) (sluBytes c / 8)
      dsimp only; split
      · simp_all
      · rename_i t vs ht
        have hd := memOk_sluDests (s := t) (by simpa [ht] using hr) (c := c) (va := c.dst + w64 c.cursor) (sluBytes c / 8)
        split
        · simp_all
        · rename_i u ps hu
          have hw := memOk_foldl (s := u) (by simpa [hu] using hd) (f := sluWrite c.fe) (fun _ _ h => memOk_sluWrite h) (ps.zip vs)
          simp [hw]
end
end Sys2Proof.Machine
end

section
/-! PROOFS OF THE SCOPE. Frame records. -/
namespace Sys2Proof.Machine
open State
namespace State
section
variable {s : State} (hs : s.memOk)
include hs

/-! ### Frame records (R155 to R157, R204) -/

theorem memOk_fset {h off n v} : (s.fset h off n v).memOk := memOk_writeN _ _ _ hs
theorem memOk_fmark {h i v} : (s.fmark h i v).memOk := memOk_fset hs
theorem memOk_newRec {h range pfh} : (s.newRec h range pfh).memOk := by
  unfold newRec
  exact memOk_fset (memOk_fset (memOk_fset (memOk_fset (memOk_writeN _ _ _ hs))))
theorem memOk_freeFrame {h} : (s.freeFrame h).memOk := by simp [freeFrame, memOk_writeN, hs]
theorem memOk_childExits {r lid pfh after} : (s.childExits r lid pfh after).memOk := by simp [childExits, memOk_release, hs]
theorem memOk_joinZero {h} : (s.joinZero h).memOk := by
  unfold joinZero; dsimp only; (repeat' split) <;> simp [memOk_fmark, memOk_freeFrame, hs]
theorem memOk_decFrame {h} : (s.decFrame h).memOk := by
  unfold decFrame; dsimp only; (repeat' split) <;> simp [memOk_fset, memOk_freeFrame, memOk_joinZero, hs]
theorem memOk_ownerExits {h} : (s.ownerExits h).memOk := by simp [ownerExits, memOk_freeFrame, hs]
end
end State
section
variable {s : State} (hs : s.memOk)
include hs
theorem nextOk_execFrameIncrement {h r b} : NextOk (execFrameIncrement h r b s) := by simp [execFrameIncrement, memOk_fset, hs]
theorem nextOk_execFrameDecrement {h} : NextOk (execFrameDecrement h s) := by simp [execFrameDecrement, memOk_decFrame, hs]
theorem nextOk_execResumeMessage {r slot lid} : NextOk (execResumeMessage r slot lid s) := by
  unfold execResumeMessage; dsimp only; (repeat' split) <;> simp [memOk_enqueue, memOk_ownerExits, memOk_childExits, hs]
end
end Sys2Proof.Machine
end

section
/-! PROOFS OF THE SCOPE. Exits, spawns and barges. -/
namespace Sys2Proof.Machine
open State
section
variable {s : State} (hs : s.memOk)
include hs

/-! ### Exits and spawns (R200 to R206) -/

theorem memOk_exitDone : s.exitDone.memOk := by simp [exitDone, memOk_ownerExits, hs]
theorem keeps_exitBarge {P} : Keeps P s.exitBarge := by
  simp only [exitBarge, keeps_ite, keeps_waitFor, if_true_left, keeps_bind, keeps_gone, keeps_ok]
  intro _
  have hl : (s.letGo relAcc freePort s.rank s.berth (s.cycle + s.leaveIn)).memOk := by simpa using hs
  split
  · exact memOk_exitDone hl
  · exact keeps_releasing hl fun t ht => memOk_exitDone ht
theorem keeps_exitCancelled {P} : Keeps P s.exitCancelled := by
  unfold exitCancelled; split
  · trivial
  · refine keeps_exitBarge ?_
    split
    · exact hs
    · exact memOk_fmark hs
theorem keeps_spawnCount {P} (h : ∀ t, t.memOk → P t) : Keeps P s.spawnCount := by
  unfold spawnCount; split
  · exact h s hs
  · dsimp only; split
    · trivial
    · rename_i t n ht
      have htm : t.memOk := by
        split at ht
        · cases ht; exact hs
        · split at ht
          · cases ht
          · cases ht; exact memOk_newRec hs
      simp only [keeps_bind, keeps_ite, keeps_gone, keeps_waitFor, keeps_ok]
      exact keeps_releasing htm fun u hu => by (repeat' split) <;> simp_all [memOk_fset]
theorem memOk_launchPacket {r pk hold} : (s.launchPacket r pk hold).memOk := by simp [launchPacket, memOk_enqueue, hs]
theorem nextOk_execSpawn {p o} : NextOk (execSpawn p o s) := by
  refine (nextOk_finish hs).2 ?_
  simp only [keeps_bind, keeps_checkIns]
  intro _ _
  split
  · trivial
  · simp only [keeps_ite, keeps_stop, if_true_left, keeps_bind]
    intro _
    split
    · exact keeps_exitCancelled hs
    · exact keeps_spawnCount hs fun t ht => by simp [memOk_launchPacket, ht]
theorem nextOk_execSpawnc {o} : NextOk (execSpawnc o s) := by
  refine (nextOk_finish hs).2 ?_
  simp only [keeps_ite, keeps_stop, if_true_left, keeps_bind]
  intro _
  split
  · exact keeps_exitCancelled hs
  · exact keeps_spawnCount hs fun t ht => by simp [memOk_launchPacket, ht]
theorem memOk_claim {h} : (claim s h).1.memOk := by
  simp only [claim]; split
  · exact hs
  · exact memOk_fset hs
omit hs in
theorem memOk_worker {s t : State} (ht : t.memOk) {h target i c} : (worker s t h target i c).memOk := by
  simp [worker, memOk_launchPacket, memOk_fset, ht]
theorem memOk_workers {h target} (n i : Nat) : (workers s h target i n).memOk := by
  induction n generalizing s i with
  | zero => exact hs
  | succ n ih =>
    unfold workers
    cases (claim s h).2 with
    | none => exact hs
    | some c => simpa using ih (memOk_worker (memOk_claim hs)) (i + 1)
theorem nextOk_execSpawnr {n o} : NextOk (execSpawnr n o s) := by
  unfold execSpawnr
  extract_lets a b lo hi
  clear_value a b lo hi
  rw [nextOk_finish hs]
  split
  · exact keeps_exitCancelled hs
  split
  · simp [hs]
  split
  · trivial
  rw [keeps_bind]
  refine keeps_spawnCount hs fun t ht => ?_
  split
  · trivial
  extract_lets t1 t2 t3 t4 t5
  have h1 : t1.memOk := memOk_newRec ht
  have h4 : t4.memOk := memOk_fset (memOk_fset (memOk_fset h1))
  have h5 : t5.memOk := memOk_fset h4
  clear_value t5
  rw [keeps_ok, next_memOk]
  exact memOk_workers h5 _ _
theorem nextOk_execNextch {o} : NextOk (execNextch o s) := by
  refine (nextOk_finish hs).2 ?_
  simp [keeps_exitBarge, keeps_exitCancelled, hs]
theorem nextOk_execChunkClaim {h r b target} : NextOk (execChunkClaim h r b target s) := by simp [execChunkClaim, memOk_claim, hs]
theorem nextOk_execAwait : NextOk (execAwait s) := by
  -- `parkSlot` looks through 4096 slots, so the kernel must not compute it: behind `slot` it cannot.
  obtain ⟨slot, hslot⟩ := exists_eq (a' := parkSlot)
  simp only [execAwait, ← hslot, nextOk_finish hs, keeps_ite, keeps_waitFor, keeps_bind,
    keeps_ok, keeps_atHome, next_memOk, done_memOk, hs, if_true_left]
  intro _
  split
  · exact keeps_exitCancelled hs
  · intro _ _ _ _ _ _
    split
    · trivial
    · split
      · trivial
      · rw [keeps_gone, depart_memOk, retire_memOk]
        refine memOk_fmark (memOk_fset (memOk_imagePacket ?_))
        exact (modLaunch_memOk _ _ _).2 hs
theorem nextOk_execExit : NextOk (execExit s) := (nextOk_finish hs).2 (keeps_exitBarge hs)
theorem nextOk_execYield : NextOk (execYield s) := by
  refine (nextOk_finish hs).2 ?_
  simp [keeps_exitCancelled, memOk_enqueue, hs]
theorem nextOk_execCancel {a} : NextOk (execCancel a s) := by
  refine (nextOk_finish hs).2 ?_
  simp [memOk_fmark, hs]

/-! ### Barges taken in, returned and stolen -/

theorem nextOk_execBargeArrival {r pk} : NextOk (execBargeArrival r pk s) := by simp [execBargeArrival, memOk_enqueue, hs]
theorem nextOk_execPairMessage {r pk} : NextOk (execPairMessage r pk s) := by simp [execPairMessage, memOk_enqueue, hs]
theorem nextOk_execSpillReturn {r} : NextOk (execSpillReturn r s) := by
  simp +contextual [execSpillReturn, memOk_foldl, memOk_enqueue, hs]
theorem nextOk_execStealServe {cl} : NextOk (execStealServe cl s) := by
  unfold execStealServe; dsimp only; (repeat' split) <;> simp [memOk_release, hs]
end
end Sys2Proof.Machine
end

section
/-! PROOFS OF THE SCOPE. The staircase engine's computations. -/
namespace Sys2Proof.Machine
open State

/-! ### The staircase engine's computations (R313 to R325) -/

/-- A computation of the engine leaves the machine with its memory in canonical form, whatever it finds. -/
def EngKeeps {α : Type} (m : Eng α) : Prop := ∀ t : Tally, t.st.memOk → (m.run t).2.st.memOk

section
variable {α β : Type}
theorem engKeeps_pure (a : α) : EngKeeps (pure a : Eng α) := fun _ h => h
theorem engKeeps_bad : EngKeeps (engBad : Eng α) := fun _ h => h
theorem engKeeps_countByte : EngKeeps countByte := fun _ h => h
theorem engKeeps_countNode : EngKeeps countNode := fun _ h => h
theorem engKeeps_on {f : State → Option α × State} (hf : ∀ t, t.memOk → (f t).2.memOk) : EngKeeps (engOn f) := fun _ h => hf _ h
theorem engKeeps_bind {x : Eng α} {f : α → Eng β} (hx : EngKeeps x) (hf : ∀ a, EngKeeps (f a)) : EngKeeps (x >>= f) := by
  intro t ht
  have h := hx t ht
  rw [OptionT.run_bind, Option.elimM]
  change ((Option.elim (x.run t).1 (pure none) fun a => (f a).run : StateM Tally (Option β)) (x.run t).2).2.st.memOk
  cases (x.run t).1 with
  | none => exact h
  | some a => exact hf a _ h
theorem engKeeps_ite {c : Prop} [Decidable c] {x y : Eng α} (hx : EngKeeps x) (hy : EngKeeps y) : EngKeeps (if c then x else y) := by
  split <;> assumption
end

theorem engKeeps_byte {cl w va} : EngKeeps (engByte cl w va) := engKeeps_on fun t ht => by
  have hx := memOk_xlate cl w .read va ht
  (repeat' split) <;> simp_all
theorem engKeeps_read {cl w va} (n : Nat) : EngKeeps (engRead cl w va n) := by
  induction n with
  | zero => exact engKeeps_pure _
  | succ n ih => exact engKeeps_bind ih fun _ => engKeeps_bind engKeeps_byte fun _ => engKeeps_pure _
theorem engKeeps_imgRead {g : Img} {off n} : EngKeeps (g.read off n) := engKeeps_read n
theorem engKeeps_readImg {cl w va} : EngKeeps (readImg cl w va) := by
  unfold readImg
  iterate 17 refine engKeeps_bind (engKeeps_read _) fun _ => ?_
  exact engKeeps_pure _
theorem engKeeps_stateEntry {g : Img} {i} : EngKeeps (stateEntry g i) :=
  engKeeps_ite engKeeps_bad (engKeeps_bind engKeeps_imgRead fun _ => engKeeps_ite engKeeps_bad (engKeeps_pure _))
theorem engKeeps_transEntry {g : Img} {i} : EngKeeps (transEntry g i) :=
  engKeeps_bind engKeeps_imgRead fun _ => engKeeps_ite engKeeps_bad (engKeeps_pure _)
theorem engKeeps_findTrans {g : Img} {c top} (n : Nat) {i any} : EngKeeps (findTrans g c top n i any) := by
  induction n generalizing i any with
  | zero => exact engKeeps_pure _
  | succ n ih => exact engKeeps_bind engKeeps_transEntry fun _ => engKeeps_ite (engKeeps_pure _) ih
theorem engKeeps_trieNode {g : Img} {i} : EngKeeps (trieNode g i) :=
  engKeeps_ite engKeeps_bad (engKeeps_bind engKeeps_imgRead fun _ => engKeeps_bind engKeeps_imgRead fun _ =>
    engKeeps_ite engKeeps_bad (engKeeps_pure _))
theorem engKeeps_runByte {g : Img} {c s k b} : EngKeeps (runByte g c s k b) := by
  refine engKeeps_bind engKeeps_countByte fun _ => engKeeps_bind engKeeps_imgRead fun _ => engKeeps_bind engKeeps_stateEntry fun _ =>
    engKeeps_bind (engKeeps_findTrans _) fun o => ?_
  cases o with
  | none => exact engKeeps_pure _
  | some t =>
    refine engKeeps_ite (engKeeps_pure _) (engKeeps_ite (engKeeps_pure _) (engKeeps_ite (engKeeps_pure _) ?_))
    split <;> exact engKeeps_pure _
theorem engKeeps_runBytes {g : Img} {c room} (l : List Nat) {s k full} : EngKeeps (runBytes g c room l s k full) := by
  induction l generalizing s k full with
  | nil => exact engKeeps_pure _
  | cons b l ih =>
    refine engKeeps_bind engKeeps_runByte fun o => ?_
    cases o with
    | none => exact engKeeps_pure _
    | some _ => exact ih
theorem engKeeps_findTok {g : Img} {t} (f : Nat) {l} : EngKeeps (findTok g t f l) := by
  induction f generalizing l with
  | zero => cases l with
    | nil => exact engKeeps_pure _
    | cons _ _ => exact engKeeps_bad
  | succ f ih => cases l with
    | nil => exact engKeeps_pure _
    | cons _ _ => exact engKeeps_bind engKeeps_countNode fun _ => engKeeps_bind engKeeps_trieNode fun _ => engKeeps_ite (engKeeps_pure _) ih
theorem engKeeps_walkMask {g : Img} {c lo cnt} (f : Nat) {l bits} : EngKeeps (walkMask g c lo cnt f l bits) := by
  induction f generalizing l bits with
  | zero => cases l with
    | nil => exact engKeeps_pure _
    | cons _ _ => exact engKeeps_bad
  | succ f ih => cases l with
    | nil => exact engKeeps_pure _
    | cons _ _ =>
      refine engKeeps_bind engKeeps_trieNode fun _ => engKeeps_bind engKeeps_runByte fun o => ?_
      cases o with
      | none => exact ih
      | some _ => exact ih
theorem engKeeps_cacheFind {g : Img} {s top} (f : Nat) {lo hi} : EngKeeps (cacheFind g s top f lo hi) := by
  induction f generalizing lo hi with
  | zero => exact engKeeps_pure _
  | succ f ih =>
    exact engKeeps_ite (engKeeps_pure _) (engKeeps_bind engKeeps_imgRead fun _ => engKeeps_ite (engKeeps_pure _) (engKeeps_ite ih ih))
theorem engKeeps_maskOf {g : Img} {c k lo cnt} : EngKeeps (maskOf g c k lo cnt) := by
  refine engKeeps_ite (engKeeps_pure _) ?_
  extract_lets st _ join
  have hj (o : Option Nat) : EngKeeps (join o) := by
    cases o with
    | none =>
      exact engKeeps_bind engKeeps_trieNode fun _ => engKeeps_bind (engKeeps_walkMask _) fun _ => engKeeps_bind engKeeps_stateEntry fun _ =>
        engKeeps_pure _
    | some _ => exact engKeeps_bind engKeeps_imgRead fun _ => engKeeps_pure _
  exact engKeeps_ite (engKeeps_bind (engKeeps_pure _) hj)
    (engKeeps_bind engKeeps_imgRead fun _ => engKeeps_bind (engKeeps_cacheFind _) hj)
theorem engKeeps_stepTok {g : Img} {c k t} : EngKeeps (stepTok g c k t) := by
  refine engKeeps_ite (engKeeps_pure _) (engKeeps_ite
    (engKeeps_ite (engKeeps_pure _) (engKeeps_bind engKeeps_stateEntry fun _ => engKeeps_pure _))
    (engKeeps_bind (engKeeps_findTok _) fun o => ?_))
  cases o with
  | none => exact engKeeps_pure _
  | some _ =>
    refine engKeeps_ite (engKeeps_pure _) (engKeeps_bind (engKeeps_runBytes _) fun e => ?_)
    cases e <;> exact engKeeps_pure _
theorem engKeeps_recRead {cl q p off n} : EngKeeps (recRead cl q p off n) := by
  cases p with
  | clm _ _ => exact engKeeps_on fun _ ht => ht
  | global _ => exact engKeeps_read n
/-- What a computation of the engine leaves has its memory in canonical form. -/
theorem EngKeeps.go {α : Type} {m : Eng α} {r} {s : State} (h : EngKeeps m) (hs : s.memOk) (e : m.go s = r) : r.2.st.memOk := e ▸ h _ hs
end Sys2Proof.Machine
end

section
/-! PROOFS OF THE SCOPE. The staircase engine's requests. -/
namespace Sys2Proof.Machine
open State
section
variable {s : State} (hs : s.memOk)
include hs

/-! ### The staircase engine's requests (R320 to R325) -/

theorem memOk_checkImg {cl w va} : (checkImg s cl w va).2.memOk := by
  have hx := memOk_xlate cl w .read va hs
  unfold checkImg
  split
  · exact hs
  split
  · simp_all
  · rename_i u p _ hu
    rw [hu] at hx
    have hy := memOk_xlate cl w .read (va + 127) hx
    split
    · exact hx
    split
    · simp_all
    · rename_i v p2 _ hv
      rw [hv] at hy
      split
      · exact hy
      · split <;> exact engKeeps_readImg.go hy ‹_›
theorem memOk_of_checkImg {cl w va r} (e : checkImg s cl w va = r) : r.2.memOk := e ▸ memOk_checkImg hs
theorem memOk_slotAcc {k cl} : (slotAcc k cl s).2.memOk := by
  unfold slotAcc
  split <;> exact (engKeeps_bind engKeeps_readImg fun _ => engKeeps_stateEntry).go hs ‹_›
theorem memOk_scOpening {cl q} : (scOpening cl q s).st.memOk := by
  have hc := memOk_checkImg (cl := cl) (w := q.imgWho) (va := q.a.toNat) hs
  unfold scOpening
  split <;> simp_all [scTrap, scVal]
theorem memOk_scStepping {cl q i k} : (scStepping cl q i k s).st.memOk := by
  unfold scStepping; dsimp only
  split
  · exact hs
  split <;> rename_i e
  · exact (engKeeps_bind engKeeps_readImg fun _ => engKeeps_stepTok).go hs e
  · exact (engKeeps_bind engKeeps_readImg fun _ => engKeeps_stepTok).go hs e
  · exact memOk_slotAcc ((engKeeps_bind engKeeps_readImg fun _ => engKeeps_stepTok).go hs e)
  · refine memOk_slotAcc ?_
    rw [setCluster_memOk]
    exact (engKeeps_bind engKeeps_readImg fun _ => engKeeps_stepTok).go hs e
theorem memOk_scWriteMask {l bits} (n : Nat) : (scWriteMask l bits s n).memOk := by
  induction n with
  | zero => exact hs
  | succ n ih => simpa [scWriteMask] using memOk_storeAt _ _ _ ih
theorem memOk_scMasking {cl q} : (scMasking cl q s).st.memOk := by
  unfold scMasking
  extract_lets c lo cnt put fail
  have hp {u : State} {bits} (hu : u.memOk) : (put u bits).memOk := by
    unfold put
    (repeat' split) <;> simp [memOk_scWriteMask, hu]
  have hf {u : State} {i} : (fail u i).memOk ↔ u.memOk := modCluster_memOk _ _ _
  clear_value put fail
  split
  · exact hp hs
  split
  · exact hp (hf.2 hs)
  split <;> rename_i e
  · exact hp (hf.2 ((engKeeps_bind engKeeps_readImg fun _ => engKeeps_maskOf).go hs e))
  · exact hp ((engKeeps_bind engKeeps_readImg fun _ => engKeeps_maskOf).go hs e)
theorem memOk_scRolling {cl q i k} : (scRolling cl q i k s).st.memOk := by
  unfold scRolling; dsimp only; (repeat' split) <;> simp [scTrap, scNone, hs]
theorem memOk_recPut {cl q p off v} : (recPut cl q p off v s).memOk := by
  cases p with
  | clm _ _ => exact memOk_storeAt _ _ _ hs
  | global va =>
    have hx := memOk_xlate cl q.who .write (va + off) hs
    unfold recPut; dsimp only
    split
    · exact memOk_storeAt _ _ _ (by simp_all)
    · simp_all
theorem memOk_recClean {q inv p n} : (recClean q inv p n s).memOk := by
  cases p with
  | clm _ _ => exact hs
  | global va =>
    refine memOk_iter hs (fun i t ht => ?_) _
    dsimp only
    split
    · exact memOk_purgeSector _ _ _ ht
    split
    · exact memOk_putLine _ _ (memOk_cleanSector _ _ ht)
    · exact ht
theorem memOk_scSaving {cl q k} : (scSaving cl q k s).st.memOk := by
  unfold scSaving; dsimp only
  split
  · exact hs
  · exact memOk_iter (memOk_recClean hs) (fun _ _ h => memOk_recPut h) _
theorem memOk_scLoading {cl q} : (scLoading cl q s).st.memOk := by
  have hc {u : State} {inv p n} (hu : u.memOk) : (recClean q inv p n u).memOk := memOk_recClean hu
  unfold scLoading; dsimp only
  split
  · exact hs
  split
  · exact hc hs
  split <;> rename_i e <;> replace e := (engKeeps_bind engKeeps_recRead fun _ => engKeeps_bind engKeeps_recRead fun _ =>
      engKeeps_bind engKeeps_recRead fun _ => engKeeps_bind engKeeps_recRead fun _ => engKeeps_pure _).go (hc hs) e
  · exact e
  split
  · exact e
  split
  · exact e
  split
  · exact hc e
  split <;> rename_i hr <;> replace hr := memOk_of_checkImg (hc e) hr
  · exact hr
  · exact hr
  split <;> rename_i hv <;> replace hv := engKeeps_recRead.go hr hv
  · exact hv
  split
  · exact hv
  (repeat' split) <;> simp [scTrap, scVal] <;> exact hv
theorem memOk_scPerform {cl q} : (scPerform cl q s).st.memOk := by
  unfold scPerform
  extract_lets c named
  have hn {f} (hf : ∀ i k, (f i k).st.memOk) : (named f).st.memOk := by
    unfold named
    split
    · exact hf _ _
    · exact hs
  clear_value named
  split
  · exact memOk_scOpening hs
  · exact hn fun _ _ => memOk_scStepping hs
  · exact memOk_scMasking hs
  · exact hn fun _ _ => hs
  · exact hn fun _ _ => memOk_scRolling hs
  · exact hn fun _ _ => memOk_scSaving hs
  · exact memOk_scLoading hs
  · exact hn fun _ _ => hs
  split
  · exact hs
  · refine hn fun _ _ => ?_
    split
    · exact memOk_slotAcc hs
    · split <;> exact hs
theorem nextOk_execScRequestService {cl} : NextOk (execScRequestService cl s) := by
  have hp {q rest} : (scPerform cl q (s.modCluster cl fun c => { c with scq := rest })).st.memOk :=
    memOk_scPerform ((modCluster_memOk _ _ _).2 hs)
  unfold execScRequestService
  split
  · exact hs
  split
  · exact hs
  · simp only [nextOk_next, memOk_ite, modCluster_memOk, reply_memOk, hp, ite_self]
theorem keeps_scQueue {P} {cl q} (h : ∀ t, t.memOk → P t) : Keeps P (scQueue s cl q) := by
  unfold scQueue; split
  · trivial
  · exact h _ hs
theorem nextOk_scIssue {x op d p a b l} (hx : Keeps (fun _ => True) x) : NextOk (scIssue s x op d p a b l) := by
  refine (nextOk_finish hs).2 ?_
  rw [keeps_bind, keeps_checkPorts]
  intro _ _
  rw [keeps_bind]
  refine hx.imp fun c _ => ?_
  rw [keeps_bind]
  exact keeps_scQueue hs fun t ht => by simpa using ht
theorem nextOk_execScMask {r a b} : NextOk (execScMask r a b s) := by
  refine (nextOk_finish hs).2 ?_
  simp only [keeps_bind, keeps_checkIns, keeps_handleCl, keeps_ite, keeps_maskDest]
  intro _ _ _ _
  split
  · trivial
  · intro _ _
    exact keeps_scQueue hs fun t ht => by simpa using ht
end
end Sys2Proof.Machine
end

section
/-! PROOFS OF THE SCOPE. Memory instructions. -/
namespace Sys2Proof.Machine
open State
@[simp] theorem atWaits_memOk (s : State) (cl asid gran : Nat) (f : Core → Core) (t : State) : (atWaits s cl asid gran f t).memOk ↔ t.memOk :=
  foldl_memOk _ (fun t r => by split <;> simp) _ t
section
variable {s : State} (hs : s.memOk)
include hs

/-! ### Loads, stores and full/empty operations (R187 to R192) -/

theorem keeps_moving {P} {va n k} (h : P ()) : Keeps P (moving s va n k) := by
  unfold moving
  split
  · exact memOk_migrate hs
  split
  · split
    · rw [keeps_bind]
      exact keeps_releasing hs fun t ht => memOk_migrateFar ht
    · trivial
  · exact h
theorem keeps_movingIf {α : Type} {P : α → Prop} {c : Prop} [Decidable c] {va n k} {f : Unit → Run α} (h : Keeps P (f ())) :
    Keeps P (if c then moving s va n k >>= f else .ok () >>= f) := by
  split
  · rw [keeps_bind]
    exact keeps_moving hs h
  · exact h
theorem nextOk_loadAs {srcs d va n moves dflt f} : NextOk (loadAs srcs d va n moves dflt f s) := by
  refine (nextOk_finish hs).2 ?_
  rw [keeps_bind, keeps_checkPorts]
  intro _ _
  refine keeps_movingIf hs ?_
  rw [keeps_bind]
  refine keeps_load hs fun _ ht => ?_
  rw [keeps_bind]
  exact keeps_settle ht fun _ ht => (done_memOk _ _ _).2 ht
theorem nextOk_loadX {d srcs va n moves f} : NextOk (loadX d srcs va n moves f s) := nextOk_loadAs hs
theorem nextOk_loadI {d a im n f} : NextOk (loadI d a im n f s) := nextOk_loadX hs
theorem nextOk_storeX {srcs va n v moves} : NextOk (storeX srcs va n v moves s) := by
  refine (nextOk_finish hs).2 ?_
  rw [keeps_bind, keeps_checkIns]
  intro _ _
  refine keeps_movingIf hs ?_
  rw [keeps_bind]
  exact keeps_store hs fun _ ht => (done_memOk _ _ _).2 ht
theorem nextOk_storeS {b a im n} : NextOk (storeS b a im n s) := nextOk_storeX hs
theorem nextOk_fullOp {srcs d va k} {f : Loc → Nat → Run State} (hf : ∀ l lat, Keeps memOk (f l lat)) : NextOk (fullOp s srcs d va k f) := by
  refine (nextOk_finish hs).2 ?_
  rw [keeps_bind, keeps_checkPorts]
  intro _ _
  split
  · exact memOk_migrate hs
  · rw [keeps_bind, keeps_fullPlace]
    exact fun a _ => hf a.1 a.2
theorem nextOk_execLdsync {d a im} : NextOk (execLdsync d a im s) := by
  unfold execLdsync
  extract_lets va
  refine nextOk_fullOp hs fun l lat => ?_
  rw [keeps_bind, keeps_atHome]
  intro _ _
  (repeat' split) <;> simp [hs]
theorem nextOk_execStfull {b a im} : NextOk (execStfull b a im s) := by
  unfold execStfull
  extract_lets va v
  refine nextOk_fullOp hs fun l lat => ?_
  have body : Keeps (fun t => Keeps memOk (do
      t.atHome (homeOf s l)
      .ok (((t.storeAt l 8 v).setFull l true).done lat { srcs := [a, b] }))) s.releasing :=
    keeps_releasing hs fun t ht => by simp [memOk_storeAt, ht]
  cases l with
  | clm _ _ =>
    rw [keeps_bind, keeps_bind]
    dsimp only
    split
    · trivial
    · exact body
  | _ => exact (keeps_bind s.releasing _).2 body
theorem nextOk_execFeclr {a im} : NextOk (execFeclr a im s) := nextOk_fullOp hs fun l lat => by simp [hs]
theorem nextOk_execFerd {d a im} : NextOk (execFerd d a im s) := nextOk_fullOp hs fun l lat => by simp [hs]

/-! ### Prefetches, atomics and cache maintenance (R193 to R197) -/

theorem memOk_fillSector {r asid va p pa} : (s.fillSector r asid va p pa).memOk := by
  unfold fillSector; dsimp only
  split
  · split
    · exact hs
    · exact memOk_putLine _ _ ((fetchSector_memOk _ _ _ _).2 (memOk_cleanSector _ _ hs))
  · exact memOk_putLine _ _ ((fetchSector_memOk _ _ _ _).2 hs)
theorem nextOk_prefetch {a k} {fill : State → Who → Nat → Word → Nat → State} (hf : ∀ t w va p pa, t.memOk → (fill t w va p pa).memOk) :
    NextOk (prefetch a k fill s) := by
  unfold prefetch
  extract_lets va w
  refine nextOk_putS hs fun t ht => ?_
  have hx := memOk_xlate (clusterOf w.rank) w k va ht
  dsimp only
  (repeat' split) <;> simp_all
theorem nextOk_execPfd {a} : NextOk (execPfd a s) := by
  unfold execPfd; split
  · exact (nextOk_finish hs).2 trivial
  · refine nextOk_prefetch hs fun t w va p pa ht => ?_
    split
    · exact ht
    · exact memOk_fillSector ht
theorem nextOk_execIcpf {a} : NextOk (execIcpf a s) := nextOk_prefetch hs fun _ _ _ _ _ ht => (fillIcache_memOk _ _ _ _ _ _).2 ht
theorem keeps_amoPlace {P} {va n} (h : ∀ t l lat, t.memOk → P (t, l, lat)) : Keeps P (amoPlace s va n) := by
  simp only [amoPlace, keeps_bind, keeps_decodeAddr]
  intro t _
  cases t <;> dsimp only <;> (repeat' split) <;> simp [h, hs, memOk_purgeSector]
theorem keeps_amoHome {P} {va n rel} (h : ∀ t l lat, t.memOk → P (t, l, lat)) : Keeps P (amoHome s va n rel) := by
  simp only [amoHome, keeps_bind]
  refine keeps_amoPlace hs fun t l lat ht => ?_
  dsimp only; split
  · rw [keeps_bind]
    exact keeps_releasing ht fun u hu => by simp [h, hu]
  · simp [h, ht]
theorem nextOk_amo {d a b n q r fp f} : NextOk (amo d a b n q r fp f s) := by
  refine (nextOk_finish hs).2 ?_
  rw [keeps_bind, keeps_checkPorts]
  intro _ _
  rw [keeps_bind]
  refine keeps_moving hs ?_
  rw [keeps_bind]
  refine keeps_amoHome hs fun t l lat ht => ?_
  dsimp only
  (repeat' split) <;> simp [ht, memOk_storeAt]
theorem memOk_cmoLine {clean asid lo hi l} : (s.cmoLine clean asid lo hi l).memOk := by
  unfold cmoLine; split
  · refine memOk_iter hs (fun k t ht => ?_) _
    split
    · exact memOk_cleanSector _ _ ht
    · exact ht
  · exact hs
theorem memOk_cmoL1 {r asid lo hi clean inv} : (s.cmoL1 r asid lo hi clean inv).memOk := by
  rw [cmoL1, modCore_memOk]
  exact memOk_foldl hs (fun _ _ ht => memOk_cmoLine ht) _
theorem memOk_mapped {cl w va} : (s.mapped cl w va).1.memOk := by
  unfold mapped; dsimp only; (repeat' split) <;> simp [hs, memOk_fillTlb]
theorem memOk_cmoPages {cl w} {f : State → Nat → Nat → State} (hf : ∀ t va pa, t.memOk → (f t va pa).memOk) {g} (n : Nat) :
    (s.cmoPages cl w f g n).memOk := by
  induction n generalizing s g with
  | zero => exact hs
  | succ n ih =>
    have hm : (s.mapped cl w (g * 65536)).1.memOk := memOk_mapped hs
    refine ih ?_
    split
    · exact hf _ _ _ hm
    · exact hm
theorem nextOk_cmo {a b lev clean inv} : NextOk (cmo a b lev clean inv s) := by
  refine (nextOk_finish hs).2 ?_
  rw [keeps_bind, keeps_checkIns]
  intro _ _
  split
  · simp [hs]
  split
  · split
    · trivial
    · exact (done_memOk _ _ _).2 (memOk_cmoPages hs (fun _ _ _ ht => memOk_cmoL1 ht) _)
  split
  · refine (done_memOk _ _ _).2 (memOk_cmoPages hs (fun _ _ _ ht => ?_) _)
    split <;> simpa
  · exact (done_memOk _ _ _).2 (memOk_cmoPages hs (fun _ _ _ ht => ht) _)
theorem nextOk_execWalkDone {cl asid gran} : NextOk (execWalkDone cl asid gran s) := by
  unfold execWalkDone; dsimp only
  split
  · exact hs
  split
  · rw [nextOk_next]
    split <;> simp [memOk_fillTlb, hs]
  · simp [hs]
end
end Sys2Proof.Machine
end

section
/-! PROOFS OF THE SCOPE. The net. -/
namespace Sys2Proof.Machine
open State
section
variable {s : State} (hs : s.memOk)
include hs

/-! ### Slots of the net and their audit (R236 to R239) -/

theorem memOk_netWrite {a v} : (s.netWrite a v).memOk := memOk_storeAt _ _ _ hs
theorem memOk_clearSlot {a} : (clearSlot s a).memOk := by
  rw [clearSlot, fresh_memOk]
  exact memOk_iter (memOk_netWrite hs) (fun _ _ ht => memOk_netWrite ht) _
theorem memOk_freeLocal {lid a} : (freeLocal s lid a).memOk := (modPool_memOk _ _ _ _).2 (memOk_clearSlot hs)
theorem memOk_audit {r lid} : (audit s r lid).memOk := by
  unfold audit
  split
  · exact hs
  · extract_lets bad used0 gone used s1 s2
    have h1 : s1.memOk := memOk_foldl hs (fun _ _ ht => memOk_clearSlot ht) _
    have h2 : s2.memOk := memOk_foldl h1 (fun _ _ ht => (logErr_memOk _ _).2 ht) _
    exact (modPool_memOk _ _ _ _).2 h2
theorem nextOk_execPoolAudit {r lid} : NextOk (execPoolAudit r lid s) := by
  unfold execPoolAudit; split
  · exact (modPool_memOk _ _ _ _).2 (memOk_audit hs)
  · exact hs
theorem nextOk_execFreeSlotReturn {r slot lid} : NextOk (execFreeSlotReturn r slot lid s) := by
  unfold execFreeSlotReturn; dsimp only
  (repeat' split) <;> simp [hs, memOk_freeLocal]
end

/-! ### The link sequencer (R228 to R232) -/

/-- The sequence stopped early has its memory in canonical form. -/
def SeqStop.memOk : SeqStop → Prop
  | .wait q _ | .held q _ | .trap q _ | .ended q => q.st.memOk
/-- A sequence so far, or stopped early, has its memory in canonical form. -/
def SeqKeeps {α : Type} : Except SeqStop (Seq × α) → Prop
  | .ok a => a.1.st.memOk
  | .error e => e.memOk

section
variable {α β : Type}
theorem SeqKeeps.of_eq {x r : Except SeqStop (Seq × α)} (h : SeqKeeps x) (e : x = r) : SeqKeeps r := e ▸ h
theorem SeqKeeps.bind {x : Except SeqStop (Seq × α)} {f : Seq × α → Except SeqStop (Seq × β)} (hx : SeqKeeps x)
    (hf : ∀ a, a.1.st.memOk → SeqKeeps (f a)) : SeqKeeps (x >>= f) := by
  cases x with
  | ok a => exact hf a hx
  | error e => exact hx
theorem SeqKeeps.ite {c : Prop} [Decidable c] {x y : Except SeqStop (Seq × α)} (hx : SeqKeeps x) (hy : SeqKeeps y) :
    SeqKeeps (if c then x else y) := by split <;> assumption
end

section
variable {q : Seq} (hq : q.st.memOk)
include hq
theorem seqKeeps_act {home delay cost} {f : State → State × Word × Bool} (hf : ∀ t, t.memOk → (f t).1.memOk) :
    SeqKeeps (seqAct q home delay cost f) := by
  have h := hf q.st hq
  unfold seqAct
  split
  · exact hq
  · dsimp only
    split
    · exact hq
    split
    · exact hq
    · change State.memOk (if _ then _ else _)
      simp [h]
theorem seqKeeps_step {a} {f : State → State × Word × Bool} (hf : ∀ t, t.memOk → (f t).1.memOk) : SeqKeeps (seqStep q a f) := by
  unfold seqStep; dsimp only
  split
  · exact seqKeeps_act hq hf
  · have h := seqKeeps_act (home := q.st.rank) (delay := 0) (cost := 0) hq (f := fun s => (s.incSent s.rank s.me.lid, 0, false)) fun t ht => ht
    split <;> rename_i e
    · exact seqKeeps_act (h.of_eq e) hf
    · exact h.of_eq e
theorem seqKeeps_note {f} : SeqKeeps (seqNote q f) := by
  have h := seqKeeps_act (home := q.st.rank) (delay := 0) (cost := 0) hq (f := fun s => (s, 0, f s)) fun t ht => ht
  unfold seqNote
  split <;> rename_i e <;> exact h.of_eq e
theorem seqKeeps_read {a w} : SeqKeeps (seqRead q a w) := by
  have h := seqKeeps_step hq (a := a) (f := fun s => if s.poisoned (netLoc a) then (s, s.netRead a, true) else
      ((match w (s.netRead a) with | some x => s.netWrite a x | none => s), s.netRead a, false)) fun t ht => by
    (repeat' split) <;> simp [ht, memOk_netWrite]
  unfold seqRead
  split <;> rename_i e
  · replace e := h.of_eq e
    exact .ite e (.ite e e)
  · exact h.of_eq e
theorem seqKeeps_write {a v} : SeqKeeps (seqWrite q a v) := by
  have h := seqKeeps_step hq (a := a) (f := fun s => (s.netWrite a v, 0, false)) fun t ht => memOk_netWrite ht
  unfold seqWrite
  split <;> rename_i e <;> exact h.of_eq e
theorem seqKeeps_swap {a v} : SeqKeeps (seqSwap q a v) := seqKeeps_read hq
theorem seqKeeps_cas {a e v} : SeqKeeps (seqCas q a e v) := seqKeeps_read hq
omit hq in
theorem seqKeeps_again {α : Type} {now : Seq} (h : now.st.memOk) : SeqKeeps (seqAgain q now : Except SeqStop (Seq × α)) := h
theorem seqKeeps_loop {q0 r g} : SeqKeeps (seqLoop q0 q r g) := by
  unfold seqLoop
  split
  · exact seqKeeps_again hq
  dsimp only
  split
  · exact seqKeeps_again hq
  have h {a w} := seqKeeps_read (a := a) (w := w) hq
  split <;> rename_i e <;> replace e := h.of_eq e
  · exact e
  refine .ite (seqKeeps_again e) (.ite ?_ e)
  refine (seqKeeps_write e).bind fun _ h3 => (seqKeeps_write h3).bind fun _ h4 => (seqKeeps_write h4).bind fun _ h5 =>
    (seqKeeps_write h5).bind fun _ h6 => h6
theorem seqKeeps_putAt {q0 g b v} : SeqKeeps (seqPutAt q0 q g b v) :=
  (seqKeeps_cas hq).bind fun _ h1 => .ite h1 (.ite ((seqKeeps_write h1).bind fun _ h2 => h2)
    (.ite ((seqKeeps_loop h1).bind fun _ h2 => h2) h1))
theorem seqKeeps_put {y v} : SeqKeeps (seqPut q y v) := by
  unfold seqPut
  split
  · exact hq
  split
  · exact seqKeeps_putAt hq
  · exact (seqKeeps_read hq).bind fun _ h1 => .ite (seqKeeps_putAt h1) (.ite ((seqKeeps_write h1).bind fun _ h2 => h2)
      (.ite (seqKeeps_again h1) h1))
theorem seqKeeps_end {e v} : SeqKeeps (seqEnd q e v) := by
  unfold seqEnd
  split
  · exact hq
  extract_lets join
  have hj (a : Seq × Bool) (ha : a.1.st.memOk) : SeqKeeps (join a) := .ite ((seqKeeps_write ha).bind fun _ h => h) (seqKeeps_put ha)
  exact .ite ((seqKeeps_note hq).bind hj) (hj (q, false) hq)
theorem seqKeeps_ends {v} (n : Nat) {e} : SeqKeeps (seqEnds q v n e) := by
  induction n generalizing q e with
  | zero => exact seqKeeps_again hq
  | succ n ih =>
    have h := seqKeeps_end hq (e := e) (v := v)
    unfold seqEnds
    split <;> rename_i r <;> replace r := h.of_eq r
    · exact r
    · exact ih r
    · exact r

/-! ### Pairs and the sequence's ends (R225 to R233) -/

theorem seqKeeps_pairSide {e} : SeqKeeps (pairSide q e) := by
  have h := seqKeeps_step hq (a := placeBits e) (f := fun s => (s, s.netRead (placeBits e), s.poisoned (netLoc (placeBits e)))) fun _ ht => ht
  unfold pairSide
  split
  · exact hq
  · dsimp only
    split <;> rename_i r <;> replace r := h.of_eq r
    · exact r
    · exact .ite r r
omit hq in
theorem memOk_ruleEntry {s : State} (hs : s.memOk) {l va} : (ruleEntry s l va).1.memOk := memOk_xlate _ _ _ _ hs
omit hq in
theorem memOk_sendPair {s : State} (hs : s.memOk) {pk dest} : (sendPair s pk dest).memOk := by
  unfold sendPair; dsimp only; split <;> simp [memOk_enqueue, hs]
theorem seqKeeps_release : SeqKeeps (seqRelease q) := by
  have h := seqKeeps_act (home := q.st.rank) (delay := 0) (cost := 0) hq
    (f := fun s => let t := s.release s.rank; (t, w64 (t.releaseTime s.rank), false)) fun _ ht => memOk_release _ ht
  unfold seqRelease; dsimp only
  split
  · exact hq
  split <;> rename_i r <;> replace r := h.of_eq r
  · unfold SeqKeeps; dsimp only; split <;> exact r
  · exact r
theorem seqKeeps_formPair {e1 e2} : SeqKeeps (formPair q e1 e2) := by
  unfold formPair
  refine (seqKeeps_note hq).bind fun _ h0 => (seqKeeps_pairSide h0).bind fun a h1 => (seqKeeps_pairSide h1).bind fun b h2 => ?_
  have entry {va : Nat} {l : Launch} : SeqKeeps (seqAct b.1 b.1.st.rank 109 110 fun s =>
      let r := ruleEntry s l va; (r.1, r.2.getD 0, r.2.isNone)) := seqKeeps_act h2 fun _ ht => memOk_ruleEntry ht
  dsimp only
  generalize (if sideLe a.2 b.2 = true then (a.2, b.2) else (b.2, a.2)) = p
  have leave {x : Except SeqStop (Seq × Option Word)} (hx : SeqKeeps x) : SeqKeeps (x >>= fun c => do
      let d ← seqRelease c.1
      let f ← seqAct d.1 d.1.st.rank 0 0 fun s => (sendPair s (pairPacket (myLaunch q.st) d.1.st.rank p.1 p.2 c.2).1
        (pairPacket (myLaunch q.st) d.1.st.rank p.1 p.2 c.2).2, 0, false)
      .ok (f.1, ())) :=
    hx.bind fun _ h3 => (seqKeeps_release h3).bind fun _ h4 => (seqKeeps_act h4 fun _ ht => memOk_sendPair ht).bind fun _ h5 => h5
  split
  · exact leave (x := .ok _) h2
  split <;> rename_i e
  · exact leave (x := .ok _) (entry.of_eq e)
  · exact leave (x := .error _) (entry.of_eq e)
theorem seqKeeps_connect {e1 e2} : SeqKeeps (seqConnect q e1 e2) :=
  (seqKeeps_ends hq _).bind fun _ h1 => (seqKeeps_ends h1 _).bind fun _ h2 => .ite (seqKeeps_formPair h2) h2
theorem seqKeeps_finish {c} (n : Nat) {old e exp} : SeqKeeps (seqFinish c n q old e exp) := by
  induction n generalizing q old e exp with
  | zero => exact seqKeeps_again hq
  | succ n ih =>
    unfold seqFinish
    refine .ite ((seqKeeps_connect hq).bind fun _ h1 => seqKeeps_write h1) (.ite hq ((seqKeeps_cas hq).bind fun a h1 => .ite ?_ (.ite ?_ ?_)))
    · refine (seqKeeps_end h1).bind fun m h2 => ?_
      dsimp only
      split
      · exact seqKeeps_write h2
      · exact ih h2
    · refine .ite ((seqKeeps_connect ?_).bind fun _ h2 => (seqKeeps_write h2).bind fun _ h3 => seqKeeps_write h3) h1
      exact h1
    · exact .ite h1 (.ite (seqKeeps_loop h1) h1)
omit hq in
@[simp] theorem seqBlock_memOk (q : Seq) (due : Nat) : (seqBlock q due).memOk ↔ q.st.memOk := by simp [seqBlock]
omit hq in
theorem keeps_asOfLast {s : State} (hs : s.memOk) {f : State → Run State} (hf : ∀ t, t.memOk → Keeps memOk (f t)) : Keeps memOk (asOfLast s f) := by
  have h := hf { s with cycle := s.cycle - 1 } hs
  unfold asOfLast
  split <;> simp_all
theorem keeps_seqCloses {f : State → Run State} (hf : ∀ t, t.memOk → Keeps memOk (f t)) : Keeps memOk (seqCloses q f) := by
  have ht : (q.st.modMyCore fun c => { c with seqAt := q.start }).memOk := (modMyCore_memOk _ _).2 hq
  unfold seqCloses; dsimp only
  split
  · exact (seqBlock_memOk _ _).2 hq
  split
  · exact keeps_asOfLast (s := q.st.modMyCore _) ht hf
  · exact hf _ ht
omit hq in
theorem keeps_endSeq {srcs r} (hr : SeqKeeps r) : Keeps memOk (endSeq srcs r) := by
  unfold endSeq
  split
  · exact keeps_seqCloses hr fun t ht => by simpa using ht
  · exact keeps_seqCloses hr fun t ht => by simpa using ht
  · exact (seqBlock_memOk _ _).2 hr
  · exact (joinHeld_memOk _ _).2 ((seqBlock_memOk _ _).2 hr)
  · exact keeps_seqCloses hr fun t ht => by simpa using ht
end

/-! ### The net's instructions (R229 to R246) -/
section
variable {s : State} (hs : s.memOk)
include hs
theorem keeps_runSeq {srcs nodes held plain checks} {go : Seq → Except SeqStop (Seq × Unit)} (hc : Keeps (fun _ => True) checks)
    (hg : ∀ q, q.st.memOk → SeqKeeps (go q)) : Keeps memOk (runSeq s srcs nodes held plain checks go) := by
  unfold runSeq; dsimp only
  split
  · exact keeps_endSeq (hg _ hs)
  · rw [keeps_bind]
    refine hc.imp fun _ _ => ?_
    rw [keeps_bind]
    refine keeps_releasing hs fun t ht => ?_
    split
    · trivial
    · exact keeps_endSeq (hg _ ht)
theorem nextOk_execLink {a b} : NextOk (execLink a b s) := by
  refine (nextOk_finish hs).2 ?_
  simp only [keeps_bind, keeps_checkIns, keeps_portOperand, keeps_endOperand]
  intro _ _ c _ _ _
  refine keeps_runSeq hs (by simp) fun q hq => ?_
  split
  · exact (seqKeeps_write hq).bind fun _ h1 => (seqKeeps_swap h1).bind fun _ h2 => seqKeeps_finish h2 _
  · exact (seqKeeps_swap (q := q) hq).bind fun _ h2 => seqKeeps_finish h2 _
theorem nextOk_execJoin {a b} : NextOk (execJoin a b s) := by
  refine (nextOk_finish hs).2 ?_
  simp only [keeps_bind, keeps_checkIns, keeps_portOperand]
  intro _ _ pa _ pb _
  refine keeps_runSeq hs (by simp) fun q hq => ?_
  refine (seqKeeps_swap hq).bind fun a1 h1 => .ite h1 ?_
  refine (seqKeeps_swap ?_).bind fun _ h3 => (seqKeeps_finish h3 _).bind fun _ h4 => (seqKeeps_cas h4).bind fun _ h5 => ?_
  · exact h1
  · exact h5
theorem nextOk_execLinkn {a b} : NextOk (execLinkn a b s) := by
  refine (nextOk_finish hs).2 ?_
  rw [keeps_bind, keeps_checkIns]
  intro _ _
  dsimp only
  rw [keeps_bind, keeps_endOperand]
  intro _ _
  rw [keeps_bind, keeps_endOperand]
  intro _ _
  split
  · rw [keeps_bind, keeps_linkChecks]
    intro _ _
    rw [keeps_ok, next_memOk, pops_memOk]
    have h1 : (match slotOf (s.rx a) with | some g => s.netWrite g (s.rx b) | none => s).memOk := by
      split
      · exact memOk_netWrite hs
      · exact hs
    split
    · exact memOk_netWrite h1
    · exact h1
  · exact keeps_runSeq hs (by simp) fun q hq => seqKeeps_connect hq
theorem nextOk_execAlloc {d a} : NextOk (execAlloc d a s) := by
  -- The neighbours' table is not for the kernel to compute.
  obtain ⟨core, hcore⟩ := exists_eq (a' := allocCore)
  unfold execAlloc
  rw [← hcore]
  refine (nextOk_finish hs).2 ?_
  rw [keeps_bind, keeps_checkPorts]
  intro _ _
  dsimp only
  split
  · trivial
  split
  · trivial
  split
  · trivial
  rw [keeps_bind, keeps_arrives]
  intro _ _
  split
  · trivial
  split
  · rw [keeps_ok, done_memOk]
    exact memOk_iter ((modPool_memOk _ _ _ _).2 hs) (fun _ _ hu => memOk_netWrite hu) _
  · trivial
theorem nextOk_execFree {a} : NextOk (execFree a s) := by
  refine (nextOk_finish hs).2 ?_
  simp [memOk_freeLocal, memOk_netWrite, hs]
theorem nextOk_execRuleend : NextOk (execRuleend s) := by
  refine (nextOk_finish hs).2 ?_
  simp [keeps_exitBarge, hs]
theorem nextOk_execNetaud {d} : NextOk (execNetaud d s) := by
  refine (nextOk_finish hs).2 ?_
  simp [memOk_audit, hs]
theorem nextOk_execNstat {d a} : NextOk (execNstat d a s) := by
  refine (nextOk_finish hs).2 ?_
  rw [keeps_bind, keeps_checkPorts]
  intro _ _
  simp [hs]
theorem keeps_payCount {P} {ha rel f} (h : ∀ t old lat, t.memOk → P (t, old, lat)) : Keeps P (payCount s ha rel f) := by
  unfold payCount
  rw [keeps_bind]
  refine keeps_amoHome hs fun t l lat ht => ?_
  dsimp only
  split
  · split <;> simp [h, ht]
  · rw [keeps_ok]
    refine h _ _ _ ?_
    split <;> simp [memOk_storeAt, ht]
theorem keeps_tileHeader {P} {n} (h : ∀ t ha, t.memOk → P (t, ha)) : Keeps P (tileHeader s n) := by
  unfold tileHeader; dsimp only; (repeat' split) <;> simp [h, hs]
theorem keeps_payTile {P} {n rel f} (h : ∀ t ha old lat, t.memOk → P (t, ha, old, lat)) : Keeps P (payTile s n rel f) := by
  unfold payTile
  rw [keeps_bind]
  refine keeps_tileHeader hs fun t ha ht => ?_
  rw [keeps_bind]
  exact keeps_payCount ht fun u old lat hu => h _ _ _ _ hu
theorem memOk_setPcls {n c} : (setPcls s n c).memOk := memOk_netWrite hs
theorem memOk_copyWord {src dst} : (copyWord s src dst).memOk := (setPoison_memOk _ _ _).2 (memOk_netWrite hs)
omit hs in
@[simp] theorem keeps_countDone {t : State} {old ha lat r} : Keeps memOk (t.countDone old ha lat r) ↔ t.memOk := by simp [countDone]
omit hs in
@[simp] theorem keeps_badCount {t : State} {ha} : Keeps memOk (badCount t ha) ↔ t.memOk := by simp [badCount]
theorem nextOk_execPaydup {a b} : NextOk (execPaydup a b s) := by
  refine (nextOk_finish hs).2 ?_
  rw [keeps_bind, keeps_checkIns]
  intro _ _
  rw [keeps_bind, keeps_nodeOperand]
  intro n _
  rw [keeps_bind, keeps_nodeOperand]
  intro m _
  extract_lets c _ write
  have hw (acq : Bool) : Keeps memOk (write acq) := by
    unfold write
    rw [keeps_bind, keeps_atHome]
    intro _ _
    exact (done_memOk _ _ _).2 (memOk_setPcls (memOk_iter hs (fun _ _ ht => memOk_copyWord ht) _))
  clear_value write
  split
  · exact hw true
  rw [keeps_bind, keeps_payNode]
  intro _ _
  rw [keeps_bind, keeps_payNode]
  intro _ _
  split
  · trivial
  split
  · rw [keeps_bind]
    refine keeps_payTile hs fun t ha old lat ht => ?_
    dsimp only
    split <;> simpa using ht
  · exact hw false
theorem nextOk_execPaydrop {d a im} : NextOk (execPaydrop d a im s) := by
  refine (nextOk_finish hs).2 ?_
  rw [keeps_bind, keeps_checkPorts]
  intro _ _
  rw [keeps_bind, keeps_nodeOperand]
  intro n _
  extract_lets c drop
  have hd (p : Bool) (v : Word) (acq : Bool) : Keeps memOk (drop p v acq) := by
    unfold drop
    rw [keeps_bind, keeps_atHome]
    intro _ _
    simp [memOk_setPcls, hs]
  clear_value drop
  split
  · exact hd _ _ _
  rw [keeps_bind, keeps_payNode]
  intro _ _
  split
  · trivial
  split
  · rw [keeps_bind]
    refine keeps_payTile hs fun t ha old lat ht => ?_
    dsimp only
    split <;> simpa using ht
  · exact hd _ _ _
theorem nextOk_execPayown {a im} : NextOk (execPayown a im s) := by
  refine (nextOk_finish hs).2 ?_
  simp only [keeps_bind, keeps_checkIns, keeps_payNode]
  intro _ _ n _
  split
  · trivial
  split
  · rw [keeps_bind]
    exact keeps_payTile hs fun t ha old lat ht => (done_memOk _ _ _).2 ht
  · simp [hs]
end
end Sys2Proof.Machine
end

section
/-! PROOFS OF THE SCOPE. Fetches, repeat blocks and replies. -/
namespace Sys2Proof.Machine
open State
section
variable {s : State} (hs : s.memOk)
include hs

/-! ### Fetches (R47, R174) -/

theorem memOk_of_fetchAs {w va t lat} (e : fetchAs s w va = .filled t lat) : t.memOk := by
  unfold fetchAs at e; dsimp only at e
  split at e
  · cases e
  split at e
  · (repeat' split at e) <;> cases e
  · split at e <;> cases e
    exact (fillIcache_memOk _ _ _ _ _ _).2 hs
theorem keeps_codeWord {P} {w va} (h : ∀ v, P v) : Keeps P (codeWord s w va) := by
  unfold codeWord
  split
  · exact h _
  · trivial
  · trivial
  · trivial
  · exact (fetchWait_memOk _ _).2 (memOk_of_fetchAs hs ‹_›)
theorem keeps_codeWords {P} {w base} (h : ∀ l, P l) (n : Nat) : Keeps P (codeWords s w base n) := by
  induction n generalizing P with
  | zero => exact h _
  | succ n ih =>
    unfold codeWords
    rw [keeps_bind]
    refine ih fun l => ?_
    rw [keeps_bind]
    exact keeps_codeWord hs fun v => h _
theorem keeps_captureBlock {P} {w base rw' dec n l sc m k idx keep} (h : ∀ b, P b) :
    Keeps P (captureBlock s w base rw' dec n l sc m k idx keep) := by
  unfold captureBlock
  rw [keeps_bind]
  refine keeps_codeWords hs (fun ws => ?_) _
  dsimp only
  split
  · trivial
  · exact h _

/-! ### Repeat blocks and the repetition buffer (R49 to R53) -/

theorem nextOk_execRpt {n l sc m} : NextOk (execRpt n l sc m s) := by
  refine (nextOk_finish hs).2 ?_
  rw [keeps_bind]
  exact keeps_captureBlock hs fun b => by simpa using hs
theorem nextOk_execRptD {n l sc m} : NextOk (execRptD n l sc m s) := by
  refine (nextOk_finish hs).2 ?_
  rw [keeps_bind]
  refine keeps_captureBlock hs fun b => ?_
  split <;> simpa using hs
/-- Every instruction that a block word may be keeps the form of memory. -/
theorem nextOk_execBlockWord (i : Instr) : NextOk (execBlockWord i s) := by
  cases i with
  | vld => exact nextOk_execVld hs
  | vst => exact nextOk_execVst hs
  | vlds => exact nextOk_gather hs
  | vsts => exact nextOk_scatter hs
  | vbcast => exact nextOk_execVbcast hs
  | vextr => exact nextOk_execVextr hs
  | vadd | vsub | vmul | vfma | vfms | vmin | vmax | vabs | vrcp | vrsq | vexp2 | vlog2 | viadd | visub | vimul | vand | vor | vxor | vsll
  | vsrl | vsra | vsel | vshuf | vslideUp | vslideDn | vcvtI32F | vcvtFI32 | vcvtBfF | vcvtFBf | vcvtHfF | vcvtFHf | vencE2 | vdecT0
  | vdecT1 | vdecE2 | vred | vscan => exact nextOk_putV hs
  | vcmpEq | vcmpNe | vcmpLt | vcmpLtu | vcmpGe | vcmpGeu | vcmpFeq | vcmpFlt | vcmpFle | vcmpFun =>
    unfold execBlockWord
    exact nextOk_vcompare hs
  | vencT0 | vencT1 => exact nextOk_encodeTable hs
  | vscanl => exact nextOk_execVscanl hs
  | vdotbX8 | vdotbX4 => exact nextOk_blockDot hs
  | mmaBf | mmaHf | mmaE4 | mmaE45 | mmaE5 | mmaX8 | mmaX84 | mmaX4 | mmaI8 => exact nextOk_issueMma hs
  | acq => exact nextOk_execAcq hs
  | rel => exact nextOk_execRel hs
  | azero => exact nextOk_execAzero hs
  | apois => exact nextOk_execApois hs
  | ald => exact nextOk_execAld hs
  | ast => exact nextOk_execAst hs
  | arow => exact nextOk_execArow hs
  | awr => exact nextOk_execAwr hs
  | bld | tldt => exact nextOk_fillHalf hs
  | brot => exact nextOk_execBrot hs
  | bstat => exact nextOk_execBstat hs
  | _ => exact hs
theorem nextOk_execRepeatBufferWord {r} : NextOk (execRepeatBufferWord r s) := by
  unfold execRepeatBufferWord
  split
  · exact hs
  split
  · exact hs
  split
  · simpa using hs
  split
  · exact hs
  · rename_i b _ _ _ i _
    have h := nextOk_execBlockWord (s := { s with rank := r, berth := b.owner, buffered := true }) hs i
    split <;> rename_i e
    · exact (back_memOk _ _).2 (by rw [e] at h; exact h)
    · trivial
    · trivial

/-! ### Replies, registers and returns from traps (R20, R97 to R101, R297) -/

theorem nextOk_execBorrow {d a} : NextOk (execBorrow d a s) := by simp [execBorrow, nextOk_finish hs, hs]
theorem nextOk_execGiveb : NextOk (execGiveb s) := by simp [execGiveb, nextOk_finish hs, hs]
theorem nextOk_xmov {out d a c} : NextOk (xmov out d a c s) := by
  refine (nextOk_finish hs).2 ?_
  (repeat' split) <;> simp [hs]
theorem memOk_takeReply {w q} : (takeReply w q s).memOk := by
  unfold takeReply
  (repeat' split) <;> simp [memOk_release, hs]
theorem nextOk_execReplyArrival {r b} : NextOk (execReplyArrival r b s) := by
  unfold execReplyArrival
  extract_lets t
  have ht : t.memOk := by
    unfold t
    split
    · exact hs
    · exact (as_memOk _ _ _).2 hs
  clear_value t
  split
  · exact hs
  split
  · exact hs
  split
  · simpa using ht
  · rw [nextOk_next, back_memOk]
    refine memOk_takeReply ?_
    split <;> exact ht
theorem keeps_tretBlock {P} {dec} (h : ∀ b, P b) : Keeps P (tretBlock s dec) := by
  unfold tretBlock
  dsimp only
  rw [keeps_bind]
  refine keeps_codeWord hs fun v => ?_
  split
  · split
    · trivial
    · exact keeps_captureBlock hs h
  · trivial
theorem nextOk_execTret : NextOk (execTret s) := by
  refine (nextOk_finish hs).2 ?_
  split
  · trivial
  split
  · rw [keeps_bind]
    exact keeps_tretBlock hs fun b => by simpa using hs
  split
  · rw [keeps_bind]
    refine keeps_tretBlock hs fun b => ?_
    split
    · trivial
    · simpa using hs
  · simpa using hs
end
end Sys2Proof.Machine
end

section
/-! PROOFS OF THE SCOPE. The lockhouse. -/
namespace Sys2Proof.Machine
open State
section
variable {s : State} (hs : s.memOk)
include hs

/-! ### The lockhouse (R262 to R277) -/

theorem memOk_llcPut {pa n v} : (llcPut s pa n v).memOk := by
  unfold llcPut; split
  · exact memOk_storeAt _ _ _ hs
  · exact hs
theorem memOk_jobEnd {id} : (jobEnd s id).memOk := by
  unfold jobEnd
  split
  · exact hs
  · dsimp only
    split
    · exact hs
    split <;> simp [memOk_llcPut, hs]
theorem memOk_endLaunch {lid st} : (endLaunch s lid st).memOk := by
  unfold endLaunch
  split
  · exact hs
  · refine memOk_jobEnd ?_
    simp [memOk_llcPut, hs]
theorem memOk_cleanLines {l : List Line} : (l.foldl cleanLine s).memOk := memOk_foldl hs (fun _ _ ht => memOk_cleanLine _ ht) l
theorem memOk_shoot {asid range} : (shoot s asid range).memOk := by
  unfold shoot
  refine memOk_foldl ?_ (fun t e ht => ?_) _
  · exact (memOk_mk s).2 hs
  · split <;> split <;> simp [memOk_cleanLines, ht]
theorem memOk_writeTlbinv {v} : (writeTlbinv s v).memOk := by
  unfold writeTlbinv; dsimp only
  split
  · exact hs
  split
  · exact (withLock_memOk _ _).2 hs
  · exact (later_memOk _ _ _).2 (memOk_shoot ((withLock_memOk _ _).2 hs))
theorem memOk_loadRecord {l r} : (loadRecord l s r).memOk :=
  memOk_iter hs (fun k t ht => by simp [memOk_netWrite, ht]) _
theorem memOk_joinCore {l recs i} : (joinCore l recs s i).memOk :=
  (modCore_memOk _ _ _).2 (memOk_foldl hs (fun _ _ ht => memOk_clearSlot ht) _)
theorem memOk_admitBarge {r lid pair pk} : (admitBarge r lid pair pk s).memOk := by
  unfold admitBarge; dsimp only; split <;> simp [memOk_enqueue, hs]
theorem memOk_queuePairs {l addrs} : (queuePairs l addrs s).memOk := by
  refine memOk_foldl hs (fun t a ht => ?_) _
  split
  · exact memOk_admitBarge ((incPend_memOk _ _ _).2 ht)
  · exact ht
theorem memOk_queueRoots {l rs} : (queueRoots l rs s).memOk := memOk_foldl hs (fun _ _ ht => memOk_admitBarge ht) _
theorem memOk_admitLaunch {l} : (admitLaunch s l).memOk := by
  unfold admitLaunch
  extract_lets recs rs lid l1 s1 s2 s2' s3 s4 s5
  have h1 : s1.memOk := memOk_llcPut ((withLock_memOk _ _).2 hs)
  have h2 : s2.memOk := (memOk_mk s1).2 h1
  have h2' : s2'.memOk := memOk_foldl h2 (fun _ _ ht => (modCluster_memOk _ _ _).2 ht) _
  have h3 : s3.memOk := memOk_foldl h2' (fun _ _ ht => memOk_joinCore ht) _
  have h4 : s4.memOk := memOk_foldl h3 (fun _ _ ht => memOk_loadRecord ht) _
  have h5 : s5.memOk := memOk_queueRoots (memOk_queuePairs h4)
  exact memOk_llcPut h5
theorem nextOk_execLaunchAdmission {job} : NextOk (execLaunchAdmission job s) := by
  unfold execLaunchAdmission
  split
  · exact hs
  · extract_lets s1 s2 code s3
    have h1 : s1.memOk := (withLock_memOk _ _).2 hs
    have h2 : s2.memOk := by
      unfold s2
      split
      · exact (withLock_memOk _ _).2 (memOk_shoot h1)
      · exact h1
    have h3 : s3.memOk := memOk_llcPut h2
    split
    · exact memOk_admitLaunch h2
    · exact memOk_jobEnd ((memOk_mk s3).2 h3)
theorem memOk_of_nextRecord {pa t} (e : nextRecord s = some (pa, t)) : t.memOk := by
  unfold nextRecord at e
  split at e
  · cases e; exact (withLock_memOk _ _).2 hs
  · dsimp only at e
    split at e <;> cases e
    exact (withLock_memOk _ _).2 hs
theorem nextOk_execJobTake : NextOk (execJobTake s) := by
  unfold execJobTake
  split
  · exact hs
  split
  · exact hs
  · exact memOk_jobEnd ((withLock_memOk _ _).2 (memOk_of_nextRecord hs ‹_›))
theorem nextOk_execLnch {d a} : NextOk (execLnch d a s) := by
  refine (nextOk_finish hs).2 ?_
  rw [keeps_bind, keeps_checkPorts]
  intro _ _
  dsimp only
  split
  · trivial
  split
  · trivial
  rw [keeps_bind]
  exact keeps_releasing hs fun t ht => by simp [ht]
theorem nextOk_execDetectionPass {lid} : NextOk (execDetectionPass lid s) := by
  unfold execDetectionPass
  split
  · exact hs
  split
  · exact hs
  dsimp only
  split
  · exact memOk_endLaunch hs
  · exact (modLaunch_memOk _ _ _).2 hs
theorem memOk_hostPut {lo pa} (l : List Byte) : (hostPut s lo pa l).memOk := by
  induction l generalizing s pa with
  | nil => exact hs
  | cons b l ih =>
    refine ih ?_
    (repeat' split) <;> simp [memOk_writeByte, hs]
theorem nextOk_execHostBar2Write {off bytes} : NextOk (execHostBar2Write off bytes s) := by
  unfold execHostBar2Write; dsimp only
  rw [nextOk_next]
  split
  · exact memOk_hostPut hs _
  · exact hs
end
end Sys2Proof.Machine
end

section
/-! PROOFS OF THE SCOPE. The context buffer. -/
namespace Sys2Proof.Machine
open State
section
variable {s : State} (hs : s.memOk)
include hs

/-! ### Pre-emption's context buffer (R304 to R307) -/

theorem keeps_openBuf {P} {k va} (h : ∀ t b, t.memOk → P (t, b)) : Keeps P (openBuf s k va) := by
  unfold openBuf
  extract_lets w part
  have hp {t : State} {i : Nat} {Q : State × Nat → Prop} (ht : t.memOk) (hq : ∀ u pa, u.memOk → Q (u, pa)) : Keeps Q (part t i) := by
    have hx := memOk_xlate (clusterOf s.rank) w k (va + w64 (65536 * i)).toNat ht
    unfold part; dsimp only
    split
    · trivial
    split <;> rename_i e
    · rw [e] at hx
      exact hq _ _ hx
    · trivial
  clear_value part
  split
  · trivial
  rw [keeps_bind]
  refine hp hs fun t0 g0 h0 => ?_
  rw [keeps_bind]
  refine hp h0 fun t1 g1 h1 => ?_
  rw [keeps_bind]
  refine hp h1 fun t2 g2 h2 => ?_
  exact h _ _ ((modMyCore_memOk _ _).2 (memOk_cleanLines h2))
theorem memOk_bufPut {b off v} : (bufPut s b off v).memOk := memOk_storeAt _ _ _ hs
theorem memOk_bufFill {b off v} (n : Nat) : (bufFill b off v n s).memOk := memOk_iter hs (fun _ _ ht => memOk_storeAt _ _ _ ht) n
theorem memOk_copyUnits {src dst} (n : Nat) : (copyUnits src dst n s).memOk :=
  memOk_iter hs (fun _ _ ht => (setPoison_memOk _ _ _).2 (memOk_storeAt _ _ _ ht)) n
theorem memOk_spillB {buf} : (spillB buf s).memOk := by
  refine memOk_iter hs (fun n t ht => ?_) _
  dsimp only
  split
  · exact memOk_bufPut (memOk_bufFill ht _)
  · exact ht
theorem memOk_putMma {buf n m} : (putMma buf n m s).memOk := memOk_iter hs (fun _ _ ht => memOk_bufPut ht) _
theorem memOk_spillL {buf} : (spillL buf s).memOk := by
  unfold spillL
  extract_lets c half s0 s1 s2 s3
  have hh {h off t} (ht : t.memOk) : (half h off t).memOk := memOk_bufFill (memOk_bufFill ht _) _
  have h0 : s0.memOk := memOk_bufPut (memOk_bufPut hs)
  have h1 : s1.memOk := by
    refine memOk_foldl h0 (fun t n ht => ?_) _
    split
    · exact memOk_putMma ht
    · exact ht
  have h2 : s2.memOk := hh (hh h1)
  have h3 : s3.memOk := memOk_bufFill (memOk_bufFill h2 _) _
  exact (modMyCore_memOk _ _).2 h3
theorem memOk_spillQ {buf pas a} : (spillQ buf pas a s).memOk := by
  unfold spillQ
  extract_lets r c vac own head s1 s2 s3 q s4 s5
  have h1 : s1.memOk := memOk_iter hs (fun _ _ ht => memOk_bufPut ht) _
  have h2 : s2.memOk := memOk_copyUnits h1 _
  have h3 : s3.memOk := memOk_iter h2 (fun _ _ ht => memOk_iter (memOk_bufPut ht) (fun _ _ hu => memOk_bufPut hu) _) _
  have h4 : s4.memOk := by
    refine memOk_foldl h3 (fun t i ht => ?_) _
    split
    · exact memOk_storeAt _ _ _ ht
    · exact ht
  have h5 : s5.memOk := by
    refine memOk_foldl h4 (fun t i ht => ?_) _
    split
    · exact memOk_storeAt _ _ _ ht
    · exact ht
  exact (modMyCore_memOk _ _).2 ((takeOut_memOk _ _ _).2 h5)
theorem nextOk_execPspill {d a b} : NextOk (execPspill d a b s) := by
  refine (nextOk_finish hs).2 ?_
  rw [keeps_bind, keeps_checkPorts]
  intro _ _
  extract_lets parts pre word q lat
  split
  · trivial
  rw [keeps_bind]
  refine keeps_openBuf hs fun t buf ht => ?_
  dsimp -zeta only
  split
  · trivial
  extract_lets join
  have hj {t0 : State} (h0 : t0.memOk) : Keeps memOk (join t0) := by
    unfold join
    extract_lets t1 t2 t3
    have h1 : t1.memOk := by
      unfold t1
      split
      · exact memOk_spillB h0
      · exact h0
    have h2 : t2.memOk := by
      unfold t2
      split
      · exact memOk_spillL h1
      · exact h1
    have h3 : t3.memOk := by
      unfold t3
      split
      · exact memOk_spillQ h2
      · exact h2
    clear_value t3
    split
    · exact (vacate_memOk _ _).2 ((retire_memOk _).2 ((put_memOk _ _).2 h3))
    · exact (done_memOk _ _ _).2 h3
  split
  · rw [keeps_bind]
    exact keeps_releasing ht fun u hu => hj hu
  · exact hj ht
theorem memOk_restQ {buf same} : (restQ buf same s).memOk := by
  unfold restQ
  extract_lets r src head snap n s1 s2 q back cap s3 s3' s3'' s4 s5 any
  have h1 : s1.memOk := memOk_copyUnits hs _
  have h2 : s2.memOk := memOk_iter h1 (fun _ _ ht => (modPort_memOk _ _ _ _ _).2 ht) _
  have h3 : s3.memOk := (modCore_memOk _ _ _).2 h2
  have h3' : s3'.memOk := memOk_foldl h3 (fun _ _ ht => (moveCounts_memOk _ _ _ _ _).2 ht) _
  have h3'' : s3''.memOk := by
    unfold s3''
    split
    · exact h3'
    · exact (modCore_memOk _ _ _).2 h3'
  have h4 : s4.memOk := (acquire_memOk _ _).2 ((modCluster_memOk _ _ _).2 ((resend_memOk _ _ _ _).2 h3''))
  have h5 : s5.memOk := by
    refine memOk_iter h4 (fun b t ht => ?_) _
    split
    · exact (startBerth_memOk _ _ _ _ _).2 ht
    · exact ht
  exact (modCore_memOk _ _ _).2 h5
theorem memOk_clearValid {buf} : (clearValid buf s).memOk :=
  (fresh_memOk _).2 ((fresh_memOk _).2 (memOk_storeAt _ _ _ ((modCore_memOk _ _ _).2 hs)))
theorem memOk_bringBack {buf h} : (bringBack buf h s).memOk := by
  unfold bringBack
  extract_lets b w own s1 s2
  have h1 : s1.memOk := by
    refine memOk_iter hs (fun n t ht => ?_) _
    split
    · exact (modMyCore_memOk _ _).2 ht
    · exact ht
  have h2 : s2.memOk := (modMe_memOk _ _).2 h1
  exact memOk_clearValid ((moveCounts_memOk _ _ _ _ _).2 h2)
theorem memOk_restB {buf same} : (restB buf same s).memOk := by
  unfold restB
  split
  · exact memOk_bringBack hs
  · exact memOk_clearValid hs
theorem nextOk_execPrest {d a b} : NextOk (execPrest d a b s) := by
  refine (nextOk_finish hs).2 ?_
  rw [keeps_bind, keeps_checkPorts]
  intro _ _
  extract_lets parts c q l bb bad same
  split
  · trivial
  rw [keeps_bind]
  refine keeps_openBuf hs fun t buf ht => ?_
  dsimp -zeta only
  extract_lets valid accs t1 t2 word t3
  split
  · trivial
  split
  · trivial
  split
  · trivial
  have h1 : t1.memOk := by
    unfold t1
    split
    · exact memOk_restQ ht
    · exact ht
  have h2 : t2.memOk := by
    unfold t2
    split
    · exact (restL_memOk _ _ _).2 h1
    · exact h1
  have h3 : t3.memOk := by
    unfold t3
    split
    · exact memOk_restB h2
    · exact h2
  exact (done_memOk _ _ _).2 h3
end
end Sys2Proof.Machine
end

section
/-! PROOFS OF THE SCOPE. Errors, retirement and bring-up. -/
namespace Sys2Proof.Machine
open State
section
variable {s : State} (hs : s.memOk)
include hs

/-! ### Dumps, fatal errors and retirement (R338 to R351) -/

theorem memOk_dumpWords {off f} (n : Nat) : (dumpWords off f n s).memOk := memOk_iter hs (fun _ _ ht => memOk_llcPut ht) n
omit hs in
/-- Many runs of words of a dump. -/
theorem memOk_dumpRuns {s : State} (hs : s.memOk) {off : Nat → Nat} {f : Nat → Nat → Word} {k : Nat} (n : Nat) :
    (iter (fun i => dumpWords (off i) (f i) k) n s).memOk := memOk_iter hs (fun _ _ ht => memOk_dumpWords ht _) n
theorem memOk_writeDump {e} : (writeDump e s).memOk := by
  unfold writeDump
  extract_lets k seq head stack link s1 s2 s3 s4 s5 s6 s7 wake s8 s9
  have h1 : s1.memOk := memOk_dumpWords hs _
  have h2 : s2.memOk := memOk_dumpWords h1 _
  have h3 : s3.memOk := memOk_dumpRuns h2 _
  have h4 : s4.memOk := memOk_dumpRuns h3 _
  have h5 : s5.memOk := memOk_iter h4 (fun _ _ ht => memOk_dumpWords ht _) _
  have h6 : s6.memOk := memOk_dumpRuns h5 _
  have h7 : s7.memOk := by
    refine memOk_foldl h6 (fun t i ht => ?_) _
    split
    · exact memOk_dumpWords ht _
    · exact ht
  have h8 : s8.memOk := (memOk_mk s7).2 h7
  have h9 : s9.memOk := (later_memOk _ _ _).2 ((withLock_memOk _ _).2 h8)
  clear_value s9
  split
  · exact (memOk_mk _).2 ((withLock_memOk _ _).2 h9)
  · exact h9
theorem memOk_takeDump {e} : (takeDump e s).memOk := by
  unfold takeDump
  split
  · exact (withLock_memOk _ _).2 hs
  · exact memOk_writeDump hs
theorem nextOk_execDumpCopyDone : NextOk (execDumpCopyDone s) := by
  unfold execDumpCopyDone
  split
  · exact hs
  dsimp only
  split
  · simpa using hs
  · exact memOk_writeDump (by simpa using hs)
theorem memOk_abortLaunch {l} : (abortLaunch s l).memOk := by
  unfold abortLaunch
  extract_lets s1 s2 gone
  have h1 : s1.memOk := (cancelLaunch_memOk _ _).2 hs
  have h2 : s2.memOk := (memOk_mk s1).2 h1
  have hg {r b t} (ht : t.memOk) : (gone r b t).memOk := by
    unfold gone
    split
    · rw [removeBarge_memOk]
      split <;> simpa using ht
    · exact ht
  clear_value gone
  exact memOk_endLaunch (memOk_foldl h2 (fun _ _ ht => memOk_iter ht (fun _ _ hu => hg hu) _) _)
theorem memOk_fatalAt {un found} : (fatalAt s un found).memOk := by
  unfold fatalAt
  extract_lets e s1 s2 s3
  have h1 : s1.memOk := (logErr_memOk _ _).2 hs
  have h2 : s2.memOk := memOk_foldl h1 (fun _ _ ht => memOk_abortLaunch ht) _
  have h3 : s3.memOk := memOk_takeDump h2
  clear_value s3
  split
  · exact (withLock_memOk _ _).2 h3
  · exact h3
theorem memOk_fatal {un} : (fatal s un).memOk := memOk_fatalAt hs
theorem memOk_loseMem {counted : State → State} (hc : ∀ t, t.memOk → (counted t).memOk) {un pa} : (loseMem s counted un pa).memOk := by
  unfold loseMem
  split
  · exact memOk_fatalAt (hc _ hs)
  · exact (setPoison_memOk _ _ _).2 (hc _ ((logAt_memOk _ _ _).2 hs))
theorem nextOk_execEccUncorrectable {un} : NextOk (execEccUncorrectable un s) := by
  have hr {r lo} : (s.countField r lo).memOk := (countField_memOk _ _ _).2 hs
  cases un with
  | clm r off =>
    unfold execEccUncorrectable; dsimp only
    rw [nextOk_next]
    split
    · exact memOk_fatal hr
    · simpa using hs
  | mem pa => exact memOk_loseMem hs (fun _ ht => by simpa using ht)
  | hbm pa => exact memOk_loseMem hs (fun _ ht => by simpa using ht)
  | reg _ _ | state _ | rankEntry _ => exact memOk_fatal hr
  | mesh _ | stack _ | package => exact memOk_fatal hs
  | _ => simpa [execEccUncorrectable] using hs
theorem nextOk_execFlitCrcError {fl} : NextOk (execFlitCrcError fl s) := by
  unfold execFlitCrcError
  rw [nextOk_next]
  split
  · exact hs
  dsimp only
  split
  · simpa using hs
  split
  · exact hs
  split
  · exact hs
  · exact memOk_fatal ((memOk_mk s).2 hs)
theorem memOk_clearClm {r} : (clearClm s r).memOk := Memory.wf_filter _ _ _ hs
theorem memOk_emptyCluster {cl} : (emptyCluster s cl).memOk := by
  unfold emptyCluster
  extract_lets t
  have ht : t.memOk := memOk_foldl hs (fun _ _ hu => (setCore_memOk _ _ _).2 (memOk_clearClm hu)) _
  exact (setCluster_memOk _ _ _).2 (memOk_iter ht (fun _ _ hu => (clearBank_memOk _ _ _).2 hu) _)
theorem nextOk_execClusterRetire {cl} : NextOk (execClusterRetire cl s) := by
  unfold execClusterRetire
  split
  · exact hs
  extract_lets hard s0 t
  have h0 : s0.memOk := by
    unfold s0
    split
    · exact memOk_emptyCluster hs
    · exact hs
  have ht : t.memOk := memOk_foldl hs (fun _ _ hu => memOk_release _ hu) _
  clear_value s0 t
  split
  · exact (withLock_memOk _ _).2 h0
  split
  · exact (withLock_memOk _ _).2 h0
  split
  · exact (withLock_memOk _ _).2 ht
  · simpa using hs

/-! ### Bring-up and registers (R353 to R360) -/

omit hs in
theorem nextOk_execPowerOnReset {bt} : NextOk (execPowerOnReset bt s) := memOk_reset
theorem nextOk_execAttestReportDone : NextOk (execAttestReportDone s) := by
  unfold execAttestReportDone
  split
  · exact hs
  · exact (withLock_memOk _ _).2 (memOk_llcPut hs)
theorem nextOk_execThermalTrip {temp} : NextOk (execThermalTrip temp s) := by
  unfold execThermalTrip
  dsimp only
  rw [nextOk_next]
  split
  · simpa using hs
  · exact memOk_fatal (by simpa using hs)
theorem nextOk_execDebugHalt {r m} : NextOk (execDebugHalt r m s) := by simp [execDebugHalt, hs]
theorem nextOk_execDebugResume {r m} : NextOk (execDebugResume r m s) := by simp [execDebugResume, hs]
theorem memOk_writeDbgctl {r v} : (writeDbgctl s r v).memOk := by
  unfold writeDbgctl
  extract_lets t u
  have ht : t.memOk := (modCore_memOk _ _ _).2 hs
  have hu : u.memOk := nextOk_execDebugHalt ht
  exact nextOk_execDebugResume hu
theorem nextOk_execRegisterWrite {reg v} : NextOk (execRegisterWrite reg v s) := by
  unfold execRegisterWrite
  rw [nextOk_next]
  cases reg with
  | dbgctl r => dsimp only; split <;> simp [memOk_writeDbgctl, hs]
  | tlbinv => exact memOk_writeTlbinv hs
  | _ => simp [hs]
end
end Sys2Proof.Machine
end

section
/-! PROOFS OF THE SCOPE. Draws and sampling. -/
namespace Sys2Proof.Machine
open State

/-! ### Draws and sampling (R328 to R333) -/

/-- A read of the override table keeps the form of memory. -/
def TblKeeps {α : Type} (m : Tbl α) : Prop := ∀ t : State, t.memOk → Keeps (fun r => r.2.memOk) (m.run t)

section
variable {α β : Type}
theorem tblKeeps_pure (a : α) : TblKeeps (pure a : Tbl α) := fun _ h => h
theorem tblKeeps_bind {x : Tbl α} {f : α → Tbl β} (hx : TblKeeps x) (hf : ∀ a, TblKeeps (f a)) : TblKeeps (x >>= f) := by
  intro t ht
  rw [StateT.run_bind, keeps_bind]
  exact (hx t ht).imp fun r hr => hf _ _ hr
theorem tblKeeps_ite {c : Prop} [Decidable c] {x y : Tbl α} (hx : TblKeeps x) (hy : TblKeeps y) : TblKeeps (if c then x else y) := by
  split <;> assumption
end
theorem tblKeeps_byte {w va} : TblKeeps (tblByte w va) := by
  intro t ht
  have hx := memOk_xlate (clusterOf w.rank) w .read va ht
  unfold tblByte StateT.run
  dsimp only
  (repeat' split) <;> simp_all
theorem tblKeeps_read {w va} (n : Nat) : TblKeeps (tblRead w va n) := by
  induction n with
  | zero => exact tblKeeps_pure _
  | succ n ih => exact tblKeeps_bind ih fun _ => tblKeeps_bind tblKeeps_byte fun _ => tblKeeps_pure _
theorem tblKeeps_find {w base key} (f : Nat) {lo hi} : TblKeeps (tblFind w base key f lo hi) := by
  induction f generalizing lo hi with
  | zero => exact tblKeeps_pure _
  | succ f ih =>
    exact tblKeeps_ite (tblKeeps_pure _) (tblKeeps_bind (tblKeeps_read _) fun _ => tblKeeps_ite (tblKeeps_pure _) (tblKeeps_ite ih ih))
theorem tblKeeps_drawBlock {b w seed c0 c1 c2 c3} : TblKeeps (drawBlock b w seed c0 c1 c2 c3) := by
  unfold drawBlock
  split
  refine tblKeeps_ite (tblKeeps_pure _) (tblKeeps_bind (tblKeeps_read _) fun _ => tblKeeps_bind (tblKeeps_find _) fun o => ?_)
  cases o <;> exact tblKeeps_pure _

section
variable {s : State} (hs : s.memOk)
include hs
theorem keeps_rngBlock {a b} : Keeps (fun r => r.2.memOk) (rngBlock s a b) := tblKeeps_drawBlock s hs
theorem nextOk_execRng {d a b} : NextOk (execRng d a b s) := by
  refine (nextOk_finish hs).2 ?_
  rw [keeps_bind, keeps_checkPorts]
  intro _ _
  rw [keeps_bind]
  exact (keeps_rngBlock hs).imp fun r hr => (done_memOk _ _ _).2 hr
theorem nextOk_execRngu {d a b} : NextOk (execRngu d a b s) := by
  refine (nextOk_finish hs).2 ?_
  rw [keeps_bind, keeps_checkIns]
  intro _ _
  rw [keeps_bind]
  exact (keeps_rngBlock hs).imp fun r hr => (done_memOk _ _ _).2 hr
theorem nextOk_execSmpMrg {d a b} : NextOk (execSmpMrg d a b s) := by
  unfold execSmpMrg
  dsimp only
  split
  · exact nextOk_putX ((fresh_memOk _).2 hs)
  · exact nextOk_putX hs
theorem keeps_readParams {va off} (n : Nat) : Keeps (fun r => r.1.memOk) (readParams s va off n) := by
  induction n with
  | zero => exact hs
  | succ n ih =>
    unfold readParams
    rw [keeps_bind]
    refine ih.imp fun r hr => ?_
    rw [keeps_bind]
    exact keeps_settle hr fun _ h => h
theorem keeps_readMask {va} : Keeps (fun r => r.1.memOk) (readMask s va) := by
  unfold readMask
  extract_lets w got
  have hg {v p} : Keeps (fun r => r.1.memOk) (got v p) := by
    unfold got
    (repeat' split) <;> simp [hs]
  clear_value got
  rw [keeps_bind, keeps_decodeAddr]
  intro t _
  cases t with
  | global => trivial
  | basin bank off =>
    rw [keeps_bind]
    exact keeps_basinLoad hs fun _ _ => hg
  | clm r off =>
    dsimp only
    split
    · trivial
    · rw [keeps_bind, keeps_atHome]
      exact fun _ _ => hg
theorem keeps_smpScan {p va off} (n : Nat) : Keeps (fun r => r.st.memOk) (smpScan p va off s n) := by
  induction n with
  | zero => exact hs
  | succ n ih =>
    unfold smpScan
    rw [keeps_bind]
    refine ih.imp fun a ha => ?_
    extract_lets l id join
    have hj (r : State × Option Nat) (hr : r.1.memOk) : Keeps (fun r : SmpAcc => r.st.memOk) (join r) := by
      unfold join
      dsimp -zeta only
      extract_lets skip x
      clear_value skip
      split
      · exact hr
      split
      · split
        · trivial
        · rw [keeps_ok]
          dsimp only
          split <;> simpa using hr
      split
      · exact hr
      split
      · exact hr
      rw [keeps_bind]
      exact (tblKeeps_drawBlock _ hr).imp fun _ h => h
    split
    · rw [keeps_bind]
      exact (keeps_readMask ha).imp hj
    · exact hj (a.st, a.word) ha
theorem nextOk_execSmpLoc {d a b} : NextOk (execSmpLoc d a b s) := by
  refine (nextOk_finish hs).2 ?_
  rw [keeps_bind, keeps_checkPorts]
  intro _ _
  rw [keeps_bind, keeps_ownClm]
  intro _ _
  rw [keeps_bind]
  refine (keeps_readParams hs 4).imp fun r hr => ?_
  dsimp only
  split
  · simp
  rw [keeps_bind, keeps_ownClm]
  intro _ _
  rw [keeps_bind]
  exact (keeps_smpScan hr _).imp fun _ h => (done_memOk _ _ _).2 h
theorem nextOk_execSmpTopk {d a b} : NextOk (execSmpTopk d a b s) := by
  refine (nextOk_finish hs).2 ?_
  rw [keeps_bind, keeps_checkIns]
  intro _ _
  rw [keeps_bind, keeps_ownClm]
  intro _ _
  rw [keeps_bind]
  refine (keeps_readParams hs 4).imp fun r hr => ?_
  dsimp only
  split
  · simp
  rw [keeps_bind, keeps_ownClm]
  intro _ _
  rw [keeps_bind, keeps_ownClm]
  intro _ _
  split
  · trivial
  rw [keeps_bind]
  exact (keeps_smpScan hr _).imp fun _ h => (done_memOk _ _ _).2 (memOk_iter h (fun _ _ ht => memOk_storeClm _ _ _ _ ht) _)
end
end Sys2Proof.Machine
end

section
/-! PROOFS OF THE SCOPE. The remaining instructions and events. -/
namespace Sys2Proof.Machine
open State
section
variable {s : State} (hs : s.memOk)
include hs

/-! ### Channels, probes and barriers (R206 to R216) -/

theorem nextOk_execChbind {l f a p} : NextOk (execChbind l f a p s) := by
  unfold execChbind
  dsimp only
  (repeat' split) <;> simp [nextOk_finish hs, hs]
theorem nextOk_execChfree {a} : NextOk (execChfree a s) := by
  simp [execChfree, nextOk_finish hs, hs]
theorem nextOk_execChstat {d a} : NextOk (execChstat d a s) := by
  simp [execChstat, nextOk_finish hs, hs]
theorem nextOk_execChannelEntryArrival {r b port fr fb fp lid v} : NextOk (execChannelEntryArrival r b port fr fb fp lid v s) := by
  simp [execChannelEntryArrival, hs]
theorem nextOk_execChannelFreedNotice {r b port fr fb fp} : NextOk (execChannelFreedNotice r b port fr fb fp s) := by
  simp [execChannelFreedNotice, hs]
theorem nextOk_execDeadlockProbeSend {r b} : NextOk (execDeadlockProbeSend r b s) := by
  unfold execDeadlockProbeSend
  (repeat' split) <;> simp [hs]
theorem nextOk_execCbar {im} : NextOk (execCbar im s) := by
  simp [execCbar, nextOk_finish hs, keeps_releasing hs]
theorem nextOk_execBarrierArrival {cl id r b} : NextOk (execBarrierArrival cl id r b s) := by
  simp [execBarrierArrival, hs]
theorem nextOk_execBarrierTimeout {cl id} : NextOk (execBarrierTimeout cl id s) := by
  simp [execBarrierTimeout, hs]

/-! ### The operand latch, the ring and the matrix unit (R130 to R141) -/

theorem nextOk_execLatchFillDone {r h} : NextOk (execLatchFillDone r h s) := by
  unfold execLatchFillDone
  split <;> simp [hs]
theorem nextOk_execRingSend {r} : NextOk (execRingSend r s) := by
  unfold execRingSend
  (repeat' split) <;> simp [hs]
theorem nextOk_execRingTransferDone {r} : NextOk (execRingTransferDone r s) := by
  unfold execRingTransferDone
  split <;> simp [hs]
theorem nextOk_execBrotTimeout {r} : NextOk (execBrotTimeout r s) := by
  unfold execBrotTimeout
  dsimp only
  (repeat' split) <;> simp [hs]
theorem nextOk_execMmaStep {r} : NextOk (execMmaStep r s) := by
  unfold execMmaStep
  (repeat' split) <;> simp [hs]

/-! ### Mooring, docking and steals (R147 to R170) -/

theorem nextOk_execMoor : NextOk (execMoor s) := by
  simp [execMoor, hs]
theorem nextOk_execUnmoor : NextOk (execUnmoor s) := by
  simp [execUnmoor, nextOk_finish hs, hs]
theorem nextOk_execPlace {d a b} : NextOk (execPlace d a b s) := by
  simp [execPlace, nextOk_finish hs, hs]
theorem nextOk_execRankof {d a p} : NextOk (execRankof d a p s) := nextOk_putX hs
theorem nextOk_execDocking {r} : NextOk (execDocking r s) := by
  unfold execDocking
  (repeat' split) <;> simp [hs]
theorem nextOk_execStealRequest {r} : NextOk (execStealRequest r s) := by
  simp [execStealRequest, hs]

/-! ### Port words (R228) -/

theorem nextOk_execPortp {d a} : NextOk (execPortp d a s) := by
  simp [execPortp, nextOk_finish hs, hs]
theorem nextOk_execPorta {d a k} : NextOk (execPorta d a k s) := by
  simp [execPorta, nextOk_finish hs, hs]
theorem nextOk_execPortn {d a b} : NextOk (execPortn d a b s) := by
  simp [execPortn, nextOk_finish hs, hs]

/-! ### Control registers, traps and interrupts (R284 to R300) -/

theorem nextOk_csrOp {fn3 d a c writes} : NextOk (csrOp s fn3 d a c writes) := by
  simp [csrOp, nextOk_finish hs, hs]
theorem nextOk_execTimecmpWrite {r v} : NextOk (execTimecmpWrite r v s) := by
  simp [execTimecmpWrite, hs]
theorem nextOk_execCorecfgWrite {r v} : NextOk (execCorecfgWrite r v s) := by
  simp [execCorecfgWrite, hs]
theorem nextOk_execBascfgWrite {r v} : NextOk (execBascfgWrite r v s) := by
  simp [execBascfgWrite, hs]
theorem nextOk_execHqctlWrite {r v} : NextOk (execHqctlWrite r v s) := memOk_writeByte _ _ hs
theorem nextOk_execBasinSwitchDone {cl bank} : NextOk (execBasinSwitchDone cl bank s) := by
  unfold execBasinSwitchDone
  dsimp only
  (repeat' split) <;> simp [hs]
theorem nextOk_execDtabSortDone {r t} : NextOk (execDtabSortDone r t s) := by
  simp [execDtabSortDone, hs]
theorem nextOk_execEcall : NextOk (execEcall s) := by
  simp [execEcall, nextOk_finish hs]
theorem nextOk_execEbreak : NextOk (execEbreak s) := by
  simp [execEbreak, nextOk_finish hs, hs]
theorem nextOk_execIsync : NextOk (execIsync s) := by
  simp [execIsync, hs]
theorem nextOk_execWfi : NextOk (execWfi s) := by
  simp [execWfi, nextOk_finish hs, hs]
theorem nextOk_execBudgetExpiry {r b} : NextOk (execBudgetExpiry r b s) := by
  simp [execBudgetExpiry, hs]
theorem nextOk_execTimerExpiry {r} : NextOk (execTimerExpiry r s) := by
  simp [execTimerExpiry, hs]
theorem nextOk_execInterruptEntry {r b} : NextOk (execInterruptEntry r b s) := by
  unfold execInterruptEntry
  dsimp only
  (repeat' split) <;> simp [hs]
theorem nextOk_execIllegalInstruction {w} : NextOk (execIllegalInstruction w s) := by
  simp [execIllegalInstruction, nextOk_finish hs]
theorem nextOk_execFetchFault {va} : NextOk (execFetchFault va s) := by
  simp [execFetchFault, nextOk_finish hs, hs]
theorem nextOk_execRegisterFileDrowse {r b} : NextOk (execRegisterFileDrowse r b s) := by
  simp [execRegisterFileDrowse, hs]
theorem nextOk_execBerthHalted {r b} : NextOk (execBerthHalted r b s) := by
  simp [execBerthHalted, hs]
theorem nextOk_execDebugDataWrite {r v} : NextOk (execDebugDataWrite r v s) := by
  unfold execDebugDataWrite
  extract_lets sel b n s0 t
  have ht : t.memOk := (debugWake_memOk _ _).2 hs
  clear_value t
  split
  · exact hs
  · rw [nextOk_next]
    (repeat' split) <;> simp only [modBerth_memOk, csrPut_memOk, ht]

/-! ### The lockhouse's registers (R259 to R283) -/

theorem nextOk_execTlbinvAsid {asid} : NextOk (execTlbinvAsid asid s) := by
  simp [execTlbinvAsid, memOk_writeTlbinv, hs]
theorem nextOk_execTlbinvRange {asid va len} : NextOk (execTlbinvRange asid va len s) := by
  simp [execTlbinvRange, memOk_writeTlbinv, hs]
theorem nextOk_execTlbinvAll : NextOk (execTlbinvAll s) := by
  simp [execTlbinvAll, memOk_writeTlbinv, hs]
theorem nextOk_execShootdownDone : NextOk (execShootdownDone s) := by
  simp [execShootdownDone, hs]
theorem nextOk_execJqtailWrite {v} : NextOk (execJqtailWrite v s) := by
  simp [execJqtailWrite, hs]
theorem nextOk_execJqcancel {v} : NextOk (execJqcancel v s) := by
  simp [execJqcancel, hs]
theorem nextOk_execLcancel {a} : NextOk (execLcancel a s) := by
  simp [execLcancel, nextOk_finish hs, hs]
theorem nextOk_execCtxWrite {n v} : NextOk (execCtxWrite n v s) := by
  simp [execCtxWrite, hs]
theorem nextOk_execHostBar2Read {off n} : NextOk (execHostBar2Read off n s) := by
  simp [execHostBar2Read, hs]
theorem nextOk_execHeldMessageRelease {r} : NextOk (execHeldMessageRelease r s) := by
  simp [execHeldMessageRelease, hs]
theorem nextOk_execPreemptRequest {r} : NextOk (execPreemptRequest r s) := by
  simp [execPreemptRequest, hs]
theorem nextOk_execRestoreStart {r buf} : NextOk (execRestoreStart r buf s) := by
  unfold execRestoreStart
  dsimp only
  (repeat' split) <;> simp [hs]

/-! ### Errors, telemetry and the board (R302 to R360) -/

theorem nextOk_execFatalError {un} : NextOk (execFatalError un s) := memOk_fatal hs
theorem nextOk_execEccCorrected {un} : NextOk (execEccCorrected un s) := by
  unfold execEccCorrected
  split <;> simp [hs]
theorem nextOk_execLinkFlitError {link} : NextOk (execLinkFlitError link s) := by
  simp [execLinkFlitError, hs]
theorem nextOk_execScrub {stack line} : NextOk (execScrub stack line s) := by
  simp [execScrub, hs]
theorem nextOk_execTelemetryPoll : NextOk (execTelemetryPoll s) := by
  simp [execTelemetryPoll, hs]
theorem nextOk_execPcieConfigurationRequest {rq} : NextOk (execPcieConfigurationRequest rq s) := by
  simp [execPcieConfigurationRequest, hs]
theorem nextOk_execAtgoWrite {v} : NextOk (execAtgoWrite v s) := by
  simp [execAtgoWrite, hs]
theorem nextOk_execPowerMeasurement {watts} : NextOk (execPowerMeasurement watts s) := by
  simp [execPowerMeasurement, hs]
theorem nextOk_execSmbusReadPower : NextOk (execSmbusReadPower s) := by
  simp [execSmbusReadPower, hs]
theorem nextOk_execSmbusReadTemperature : NextOk (execSmbusReadTemperature s) := by
  simp [execSmbusReadTemperature, hs]
theorem nextOk_execSmbusReadReady : NextOk (execSmbusReadReady s) := by
  simp [execSmbusReadReady, hs]
theorem nextOk_execSmbusWritePlim {w} : NextOk (execSmbusWritePlim w s) := by
  simp [execSmbusWritePlim, hs]
theorem nextOk_execSmbusReadBoot : NextOk (execSmbusReadBoot s) := by
  simp [execSmbusReadBoot, hs]

/-! ### Conversions from and to integers (R91) -/

theorem nextOk_execFcvtI32F {d a} : NextOk (execFcvtI32F d a s) := nextOk_putX hs
theorem nextOk_execFcvtI64F {d a} : NextOk (execFcvtI64F d a s) := nextOk_putX hs
theorem nextOk_execFcvtFI32 {d a} : NextOk (execFcvtFI32 d a s) := by
  unfold execFcvtFI32
  exact nextOk_putS hs fun t ht => by simpa using ht
theorem nextOk_execFcvtFI64 {d a} : NextOk (execFcvtFI64 d a s) := by
  unfold execFcvtFI64
  exact nextOk_putS hs fun t ht => by simpa using ht
end
end Sys2Proof.Machine
end

section
/-! PROOFS OF THE SCOPE. Every instruction and event. -/
namespace Sys2Proof.Machine
open State
section
variable {s : State} (hs : s.memOk)
include hs
/-- Whatever an instruction or an autonomous step means, it keeps memory in its canonical form. -/
theorem nextOk_exec (i : Instr) : NextOk (exec i s) := by
  have hb := nextOk_execBlockWord hs i
  cases i with
  | add | sub | and | or | xor | andn | orn | sll | srl | sra | ror | addw | subw | mul | mulh | mulhu | mulhsu | div | divu | rem |
    remu | min | max | minu | maxu | clz | ctz | popc | sextb | sexth | sextw | zextw | addi | andi | ori | xori | slli | srli | srai
    | rori | addiw | lui | auipc | sel | selP | fclass | fmvx | frame =>
    unfold exec
    exact nextOk_putX hs
  | cmpEq | cmpNe | cmpLt | cmpLtu | cmpGe | cmpGeu | cmpiEq | cmpiNe | cmpiLt | cmpiLtu | cmpiGe | cmpiGeu | pand | por | pxor |
    pandn | pmov | pset | psetP | fmvf =>
    unfold exec
    exact nextOk_putS hs fun t ht => by simpa using ht
  | bpT => exact nextOk_execBpT hs
  | bpF => exact nextOk_execBpF hs
  | j => exact nextOk_execJ hs
  | jal => exact nextOk_execJal hs
  | jalr => exact nextOk_execJalr hs
  | ldb | ldbu | ldh | ldhu | ldw | ldwu | ldd =>
    unfold exec
    exact nextOk_loadI hs
  | stb | sth | stw | std =>
    unfold exec
    exact nextOk_storeS hs
  | ldf =>
    unfold exec
    exact nextOk_loadAs hs
  | stf | rst =>
    unfold exec
    exact nextOk_storeX hs
  | ldsync => exact nextOk_execLdsync hs
  | stfull => exact nextOk_execStfull hs
  | feclr => exact nextOk_execFeclr hs
  | ferd => exact nextOk_execFerd hs
  | rld =>
    unfold exec
    exact nextOk_loadX hs
  | pfd => exact nextOk_execPfd hs
  | icpf => exact nextOk_execIcpf hs
  | amoAdd | amoAnd | amoOr | amoXor | amoMin | amoMax | amoMinu | amoMaxu | amoSwap | amoCas | amoFadd =>
    unfold exec
    exact nextOk_amo hs
  | cmoClean | cmoInv | cmoClinv =>
    unfold exec
    exact nextOk_cmo hs
  | fadd | fsub | fmul | fdiv | fsqrt | fmin | fmax | fsgnj | fsgnjn | fsgnjx | fma | fms | fnma | fcvtBfF | fcvtFBf | fcvtHfF |
    fcvtFHf =>
    unfold exec
    exact nextOk_putF hs
  | fcmpEq | fcmpLt | fcmpLe | fcmpUn =>
    unfold exec
    exact nextOk_putP hs
  | fcvtI32F => exact nextOk_execFcvtI32F hs
  | fcvtI64F => exact nextOk_execFcvtI64F hs
  | fcvtFI32 => exact nextOk_execFcvtFI32 hs
  | fcvtFI64 => exact nextOk_execFcvtFI64 hs
  | vld | vst | vlds | vsts | vbcast | vextr | vadd | vsub | vmul | vfma | vfms | vmin | vmax | vabs | vrcp | vrsq | vexp2 | vlog2 |
    viadd | visub | vimul | vand | vor | vxor | vsll | vsrl | vsra | vcmpEq | vcmpNe | vcmpLt | vcmpLtu | vcmpGe | vcmpGeu | vcmpFeq |
    vcmpFlt | vcmpFle | vcmpFun | vsel | vshuf | vslideUp | vslideDn | vcvtI32F | vcvtFI32 | vcvtBfF | vcvtFBf | vcvtHfF | vcvtFHf |
    vencT0 | vencT1 | vencE2 | vdecT0 | vdecT1 | vdecE2 | vred | vscan | vscanl | vdotbX8 | vdotbX4 | mmaBf | mmaHf | mmaE4 | mmaE45 |
    mmaE5 | mmaX8 | mmaX84 | mmaX4 | mmaI8 | acq | rel | azero | apois | ald | ast | arow | awr | bld | brot | bstat | tldt =>
    unfold exec
    exact hb
  | vldx =>
    unfold exec
    exact nextOk_gather hs
  | vstx =>
    unfold exec
    exact nextOk_scatter hs
  | dtabLd => exact nextOk_execDtabLd hs
  | spawn => exact nextOk_execSpawn hs
  | spawnc => exact nextOk_execSpawnc hs
  | spawnr =>
    unfold exec
    exact nextOk_execSpawnr hs
  | nextch => exact nextOk_execNextch hs
  | await => exact nextOk_execAwait hs
  | exit => exact nextOk_execExit hs
  | yield => exact nextOk_execYield hs
  | moor => exact nextOk_execMoor hs
  | unmoor => exact nextOk_execUnmoor hs
  | cancel => exact nextOk_execCancel hs
  | place => exact nextOk_execPlace hs
  | rankof => exact nextOk_execRankof hs
  | alloc => exact nextOk_execAlloc hs
  | free => exact nextOk_execFree hs
  | ruleend => exact nextOk_execRuleend hs
  | netaud => exact nextOk_execNetaud hs
  | nstat => exact nextOk_execNstat hs
  | portp => exact nextOk_execPortp hs
  | porta => exact nextOk_execPorta hs
  | portn => exact nextOk_execPortn hs
  | link => exact nextOk_execLink hs
  | join => exact nextOk_execJoin hs
  | linkn => exact nextOk_execLinkn hs
  | paydup => exact nextOk_execPaydup hs
  | paydrop => exact nextOk_execPaydrop hs
  | payown => exact nextOk_execPayown hs
  | chbind => exact nextOk_execChbind hs
  | chfree => exact nextOk_execChfree hs
  | chstat => exact nextOk_execChstat hs
  | cbar => exact nextOk_execCbar hs
  | cbarcfg => exact nextOk_execCbarcfg hs
  | sluCopy | sluFill =>
    unfold exec
    exact nextOk_sluIssue hs
  | sluStat => exact nextOk_execSluStat hs
  | sluCan => exact nextOk_execSluCan hs
  | scOpen | scStep | scFork | scRoll | scSave | scLoad | scClose =>
    unfold exec
    exact nextOk_scIssue hs (by simp)
  | scMask => exact nextOk_execScMask hs
  | scStat =>
    unfold exec
    exact nextOk_scIssue hs (by split <;> simp)
  | rng => exact nextOk_execRng hs
  | rngu => exact nextOk_execRngu hs
  | smpLoc => exact nextOk_execSmpLoc hs
  | smpMrg => exact nextOk_execSmpMrg hs
  | smpTopk => exact nextOk_execSmpTopk hs
  | rpt => exact nextOk_execRpt hs
  | rptD => exact nextOk_execRptD hs
  | borrow => exact nextOk_execBorrow hs
  | giveb => exact nextOk_execGiveb hs
  | xmovt | xmovf =>
    unfold exec
    exact nextOk_xmov hs
  | csrr | csrw | csrs | csrc =>
    unfold exec
    exact nextOk_csrOp hs
  | ecall => exact nextOk_execEcall hs
  | ebreak => exact nextOk_execEbreak hs
  | tret => exact nextOk_execTret hs
  | wfi => exact nextOk_execWfi hs
  | isync => exact nextOk_execIsync hs
  | lnch => exact nextOk_execLnch hs
  | lcancel => exact nextOk_execLcancel hs
  | pspill => exact nextOk_execPspill hs
  | prest => exact nextOk_execPrest hs
  | repeatBufferWord => exact nextOk_execRepeatBufferWord hs
  | interruptEntry => exact nextOk_execInterruptEntry hs
  | replyArrival => exact nextOk_execReplyArrival hs
  | registerFileDrowse => exact nextOk_execRegisterFileDrowse hs
  | docking => exact nextOk_execDocking hs
  | bargeArrival => exact nextOk_execBargeArrival hs
  | spillReturn => exact nextOk_execSpillReturn hs
  | frameIncrement => exact nextOk_execFrameIncrement hs
  | frameDecrement => exact nextOk_execFrameDecrement hs
  | resumeMessage => exact nextOk_execResumeMessage hs
  | chunkClaim => exact nextOk_execChunkClaim hs
  | stealRequest => exact nextOk_execStealRequest hs
  | stealServe => exact nextOk_execStealServe hs
  | detectionPass => exact nextOk_execDetectionPass hs
  | pairMessage => exact nextOk_execPairMessage hs
  | freeSlotReturn => exact nextOk_execFreeSlotReturn hs
  | poolAudit => exact nextOk_execPoolAudit hs
  | channelEntryArrival => exact nextOk_execChannelEntryArrival hs
  | channelFreedNotice => exact nextOk_execChannelFreedNotice hs
  | deadlockProbeSend => exact nextOk_execDeadlockProbeSend hs
  | deadlockProbeReceive => exact nextOk_execDeadlockProbeReceive hs
  | barrierArrival => exact nextOk_execBarrierArrival hs
  | barrierTimeout => exact nextOk_execBarrierTimeout hs
  | brotTimeout => exact nextOk_execBrotTimeout hs
  | mmaStep => exact nextOk_execMmaStep hs
  | latchFillDone => exact nextOk_execLatchFillDone hs
  | ringSend => exact nextOk_execRingSend hs
  | ringTransferDone => exact nextOk_execRingTransferDone hs
  | dtabSortDone => exact nextOk_execDtabSortDone hs
  | basinSwitchDone => exact nextOk_execBasinSwitchDone hs
  | sluiceBurst => exact nextOk_execSluiceBurst hs
  | scRequestService => exact nextOk_execScRequestService hs
  | walkDone => exact nextOk_execWalkDone hs
  | timerExpiry => exact nextOk_execTimerExpiry hs
  | budgetExpiry => exact nextOk_execBudgetExpiry hs
  | preemptRequest => exact nextOk_execPreemptRequest hs
  | restoreStart => exact nextOk_execRestoreStart hs
  | heldMessageRelease => exact nextOk_execHeldMessageRelease hs
  | jobTake => exact nextOk_execJobTake hs
  | launchAdmission => exact nextOk_execLaunchAdmission hs
  | jqtailWrite => exact nextOk_execJqtailWrite hs
  | jqcancel => exact nextOk_execJqcancel hs
  | ctxWrite => exact nextOk_execCtxWrite hs
  | tlbinvAsid => exact nextOk_execTlbinvAsid hs
  | tlbinvRange => exact nextOk_execTlbinvRange hs
  | tlbinvAll => exact nextOk_execTlbinvAll hs
  | shootdownDone => exact nextOk_execShootdownDone hs
  | hostBar2Read => exact nextOk_execHostBar2Read hs
  | hostBar2Write => exact nextOk_execHostBar2Write hs
  | debugHalt => exact nextOk_execDebugHalt hs
  | berthHalted => exact nextOk_execBerthHalted hs
  | debugResume => exact nextOk_execDebugResume hs
  | debugDataWrite => exact nextOk_execDebugDataWrite hs
  | corecfgWrite => exact nextOk_execCorecfgWrite hs
  | hqctlWrite => exact nextOk_execHqctlWrite hs
  | bascfgWrite => exact nextOk_execBascfgWrite hs
  | timecmpWrite => exact nextOk_execTimecmpWrite hs
  | registerWrite => exact nextOk_execRegisterWrite hs
  | atgoWrite => exact nextOk_execAtgoWrite hs
  | attestReportDone => exact nextOk_execAttestReportDone hs
  | eccCorrected => exact nextOk_execEccCorrected hs
  | eccUncorrectable => exact nextOk_execEccUncorrectable hs
  | flitCrcError => exact nextOk_execFlitCrcError hs
  | linkFlitError => exact nextOk_execLinkFlitError hs
  | fatalError => exact nextOk_execFatalError hs
  | scrub => exact nextOk_execScrub hs
  | telemetryPoll => exact nextOk_execTelemetryPoll hs
  | clusterRetire => exact nextOk_execClusterRetire hs
  | powerMeasurement => exact nextOk_execPowerMeasurement hs
  | thermalTrip => exact nextOk_execThermalTrip hs
  | powerOnReset => exact nextOk_execPowerOnReset
  | smbusReadPower => exact nextOk_execSmbusReadPower hs
  | smbusReadTemperature => exact nextOk_execSmbusReadTemperature hs
  | smbusReadReady => exact nextOk_execSmbusReadReady hs
  | smbusWritePlim => exact nextOk_execSmbusWritePlim hs
  | smbusReadBoot => exact nextOk_execSmbusReadBoot hs
  | illegalInstruction => exact nextOk_execIllegalInstruction hs
  | fetchFault => exact nextOk_execFetchFault hs
  | dumpCopyDone => exact nextOk_execDumpCopyDone hs
  | pcieConfigurationRequest => exact nextOk_execPcieConfigurationRequest hs
end
end Sys2Proof.Machine
end

section
/-! PROOFS OF THE SCOPE. One step. -/
namespace Sys2Proof.Machine
open State

/-! ### One step keeps memory in canonical form (log 1) -/

section
variable {s : State} (hs : s.memOk)
include hs
/-- A word that runs, legal or not. -/
theorem nextOk_runWord {w} : NextOk (runWord w s) := by
  unfold runWord
  split
  · exact nextOk_exec hs _
  · split
    · simpa using hs
    · exact nextOk_exec ((noteVector_memOk _ _).2 hs) _
/-- A berth that fetches and runs, waits for its line, or traps at its fetch. -/
theorem nextOk_runBerth : NextOk (runBerth s) := by
  have hm {f} : (s.modMe f).memOk := (modMe_memOk _ _).2 hs
  unfold runBerth
  split
  case h_1 => exact nextOk_runWord hs
  case h_2 =>
    split
    case h_1 => exact nextOk_runWord hm
    case h_2 u lat hf => exact (fetchWait_memOk _ _).2 (memOk_of_fetchAs hs hf)
    case h_3 => simpa using hs
    case h_4 => exact nextOk_exec hs _
    case h_5 =>
      split
      · simpa using hs
      · exact (nextOk_finish hs).2 (keeps_stop _ _)
theorem nextOk_issue {r b} : NextOk (issue s r b) := by
  unfold issue
  split
  · simpa using hs
  · exact nextOk_runBerth ((takeSlot_memOk _ _ _).2 hs)
/-- Whatever happens next, it keeps memory in its canonical form. -/
theorem nextOk_perform (a : Act) : NextOk (perform s a) := by
  cases a with
  | lost | drop | hold | join => exact hs
  | boot => exact (withLock_memOk _ _).2 hs
  | input i | due i => exact nextOk_exec ((memOk_mk s).2 hs) i
  | auto i => exact nextOk_exec hs i
  | clean => exact memOk_startRelease _ hs
  | remove => exact (removeBarge_memOk _ _ _).2 hs
  | poll => exact nextOk_runBerth ((as_memOk _ _ _).2 hs)
  | issue => exact nextOk_issue hs
  | tick => exact (tick_memOk _).2 hs
end

/-- Settles O55: `perform` keeps memory in canonical form for every act, so a step does for the one that comes next. -/
theorem stepKeepsMemory : Obligations.StepKeepsMemory := by
  intro s t hs ht
  have h : NextOk (step s) := nextOk_perform hs (nextAct s)
  rwa [ht] at h
end Sys2Proof.Machine
end

section
/-! PROOFS OF THE SCOPE. The device at reset. -/
namespace Sys2Proof.Machine
open State

/-! ### The device at reset (R7) -/

/-- A register file filled with the value that also stands for an index outside it reads as that value everywhere. -/
theorem vget_replicate {α : Type} (n i : Nat) (a : α) : vget (Vector.replicate n a) i a = a := by
  unfold vget
  split
  · exact Vector.getElem_replicate _
  · rfl
namespace State
@[simp] theorem core_reset (r : Nat) : reset.core r = Core.reset := rfl
@[simp] theorem cluster_reset (cl : Nat) : reset.cluster cl = Cluster.reset := rfl
@[simp] theorem berthAt_reset (r b : Nat) : reset.berthAt r b = Berth.reset := vget_replicate 16 (b % 16) Berth.reset
@[simp] theorem bankOf_reset (cl n : Nat) : reset.bankOf cl n = ⟨0, none, none, [], 0⟩ := vget_replicate 16 n _
end State
@[simp] theorem barrier_reset (id : Nat) : barrier Cluster.reset id = ⟨16, none, 0, false, 0, [], false⟩ := vget_replicate 16 id _

/-- Settles O56: a core, a berth, a bank, a barrier and a cluster that the reset state does not list hold their reset values,
which are the values of R7's tables. -/
theorem resetValues : Obligations.ResetValues := by
  refine ⟨memOk_reset, rfl, rfl, rfl, fun r b cl => ?_⟩
  refine ⟨rfl, rfl, rfl, rfl, rfl, rfl, rfl, rfl, rfl, by rw [berthAt_reset]; rfl, by rw [berthAt_reset]; rfl,
    fun n _ => ?_, rfl, rfl, rfl, rfl, rfl⟩
  rw [bankOf_reset, cluster_reset, barrier_reset]
  exact ⟨rfl, rfl, rfl⟩
end Sys2Proof.Machine
end

section
/-! PROOFS OF THE SCOPE. Register and predicate writes. -/
namespace Sys2Proof.Machine
open State Sys2Proof.Spec

/-! ### What a change of the executing berth leaves alone -/

namespace State
theorem berthAt_modMe_of_ne (s : State) (f : Berth → Berth) {q b : Nat} (h : q ≠ s.rank ∨ b % 16 ≠ s.berth % 16) :
    (s.modMe f).berthAt q b = s.berthAt q b := berthAt_setBerth_of_ne _ _ _ _ _ _ h
theorem core_modMe_of_ne (s : State) (f : Berth → Berth) {q : Nat} (h : q ≠ s.rank) : (s.modMe f).core q = s.core q :=
  core_modCore_of_ne _ _ _ _ h
end State

/-! ### x registers and predicate bits (R23, R24, R26) -/

theorem bitVec5_toNat_ne {a b : BitVec 5} (h : a ≠ b) : a.toNat ≠ b.toNat := fun e => h (BitVec.eq_of_toNat_eq e)
/-- An x register other than x0 as a source. -/
theorem rx_reg (s : State) {r : BitVec 5} (h0 : r ≠ 0) (h : r.toNat < 24) : s.rx r = vget s.me.x r.toNat 0 := by
  have : r.toNat ≠ 0 := bitVec5_toNat_ne h0
  simp [rx, this, h]
/-- What a write of an x register does to the state: x0 nothing, any other one its own place in the file. -/
theorem wx_reg_cases (s : State) (d : BitVec 5) (v : Word) (h : d.toNat < 24) :
    (d = 0 ∧ s.wx d v = s) ∨ (d ≠ 0 ∧ s.wx d v = s.modMe fun b => { b with x := vset b.x d.toNat v }) := by
  by_cases h0 : d = 0
  · subst h0; exact .inl ⟨rfl, wx_zero s v⟩
  · exact .inr ⟨h0, wx_reg s d v h0 h⟩
theorem rx_wx_self (s : State) {d : BitVec 5} (v : Word) (h0 : d ≠ 0) (h : d.toNat < 24) : (s.wx d v).rx d = v := by
  rw [wx_reg s d v h0 h, rx_reg _ h0 h, me_modMe, vget_vset_self _ _ _ _ h]
theorem rx_wx_of_ne (s : State) {d r : BitVec 5} (v : Word) (h : d.toNat < 24) (hr : r.toNat < 24) (hne : r ≠ d) :
    (s.wx d v).rx r = s.rx r := by
  obtain ⟨-, e⟩ | ⟨-, e⟩ := wx_reg_cases s d v h
  · rw [e]
  · by_cases r0 : r = 0
    · subst r0; exact (rx_zero _).trans (rx_zero s).symm
    · rw [e, rx_reg _ r0 hr, rx_reg _ r0 hr, me_modMe, vget_vset_of_ne _ _ _ _ _ (bitVec5_toNat_ne hne)]

theorem rp_of_ne_zero (s : State) {i : BitVec 5} (h : i ≠ 0) : s.rp i = s.me.p.getLsbD i.toNat := by
  have : i.toNat ≠ 0 := bitVec5_toNat_ne h
  simp [rp, this]
@[simp] theorem wp_zero (s : State) (v : Bool) : s.wp 0 v = s := rfl
theorem wp_of_ne_zero (s : State) {i : BitVec 5} (v : Bool) (h : i ≠ 0) :
    s.wp i v = s.modMe fun b => { b with p := setBit b.p i.toNat v } := by
  have : i.toNat ≠ 0 := bitVec5_toNat_ne h
  simp [wp, this]
theorem rp_wp_self (s : State) {i : BitVec 5} (v : Bool) (h : i ≠ 0) : (s.wp i v).rp i = v := by
  rw [wp_of_ne_zero s v h, rp_of_ne_zero _ h, me_modMe, setBit_getLsbD, if_pos ⟨rfl, i.isLt⟩]
theorem rp_wp_of_ne (s : State) {i k : BitVec 5} (v : Bool) (h : k ≠ i) : (s.wp i v).rp k = s.rp k := by
  by_cases i0 : i = 0
  · subst i0; rw [wp_zero]
  · by_cases k0 : k = 0
    · subst k0; exact (rp_zero _).trans (rp_zero s).symm
    · rw [wp_of_ne_zero s v i0, rp_of_ne_zero _ k0, rp_of_ne_zero _ k0, me_modMe, setBit_getLsbD,
        if_neg fun e => bitVec5_toNat_ne h e.1]

theorem xRegisterWrite : XRegisterWrite := by
  intro s d r v hd
  have frame : { (s.wx d v).me with x := s.me.x } = s.me ∧ (s.wx d v).mem = s.mem ∧
      ∀ q b, (q ≠ s.rank ∨ b % 16 ≠ s.berth % 16) → (s.wx d v).berthAt q b = s.berthAt q b := by
    obtain ⟨-, e⟩ | ⟨-, e⟩ := wx_reg_cases s d v hd <;> rw [e]
    · exact ⟨rfl, rfl, fun _ _ _ => rfl⟩
    · exact ⟨by rw [me_modMe], rfl, fun q b h => berthAt_modMe_of_ne s _ h⟩
  exact ⟨rx_zero s, wx_zero s v, fun h0 => rx_wx_self s v h0 hd, fun hr hne => rx_wx_of_ne s v hd hr hne, frame⟩
theorem predicateWrite : PredicateWrite := by
  intro s i k v
  refine ⟨rp_zero s, wp_zero s v, rp_wp_self s v, rp_wp_of_ne s v, ?_⟩
  by_cases h : i = 0
  · subst h; rw [wp_zero]
  · rw [wp_of_ne_zero s v h, me_modMe]

/-- Settles O3, from the two rules above: what a write of an x register and one of a predicate bit do. -/
theorem registerWrites : Obligations.RegisterWrites := ⟨xRegisterWrite, predicateWrite⟩
end Sys2Proof.Machine
end

section
/-! PROOFS OF THE SCOPE. The clock's tick. -/
namespace Sys2Proof.Machine
open State

/-! ### What a tick does to each core and berth (R18, R288) -/

/-- A core after a tick: each of its berths has ticked. -/
def tickCore (c : Core) : Core := { c with berths := c.berths.map tickBerth }

theorem alGet_map {α β : Type} (f : α → β) (l : List (Nat × α)) (i : Nat) :
    alGet (l.map fun e => (e.1, f e.2)) i = (alGet l i).map f := by
  induction l with
  | nil => rfl
  | cons e l ih =>
    obtain ⟨k, a⟩ := e
    simp only [List.map_cons, alGet]
    split
    · rfl
    · exact ih
theorem tickBerth_budget (k : Berth) : (tickBerth k).budget = if counting k = true ∧ k.budget ≠ 0 then k.budget - 1 else k.budget := by
  by_cases h : counting k = true ∧ k.budget ≠ 0
  · rw [if_pos h, tickBerth, if_pos (by simpa using h)]
  · rw [if_neg h, tickBerth, if_neg (by simpa using h)]
theorem tickBerth_frame (k : Berth) : { tickBerth k with budget := k.budget } = k := by
  unfold tickBerth; split <;> rfl
theorem tickCore_berth (c : Core) (b : Nat) : (tickCore c).berth b = tickBerth (c.berth b) := by
  have h : b % 16 < 16 := Nat.mod_lt b (by decide)
  simp [tickCore, Core.berth, vgetB, vget, h]
theorem tickCore_reset : tickCore Core.reset = Core.reset := by
  have : (Vector.replicate 16 Berth.reset).map tickBerth = Vector.replicate 16 Berth.reset := by rw [Vector.map_replicate]; rfl
  simp only [tickCore, Core.reset, this]
theorem tick_core (s : State) (r : Nat) : (tick s).core r = tickCore (s.core r) := by
  have h : alGet (tick s).cores r = (alGet s.cores r).map tickCore := alGet_map tickCore s.cores r
  unfold State.core
  rw [h]
  cases alGet s.cores r with
  | none => exact tickCore_reset.symm
  | some c => rfl
theorem tick_berthAt (s : State) (r b : Nat) : (tick s).berthAt r b = tickBerth (s.berthAt r b) := by
  unfold berthAt; rw [tick_core, tickCore_berth]

/-- Settles O54: such a step is `tick`, which changes the cycle and, berth by berth, what `tickBerth` changes. -/
theorem tickChangesOnlyBudgets : Obligations.TickChangesOnlyBudgets := by
  intro s hs
  have step_eq : step s = .next (tick s) := by rw [step, hs]; rfl
  refine ⟨tick s, step_eq, rfl, rfl, fun r => ?_, fun r b _ => ?_⟩
  · rw [tick_core]; rfl
  · rw [tick_berthAt]; exact ⟨tickBerth_budget _, tickBerth_frame _⟩
end Sys2Proof.Machine
end

section
/-! PROOFS OF THE SCOPE. A step that issues. -/
namespace Sys2Proof.Machine
open State

/-! ### The berth that holds the issue slot (R19) -/

theorem takeSlot_me (s : State) (r b : Nat) : (takeSlot s r b).me = { s.berthAt r b with lastIssue := s.cycle } := by
  have h : (takeSlot s r b).me = ((s.modCore r fun c => { c with last := b, issueAt := s.cycle + 1 }).modBerth r b fun k =>
    { k with lastIssue := s.cycle }).berthAt r b := rfl
  rw [h, berthAt_modBerth_self, berthAt_modCore]
  intro c; rfl
/-- A step in which the slot goes to a berth that is awake. -/
theorem step_issue {s : State} {r b : Nat} (h : nextAct s = .issue r b) (hd : (s.berthAt r b).drowsy = false) :
    step s = runBerth (takeSlot s r b) := by
  rw [step, h, perform, issue, hd]; rfl

/-! ### Fetching and running a word (R46, R47, R53) -/

section
variable {t : State} (hr : t.me.rpt = none)
include hr
theorem runBerth_word {w : W32} (hf : fetchAt t t.me.pc = .word w) : runBerth t = runWord w (t.modMe fun k => { k with entry := false }) := by
  simp only [runBerth, hr, hf]
theorem runBerth_filled {v : State} {lat : Nat} (hf : fetchAt t t.me.pc = .filled v lat) : runBerth t = .next (fetchWait v lat) := by
  simp only [runBerth, hr, hf]
theorem runBerth_wait {y : Why} (hf : fetchAt t t.me.pc = .wait y) : runBerth t = .next (t.block y) := by
  simp only [runBerth, hr, hf]
theorem runBerth_fetchFault (hf : fetchAt t t.me.pc = .fault .fetch) : runBerth t = exec (.fetchFault t.me.pc) t := by
  simp only [runBerth, hr, hf]
end
theorem runWord_illegal {w : W32} {e} (t : State) (h : decodeWord w = .error e) : runWord w t = exec (.illegalInstruction w) t := by
  simp only [runWord, h]
theorem runWord_instr {w : W32} {i : Instr} {t : State} (h : decodeWord w = .ok i) (hb : boardConflict t w = false) :
    runWord w t = exec i (t.noteVector w) := by simp [runWord, h, hb]
theorem runWord_conflict {w : W32} {i : Instr} {t : State} (h : decodeWord w = .ok i) (hb : boardConflict t w = true) :
    runWord w t = .next (t.block .board) := by simp [runWord, h, hb]
theorem boardConflict_of_noBuffer {t : State} (h : t.myCore.buffer = none) (w : W32) : boardConflict t w = false := by
  simp [boardConflict, h]
theorem noteVector_cases (t : State) (w : W32) : t.noteVector w = t ∨
    (isVector w.toNat = true ∧ t.noteVector w = t.modMyCore fun c => { c with vecAt := t.cycle + 1 }) := by
  unfold State.noteVector
  split
  next h => exact .inr ⟨(Bool.and_eq_true_iff.1 h).1, rfl⟩
  next => exact .inl rfl
theorem modMe_buffer (t : State) (f : Berth → Berth) : (t.modMe f).myCore.buffer = t.myCore.buffer := by
  have h : (t.modMe f).myCore = t.myCore.setBerth t.berth (f t.me) := core_modCore_self t t.rank _
  rw [h]; rfl

/-- Settles O53: the step is `runBerth` of the state that holds the slot, taken through what its fetch brings. -/
theorem stepRunsDecoded : Obligations.StepRunsDecoded := by
  intro s r b w hn hd t u hr
  have hs : step s = runBerth t := step_issue hn hd
  refine ⟨fun v lat hf => hs.trans (runBerth_filled hr hf), fun y hf => hs.trans (runBerth_wait hr hf),
    fun hf => hs.trans (runBerth_fetchFault hr hf), fun hf => ?_⟩
  have hw : step s = runWord w u := hs.trans (runBerth_word hr hf)
  refine ⟨fun i hi hb => hw.trans (runWord_instr hi hb), fun i hi hb => hw.trans (runWord_conflict hi hb),
    fun e he => hw.trans (runWord_illegal u he),
    fun hb => boardConflict_of_noBuffer ((modMe_buffer t _).trans hb) w, noteVector_cases u w, rfl, rfl, ?_, rfl⟩
  rw [show u.me = { t.me with entry := false } from me_modMe t _, takeSlot_me]
end Sys2Proof.Machine
end

section
/-! PROOFS OF THE SCOPE. The debugger. -/
namespace Sys2Proof.Machine
open State

/-! ### Lanes of a v register (R104) -/

theorem lanesNat_lt (f : Nat → W32) (n : Nat) : lanesNat f n < 2 ^ (32 * n) := by
  induction n with
  | zero => simp [lanesNat]
  | succ n ih =>
    have hl := (f n).isLt
    calc lanesNat f n + (f n).toNat * 2 ^ (32 * n)
        < 2 ^ (32 * n) + (f n).toNat * 2 ^ (32 * n) := Nat.add_lt_add_right ih _
      _ = ((f n).toNat + 1) * 2 ^ (32 * n) := by rw [Nat.succ_mul (f n).toNat, Nat.add_comm]
      _ ≤ 2 ^ 32 * 2 ^ (32 * n) := Nat.mul_le_mul_right _ hl
      _ = 2 ^ (32 * (n + 1)) := by rw [← Nat.pow_add, Nat.mul_succ, Nat.add_comm]
theorem lanesNat_lane (f : Nat → W32) (n j : Nat) (h : j < n) : lanesNat f n / 2 ^ (32 * j) % 2 ^ 32 = (f j).toNat := by
  induction n with
  | zero => omega
  | succ n ih =>
    by_cases e : j = n
    · subst e
      rw [lanesNat, Nat.add_mul_div_right _ _ (Nat.two_pow_pos _), Nat.div_eq_of_lt (lanesNat_lt f j), Nat.zero_add,
        Nat.mod_eq_of_lt (f j).isLt]
    · have hp : 2 ^ (32 * n) = 2 ^ (32 * (n - j - 1)) * 2 ^ 32 * 2 ^ (32 * j) := by
        rw [← Nat.pow_add, ← Nat.pow_add]; congr 1; omega
      rw [lanesNat, hp, ← Nat.mul_assoc, ← Nat.mul_assoc, Nat.add_mul_div_right _ _ (Nat.two_pow_pos _), Nat.add_mul_mod_self_right,
        ih (by omega)]
theorem toNat_ofNat_lanesNat (f : Nat → W32) {n w : Nat} (h : w = 32 * n) : (BitVec.ofNat w (lanesNat f n)).toNat = lanesNat f n := by
  subst h; rw [BitVec.toNat_ofNat, Nat.mod_eq_of_lt (lanesNat_lt f n)]
/-- Lane j of a register made of lanes. -/
theorem lane_ofLanes (f : Nat → W32) {j : Nat} (h : j < 32) : lane (ofLanes f) j = f j := by
  apply BitVec.eq_of_toNat_eq
  rw [lane, ofLanes, BitVec.extractLsb'_toNat, toNat_ofNat_lanesNat f (w := 1024) (n := 32) rfl, Nat.shiftRight_eq_div_pow, lanesNat_lane f 32 j h]

/-! ### A change of several berths of a core -/

/-- `f` applied to each berth below `n` of core `r` that `p` names. -/
def onBerths (r : Nat) (p : Nat → Bool) (f : Berth → Berth) (n : Nat) (s : State) : State :=
  iter (fun b u => if p b then u.modBerth r b f else u) n s

theorem onBerths_succ (r : Nat) (p : Nat → Bool) (f : Berth → Berth) (n : Nat) (s : State) :
    onBerths r p f (n + 1) s = if p n then (onBerths r p f n s).modBerth r n f else onBerths r p f n s := rfl
theorem onBerths_berthAt (r : Nat) (p : Nat → Bool) (f : Berth → Berth) (s : State) {b n : Nat} (hn : n ≤ 16) (hb : b < 16) :
    (onBerths r p f n s).berthAt r b = if b < n ∧ p b = true then f (s.berthAt r b) else s.berthAt r b := by
  induction n with
  | zero => rfl
  | succ n ih =>
    have ih := ih (by omega)
    rw [onBerths_succ]
    by_cases e : b = n
    · subst e
      rw [if_neg (by omega)] at ih
      by_cases hp : p b = true
      · rw [if_pos hp, berthAt_modBerth_self, ih, if_pos ⟨Nat.lt_succ_self b, hp⟩]
      · rw [if_neg hp, ih, if_neg fun h => hp h.2]
    · have hk : (if p n then (onBerths r p f n s).modBerth r n f else onBerths r p f n s).berthAt r b = (onBerths r p f n s).berthAt r b := by
        split
        · exact berthAt_setBerth_of_ne _ _ _ _ _ _ (.inr (by omega))
        · rfl
      have hlt : b < n + 1 ↔ b < n := by omega
      rw [hk, ih]; simp only [hlt]
/-- A change of a core's berths keeps what does not depend on them. -/
theorem onBerths_core {α : Type} (g : Core → α) (hg : ∀ c b x, g (c.setBerth b x) = g c) (r : Nat) (p : Nat → Bool) (f : Berth → Berth)
    (n : Nat) (s : State) : g ((onBerths r p f n s).core r) = g (s.core r) := by
  refine iter_keeps (fun t : State => g (t.core r) = g (s.core r)) _ n s rfl fun b t _ ht => ?_
  split
  · rw [← ht]; exact (congrArg g (core_modCore_self t r _)).trans (hg _ _ _)
  · exact ht

/-! ### Halts and resumes (R34, R301) -/

/-- What a halt does to a berth that it names: the DEBUG interrupt with TRAPD, or a request to halt. -/
def haltBerth (trapd : Bool) (k : Berth) : Berth :=
  if trapd then { k with pDebug := true } else if k.halt = .no then { k with halt := .asked } else k
theorem exec_debugHalt (r : Nat) (m : BitVec 16) (s : State) : exec (.debugHalt r m) s = .next (onBerths r m.getLsbD
    (haltBerth (bit (s.core r).dbgctl 32)) 16 (s.modCore r fun c => { c with dbgctl := c.dbgctl ||| m.setWidth 64 })) := rfl
theorem exec_debugResume (r : Nat) (m : BitVec 16) (s : State) : exec (.debugResume r m) s = .next (onBerths r m.getLsbD
    (fun k => { k with halt := .no }) 16 (s.modCore r fun c => { c with dbgctl := c.dbgctl &&& ~~~(m.setWidth 64) })) := rfl
theorem dbgctl_berthAt (s : State) (r q b : Nat) (g : Core → Word) :
    (s.modCore r fun c => { c with dbgctl := g c }).berthAt q b = s.berthAt q b := berthAt_modCore _ _ _ _ _ fun _ => rfl
theorem haltBerth_halt (k : Berth) : (haltBerth false k).halt = if k.halt = .no then .asked else k.halt := by
  unfold haltBerth; rw [if_neg (by decide)]; split <;> rfl

/-! ### A wait that a halt withdraws (R186) -/

theorem closeBrot_berthAt (s : State) (r q b : Nat) : (closeBrot s r).berthAt q b = s.berthAt q b := by
  unfold closeBrot; split
  · rfl
  · exact berthAt_modCore _ _ _ _ _ fun _ => rfl
theorem drainAfter_berthAt (s : State) (r : Nat) (w : Option Wait) (q b : Nat) : (s.drainAfter r w).berthAt q b = s.berthAt q b := by
  unfold drainAfter drain
  split
  · split
    · split
      · exact berthAt_modCore _ _ _ _ _ fun _ => rfl
      · rfl
    · rfl
  · rfl
/-- A withdrawn wait is over; the rest of its berth stays. -/
theorem withdraw_berthAt (s : State) (r b : Nat) : (withdraw s r b).berthAt r b = { s.berthAt r b with wait := none } := by
  unfold withdraw
  rw [drainAfter_berthAt, berthAt_modBerth_self]
  refine congrArg (fun k : Berth => { k with wait := none }) ?_
  split
  · split
    · rfl
    · split
      · split
        · exact closeBrot_berthAt _ _ _ _
        · rfl
      · rfl
    · rfl
  · rfl
theorem exec_berthHalted_due {s : State} {r b : Nat} (h : haltDue s r b = true) :
    exec (.berthHalted r b) s = .next ((withdraw s r b).modBerth r b fun k => { k with halt := .halted }) :=
  congrArg Host.Outcome.next (if_pos h)
theorem exec_berthHalted_not {s : State} {r b : Nat} (h : haltDue s r b = false) : exec (.berthHalted r b) s = .next s :=
  congrArg Host.Outcome.next (if_neg (by simp [h]))

/-! ### DATA (R32, R35, R300) -/

/-- The selection of register `n` of class `k` of berth `b`. -/
theorem sel_fields {b k n : Nat} (hb : b < 16) (hk : k < 8) (hn : n < 32) :
    fld (w64 (256 * b + 32 * k + n)) 8 4 = b ∧ fld (w64 (256 * b + 32 * k + n)) 5 3 = k ∧ fld (w64 (256 * b + 32 * k + n)) 0 5 = n := by
  have h : (w64 (256 * b + 32 * k + n)).toNat = 256 * b + 32 * k + n := by
    rw [w64, BitVec.toNat_ofNat, Nat.mod_eq_of_lt (by omega)]
  simp only [fld, h]
  omega
/-- The selected lane's v number is noted (log 72). -/
def noteLane (s : State) (r : Nat) (v : Word) : State := s.modCore r fun c => { c with dbgv := fld v 32 4 }
theorem noteLane_berthAt (s : State) (r : Nat) (v : Word) (q b : Nat) : (noteLane s r v).berthAt q b = s.berthAt q b :=
  berthAt_modCore _ _ _ _ _ fun _ => rfl
theorem noteLane_core (s : State) (r : Nat) (v : Word) : (noteLane s r v).core r = { s.core r with dbgv := fld v 32 4 } :=
  core_modCore_self _ _ _
theorem noteLane_stateCode (s : State) (r b : Nat) (v : Word) : stateCode (noteLane s r v) r b = stateCode s r b := by
  unfold stateCode; rw [noteLane_core]; rfl
/-- The file of a berth that the debugger uses is awake, after 3 cycles. -/
def wakeFile (now : Nat) (k : Berth) : Berth := if k.drowsy then { k with drowsy := false, lastIssue := now, fileAt := now + 3 } else k
theorem wakeFile_files (now : Nat) (k : Berth) : (wakeFile now k).x = k.x ∧ (wakeFile now k).v = k.v := by
  unfold wakeFile; split <;> exact ⟨rfl, rfl⟩
theorem wakeFile_drowsy {now : Nat} {k : Berth} (h : k.drowsy = true) : (wakeFile now k).drowsy = false ∧ (wakeFile now k).fileAt = now + 3 := by
  unfold wakeFile; rw [if_pos h]; exact ⟨rfl, rfl⟩
/-- What DATA writes into a halted berth: register n of class `cls`. -/
def debugPut (t : State) (r b cls n : Nat) (v : Word) : State :=
  match cls with
  | 0 => if n = 0 ∨ 24 ≤ n then t else t.modBerth r b fun k => { k with x := vset k.x n v }
  | 1 => t.modBerth r b fun k => { k with f := vset k.f n (v.setWidth 32) }
  | 2 => t.modBerth r b fun k =>
      let i := fld v 32 4
      { k with v := vset k.v i (ofLanes fun j => if j = n then v.setWidth 32 else lane (vget k.v i 0) j) }
  | 3 => t.modBerth r b fun k => { k with p := v.setWidth 32 ||| 1 }
  | 4 => t.modBerth r b fun k => { k with pc := v &&& pcMask, rpt := none }
  | 5 => if n ≤ 9 then t.csrPut r b n v else t
  | _ => t
theorem exec_debugDataWrite_not {s : State} {r : Nat} {v : Word} (h : stateCode s r (fld (s.core r).dbgsel 8 4) ≠ 4) :
    exec (.debugDataWrite r v) s = .next (noteLane s r v) := if_pos h

section
variable {s : State} {r b k n : Nat} {v : Word} (hb : b < 16) (hk : k < 8) (hn : n < 32)
  (hsel : (s.core r).dbgsel = w64 (256 * b + 32 * k + n)) (h4 : stateCode s r b = 4)
include hb hk hn hsel h4
theorem exec_debugDataWrite_halted : exec (.debugDataWrite r v) s = .next (debugPut (debugWake (noteLane s r v) r) r b k n v) := by
  obtain ⟨eb, ek, en⟩ := sel_fields hb hk hn
  rw [← hsel] at eb ek en
  show execDebugDataWrite r v s = _
  unfold execDebugDataWrite debugPut
  dsimp only
  rw [eb, ek, en, if_neg (not_not.2 h4)]
  rfl
theorem debugWake_eq : debugWake (noteLane s r v) r = if k < 4 then (noteLane s r v).modBerth r b (wakeFile s.cycle) else noteLane s r v := by
  obtain ⟨eb, ek, -⟩ := sel_fields hb hk hn
  rw [← hsel] at eb ek
  have hs : ((noteLane s r v).core r).dbgsel = (s.core r).dbgsel := by rw [noteLane_core]
  unfold debugWake
  dsimp only
  rw [hs, eb, ek, noteLane_stateCode, h4]
  by_cases h : k < 4
  · rw [if_pos h, if_neg (by omega)]; rfl
  · rw [if_neg h, if_pos (by omega)]
/-- A write into a file, class below 4: of the woken berth. -/
theorem exec_debugDataWrite_file (h : k < 4) :
    exec (.debugDataWrite r v) s = .next (debugPut ((noteLane s r v).modBerth r b (wakeFile s.cycle)) r b k n v) := by
  rw [exec_debugDataWrite_halted hb hk hn hsel h4, debugWake_eq hb hk hn hsel h4, if_pos h]
theorem exec_debugDataWrite_rest (h : 4 ≤ k) : exec (.debugDataWrite r v) s = .next (debugPut (noteLane s r v) r b k n v) := by
  rw [exec_debugDataWrite_halted hb hk hn hsel h4, debugWake_eq hb hk hn hsel h4, if_neg (by omega)]
end
/-- The selected berth, its file woken. -/
theorem woken_berthAt (s : State) (r b : Nat) (v : Word) :
    ((noteLane s r v).modBerth r b (wakeFile s.cycle)).berthAt r b = wakeFile s.cycle (s.berthAt r b) := by
  rw [berthAt_modBerth_self, noteLane_berthAt]
theorem debugPut_x_skips {n : Nat} (h : n = 0 ∨ 24 ≤ n) (t : State) (r b : Nat) (v : Word) : debugPut t r b 0 n v = t := if_pos h
theorem debugPut_x {n : Nat} (h1 : 1 ≤ n) (h : n < 24) (t : State) (r b : Nat) (v : Word) :
    debugPut t r b 0 n v = t.modBerth r b fun k => { k with x := vset k.x n v } := if_neg (by omega)

/-! ### The statement's clauses -/

theorem debugHalt_spec (s : State) (r : Nat) (m : BitVec 16) : ∃ t, exec (.debugHalt r m) s = .next t ∧
    (t.core r).dbgctl = (s.core r).dbgctl ||| m.setWidth 64 ∧ ∀ b < 16, m.getLsbD b = true →
      ((s.core r).dbgctl.getLsbD 32 = true → (t.berthAt r b).pDebug = true ∧ (t.berthAt r b).halt = (s.berthAt r b).halt) ∧
      ((s.core r).dbgctl.getLsbD 32 = false → (t.berthAt r b).halt = if (s.berthAt r b).halt = .no then .asked else (s.berthAt r b).halt) := by
  refine ⟨_, exec_debugHalt r m s, ?_, fun b hb hm => ?_⟩
  · rw [onBerths_core Core.dbgctl (fun _ _ _ => rfl), core_modCore_self]
  · rw [onBerths_berthAt _ _ _ _ (Nat.le_refl 16) hb, if_pos ⟨hb, hm⟩, dbgctl_berthAt]
    refine ⟨fun h => ?_, fun h => ?_⟩
    · rw [show bit (s.core r).dbgctl 32 = true from h]; exact ⟨rfl, rfl⟩
    · rw [show bit (s.core r).dbgctl 32 = false from h, haltBerth_halt]
theorem debugResume_spec (s : State) (r : Nat) (m : BitVec 16) : ∃ t, exec (.debugResume r m) s = .next t ∧
    (t.core r).dbgctl = (s.core r).dbgctl &&& ~~~(m.setWidth 64) ∧
      (∀ b < 16, m.getLsbD b = true → (t.berthAt r b).halt = .no) ∧ ∀ b < 16, m.getLsbD b = false → t.berthAt r b = s.berthAt r b := by
  refine ⟨_, exec_debugResume r m s, ?_, fun b hb hm => ?_, fun b hb hm => ?_⟩
  · rw [onBerths_core Core.dbgctl (fun _ _ _ => rfl), core_modCore_self]
  · rw [onBerths_berthAt _ _ _ _ (Nat.le_refl 16) hb, if_pos ⟨hb, hm⟩]
  · rw [onBerths_berthAt _ _ _ _ (Nat.le_refl 16) hb, if_neg (by simp [hm]), dbgctl_berthAt]
theorem berthHalted_spec {s : State} {r b : Nat} (h : haltDue s r b = true) : ∃ t, exec (.berthHalted r b) s = .next t ∧
    (t.berthAt r b).halt = .halted ∧ (t.berthAt r b).pc = (s.berthAt r b).pc ∧ (t.berthAt r b).x = (s.berthAt r b).x := by
  refine ⟨_, exec_berthHalted_due h, ?_⟩
  rw [berthAt_modBerth_self, withdraw_berthAt]
  exact ⟨rfl, rfl, rfl⟩

section
variable {s : State} {r b n : Nat} {v : Word} (hb : b < 16) (h4 : stateCode s r b = 4)
include hb h4
theorem debugDataWrite_x (hn : n < 32) (hsel : (s.core r).dbgsel = w64 (256 * b + n)) : ∃ t, exec (.debugDataWrite r v) s = .next t ∧
    (1 ≤ n → n < 24 → vget (t.berthAt r b).x n 0 = v) ∧ (n = 0 ∨ 24 ≤ n → (t.berthAt r b).x = (s.berthAt r b).x) ∧
      ((s.berthAt r b).drowsy = true → (t.berthAt r b).drowsy = false ∧ (t.berthAt r b).fileAt = s.cycle + 3) := by
  refine ⟨_, exec_debugDataWrite_file (k := 0) hb (by decide) hn hsel h4 (by decide), fun h1 h2 => ?_, fun h => ?_, fun hd => ?_⟩
  · rw [debugPut_x h1 h2, berthAt_modBerth_self, vget_vset_self _ _ _ _ h2]
  · rw [debugPut_x_skips h, woken_berthAt]; exact (wakeFile_files _ _).1
  · by_cases h : n = 0 ∨ 24 ≤ n
    · rw [debugPut_x_skips h, woken_berthAt]; exact wakeFile_drowsy hd
    · rw [debugPut_x (by omega) (by omega), berthAt_modBerth_self, woken_berthAt]; exact wakeFile_drowsy hd
theorem debugDataWrite_f (hn : n < 16) (hsel : (s.core r).dbgsel = w64 (256 * b + 32 + n)) : ∃ t, exec (.debugDataWrite r v) s = .next t ∧
    vget (t.berthAt r b).f n 0 = v.setWidth 32 := by
  refine ⟨_, exec_debugDataWrite_file (k := 1) hb (by decide) (by omega) hsel h4 (by decide), ?_⟩
  rw [debugPut, berthAt_modBerth_self, vget_vset_self _ _ _ _ hn]
theorem debugDataWrite_v (hn : n < 32) (hsel : (s.core r).dbgsel = w64 (256 * b + 64 + n)) : ∃ t, exec (.debugDataWrite r v) s = .next t ∧
    let i := v.toNat / 2 ^ 32 % 16
    (t.core r).dbgv = i ∧ lane (vget (t.berthAt r b).v i 0) n = v.setWidth 32 ∧ ∀ j < 32, j ≠ n →
      lane (vget (t.berthAt r b).v i 0) j = lane (vget (s.berthAt r b).v i 0) j := by
  have hi : v.toNat / 2 ^ 32 % 16 < 16 := Nat.mod_lt _ (by decide)
  have hl : ∀ f : Nat → W32, ∀ w : Vector VReg 16, vget (vset w (v.toNat / 2 ^ 32 % 16) (ofLanes f)) (v.toNat / 2 ^ 32 % 16) 0 = ofLanes f :=
    fun f w => vget_vset_self _ _ _ _ hi
  refine ⟨_, exec_debugDataWrite_file (k := 2) hb (by decide) hn hsel h4 (by decide), ?_⟩
  rw [debugPut, berthAt_modBerth_self, woken_berthAt, (wakeFile_files _ _).2]
  refine ⟨?_, ?_, fun j hj hne => ?_⟩
  · rw [modBerth, setBerth, core_modCore_self, modBerth, setBerth, core_modCore_self, noteLane_core]; rfl
  · exact (congrArg (lane · n) (hl _ _)).trans ((lane_ofLanes _ hn).trans (if_pos rfl))
  · exact (congrArg (lane · j) (hl _ _)).trans ((lane_ofLanes _ hj).trans (if_neg hne))
theorem debugDataWrite_p (hsel : (s.core r).dbgsel = w64 (256 * b + 96)) : ∃ t, exec (.debugDataWrite r v) s = .next t ∧
    (t.berthAt r b).p = v.setWidth 32 ||| 1 := by
  refine ⟨_, exec_debugDataWrite_file (k := 3) (n := 0) hb (by decide) (by decide) hsel h4 (by decide), ?_⟩
  rw [debugPut, berthAt_modBerth_self]
theorem debugDataWrite_pc (hsel : (s.core r).dbgsel = w64 (256 * b + 128)) : ∃ t, exec (.debugDataWrite r v) s = .next t ∧
    (t.berthAt r b).pc = v &&& 0x000FFFFFFFFFFFFC ∧ (t.berthAt r b).rpt = none := by
  refine ⟨_, exec_debugDataWrite_rest (k := 4) (n := 0) hb (by decide) (by decide) hsel h4 (by decide), ?_⟩
  rw [debugPut, berthAt_modBerth_self]
  exact ⟨rfl, rfl⟩
theorem debugDataWrite_csr (hn : n ≤ 9) (hsel : (s.core r).dbgsel = w64 (256 * b + 160 + n)) :
    exec (.debugDataWrite r v) s = .next ((noteLane s r v).csrPut r b n v) :=
  (exec_debugDataWrite_rest (k := 5) hb (by decide) (by omega) hsel h4 (by decide)).trans (congrArg Host.Outcome.next (if_pos hn))
end

/-- Settles O42: what a halt, a resume and a write of DATA do, the last by the class of the register selected. -/
theorem debuggerHaltsAndWrites : Obligations.DebuggerHaltsAndWrites := by
  intro s r b n m v
  exact ⟨debugHalt_spec s r m, exec_berthHalted_not, berthHalted_spec, debugResume_spec s r m, exec_debugDataWrite_not,
    fun hb hn hsel h4 => debugDataWrite_x hb h4 hn hsel, fun hb hn hsel h4 => debugDataWrite_csr hb h4 hn hsel,
    fun hb hsel h4 => debugDataWrite_pc hb h4 hsel, fun hb hn hsel h4 => debugDataWrite_f hb h4 hn hsel,
    fun hb hn hsel h4 => debugDataWrite_v hb h4 hn hsel, fun hb hsel h4 => debugDataWrite_p hb h4 hsel⟩

end Sys2Proof.Machine
end

section
/-! PROOFS OF THE SCOPE. The end of an instruction, and the frame of those that write registers only. -/
namespace Sys2Proof.Machine
open State Sys2Proof.Spec

/-! ### Completion outside a block (R17, R20, R36) -/

namespace State
theorem core_modBerth_self (s : State) (r b : Nat) (f : Berth → Berth) :
    (s.modBerth r b f).core r = (s.core r).setBerth b (f (s.berthAt r b)) := core_modCore_self s r _
theorem myCore_modMe (s : State) (f : Berth → Berth) : (s.modMe f).myCore = s.myCore.setBerth s.berth (f s.me) :=
  core_modBerth_self s s.rank s.berth f
theorem retire_berthAt (s : State) (q b : Nat) : s.retire.berthAt q b = s.berthAt q b :=
  berthAt_modCore _ _ _ _ _ fun _ => rfl
theorem retire_me (s : State) : s.retire.me = s.me := retire_berthAt s s.rank s.berth
theorem myCore_retire (s : State) : s.retire.myCore = { s.myCore with instret := s.myCore.instret + 1 } := core_modCore_self _ _ _
/-- A berth after the completion of its instruction, outside a block: ready at `at_`, or later for a file that had to wake. -/
def movedOn (s : State) (at_ : Nat) (b : Berth) : Berth :=
  { b with pc := b.pc + 4, wait := none, readyAt := Nat.max b.readyAt (at_ + wakeTime b), drowsy := false,
           lastIssue := if b.drowsy then s.cycle else b.lastIssue }
theorem next_plain {s : State} (h : Plain s) (lat : Nat) :
    s.next lat = s.retire.modMe (s.movedOn (s.readyAfter lat)) := by
  obtain ⟨hr, hb⟩ := h
  unfold next
  rw [hb, if_neg (by decide)]
  refine congrArg s.retire.setMe ?_
  dsimp only
  rw [retire_me]
  simp only [movedOn, hr]
theorem next_me {s : State} (h : Plain s) (lat : Nat) : (s.next lat).me = s.movedOn (s.readyAfter lat) s.me := by
  rw [next_plain h, me_modMe, retire_me]
theorem myWait_plain {s : State} (h : Plain s) : s.myWait = s.me.wait := by simp [myWait, h.2]
end State

theorem nextMovesOn : NextMovesOn := by
  intro s lat h t
  have ht : t = s.retire.modMe (s.movedOn (s.readyAfter lat)) := next_plain h lat
  refine ⟨next_me h lat, ?_, fun q b hqb => ?_, fun q hq => ?_, by rw [ht]; rfl, fun hw hl => ?_⟩
  · rw [ht, myCore_modMe, myCore_retire]; rfl
  · rw [ht]; exact (berthAt_modMe_of_ne s.retire _ hqb).trans (retire_berthAt s q b)
  · rw [ht]; exact (core_modMe_of_ne s.retire _ hq).trans (core_modCore_of_ne _ _ _ _ hq)
  · rw [← myWait_plain h] at hw
    rw [readyAfter_first lat hw]
    exact ⟨by omega, leaveIn_first hw⟩

/-! ### Effects on the executing berth alone (R23 to R26, R29, R66) -/

/-- The state `t` is `s` but for the executing berth, which is `k` there. -/
structure OnlyMe (s t : State) (k : Berth) : Prop where
  rest : { t with cores := s.cores } = s
  cores : ∀ q, q ≠ s.rank → t.core q = s.core q
  berths : ∀ b, b % 16 ≠ s.berth % 16 → t.berthAt s.rank b = s.berthAt s.rank b
  core : { t.myCore with berths := s.myCore.berths } = s.myCore
  me : t.me = k

namespace OnlyMe
theorem same (s : State) : OnlyMe s s s.me := ⟨rfl, fun _ _ => rfl, fun _ _ => rfl, rfl, rfl⟩
theorem place {s t : State} {k : Berth} (h : OnlyMe s t k) : t.rank = s.rank ∧ t.berth = s.berth ∧ t.buffered = s.buffered :=
  ⟨(congrArg State.rank h.rest :), (congrArg State.berth h.rest :), (congrArg State.buffered h.rest :)⟩
theorem mod {s t : State} {k : Berth} (h : OnlyMe s t k) (f : Berth → Berth) : OnlyMe s (t.modMe f) (f k) where
  rest := h.rest
  cores q hq := (core_modMe_of_ne t f (h.place.1 ▸ hq)).trans (h.cores q hq)
  berths b hb := (berthAt_modMe_of_ne t f (.inr (h.place.2.1 ▸ hb))).trans (h.berths b hb)
  core := by rw [myCore_modMe]; exact h.core
  me := by rw [me_modMe, h.me]

section
variable {s t : State} {k : Berth} (h : OnlyMe s t k)
include h
theorem flag (f : Flags) : OnlyMe s (t.flag f) { k with fcsr := k.fcsr ||| f.setWidth 64 } := by
  unfold State.flag
  split
  next h0 =>
    subst h0
    have : ({ k with fcsr := k.fcsr ||| (0 : Flags).setWidth 64 } : Berth) = k := by simp
    rw [this]; exact h
  next => exact h.mod _
theorem wx {d : BitVec 5} (v : Word) (hd : d.toNat < 24) : OnlyMe s (t.wx d v) { k with x := if d = 0 then k.x else vset k.x d.toNat v } := by
  obtain ⟨h0, e⟩ | ⟨h0, e⟩ := wx_reg_cases t d v hd <;> rw [e]
  · rw [if_pos h0]; exact h
  · rw [if_neg h0]; exact h.mod _
theorem wp (i : BitVec 5) (v : Bool) : OnlyMe s (t.wp i v) { k with p := if i = 0 then k.p else setBit k.p i.toNat v } := by
  by_cases h0 : i = 0
  · rw [if_pos h0, h0, wp_zero]; exact h
  · rw [if_neg h0, wp_of_ne_zero t v h0]; exact h.mod _
theorem wf (d : BitVec 4) (v : W32) : OnlyMe s (t.wf d v) { k with f := vset k.f d.toNat v } := h.mod _
theorem wv (d : BitVec 4) (v : VReg) : OnlyMe s (t.wv d v) { k with v := vset k.v d.toNat v } := h.mod _
/-- Mooring outside a block. -/
theorem moor (hk : k.rpt = none) : OnlyMe s t.moor { k with moored := true } := by
  have e : OnlyMe s t.moor { k with moored := true, rpt := if t.buffered then k.rpt else k.rpt.map fun b => { b with keep := true } } := h.mod _
  simpa [hk] using e
end
end OnlyMe

/-- What a completion after effects on the executing berth alone leaves: the frame of the register instructions, the berth
`k` that the effects made, moved on. -/
structure RegFrame (s t : State) (k : Berth) : Prop where
  rest : { t with cores := s.cores } = s
  cores : ∀ q, q ≠ s.rank → t.core q = s.core q
  berths : ∀ b, b % 16 ≠ s.berth % 16 → t.berthAt s.rank b = s.berthAt s.rank b
  core : { t.myCore with berths := s.myCore.berths } = { s.myCore with instret := s.myCore.instret + 1 }
  pc : t.me.pc = k.pc + 4
  me : { k with pc := t.me.pc, wait := t.me.wait, readyAt := t.me.readyAt, drowsy := t.me.drowsy, lastIssue := t.me.lastIssue } = t.me

theorem OnlyMe.next {s u : State} {k : Berth} (h : OnlyMe s u k) (hk : k.rpt = none) (hb : s.buffered = false) (lat : Nat) :
    RegFrame s (u.next lat) k := by
  obtain ⟨hrank, hberth, hbuf⟩ := h.place
  obtain ⟨hme, hcore, hberths, hcores, hrest, -⟩ := nextMovesOn u lat ⟨h.me ▸ hk, hbuf ▸ hb⟩
  rw [h.me] at hme
  exact {
    rest := (congrArg (fun v : State => { v with cores := s.cores }) hrest).trans h.rest
    cores := fun q hq => (hcores q (hrank ▸ hq)).trans (h.cores q hq)
    berths := fun b hb => (hberths _ _ (.inr (hberth ▸ hb))).trans (h.berths b hb)
    core := by
      have e := congrArg (fun c : Core => { c with berths := s.myCore.berths }) hcore
      have e2 := congrArg (fun c : Core => { c with instret := c.instret + 1 }) h.core
      exact e.trans e2
    pc := by rw [hme]
    me := by rw [hme] }

theorem wrote_short {s : State} {srcs : List (BitVec 5)} {d : BitVec 5} {v : Word} {lat : Nat} (hl : lat ≤ 8)
    (hs : ∀ x ∈ srcs, x.toNat < 24) (hd : d.toNat < 24) : wrote s srcs d v lat = (s.wx d v).next lat := by
  unfold wrote
  rw [done_short (pushes_write hd) hl rfl]
  simp [put, pops_regs s srcs hs]

theorem marked_regs {s : State} {srcs : List (BitVec 5)} {p : BitVec 5} {v : Bool} {fl : Flags} (hs : ∀ x ∈ srcs, x.toNat < 24) :
    marked s srcs p v fl = ((s.wp p v).flag fl).next := by rw [marked, pops_regs s srcs hs]
theorem floated_regs {s : State} {srcs : List (BitVec 5)} {d : BitVec 4} {r : W32 × Flags} (hs : ∀ x ∈ srcs, x.toNat < 24) :
    floated s srcs d r = ((s.wf d r.1).flag r.2).next := by rw [floated, pops_regs s srcs hs]

/-- Settles O57: each of the five ends in `next` after effects on the executing berth alone. -/
theorem registerFrames : Obligations.RegisterFrames := by
  intro s srcs d p fd vd v q fl r m g vv lat hl hs hd hp frame as'
  obtain ⟨hr, hb⟩ := hp
  have h0 := OnlyMe.same s
  have done {t : State} {k : Berth} (h : RegFrame s t k) (hk : k.pc = s.me.pc) : frame t ∧ as' t k :=
    ⟨⟨h.rest, h.cores, h.berths, h.core, hk ▸ h.pc⟩, h.me⟩
  have vector (w : VReg) (fl : Flags) : frame (vectorDone s vd w fl) ∧
      as' (vectorDone s vd w fl) { s.me with v := (vectorDone s vd w fl).me.v, moored := true, fcsr := s.me.fcsr ||| fl.setWidth 64 } ∧
      ∀ k, k < 16 → k ≠ vd.toNat → vget (vectorDone s vd w fl).me.v k 0 = vget s.me.v k 0 := by
    have e : RegFrame s (vectorDone s vd w fl) _ := (((h0.wv vd w).flag fl).moor hr).next hr hb 8
    have hv : (vectorDone s vd w fl).me.v = vset s.me.v vd.toNat w := (congrArg Berth.v e.me).symm
    rw [hv]
    exact ⟨(done e rfl).1, (done e rfl).2, fun k _ hk => vget_vset_of_ne _ _ _ _ _ hk⟩
  refine ⟨?_, ?_, ?_, ?_, ?_⟩
  · rw [wrote_short hl hs hd]
    have e := (h0.wx v hd).next hr hb lat
    have hx : ((s.wx d v).next lat).me.x = if d = 0 then s.me.x else vset s.me.x d.toNat v := (congrArg Berth.x e.me).symm
    rw [hx]
    refine ⟨(done e rfl).1, (done e rfl).2, fun k _ hk => ?_⟩
    split
    · rfl
    · exact vget_vset_of_ne _ _ _ _ _ hk
  · have e := ((h0.wp p q).flag fl).next hr hb 8
    rw [← marked_regs hs] at e
    have hx : (marked s srcs p q fl).me.p = if p = 0 then s.me.p else setBit s.me.p p.toNat q := (congrArg Berth.p e.me).symm
    rw [hx]
    refine ⟨(done e rfl).1, (done e rfl).2, fun k _ hk => ?_⟩
    split
    · rfl
    · rw [setBit_getLsbD, if_neg fun h => hk h.1]
  · have e := ((h0.wf fd r.1).flag r.2).next hr hb 8
    rw [← floated_regs hs] at e
    have hx : (floated s srcs fd r).me.f = vset s.me.f fd.toNat r.1 := (congrArg Berth.f e.me).symm
    rw [hx]
    exact ⟨(done e rfl).1, (done e rfl).2, fun k _ hk => vget_vset_of_ne _ _ _ _ _ hk⟩
  · exact vector _ _
  · exact vector vv fl
end Sys2Proof.Machine
end

section
/-! PROOFS OF THE SCOPE. Port checks. -/
namespace Sys2Proof.Machine
open State Sys2Proof.Spec

/-! ### Effects that leave INSTRET -/

/-- What each pop keeps, the pops of an instruction's sources keep. -/
theorem pops_keeps (P : State → Prop) {s : State} (h : P s) (hp : ∀ t r, P t → P (t.pop r)) (l : List (BitVec 5)) : P (s.pops l) := by
  induction l with
  | nil => exact h
  | cons r l ih =>
    unfold State.pops
    split
    · exact ih
    · exact hp _ r ih
/-- `t` executes on the core of `s` with the INSTRET that it has there. -/
structure SameInstret (s t : State) : Prop where
  rank : t.rank = s.rank
  instret : t.myCore.instret = s.myCore.instret

namespace SameInstret
theorem refl (s : State) : SameInstret s s := ⟨rfl, rfl⟩
theorem trans {s t u : State} (h : SameInstret s t) (k : SameInstret t u) : SameInstret s u :=
  ⟨k.rank.trans h.rank, k.instret.trans h.instret⟩
theorem modMyCore (s : State) (f : Core → Core) (hf : ∀ c, (f c).instret = c.instret) : SameInstret s (s.modMyCore f) :=
  ⟨rfl, by rw [myCore_modMyCore, hf]⟩
theorem modMe (s : State) (f : Berth → Berth) : SameInstret s (s.modMe f) := ⟨rfl, by rw [myCore_modMe]; rfl⟩
theorem moor (s : State) : SameInstret s s.moor := modMe s _
theorem modPort (s : State) (p : Nat) (f : Port → Port) : SameInstret s (s.modPort s.rank s.berth p f) :=
  modMe s fun t => { t with ports := vset t.ports p (f (port t p)) }
theorem gain (s : State) : SameInstret s s.gain := by
  have acq : SameInstret s (s.acquire s.rank) := modMyCore s _ fun _ => rfl
  unfold State.gain
  dsimp only
  split
  · exact acq
  · split
    · exact (acq.trans (modMe _ _)).trans (modMyCore _ _ fun _ => rfl)
    · exact acq.trans (modMe _ _)
theorem pop (s : State) (r : BitVec 5) : SameInstret s (s.pop r) := by
  unfold State.pop
  dsimp only
  split
  · exact refl s
  · exact ((modPort s _ _).trans (gain _)).trans (moor _)
theorem pops (s : State) (l : List (BitVec 5)) : SameInstret s (s.pops l) :=
  pops_keeps (SameInstret s) (refl s) (fun _ r h => h.trans (pop _ r)) l
theorem wx (s : State) {d : BitVec 5} (v : Word) (hd : d.toNat < 24) : SameInstret s (s.wx d v) := by
  obtain ⟨-, e⟩ | ⟨-, e⟩ := wx_reg_cases s d v hd <;> rw [e]
  · exact refl s
  · exact modMe s _
theorem wp (s : State) (i : BitVec 5) (v : Bool) : SameInstret s (s.wp i v) := by
  by_cases h : i = 0
  · rw [h, wp_zero]; exact refl s
  · rw [wp_of_ne_zero s v h]; exact modMe s _
end SameInstret
/-- An instruction that completes counts once. -/
theorem next_instret {s t : State} (h : SameInstret s t) (lat : Nat) : (t.next lat).myCore.instret = s.myCore.instret + 1 := by
  have hr : t.retire.myCore.instret = s.myCore.instret + 1 := by rw [myCore_retire]; exact congrArg (· + 1) h.instret
  unfold next
  dsimp only
  split
  · rw [myCore_modMyCore]; exact hr
  · exact (SameInstret.modMe t.retire _).instret.trans hr

/-! ### What a port's check comes to (R25, R210) -/

section
variable {s : State} {r : BitVec 5} (hr : 24 ≤ r.toNat)
include hr
theorem checkIn_trap (h : (port s.me (r.toNat - 24)).bound = false ∨ s.myCore.shut = true ∨
    ((port s.me (r.toNat - 24)).q = [] ∧ (port s.me (r.toNat - 24)).freed = true)) : s.checkIn r = stop .chan (w64 r.toNat) := by
  unfold checkIn
  dsimp only
  rw [if_neg (by omega)]
  by_cases h0 : (port s.me (r.toNat - 24)).bound = false ∨ s.myCore.shut = true
  · rw [if_pos (by simpa using h0)]
  · rw [if_neg (by simpa using h0)]
    obtain ⟨hq, hf⟩ := (or_assoc.2 h).resolve_left h0
    rw [hq, hf]; rfl
theorem checkIn_wait (h1 : (port s.me (r.toNat - 24)).bound = true) (h2 : s.myCore.shut = false)
    (h3 : (port s.me (r.toNat - 24)).q = []) (h4 : (port s.me (r.toNat - 24)).freed = false) :
    s.checkIn r = waitFor (.chan (r.toNat - 24)) := by
  unfold checkIn
  dsimp only
  rw [if_neg (by omega), if_neg (by simp [h1, h2]), h3, h4]; rfl
theorem checkOut_trap (h : (port s.me (r.toNat - 24)).bound = false ∨ s.myCore.shut = true ∨ (port s.me (r.toNat - 24)).freed = true) :
    s.checkOut r = stop .chan (w64 r.toNat) := by
  unfold checkOut
  dsimp only
  rw [if_neg (by omega), if_pos (by simpa using h)]
theorem checkOut_wait (h1 : (port s.me (r.toNat - 24)).bound = true) (h2 : s.myCore.shut = false)
    (h3 : (port s.me (r.toNat - 24)).freed = false)
    (h4 : ¬ (s.peer s.rank s.berth (r.toNat - 24) = true ∧ s.room (port s.me (r.toNat - 24)) = true)) :
    s.checkOut r = waitFor (.chan (r.toNat - 24)) := by
  unfold checkOut
  dsimp only
  rw [if_neg (by omega), if_neg (by simp [h1, h2, h3]), if_neg h4]
end
/-- The first source that is not ready decides. -/
theorem checkIns_error {s : State} {pre post : List (BitVec 5)} {r : BitVec 5} {e : Stop} (hp : ∀ q ∈ pre, InReady s q)
    (hr : s.checkIn r = .error e) : s.checkIns (pre ++ r :: post) = .error e := by
  induction pre with
  | nil => simp only [List.nil_append, checkIns, hr]
  | cons a l ih =>
    simp only [List.cons_append, checkIns, checkIn_ok (hp a (by simp))]
    exact ih fun q hq => hp q (by simp [hq])
theorem checkPorts_source {s : State} {pre post : List (BitVec 5)} {r d : BitVec 5} {e : Stop} (hp : ∀ q ∈ pre, InReady s q)
    (hr : s.checkIn r = .error e) : s.checkPorts (pre ++ r :: post) d = .error e := by
  simp only [checkPorts, checkIns_error hp hr]
theorem checkPorts_dest {s : State} {srcs : List (BitVec 5)} {d : BitVec 5} {e : Stop} (hp : ∀ q ∈ srcs, InReady s q)
    (hd : s.checkOut d = .error e) : s.checkPorts srcs d = .error e := by
  simp only [checkPorts, checkIns_ok hp, hd]
/-- The predicate forms name no x destination. -/
theorem checkPorts_zero (s : State) (srcs : List (BitVec 5)) : s.checkPorts srcs 0 = s.checkIns srcs := by
  unfold checkPorts
  cases s.checkIns srcs with
  | ok => exact checkOut_ok (.inl (by decide))
  | error => rfl

/-! ### Instructions that run behind their ports' check -/

/-- What stops the ports' check ends instruction `i`, and with a register as its destination it completes behind the check. -/
structure PortGate (s : State) (i : Instr) (srcs : List (BitVec 5)) (d : BitVec 5) : Prop where
  stops : ∀ e, s.checkPorts srcs d = .error e → exec i s = s.finish (.error e)
  completes : s.checkPorts srcs d = .ok () → d.toNat < 24 → ∃ t, exec i s = .next t ∧ t.myCore.instret = s.myCore.instret + 1

theorem portGate_putX {s : State} {i : Instr} {srcs : List (BitVec 5)} {d : BitVec 5} {v : Word} (h : exec i s = s.putX srcs d v) :
    PortGate s i srcs d where
  stops e he := by rw [h, putX, he]
  completes ho hd := by
    refine ⟨_, by rw [h, putX, ho, finish_ok, flag_zero, done_short (pushes_write hd) (Nat.le_refl 8) rfl], ?_⟩
    refine next_instret ((SameInstret.pops s srcs).trans ?_) 8
    simpa [put] using SameInstret.wx (s.pops srcs) v hd
theorem portGate_putS {s : State} {i : Instr} {srcs : List (BitVec 5)} {f : State → State} (hf : ∀ t, SameInstret t (f t))
    (h : exec i s = s.putS srcs f) : PortGate s i srcs 0 where
  stops e he := by rw [checkPorts_zero] at he; rw [h, putS, he]
  completes ho _ := by
    rw [checkPorts_zero] at ho
    exact ⟨_, by rw [h, putS, ho, finish_ok], next_instret ((SameInstret.pops s srcs).trans (hf _)) 8⟩

section
variable {s : State} {l : List (BitVec 5)} {L : List Instr}
theorem portGate_formsX {d : BitVec 5} (h : ∀ i ∈ L, ∃ v, exec i s = s.putX l d v) :
    ∀ e ∈ L.map fun i => (i, l, d), PortGate s e.1 e.2.1 e.2.2 := by
  intro e he
  obtain ⟨i, hi, rfl⟩ := List.mem_map.1 he
  obtain ⟨v, hv⟩ := h i hi
  exact portGate_putX hv
theorem portGate_formsS (h : ∀ i ∈ L, ∃ f, (∀ t, SameInstret t (f t)) ∧ exec i s = s.putS l f) :
    ∀ e ∈ L.map fun i => (i, l, (0 : BitVec 5)), PortGate s e.1 e.2.1 e.2.2 := by
  intro e he
  obtain ⟨i, hi, rfl⟩ := List.mem_map.1 he
  obtain ⟨f, hf, hx⟩ := h i hi
  exact portGate_putS hf hx
end
/-- Every form of the statement's list runs behind its ports' check. -/
theorem portForms_gate (s : State) (d a b p : BitVec 5) (im : BitVec 15) (n : BitVec 6) (u : BitVec 20) :
    ∀ e ∈ portForms d a b p im n u, PortGate s e.1 e.2.1 e.2.2 := by
  have marks (v : Bool) (t : State) : SameInstret t (t.wp p v) := SameInstret.wp t p v
  unfold portForms
  simp only [List.forall_mem_append]
  refine ⟨⟨⟨⟨portGate_formsX ?_, portGate_formsX ?_⟩, portGate_formsX ?_⟩, portGate_formsS ?_⟩, portGate_formsS ?_⟩ <;>
    simp only [List.forall_mem_cons, List.not_mem_nil, false_implies, implies_true, and_true]
  · and_intros <;> exact ⟨_, rfl⟩
  · and_intros <;> exact ⟨_, rfl⟩
  · and_intros <;> exact ⟨_, rfl⟩
  · and_intros <;> exact ⟨_, marks _, rfl⟩
  · refine ⟨?_, ?_, ?_, ?_, ?_, ?_, ?_, ⟨_, fun t => SameInstret.modMe t _, rfl⟩⟩ <;> exact ⟨_, marks _, rfl⟩

/-- Settles O1: each form runs behind its ports' check, and the check's answer is the first port's that is not ready. -/
theorem portChecks : Obligations.PortChecks := by
  intro s d a b p im n u hb e he
  obtain ⟨i, srcs, d'⟩ := e
  have gate : PortGate s i srcs d' := portForms_gate s d a b p im n u _ he
  have trap {v : Word} (h : s.checkPorts srcs d' = stop .chan v) : exec i s = .next (trapped s .chan v) :=
    (gate.stops _ h).trans (finish_trap s .chan v hb)
  have wait {y : Why} (h : s.checkPorts srcs d' = waitFor y) : exec i s = .next (s.block y) := gate.stops _ h
  refine ⟨fun hr => ⟨checkPorts_ok hr, gate.completes (checkPorts_ok hr)⟩, fun pre r post hsrcs hp hr => ?_, fun hp hd => ?_⟩
  · dsimp only at hsrcs
    subst hsrcs
    exact ⟨fun h => trap (checkPorts_source hp (checkIn_trap hr h)),
      fun h1 h2 h3 h4 => wait (checkPorts_source hp (checkIn_wait hr h1 h2 h3 h4))⟩
  · exact ⟨fun h => trap (checkPorts_dest hp (checkOut_trap hd h)),
      fun h1 h2 h3 h4 => wait (checkPorts_dest hp (checkOut_wait hd h1 h2 h3 h4))⟩
end Sys2Proof.Machine
end

section
/-! PROOFS OF THE SCOPE. Replies and what waits for them. -/
namespace Sys2Proof.Machine
open State Sys2Proof.Spec

/-! ### Berth numbers have four bits (R18) -/

namespace State
theorem berthAt_mod (s : State) (r b : Nat) : s.berthAt r (b % 16) = s.berthAt r b := by simp [berthAt, Core.berth]
theorem modBerth_mod (s : State) (r b : Nat) (f : Berth → Berth) : s.modBerth r (b % 16) f = s.modBerth r b f := by
  unfold modBerth setBerth
  rw [berthAt_mod]
  simp [Core.setBerth]
/-- A change of the executing berth's wait. -/
theorem modMyWait_berth {s : State} (hb : s.buffered = false) (f : Wait → Wait) :
    s.modMyWait f = s.modMe fun t => { t with wait := t.wait.map f } := by
  have h16 : ¬ s.berth % 16 = 16 := by omega
  unfold modMyWait modWait slot
  simp only [hb, Bool.false_eq_true, if_false, h16]
  exact modBerth_mod s s.rank s.berth _
theorem slot_berth {s : State} (hb : s.buffered = false) : s.slot = s.berth % 16 := if_neg (by simp [hb])
theorem setWait_berth {s : State} (hb : s.buffered = false) (w : Wait) : s.setWait w =
    s.modMe fun b => { b with wait := some w, readyAt := if b.wait.isSome then b.readyAt else Nat.max b.readyAt (s.cycle + 8) } :=
  if_neg (by simp [hb])
end State

/-! ### Effects that stay at the executing berth's place -/

/-- `t` executes at the same place, in the same cycle, as `s`. -/
structure SamePlace (s t : State) : Prop where
  rank : t.rank = s.rank
  berth : t.berth = s.berth
  buffered : t.buffered = s.buffered
  cycle : t.cycle = s.cycle

namespace SamePlace
theorem refl (s : State) : SamePlace s s := ⟨rfl, rfl, rfl, rfl⟩
theorem trans {s t u : State} (h : SamePlace s t) (k : SamePlace t u) : SamePlace s u :=
  ⟨k.rank.trans h.rank, k.berth.trans h.berth, k.buffered.trans h.buffered, k.cycle.trans h.cycle⟩
theorem release (s : State) (r : Nat) : SamePlace s (s.release r) := by
  obtain ⟨h1, h2, h3, h4⟩ := release_rank s r
  exact ⟨h1, h2, h3, h4⟩
theorem gain (s : State) : SamePlace s s.gain := by
  unfold State.gain
  dsimp only
  split
  · exact ⟨rfl, rfl, rfl, rfl⟩
  · split <;> exact ⟨rfl, rfl, rfl, rfl⟩
theorem pop (s : State) (r : BitVec 5) : SamePlace s (s.pop r) := by
  unfold State.pop
  dsimp only
  split
  · exact refl s
  · exact trans (t := s.modPort s.rank s.berth (r.toNat - 24) _) ⟨rfl, rfl, rfl, rfl⟩ (trans (gain _) ⟨rfl, rfl, rfl, rfl⟩)
theorem pops (s : State) (l : List (BitVec 5)) : SamePlace s (s.pops l) :=
  pops_keeps (SamePlace s) (refl s) (fun _ r h => h.trans (pop _ r)) l
theorem wx (s : State) (d : BitVec 5) (v : Word) : SamePlace s (s.wx d v) := by
  unfold State.wx
  dsimp only
  split
  · exact refl s
  · split <;> exact ⟨rfl, rfl, rfl, rfl⟩
theorem wp (s : State) (i : BitVec 5) (v : Bool) : SamePlace s (s.wp i v) := by
  unfold State.wp
  split <;> exact ⟨rfl, rfl, rfl, rfl⟩
end SamePlace

/-! ### What a reply writes (R24, R25, R61) -/

/-- What each of its writes keeps, the whole of a reply's writes keeps. -/
theorem put_keeps (P : State → Prop) {s : State} {q : Reply} (h : P (s.pops q.srcs))
    (hx : ∀ t, ∀ e ∈ q.writes, P t → P (t.wx (BitVec.ofNat 5 e.1) e.2)) (hf : ∀ t d v, P t → P (t.wf d v))
    (hv : ∀ t d v, P t → P (t.wv d v)) (hp : ∀ t i v, P t → P (t.wp i v)) (ht : ∀ t i v, P t → P (t.setTable t.rank i v))
    (hg : ∀ t, q.acquire = true → P t → P t.gain) : P (s.put q) := by
  unfold State.put
  extract_lets s1 s2 s3 s4 s5 s6
  have h2 : P s2 := foldl_keeps P _ q.writes s1 h hx
  have h3 : P s3 := by unfold s3; split; exacts [hf _ _ _ h2, h2]
  have h4 : P s4 := by unfold s4; split; exacts [hv _ _ _ h3, h3]
  have h5 : P s5 := by unfold s5; split; exacts [hp _ _ _ h4, h4]
  have h6 : P s6 := by unfold s6; split; exacts [ht _ _ _ h5, h5]
  split
  next ha => exact hg _ ha h6
  next => exact h6
theorem put_samePlace (s : State) (q : Reply) : SamePlace s (s.put q) :=
  put_keeps (SamePlace s) (SamePlace.pops s q.srcs) (fun _ _ _ h => h.trans (SamePlace.wx _ _ _)) (fun _ _ _ h => h.trans ⟨rfl, rfl, rfl, rfl⟩)
    (fun _ _ _ h => h.trans ⟨rfl, rfl, rfl, rfl⟩) (fun _ _ _ h => h.trans (SamePlace.wp _ _ _)) (fun _ _ _ h => h.trans ⟨rfl, rfl, rfl, rfl⟩)
    (fun _ _ h => h.trans (SamePlace.gain _))

/-! ### A wait for a reply that a unit brings (R20, R36) -/

/-- The executing berth in a wait that begins now, or in the one it was in. -/
def State.beginsWait (s : State) (y : Why) (b : Berth) : Berth :=
  { b with
    wait := some (nextWait y s.ticket s.cycle s.issueNow b.wait)
    readyAt := if b.wait.isSome then b.readyAt else Nat.max b.readyAt (s.cycle + 8) }
/-- The state in which the executing berth has begun to wait for a unit's result. -/
def State.slowWait (s : State) : State := { s.modMe (s.beginsWait .slow) with ticket := s.ticket + 1 }
/-- A berth's wait, if there is one, changed by `f`. -/
def changeWait (f : Wait → Wait) (b : Berth) : Berth := { b with wait := b.wait.map f }
/-- The state in which nothing but a reply ends the wait that has begun. -/
def State.heldWait (s : State) : State := s.slowWait.modMe (changeWait fun w => { w with hold := true })
/-- The state in which the executing berth's wait has its reply, which has not arrived. -/
def State.answersWait (s : State) (q : Reply) : State := s.modMe (changeWait fun w => { w with reply := some q })
def State.withAgenda (s : State) (l : List (Nat × Instr)) : State := { s with agenda := l }
theorem withAgenda_me (s : State) (l : List (Nat × Instr)) : (s.withAgenda l).me = s.me := rfl
theorem withAgenda_berthAt (s : State) (l : List (Nat × Instr)) (q b : Nat) : (s.withAgenda l).berthAt q b = s.berthAt q b := rfl

theorem heldWait_me (s : State) : s.heldWait.me = changeWait (fun w => { w with hold := true }) (s.beginsWait .slow s.me) := by
  rw [heldWait, me_modMe]; exact congrArg _ (me_modMe s _)
theorem beginsWait_frame (s : State) (y : Why) (f g : Wait → Wait) (b : Berth) :
    { changeWait f (changeWait g (s.beginsWait y b)) with wait := b.wait, readyAt := b.readyAt } = b := by
  simp only [changeWait, State.beginsWait]
theorem heldWait_place {s : State} : SamePlace s s.heldWait := ⟨rfl, rfl, rfl, rfl⟩
theorem heldWait_berthAt (s : State) {q b : Nat} (h : q ≠ s.rank ∨ b % 16 ≠ s.berth % 16) : s.heldWait.berthAt q b = s.berthAt q b :=
  (berthAt_modMe_of_ne s.slowWait _ h).trans (berthAt_modMe_of_ne s _ h)

section
variable {s : State} (hb : s.buffered = false)
include hb
theorem modWait_here (f : Wait → Wait) : s.modWait s.rank (s.berth % 16) f = s.modMe (changeWait f) := by
  rw [← slot_berth hb]; exact modMyWait_berth hb f
theorem block_slow : s.block .slow = s.slowWait := by
  have hw : s.myWait = s.me.wait := by simp [myWait, hb]
  unfold block
  dsimp only
  rw [setWait_berth hb, hw]
  rfl
theorem await_slow : s.await .slow = s.heldWait := by
  unfold await
  rw [block_slow hb]
  exact modMyWait_berth (s := s.slowWait) hb _
theorem reply_here (q : Reply) (d : Nat) : s.reply s.rank (s.berth % 16) q d = (s.answersWait q).withAgenda
    (insertReply (s.answersWait q).pastReply q.past s.agenda (s.cycle + d) s.rank (s.berth % 16)) := by
  unfold reply
  dsimp only
  rw [modWait_here hb]
  rfl
end
theorem mem_insertReply (past : Instr → Bool) (mine : Bool) (l : List (Nat × Instr)) (t r b : Nat) :
    (t, .replyArrival r b) ∈ insertReply past mine l t r b := by
  induction l with
  | nil => simp [insertReply]
  | cons e l ih =>
    obtain ⟨k, i⟩ := e
    unfold insertReply
    extract_lets less before
    split
    · exact List.mem_cons_self
    · exact List.mem_cons_of_mem _ ih

theorem longEffects : LongEffects := by
  intro s lat q hb hl
  have hd : s.done lat q = s.answered lat q := done_long hl
  have ha : s.answered lat q = s.heldWait.reply s.rank (s.berth % 16) q (s.readyAfter lat - s.cycle - 1) := by
    unfold answered endWhy
    rw [if_neg (by omega), slot_berth hb, await_slow hb]
  rw [hd, ha, show s.heldWait.reply s.rank (s.berth % 16) q (s.readyAfter lat - s.cycle - 1) = _ from reply_here (s := s.heldWait) hb q _]
  have hme : (s.heldWait.answersWait q).me = changeWait (fun w => { w with reply := some q }) s.heldWait.me := me_modMe _ _
  rw [withAgenda_me, hme, heldWait_me]
  refine ⟨_, rfl, rfl, rfl, rfl, fun hw => ?_, beginsWait_frame s _ _ _ s.me, rfl, fun r b h => ?_⟩
  · have hn : s.myWait = none := by simp [myWait, hb, hw]
    have ht : s.cycle + (s.readyAfter lat - s.cycle - 1) = s.cycle + lat - 1 := by rw [readyAfter_first lat hn]; omega
    rw [heldWait_place.cycle, heldWait_place.rank, heldWait_place.berth, ht]
    exact mem_insertReply _ _ _ _ _ _
  · rw [withAgenda_berthAt]
    exact (berthAt_modMe_of_ne s.heldWait _ h).trans (heldWait_berthAt s h)
end Sys2Proof.Machine
end

section
/-! PROOFS OF THE SCOPE. Mooring, places and ranks. -/
namespace Sys2Proof.Machine
open State Sys2Proof.Spec

/-! ### Mooring (R154, R205) -/

theorem moor_me_plain {s : State} (h : s.me.rpt = none) : s.moor.me = { s.me with moored := true } :=
  ((OnlyMe.same s).moor h).me
theorem mooring : Mooring := by
  intro s d hp
  obtain ⟨hr, hb⟩ := hp
  refine ⟨⟨_, rfl, rfl, ?_⟩, fun hh => ⟨(s.modMe fun b => { b with moored := false }).next, ?_, rfl, ?_⟩, fun hh => ?_, putX_ready _⟩
  · have h : Plain s.moor := ⟨by rw [moor_me_plain hr]; exact hr, hb⟩
    rw [next_me h, moor_me_plain hr]; rfl
  · show s.finish (if holds s then _ else _) = _
    rw [hh]; rfl
  · have h : Plain (s.modMe fun b => { b with moored := false }) := ⟨by rw [me_modMe]; exact hr, hb⟩
    rw [next_me h, me_modMe]; rfl
  · show s.finish (if holds s then _ else _) = _
    rw [hh]; exact finish_trap s .ill _ hb

/-! ### Places (R207) -/

/-- The address bits of a place do not overlap. -/
theorem placeWord_eq {x y : Word} (hx : x.toNat < 9216) (hy : y.toNat < 0x20000) :
    (0xF000000000000 : Word) ||| (x <<< 17) ||| y = w64 (15 * 2 ^ 48 + x.toNat * 2 ^ 17 + y.toNat) := by
  apply BitVec.eq_of_toNat_eq
  have hs : (x <<< 17 : Word).toNat = 2 ^ 17 * x.toNat := by
    rw [BitVec.toNat_shiftLeft, Nat.shiftLeft_eq, Nat.mod_eq_of_lt (by omega), Nat.mul_comm]
  have h1 : 0xF000000000000 ||| 2 ^ 17 * x.toNat = 2 ^ 17 * (15 * 2 ^ 31 + x.toNat) := by
    have h := Nat.two_pow_add_eq_or_of_lt (show 2 ^ 17 * x.toNat < 2 ^ 48 by omega) 15
    rw [show 2 ^ 48 * 15 = 0xF000000000000 from rfl] at h
    omega
  have h2 := Nat.two_pow_add_eq_or_of_lt (show y.toNat < 2 ^ 17 from hy) (15 * 2 ^ 31 + x.toNat)
  rw [BitVec.toNat_or, BitVec.toNat_or, hs, show (0xF000000000000 : Word).toNat = 0xF000000000000 from rfl, h1, ← h2, w64,
    BitVec.toNat_ofNat, Nat.mod_eq_of_lt (by omega)]
  omega
/-- PLACE behind its ports' check. -/
theorem exec_place {s : State} {d a b : BitVec 5} (h : Ready s [a, b] d) : exec (.place d a b) s = s.finish
    (if 9216 ≤ (s.rx a).toNat ∨ !s.inRect s.me.lid (s.rx a).toNat ∨ 0x20000 ≤ (s.rx b).toNat then
      stop .place ((0xF000000000000 : Word) ||| (s.rx a <<< 17) ||| s.rx b)
    else .ok (wrote s [a, b] d ((0xF000000000000 : Word) ||| (s.rx a <<< 17) ||| s.rx b))) := by
  show execPlace d a b s = _
  unfold execPlace
  rw [checkPorts_ok h]
  rfl
theorem places : Places := by
  intro s d a b p
  refine ⟨fun hr hx hi hy => ?_, fun hr hb hbad => ?_, fun hr => putX_ready _ hr⟩
  · rw [exec_place hr, if_neg, finish_ok, placeWord_eq hx hy]
    simp only [hi, Bool.not_true, Bool.false_eq_true, false_or]
    omega
  · rw [exec_place hr, if_pos (by simpa using hbad)]
    exact finish_trap s .place _ hb
end Sys2Proof.Machine
end

section
/-! PROOFS OF THE SCOPE. The arrival of a reply. -/
namespace Sys2Proof.Machine
open State Sys2Proof.Spec

/-! ### Effects that leave the executing berth's wait (R20, R24, R61) -/

/-- `t` is at the place of `s`, and the executing berth waits and is ready there as in `s`. -/
structure SameWait (s t : State) : Prop extends SamePlace s t where
  wait : t.me.wait = s.me.wait
  readyAt : t.me.readyAt = s.me.readyAt
  drowsy : t.me.drowsy = s.me.drowsy

namespace SameWait
theorem refl (s : State) : SameWait s s := ⟨.refl s, rfl, rfl, rfl⟩
theorem trans {s t u : State} (h : SameWait s t) (k : SameWait t u) : SameWait s u :=
  ⟨h.toSamePlace.trans k.toSamePlace, k.wait.trans h.wait, k.readyAt.trans h.readyAt, k.drowsy.trans h.drowsy⟩
theorem modMe (s : State) (f : Berth → Berth) (hf : ∀ b, (f b).wait = b.wait ∧ (f b).readyAt = b.readyAt ∧ (f b).drowsy = b.drowsy) :
    SameWait s (s.modMe f) := by
  obtain ⟨h1, h2, h3⟩ := hf s.me
  exact ⟨⟨rfl, rfl, rfl, rfl⟩, by rw [me_modMe, h1], by rw [me_modMe, h2], by rw [me_modMe, h3]⟩
theorem wx (s : State) {d : BitVec 5} (v : Word) (hd : d.toNat < 24) : SameWait s (s.wx d v) := by
  obtain ⟨-, e⟩ | ⟨-, e⟩ := wx_reg_cases s d v hd <;> rw [e]
  · exact refl s
  · exact modMe s _ fun _ => ⟨rfl, rfl, rfl⟩
theorem wp (s : State) (i : BitVec 5) (v : Bool) : SameWait s (s.wp i v) := by
  by_cases h : i = 0
  · rw [h, wp_zero]; exact refl s
  · rw [wp_of_ne_zero s v h]; exact modMe s _ fun _ => ⟨rfl, rfl, rfl⟩
theorem setTable (s : State) (i : Nat) (v : DTab) : SameWait s (s.setTable s.rank i v) := by
  have h : (s.setTable s.rank i v).me = s.me := berthAt_modCore _ _ _ _ _ fun c => by split <;> rfl
  exact ⟨⟨rfl, rfl, rfl, rfl⟩, by rw [h], by rw [h], by rw [h]⟩
/-- What a reply that neither pops, pushes nor acquires writes. -/
theorem put (s : State) {q : Reply} (hs : q.srcs = []) (hp : pushes q = false) (ha : q.acquire = false) : SameWait s (s.put q) := by
  have reg : ∀ e ∈ q.writes, (BitVec.ofNat 5 e.1).toNat < 24 := by
    intro e he
    have h := List.any_eq_false.1 hp e he
    rw [BitVec.toNat_ofNat]
    have : e.1 < 24 := by simpa using h
    omega
  exact put_keeps (SameWait s) (by rw [hs]; exact refl s) (fun _ e he h => h.trans (wx _ _ (reg e he)))
    (fun t _ _ h => h.trans (modMe t _ fun _ => ⟨rfl, rfl, rfl⟩)) (fun t _ _ h => h.trans (modMe t _ fun _ => ⟨rfl, rfl, rfl⟩))
    (fun _ _ _ h => h.trans (wp _ _ _)) (fun _ _ _ h => h.trans (setTable _ _ _)) (fun _ h => by simp [ha] at h)
end SameWait

/-! ### The berth after its reply (R20) -/

section
variable {t : State} {w : Wait} (hb : t.buffered = false) (hw : t.me.wait = some w) (hd : t.me.drowsy = false)
  (hr : t.me.readyAt ≤ t.cycle + 1)
include hb hw hr
theorem readyAfter_waited : t.readyAfter 8 = t.cycle + 1 := by
  have h : t.startAt = Nat.max t.cycle t.me.readyAt := by simp [startAt, myWait, hb, hw]
  unfold readyAfter
  rw [h]
  show max (t.cycle + 1) (max t.cycle t.me.readyAt + (8 - 8)) = t.cycle + 1
  omega
include hd
/-- An awake berth that goes on with its reply is ready in the next cycle, behind its instruction. -/
theorem next_waited : t.next.me.wait = none ∧ t.next.me.readyAt = t.cycle + 1 := by
  have ha := readyAfter_waited hb hw hr
  unfold next
  rw [hb, if_neg (by decide), ha, me_modMe, retire_me]
  simp [wakeTime, hd]
  omega
/-- And so is one that goes on at the branch that its reply brings. -/
theorem jump_waited (a : Word) : (t.jump a).me.wait = none ∧ (t.jump a).me.readyAt = t.cycle + 1 := by
  have ha := readyAfter_waited hb hw hr
  unfold jump
  rw [me_modMe, retire_me, ha]
  simp [wakeTime, hd]
  omega
end

/-! ### What a reply comes to -/

/-- The state in which a reply for berth b of core r is taken; one of the cycle before counts as of then (R140). -/
def replyState (s : State) (r b : Nat) (q : Reply) : State := { s.as r b with cycle := if q.past then s.cycle - 1 else s.cycle }
/-- The state that a reply leaves: the executing place and the cycle are as before. -/
def replyResult (s u : State) : State := ({ u with cycle := s.cycle } : State).back s

section
variable {s : State} {r b : Nat} (hb : b ≠ 16)
include hb
theorem exec_replyArrival_noWait (hk : (s.berthAt r b).wait = none) : exec (.replyArrival r b) s = .next s := by
  have hw : (s.as r b).myWait = none := hk
  show execReplyArrival r b s = _
  unfold execReplyArrival
  simp only [if_neg hb, hw]
variable {w : Wait} (hk : (s.berthAt r b).wait = some w)
include hk
theorem exec_replyArrival_noReply (hq : w.reply = none) : exec (.replyArrival r b) s = .next s := by
  have hw : (s.as r b).myWait = some w := hk
  show execReplyArrival r b s = _
  unfold execReplyArrival
  simp only [if_neg hb, hw, hq]
variable {q : Reply} (hq : w.reply = some q)
include hq
theorem exec_replyArrival_drowsy (hd : (s.berthAt r b).drowsy = true) : exec (.replyArrival r b) s =
    .next ((s.modBerth r b fun t => { t with drowsy := false, lastIssue := s.cycle }).later 3 (.replyArrival r b)) := by
  have hw : (s.as r b).myWait = some w := hk
  have hd' : (s.as r b).me.drowsy = true := hd
  show execReplyArrival r b s = _
  unfold execReplyArrival
  simp only [if_neg hb, hw, hq, if_pos hd']
  rfl
theorem exec_replyArrival_taken (hd : (s.berthAt r b).drowsy = false) :
    exec (.replyArrival r b) s = .next (replyResult s (takeReply w q (replyState s r b q))) := by
  have hw : (s.as r b).myWait = some w := hk
  have hd' : (s.as r b).me.drowsy = false := hd
  have ht : (if q.past then { s.as r b with cycle := s.cycle - 1 } else s.as r b) = replyState s r b q := by
    unfold replyState; split <;> rfl
  show execReplyArrival r b s = _
  unfold execReplyArrival
  simp only [if_neg hb, hw, hq, hd', Bool.false_eq_true, if_false, ht]
  rfl
end

section
variable {w : Wait} {q : Reply} {t : State}
theorem takeReply_trap (hb : t.buffered = false) {c : Cause} {v : Word} (h : q.trap = some (c, v)) : takeReply w q t = t.takeTrap c v := by
  simp [takeReply, h, trapNow, hb]
variable (h1 : q.trap = none)
include h1
theorem takeReply_refetch (h2 : q.refetch = true) : takeReply w q t = t.modMe fun x => { x with wait := none, readyAt := t.cycle + 1 } := by
  simp [takeReply, h1, h2]
variable (h2 : q.refetch = false)
include h2
theorem takeReply_again (h3 : q.again = true) : takeReply w q t =
    (t.put q).modMyWait fun w => { w with hold := false, acked := true, reply := none } := by
  simp [takeReply, h1, h2, h3]
variable (h3 : q.again = false)
include h3
theorem takeReply_noPush (h : pushPort q = none) : takeReply w q t = finishReply w q t := by
  simp [takeReply, h1, h2, h3, h]
variable {d : BitVec 5} (h : pushPort q = some d)
include h
theorem takeReply_freed (hb : t.buffered = false) {c : Word} (hf : t.checkFreed d = some c) : takeReply w q t = t.takeTrap .chan c := by
  simp [takeReply, h1, h2, h3, h, hf, trapNow, hb]
variable (hf : t.checkFreed d = none)
include hf
theorem takeReply_cleaned (hc : q.cleaned = true) : takeReply w q t = finishReply w q t := by
  simp [takeReply, h1, h2, h3, h, hf, hc]
variable (hc : q.cleaned = false)
include hc
theorem takeReply_waits (hl : t.cycle < t.myCore.relEnd) : takeReply w q t = replyAgain t q (t.myCore.relEnd - t.cycle) := by
  simp [takeReply, h1, h2, h3, h, hf, hc, hl]
variable (hl : t.myCore.relEnd ≤ t.cycle)
include hl
theorem takeReply_releases (ho : (t.release t.rank).myCore.relEnd ≤ t.cycle) : takeReply w q t = finishReply w q (t.release t.rank) := by
  simp [takeReply, h1, h2, h3, h, hf, hc, Nat.not_lt.mpr hl, ho]
theorem takeReply_cleans (ho : t.cycle < (t.release t.rank).myCore.relEnd) : takeReply w q t =
    replyAgain (t.release t.rank) { q with cleaned := true } ((t.release t.rank).myCore.relEnd - t.cycle) := by
  simp [takeReply, h1, h2, h3, h, hf, hc, Nat.not_lt.mpr hl, Nat.not_le.mpr ho]
end

/-- Of a reply that neither borrows nor writes a CSR, the first write to a port is what it pushes. -/
theorem pushPort_cases {q : Reply} (h1 : q.borrow = none) (h2 : q.csr = none) :
    (pushes q = false ∧ pushPort q = none) ∨
      (pushes q = true ∧ ∃ e ∈ q.writes, 24 ≤ e.1 ∧ pushPort q = some (BitVec.ofNat 5 e.1)) := by
  have hp : pushPort q = ((q.writes.map Prod.fst).find? fun d => decide (24 ≤ d)).map fun d => BitVec.ofNat 5 d := by
    simp [pushPort, h1, h2]
  cases hf : (q.writes.map Prod.fst).find? fun d => decide (24 ≤ d) with
  | none =>
    refine .inl ⟨?_, by rw [hp, hf]; rfl⟩
    rw [List.find?_eq_none] at hf
    simpa [pushes] using hf
  | some d =>
    have hd : 24 ≤ d := by simpa using List.find?_some hf
    obtain ⟨e, he, rfl⟩ := List.mem_map.1 (List.mem_of_find?_eq_some hf)
    exact .inr ⟨List.any_eq_true.2 ⟨e, he, decide_eq_true hd⟩, e, he, hd, by rw [hp, hf]; rfl⟩
theorem pushPort_single {q : Reply} (h1 : q.borrow = none) (h2 : q.csr = none) {d : Nat} {v : Word} (h : q.writes = [(d, v)]) (hd : 24 ≤ d) :
    pushPort q = some (BitVec.ofNat 5 d) := by
  simp [pushPort, h1, h2, h, hd]
theorem checkFreed_some {t : State} {d : BitVec 5} {c : Word} (h : t.checkFreed d = some c) : c = w64 d.toNat := by
  unfold checkFreed at h
  dsimp only at h
  split at h
  · exact (Option.some.inj h).symm
  · cases h

/-! ### How a reply ends its instruction (R20, R36, R179) -/

/-- The reply is written, and the berth goes on behind its instruction or at the branch. -/
def finishPut (q : Reply) (t : State) : State := match q.pc with | some a => (t.put q).jump a | none => (t.put q).next
/-- An accumulator whose transfer ends is let go if it is to be. -/
def endTransfer (w : Wait) (r : Nat) (u : State) : State := match w.issued.acc with | some n => u.freeAcc r n | none => u

theorem endTransfer_none {w : Wait} (h : w.issued.acc = none) (r : Nat) (u : State) : endTransfer w r u = u := by simp [endTransfer, h]
theorem SamePlace.next (s : State) (lat : Nat) : SamePlace s (s.next lat) := by
  unfold State.next
  dsimp only
  split <;> exact ⟨rfl, rfl, rfl, rfl⟩
theorem finishPut_samePlace (q : Reply) (t : State) : SamePlace t (finishPut q t) := by
  unfold finishPut
  split
  · exact (put_samePlace t q).trans ⟨rfl, rfl, rfl, rfl⟩
  · exact (put_samePlace t q).trans (SamePlace.next _ _)

section
variable {w : Wait} {q : Reply} {t : State} (h4 : q.borrow = none) (h5 : q.csr = none)
include h4 h5
theorem finishReply_plain (h6 : q.brot = false) : finishReply w q t = endTransfer w t.rank (finishPut q t) := by
  have ha : actLate q t = t := by simp [actLate, h4, h5, h6]
  unfold finishReply endTransfer finishPut
  rw [ha] <;> rfl
variable (h1 : q.trap = none) (h2 : q.refetch = false) (h3 : q.again = false)
include h1 h2 h3
/-- A reply that pushes nothing, or whose port and releases are done with, ends its instruction. -/
theorem takeReply_finishes (h6 : q.brot = false)
    (h : pushes q = false ∨ (∀ e ∈ q.writes, 24 ≤ e.1 → t.checkFreed (BitVec.ofNat 5 e.1) = none) ∧
      (q.cleaned = true ∨ t.myCore.relEnd ≤ t.cycle ∧ (t.release t.rank).myCore.relEnd ≤ t.cycle)) :
    takeReply w q t = endTransfer w t.rank
      (finishPut q (if pushes q = true ∧ q.cleaned = false then t.release t.rank else t)) := by
  obtain ⟨hp, hport⟩ | ⟨hp, e, he, h24, hport⟩ := pushPort_cases h4 h5
  · rw [takeReply_noPush h1 h2 h3 hport, finishReply_plain h4 h5 h6, if_neg (by simp [hp])]
  · obtain ⟨hfree, hdone⟩ := h.resolve_left (by simp [hp])
    have hf := hfree e he h24
    by_cases hc : q.cleaned = true
    · rw [takeReply_cleaned h1 h2 h3 hport hf hc, finishReply_plain h4 h5 h6, if_neg (by simp [hc])]
    · obtain ⟨hl, ho⟩ := hdone.resolve_left hc
      have hc : q.cleaned = false := by simpa using hc
      rw [takeReply_releases h1 h2 h3 hport hf hc hl ho, finishReply_plain h4 h5 h6, if_pos ⟨hp, hc⟩, (SamePlace.release t t.rank).rank]
variable (hp : pushes q = true) (hfree : ∀ e ∈ q.writes, 24 ≤ e.1 → t.checkFreed (BitVec.ofNat 5 e.1) = none) (hc : q.cleaned = false)
include hp hfree hc
theorem takeReply_behind (hl : t.cycle < t.myCore.relEnd) : takeReply w q t = replyAgain t q (t.myCore.relEnd - t.cycle) := by
  obtain ⟨hp', -⟩ | ⟨-, e, he, h24, hport⟩ := pushPort_cases h4 h5
  · rw [hp] at hp'; cases hp'
  · exact takeReply_waits h1 h2 h3 hport (hfree e he h24) hc hl
theorem takeReply_cleaning (hl : t.myCore.relEnd ≤ t.cycle) (ho : t.cycle < (t.release t.rank).myCore.relEnd) : takeReply w q t =
    replyAgain (t.release t.rank) { q with cleaned := true } ((t.release t.rank).myCore.relEnd - t.cycle) := by
  obtain ⟨hp', -⟩ | ⟨-, e, he, h24, hport⟩ := pushPort_cases h4 h5
  · rw [hp] at hp'; cases hp'
  · exact takeReply_cleans h1 h2 h3 hport (hfree e he h24) hc hl ho
end
/-- A reply that writes registers only ends the wait, and its berth is ready in the next cycle. -/
theorem finishPut_waited {t : State} {w : Wait} {q : Reply} (hb : t.buffered = false) (hw : t.me.wait = some w) (hd : t.me.drowsy = false)
    (hr : t.me.readyAt ≤ t.cycle + 1) (hs : q.srcs = []) (hp : pushes q = false) (ha : q.acquire = false) :
    (finishPut q t).me.wait = none ∧ (finishPut q t).me.readyAt = t.cycle + 1 := by
  have k := SameWait.put t hs hp ha
  rw [← k.cycle]
  rw [← k.buffered] at hb
  rw [← k.wait] at hw
  rw [← k.drowsy] at hd
  rw [← k.readyAt, ← k.cycle] at hr
  unfold finishPut
  split
  · exact jump_waited hb hw hd hr _
  · exact next_waited hb hw hd hr

theorem replies : Replies := by
  intro s r b w q hb k t res
  refine ⟨exec_replyArrival_noWait hb, fun hk hq => exec_replyArrival_noReply hb hk hq,
    fun hk hq hd => exec_replyArrival_drowsy hb hk hq hd, fun hk hq hd => ?_⟩
  have taken {u : State} (h : takeReply w q (replyState s r b q) = u) : exec (.replyArrival r b) s = .next (res u) := by
    rw [exec_replyArrival_taken hb hk hq hd, h]; rfl
  refine ⟨fun c v ht => taken (takeReply_trap rfl ht), fun h1 h2 => taken (takeReply_refetch h1 h2), fun h1 h2 h3 => ?_, ?_⟩
  · refine taken ((takeReply_again h1 h2 h3).trans (modMyWait_berth ?_ _))
    exact (put_samePlace _ q).buffered
  · intro h1 h2 h3 h4 h5 h6 _ _ _
    refine ⟨fun h => taken (takeReply_finishes h4 h5 h1 h2 h3 h6 h), fun hp hf hc => ⟨fun hl => ?_, fun hl ho => ?_⟩, ?_, ?_⟩
    · exact taken (takeReply_behind h4 h5 h1 h2 h3 hp hf hc hl)
    · exact taken (takeReply_cleaning h4 h5 h1 h2 h3 hp hf hc hl ho)
    · intro d v c hws h24 h32 hf
      have hport := pushPort_single h4 h5 hws h24
      refine ⟨?_, taken (takeReply_freed h1 h2 h3 hport rfl hf)⟩
      rw [checkFreed_some hf, BitVec.toNat_ofNat, Nat.mod_eq_of_lt h32]
    · intro hp hpast hr hs ha hacc
      have hc : (replyState s r b q).cycle = s.cycle := by simp [replyState, hpast]
      have fin := finishPut_waited (t := replyState s r b q) rfl hk hd (by rw [hc]; exact hr) hs hp ha
      have place := finishPut_samePlace q (replyState s r b q)
      refine ⟨_, taken (takeReply_finishes h4 h5 h1 h2 h3 h6 (.inl hp)), ?_⟩
      rw [if_neg (by simp [hp]), endTransfer_none hacc]
      have hme : (finishPut q (replyState s r b q)).me = (finishPut q (replyState s r b q)).berthAt r b := by
        rw [me, place.rank, place.berth]; rfl
      rw [hme, hc] at fin
      exact fin

/-- Settles O19, part by part: completions, long effects, replies, mooring and places. -/
theorem bargeProgress : Obligations.BargeProgress := ⟨nextMovesOn, longEffects, replies, mooring, places⟩
end Sys2Proof.Machine
end

section
/-! PROOFS OF THE SCOPE. Reading the fields of a word, and the two directions between the decoder's tables and the encoder. -/
namespace Sys2Proof

/-! ### Reading a field of a word that is a sum of fields (R38, R39)

A field `u` of `k` bits stands at `m` when it is added as `u.toNat * m` where the rest of the word, `x`, has zeros. -/

section
variable {x v l n m k c : Nat} {u : BitVec k}

/-- What stands above the low bits that are read does not count. -/
theorem mod_above (h : m % n = 0) : (x + v * m) % n = x % n := by
  obtain ⟨c, rfl⟩ := Nat.dvd_of_mod_eq_zero h
  rw [Nat.mul_left_comm, Nat.add_mul_mod_self_left]
theorem read_above (h : m % (l * n) = 0) : (x + v * m) / l % n = x / l % n := by
  rw [← Nat.mod_mul_right_div_self, mod_above h, Nat.mod_mul_right_div_self]

/-- A field carries nothing into the bits above it. -/
theorem div_add_field (h : x / m % 2 ^ k = 0) : (x + u.toNat * m) / (m * 2 ^ k) = x / (m * 2 ^ k) := by
  rcases Nat.eq_zero_or_pos m with rfl | hm
  · simp
  rw [← Nat.div_div_eq_div_mul, Nat.add_mul_div_right _ _ hm, ← Nat.div_div_eq_div_mul, ← Nat.div_add_mod (x / m) (2 ^ k), h, Nat.add_zero,
    Nat.mul_add_div (Nat.two_pow_pos k), Nat.div_eq_of_lt u.isLt, Nat.add_zero, Nat.mul_div_cancel_left _ (Nat.two_pow_pos k)]
theorem div_below (h : x / m % 2 ^ k = 0) (hl : l % (m * 2 ^ k) = 0) : (x + u.toNat * m) / l = x / l := by
  obtain ⟨c, rfl⟩ := Nat.dvd_of_mod_eq_zero hl
  rw [← Nat.div_div_eq_div_mul, div_add_field h, Nat.div_div_eq_div_mul]

/-- A range of bits that holds a whole field is the rest of the range and the field. -/
theorem mod_span (h : x / m % 2 ^ k = 0) (hn : n % (m * 2 ^ k) = 0) : (x + u.toNat * m) % n = x % n + u.toNat * m := by
  obtain ⟨c, rfl⟩ := Nat.dvd_of_mod_eq_zero hn
  have e : (x + u.toNat * m) % (m * 2 ^ k) = x % (m * 2 ^ k) + u.toNat * m := by
    have h1 := Nat.div_add_mod x (m * 2 ^ k)
    have h2 := Nat.div_add_mod (x + u.toNat * m) (m * 2 ^ k)
    rw [div_add_field h] at h2
    omega
  rw [Nat.mod_mul, div_add_field h, e, Nat.mod_mul (a := m * 2 ^ k) (b := c) (x := x), Nat.add_right_comm]
theorem read_span (h : x / m % 2 ^ k = 0) (hl : m % l = 0) (hn : n % (m / l * 2 ^ k) = 0) (hp : 0 < l) :
    (x + u.toNat * m) / l % n = x / l % n + u.toNat * (m / l) := by
  obtain ⟨q, rfl⟩ := Nat.dvd_of_mod_eq_zero hl
  rw [Nat.mul_div_cancel_left _ hp] at hn ⊢
  rw [Nat.mul_left_comm, Nat.add_mul_div_left _ _ hp, mod_span (by rw [Nat.div_div_eq_div_mul, h]) hn]

/-- A field read at its place is its value. -/
theorem ofNat_at (h : x / m % 2 ^ k = 0) (hm : 0 < m) : BitVec.ofNat k ((x + u.toNat * m) / m) = u := by
  refine BitVec.eq_of_toNat_eq ?_
  rw [BitVec.toNat_ofNat, Nat.add_mul_div_right _ _ hm, Nat.add_mod, h, Nat.zero_add, Nat.mod_mod, Nat.mod_eq_of_lt u.isLt]

/-! The same for the field at bit 0, which is added as it is. -/

theorem div_below_last (h : x % 2 ^ k = 0) (hl : l % 2 ^ k = 0) : (x + u.toNat) / l = x / l := by
  simpa using div_below (m := 1) (u := u) (by simpa using h) (by simpa using hl)
theorem mod_span_last (h : x % 2 ^ k = 0) (hn : n % 2 ^ k = 0) : (x + u.toNat) % n = x % n + u.toNat := by
  simpa using mod_span (m := 1) (u := u) (by simpa using h) (by simpa using hn)
theorem ofNat_at_last (h : x % 2 ^ k = 0) : BitVec.ofNat k (x + u.toNat) = u := by
  simpa using ofNat_at (m := 1) (u := u) (by simpa using h) Nat.one_pos

/-- A range that differs below a field differs. -/
theorem add_mul_ne (h : x % m ≠ c % m) : (x + v * m = c) ↔ False := by
  refine iff_false_intro ?_
  rintro rfl
  exact h (Nat.add_mul_mod_self_right x v m).symm
theorem add_ne_of_lt (h : c < x) : (x + v = c) ↔ False := iff_false_intro (by omega)

end

/-! ### Encoding, then decoding: one conjunct for each row of the tables, with every operand -/

/-- The number of the instruction decodes to it. -/
def RoundTrips (i : Instr) : Prop := decodeRaw (encodeNat i) = .ok i
/-- So does each of the list's. -/
def AllRoundTrip (l : List Instr) : Prop := ∀ i ∈ l, RoundTrips i
theorem allRoundTrip_nil : AllRoundTrip [] ↔ True := by simp [AllRoundTrip]
theorem allRoundTrip_cons {i : Instr} {l : List Instr} : AllRoundTrip (i :: l) ↔ RoundTrips i ∧ AllRoundTrip l := List.forall_mem_cons

/-- The words of integer arithmetic (0x01 to 0x09). -/
theorem integer_roundTrips :
    (∀ d a b : BitVec 5, AllRoundTrip [.add d a b, .sub d a b, .and d a b, .or d a b, .xor d a b, .andn d a b, .orn d a b, .sll d a b,
      .srl d a b, .sra d a b, .ror d a b, .addw d a b, .subw d a b, .mul d a b, .mulh d a b, .mulhu d a b, .mulhsu d a b, .div d a b,
      .divu d a b, .rem d a b, .remu d a b, .min d a b, .max d a b, .minu d a b, .maxu d a b]) ∧
    (∀ d a : BitVec 5, AllRoundTrip [.clz d a, .ctz d a, .popc d a, .sextb d a, .sexth d a, .sextw d a, .zextw d a]) ∧
    (∀ (d a : BitVec 5) (im : BitVec 15), AllRoundTrip [.addi d a im, .andi d a im, .ori d a im, .xori d a im, .addiw d a im]) ∧
    (∀ (d a : BitVec 5) (n : BitVec 6), AllRoundTrip [.slli d a n, .srli d a n, .srai d a n, .rori d a n]) ∧
    (∀ (d : BitVec 5) (im : BitVec 20), AllRoundTrip [.lui d im, .auipc d im]) := by
  simp only [allRoundTrip_nil, allRoundTrip_cons, RoundTrips]
  unfold encodeNat
  simp only [decodeRaw, decodeMajor, decodeCore, decodeOp01, decodeOp02,
    decodeOp03, decodeOp04, decodeOp05, decodeOp06, decodeOp07, decodeOp08, decodeOp09, Option.elim_some, mod_above, read_above,
    div_below, div_below_last, ofNat_at, ofNat_at_last, ↓reduceIte, Nat.reduceMod, Nat.reduceDiv, Nat.reducePow, Nat.reduceMul,
    Nat.reduceEqDiff, Nat.reduceLT, Nat.ofNat_pos, OfNat.ofNat_ne_zero, OfNat.ofNat_ne_one, and_self, implies_true, one_ne_zero]
/-- The words of compares, predicates and jumps (0x0A to 0x17). -/
theorem branch_roundTrips :
    (∀ p a b : BitVec 5, AllRoundTrip [.cmpEq p a b, .cmpNe p a b, .cmpLt p a b, .cmpLtu p a b, .cmpGe p a b, .cmpGeu p a b, .pand p a b,
      .por p a b, .pxor p a b, .pandn p a b]) ∧
    (∀ (p a : BitVec 5) (im : BitVec 15), AllRoundTrip [.cmpiEq p a im, .cmpiNe p a im, .cmpiLt p a im, .cmpiLtu p a im,
      .cmpiGe p a im, .cmpiGeu p a im, .jalr p a im]) ∧
    (∀ d a : BitVec 5, AllRoundTrip [.pmov d a]) ∧
    (∀ a : BitVec 5, AllRoundTrip [.psetP a, .selP a]) ∧
    (∀ (p : BitVec 5) (o : BitVec 19), AllRoundTrip [.bpT p o, .bpF p o]) ∧
    (∀ o : BitVec 20, AllRoundTrip [.j o]) ∧
    (∀ (d : BitVec 5) (o : BitVec 20), AllRoundTrip [.jal d o]) := by
  simp only [allRoundTrip_nil, allRoundTrip_cons, RoundTrips]
  unfold encodeNat
  simp only [decodeRaw, decodeMajor, decodeCore, decodeOp0A, decodeOp0B,
    decodeOp0C, decodeOp0D, decodeOp0E, decodeOp0F, decodeOp10, decodeOp11, decodeOp12, decodeOp14, decodeOp15, decodeOp16, decodeOp17,
    Option.elim_some, mod_above, read_above, div_below, div_below_last, ofNat_at, ofNat_at_last, ↓reduceIte, Nat.reduceMod,
    Nat.reduceDiv, Nat.reducePow, Nat.reduceMul, Nat.reduceEqDiff, Nat.reduceLT, Nat.ofNat_pos, OfNat.ofNat_ne_zero, OfNat.ofNat_ne_one,
    and_false, and_self, ne_eq, not_true_eq_false, implies_true, one_ne_zero, zero_ne_one]
/-- The words of scalar memory (0x1C to 0x2F). -/
theorem memory_roundTrips :
    (∀ (d a : BitVec 5) (im : BitVec 15), AllRoundTrip [.ldb d a im, .ldbu d a im, .ldh d a im, .ldhu d a im, .ldw d a im, .ldwu d a im,
      .ldd d a im, .stb d a im, .sth d a im, .stw d a im, .std d a im, .ldsync d a im, .stfull d a im, .ferd d a im]) ∧
    (∀ (d : BitVec 4) (a : BitVec 5) (im : BitVec 15), AllRoundTrip [.ldf d a im, .stf d a im]) ∧
    (∀ (a : BitVec 5) (im : BitVec 15), AllRoundTrip [.feclr a im]) ∧
    (∀ d a b : BitVec 5, AllRoundTrip [.rld d a b]) ∧
    (∀ a b : BitVec 5, AllRoundTrip [.rst a b]) ∧
    (∀ a : BitVec 5, AllRoundTrip [.pfd a, .icpf a]) ∧
    (∀ (d a b : BitVec 5) (w q r : BitVec 1), AllRoundTrip [.amoAdd d a b w q r, .amoAnd d a b w q r, .amoOr d a b w q r,
      .amoXor d a b w q r, .amoMin d a b w q r, .amoMax d a b w q r, .amoMinu d a b w q r, .amoMaxu d a b w q r, .amoSwap d a b w q r,
      .amoCas d a b w q r]) ∧
    (∀ (d a b : BitVec 5) (q r : BitVec 1), AllRoundTrip [.amoFadd d a b q r]) ∧
    (∀ (a b : BitVec 5) (l : BitVec 2), AllRoundTrip [.cmoClean a b l, .cmoInv a b l, .cmoClinv a b l]) := by
  simp only [allRoundTrip_nil, allRoundTrip_cons, RoundTrips]
  unfold encodeNat
  simp only [decodeRaw, decodeMajor, decodeCore, decodeOp1C, decodeOp1D,
    decodeOp1E, decodeOp1F, decodeOp20, decodeOp21, decodeOp22, decodeOp23, decodeOp24, decodeOp25, decodeOp26, decodeOp27, decodeOp28,
    decodeOp29, decodeOp2A, decodeOp2B, decodeOp2C, decodeOp2D, decodeOp2E, decodeOp2F, Option.elim_some, mod_above, read_above,
    div_below, div_below_last, ofNat_at, ofNat_at_last, ↓reduceIte, Nat.reduceMod, Nat.reduceDiv, Nat.reducePow, Nat.reduceMul,
    Nat.reduceEqDiff, Nat.reduceLT, Nat.ofNat_pos, OfNat.ofNat_ne_zero, OfNat.ofNat_ne_one, false_and, and_false, and_self, implies_true,
    one_ne_zero]
/-- The words of scalar floats (0x30 to 0x34). -/
theorem float_roundTrips :
    (∀ d a b : BitVec 4, AllRoundTrip [.fadd d a b, .fsub d a b, .fmul d a b, .fdiv d a b, .fmin d a b, .fmax d a b, .fsgnj d a b,
      .fsgnjn d a b, .fsgnjx d a b]) ∧
    (∀ d a : BitVec 4, AllRoundTrip [.fsqrt d a, .fcvtBfF d a, .fcvtFBf d a, .fcvtHfF d a, .fcvtFHf d a]) ∧
    (∀ (d : BitVec 5) (a : BitVec 4), AllRoundTrip [.fclass d a, .fcvtI32F d a, .fcvtI64F d a, .fmvx d a]) ∧
    (∀ d a b c : BitVec 4, AllRoundTrip [.fma d a b c, .fms d a b c, .fnma d a b c]) ∧
    (∀ (p : BitVec 5) (a b : BitVec 4), AllRoundTrip [.fcmpEq p a b, .fcmpLt p a b, .fcmpLe p a b, .fcmpUn p a b]) ∧
    (∀ (d : BitVec 4) (a : BitVec 5), AllRoundTrip [.fcvtFI32 d a, .fcvtFI64 d a, .fmvf d a]) := by
  simp only [allRoundTrip_nil, allRoundTrip_cons, RoundTrips]
  unfold encodeNat
  simp only [decodeRaw, decodeMajor, decodeCore, decodeOp30, decodeOp31,
    decodeOp32, decodeOp33, decodeOp34, Option.elim_some, mod_above, read_above, div_below, div_below_last, mod_span, ofNat_at,
    ofNat_at_last, add_ne_of_lt, ↓reduceIte, Nat.reduceMod, Nat.reduceDiv, Nat.reducePow, Nat.reduceMul, Nat.reduceEqDiff, Nat.reduceLT,
    Nat.ofNat_pos, OfNat.ofNat_ne_zero, OfNat.ofNat_ne_one, false_and, and_self, implies_true, one_ne_zero]
/-- The words of vector memory and arithmetic (0x38 to 0x3E). -/
theorem vector_roundTrips :
    (∀ (d : BitVec 4) (a : BitVec 5) (im : BitVec 15), AllRoundTrip [.vld d a im, .vst d a im]) ∧
    (∀ (d : BitVec 4) (a b : BitVec 5) (m : BitVec 1), AllRoundTrip [.vlds d a b m, .vsts d a b m]) ∧
    (∀ (d : BitVec 4) (a : BitVec 5) (b : BitVec 4) (m : BitVec 1), AllRoundTrip [.vldx d a b m, .vstx d a b m]) ∧
    (∀ (d : BitVec 4) (a : BitVec 5), AllRoundTrip [.vbcast d a]) ∧
    (∀ (d : BitVec 5) (a : BitVec 4) (n : BitVec 5), AllRoundTrip [.vextr d a n]) ∧
    (∀ (d a b : BitVec 4) (m : BitVec 1), AllRoundTrip [.vadd d a b m, .vsub d a b m, .vmul d a b m, .vmin d a b m, .vmax d a b m,
      .viadd d a b m, .visub d a b m, .vimul d a b m, .vand d a b m, .vor d a b m, .vxor d a b m, .vsll d a b m, .vsrl d a b m,
      .vsra d a b m]) ∧
    (∀ (d a b c : BitVec 4) (m : BitVec 1), AllRoundTrip [.vfma d a b c m, .vfms d a b c m]) ∧
    (∀ (d a : BitVec 4) (m : BitVec 1), AllRoundTrip [.vabs d a m, .vrcp d a m, .vrsq d a m, .vexp2 d a m, .vlog2 d a m]) := by
  simp only [allRoundTrip_nil, allRoundTrip_cons, RoundTrips]
  unfold encodeNat
  simp only [decodeRaw, decodeMajor, decodeCore, decodeOp38, decodeOp39,
    decodeOp3A, decodeOp3B, decodeOp3C, decodeOp3D, decodeOp3E, Option.elim_some, mod_above, read_above, div_below, div_below_last,
    mod_span_last, read_span, ofNat_at, ofNat_at_last, add_ne_of_lt, ↓reduceIte, Nat.reduceMod, Nat.reduceDiv, Nat.reducePow,
    Nat.reduceMul, Nat.reduceEqDiff, Nat.reduceLT, Nat.ofNat_pos, OfNat.ofNat_ne_zero, OfNat.ofNat_ne_one, Nat.zero_add, Nat.mul_one,
    false_and, and_self, implies_true, one_ne_zero]
/-- The words of lane compares, moves, conversions, reductions (0x3F to 0x44). -/
theorem lane_roundTrips :
    (∀ (a b : BitVec 4) (m : BitVec 1), AllRoundTrip [.vcmpEq a b m, .vcmpNe a b m, .vcmpLt a b m, .vcmpLtu a b m, .vcmpGe a b m,
      .vcmpGeu a b m, .vcmpFeq a b m, .vcmpFlt a b m, .vcmpFle a b m, .vcmpFun a b m]) ∧
    (∀ d a b : BitVec 4, AllRoundTrip [.vsel d a b]) ∧
    (∀ (d a b : BitVec 4) (m : BitVec 1), AllRoundTrip [.vshuf d a b m]) ∧
    (∀ (d a b : BitVec 4) (m : BitVec 1) (n : BitVec 5), AllRoundTrip [.vslideUp d a b m n, .vslideDn d a b m n]) ∧
    (∀ (d a : BitVec 4) (m : BitVec 1) (r : BitVec 3), AllRoundTrip [.vcvtI32F d a m r, .vcvtFI32 d a m r]) ∧
    (∀ (d a : BitVec 4) (h m : BitVec 1) (r : BitVec 3), AllRoundTrip [.vcvtBfF d a h m r, .vcvtHfF d a h m r]) ∧
    (∀ (d a : BitVec 4) (h m : BitVec 1), AllRoundTrip [.vcvtFBf d a h m, .vcvtFHf d a h m]) ∧
    (∀ (d a : BitVec 4) (q : BitVec 2) (m : BitVec 1), AllRoundTrip [.vencT0 d a q m, .vencT1 d a q m, .vdecT0 d a q m,
      .vdecT1 d a q m]) ∧
    (∀ (d a : BitVec 4) (e : BitVec 3) (m : BitVec 1), AllRoundTrip [.vencE2 d a e m, .vdecE2 d a e m]) ∧
    (∀ (t : BitVec 1) (a : BitVec 5) (im : BitVec 15), AllRoundTrip [.dtabLd t a im]) ∧
    (∀ (d a : BitVec 4) (m : BitVec 1) (k : BitVec 4), AllRoundTrip [.vred d a m k, .vscan d a m k]) ∧
    (∀ (d a b c : BitVec 4) (m : BitVec 1) (f : BitVec 4), AllRoundTrip [.vscanl d a b c m f]) ∧
    (∀ (d a b sc : BitVec 4) (q : BitVec 2), AllRoundTrip [.vdotbX8 d a b sc q]) ∧
    (∀ (d a b sc : BitVec 4) (e : BitVec 3), AllRoundTrip [.vdotbX4 d a b sc e]) := by
  simp only [allRoundTrip_nil, allRoundTrip_cons, RoundTrips]
  unfold encodeNat
  simp only [decodeRaw, decodeMajor, decodeCore, decodeOp3F, decodeOp40,
    decodeOp41, decodeOp42, decodeOp43, decodeOp44, Option.elim_some, mod_above, read_above, div_below, div_below_last, mod_span,
    mod_span_last, read_span, ofNat_at, ofNat_at_last, add_ne_of_lt, ↓reduceIte, Nat.reduceMod, Nat.reduceDiv, Nat.reducePow,
    Nat.reduceMul, Nat.reduceEqDiff, Nat.reduceLT, Nat.ofNat_pos, OfNat.ofNat_ne_zero, OfNat.ofNat_ne_one, Nat.add_eq_zero_iff,
    Nat.zero_add, Nat.mul_one, false_and, and_self, implies_true, one_ne_zero]
/-- The words of the matrix unit (0x48 to 0x54). -/
theorem matrix_roundTrips :
    (∀ (c : BitVec 3) (a : BitVec 5) (n t : BitVec 1) (k : BitVec 3), AllRoundTrip [.mmaBf c a n t k, .mmaHf c a n t k, .mmaE4 c a n t k,
      .mmaE45 c a n t k, .mmaE5 c a n t k, .mmaI8 c a n t k]) ∧
    (∀ (c : BitVec 3) (a sc : BitVec 5) (n t : BitVec 1) (k : BitVec 3), AllRoundTrip [.mmaX8 c a sc n t k, .mmaX84 c a sc n t k,
      .mmaX4 c a sc n t k]) ∧
    (∀ c : BitVec 3, AllRoundTrip [.acq c, .rel c, .azero c]) ∧
    (∀ (d : BitVec 5) (c : BitVec 3), AllRoundTrip [.apois d c]) ∧
    (∀ (c : BitVec 3) (a : BitVec 5), AllRoundTrip [.ald c a]) ∧
    (∀ (c : BitVec 3) (a : BitVec 5) (sc : BitVec 1) (r : BitVec 3) (f : BitVec 4), AllRoundTrip [.ast c a sc r f]) ∧
    (∀ (d : BitVec 4) (c : BitVec 3) (b : BitVec 5), AllRoundTrip [.arow d c b]) ∧
    (∀ (c : BitVec 3) (a : BitVec 4) (b : BitVec 5), AllRoundTrip [.awr c a b]) ∧
    (∀ a b : BitVec 5, AllRoundTrip [.bld a b, .tldt a b]) ∧
    (∀ a : BitVec 5, AllRoundTrip [.brot a, .bstat a]) := by
  simp only [allRoundTrip_nil, allRoundTrip_cons, RoundTrips]
  unfold encodeNat
  simp only [decodeRaw, decodeMajor, decodeCore, decodeOp48, decodeOp49,
    decodeOp4A, decodeOp4B, decodeOp4C, decodeOp4D, decodeOp4E, decodeOp4F, decodeOp50, decodeOp51, decodeOp52, decodeOp53, decodeOp54,
    Option.elim_some, mod_above, read_above, div_below, div_below_last, mod_span, mod_span_last, read_span, ofNat_at, ofNat_at_last,
    add_mul_ne, add_ne_of_lt, ↓reduceIte, Nat.reduceMod, Nat.reduceDiv, Nat.reducePow, Nat.reduceMul, Nat.reduceEqDiff, Nat.reduceLT,
    Nat.ofNat_pos, OfNat.ofNat_ne_zero, OfNat.ofNat_ne_one, Nat.add_eq_zero_iff, Nat.zero_add, Nat.mul_one, false_and, and_self, ne_eq,
    not_false_eq_true, implies_true, one_ne_zero]
/-- The words of barges (0x58 to 0x5D). -/
theorem barge_roundTrips :
    (∀ (p : BitVec 5) (o : BitVec 20), AllRoundTrip [.spawn p o, .spawnr p o]) ∧
    (∀ o : BitVec 20, AllRoundTrip [.spawnc o, .nextch o]) ∧
    AllRoundTrip [.await, .exit, .yield, .moor, .unmoor] ∧
    (∀ d : BitVec 5, AllRoundTrip [.frame d, .cancel d]) ∧
    (∀ d a b : BitVec 5, AllRoundTrip [.place d a b]) ∧
    (∀ (d a : BitVec 5) (p : BitVec 15), AllRoundTrip [.rankof d a p]) := by
  simp only [allRoundTrip_nil, allRoundTrip_cons, RoundTrips]
  unfold encodeNat
  simp only [decodeRaw, decodeMajor, decodeCore, decodeOp58, decodeOp59,
    decodeOp5A, decodeOp5B, decodeOp5C, decodeOp5D, Option.elim_some, mod_above, read_above, div_below, div_below_last, mod_span,
    read_span, ofNat_at, ofNat_at_last, add_mul_ne, add_ne_of_lt, ↓reduceIte, Nat.reduceMod, Nat.reduceDiv, Nat.reducePow, Nat.reduceMul,
    Nat.reduceEqDiff, Nat.reduceLT, Nat.ofNat_pos, OfNat.ofNat_ne_zero, OfNat.ofNat_ne_one, Nat.add_eq_zero_iff, Nat.zero_add,
    Nat.mul_one, false_and, and_self, ne_eq, not_false_eq_true, implies_true, one_ne_zero]
/-- The words of nodes, channels, sluices and the staircase (0x60 to 0x6E). -/
theorem net_roundTrips :
    (∀ d a : BitVec 5, AllRoundTrip [.alloc d a, .nstat d a, .portp d a, .link d a, .join d a, .linkn d a, .paydup d a, .payown d a,
      .chstat d a, .sluStat d a, .scFork d a, .scRoll d a, .scSave d a, .scLoad d a]) ∧
    (∀ a : BitVec 5, AllRoundTrip [.free a, .netaud a, .chfree a, .sluCan a, .scClose a]) ∧
    AllRoundTrip [.ruleend] ∧
    (∀ d a b : BitVec 5, AllRoundTrip [.portn d a b, .paydrop d a b, .scOpen d a b, .scMask d a b, .scStat d a b, .rng d a b,
      .smpLoc d a b, .smpMrg d a b, .smpTopk d a b]) ∧
    (∀ (l : BitVec 3) (f : BitVec 2) (a : BitVec 5) (p : BitVec 15), AllRoundTrip [.chbind l f a p]) ∧
    (∀ im : BitVec 4, AllRoundTrip [.cbar im]) ∧
    (∀ (d a : BitVec 5) (im : BitVec 4), AllRoundTrip [.cbarcfg d a im]) ∧
    (∀ (d a b : BitVec 5) (f e : BitVec 1), AllRoundTrip [.sluCopy d a b f e, .sluFill d a b f e]) ∧
    (∀ d a b im : BitVec 5, AllRoundTrip [.scStep d a b im]) ∧
    (∀ (d : BitVec 4) (a b : BitVec 5), AllRoundTrip [.rngu d a b]) := by
  simp only [allRoundTrip_nil, allRoundTrip_cons, RoundTrips]
  unfold encodeNat
  simp only [decodeRaw, decodeMajor, decodeSys, decodeOp60, decodeOp61,
    decodeOp62, decodeOp63, decodeOp68, decodeOp69, decodeOp6A, decodeOp6B, decodeOp6C, decodeOp6D, decodeOp6E, Option.elim_some,
    mod_above, read_above, div_below, div_below_last, mod_span, read_span, ofNat_at, ofNat_at_last, add_mul_ne, add_ne_of_lt, ↓reduceIte,
    Nat.reduceMod, Nat.reduceDiv, Nat.reducePow, Nat.reduceMul, Nat.reduceEqDiff, Nat.reduceLT, Nat.ofNat_pos, OfNat.ofNat_ne_zero,
    OfNat.ofNat_ne_one, Nat.add_eq_zero_iff, Nat.zero_add, Nat.mul_one, false_and, and_self, ne_eq, not_false_eq_true, implies_true,
    one_ne_zero]
/-- The words of repetition, CSRs, traps and launches (0x70 to 0x77). -/
theorem system_roundTrips :
    (∀ (n : BitVec 8) (l : BitVec 2) (sc : BitVec 1) (m : BitVec 12), AllRoundTrip [.rpt n l sc m, .rptD n l sc m]) ∧
    (∀ d a : BitVec 5, AllRoundTrip [.borrow d a, .lnch d a]) ∧
    AllRoundTrip [.giveb, .ecall, .ebreak, .tret, .wfi, .isync] ∧
    (∀ d a c : BitVec 5, AllRoundTrip [.xmovt d a c, .xmovf d a c, .pspill d a c, .prest d a c]) ∧
    (∀ (d : BitVec 5) (c : BitVec 12), AllRoundTrip [.csrr d c]) ∧
    (∀ (d a : BitVec 5) (c : BitVec 12), AllRoundTrip [.csrw d a c, .csrs d a c, .csrc d a c]) ∧
    (∀ a : BitVec 5, AllRoundTrip [.lcancel a]) := by
  simp only [allRoundTrip_nil, allRoundTrip_cons, RoundTrips]
  unfold encodeNat
  simp only [decodeRaw, decodeMajor, decodeSys, decodeOp70, decodeOp71,
    decodeOp72, decodeOp74, decodeOp75, decodeOp76, decodeOp77, Option.elim_some, mod_above, read_above, div_below, div_below_last,
    read_span, ofNat_at, ofNat_at_last, add_ne_of_lt, ↓reduceIte, Nat.reduceMod, Nat.reduceDiv, Nat.reducePow, Nat.reduceMul,
    Nat.reduceEqDiff, Nat.reduceLT, Nat.ofNat_pos, OfNat.ofNat_ne_zero, OfNat.ofNat_ne_one, and_false, and_self, implies_true,
    one_ne_zero]

/-! Three rows leave a value to the row before them or after them, which `Instr.wf` keeps out. -/

theorem pset_roundTrips (d a : BitVec 5) (h : ¬ d.toNat = 0) : RoundTrips (.pset d a) := by
  unfold RoundTrips encodeNat
  simp only [decodeRaw, decodeMajor, decodeCore, decodeOp11, Option.elim_some, mod_above, read_above, div_below,
    read_span, ofNat_at, h, ↓reduceIte, Nat.reduceMod, Nat.reduceDiv, Nat.reducePow, Nat.reduceMul, Nat.reduceEqDiff, Nat.reduceLT,
    Nat.ofNat_pos, OfNat.ofNat_ne_zero, OfNat.ofNat_ne_one, Nat.zero_add, Nat.mul_one, and_false]
theorem sel_roundTrips (d a b im : BitVec 5) (h : ¬ im.toNat = 0) : RoundTrips (.sel d a b im) := by
  unfold RoundTrips encodeNat
  simp only [decodeRaw, decodeMajor, decodeCore, decodeOp12, Option.elim_some, mod_above, read_above, div_below,
    div_below_last, mod_span_last, ofNat_at, ofNat_at_last, h, ↓reduceIte, Nat.reduceMod, Nat.reduceDiv, Nat.reducePow, Nat.reduceMul,
    Nat.reduceEqDiff, Nat.reduceLT, Nat.ofNat_pos, OfNat.ofNat_ne_one, Nat.zero_add, and_self, ne_eq, not_false_eq_true]
theorem porta_roundTrips (d a : BitVec 5) (k : BitVec 2) (h : ¬ k.toNat = 0) : RoundTrips (.porta d a k) := by
  unfold RoundTrips encodeNat
  simp only [decodeRaw, decodeMajor, decodeSys, decodeOp61, Option.elim_some, mod_above, read_above, div_below,
    div_below_last, mod_span_last, ofNat_at, ofNat_at_last, h, ↓reduceIte, Nat.reduceMod, Nat.reduceDiv, Nat.reducePow, Nat.reduceMul,
    Nat.reduceEqDiff, Nat.reduceLT, Nat.ofNat_pos, Nat.zero_add]

/-- R38 to R46: the number of every well-formed instruction that has a word decodes to it. -/
theorem roundTrips_of_wf {i : Instr} (hw : i.wf = true) (he : i.encoded = true) : RoundTrips i := by
  have h := And.intro integer_roundTrips (And.intro branch_roundTrips (And.intro memory_roundTrips (And.intro float_roundTrips
    (And.intro vector_roundTrips (And.intro lane_roundTrips (And.intro matrix_roundTrips (And.intro barge_roundTrips
    (And.intro net_roundTrips system_roundTrips))))))))
  simp only [allRoundTrip_nil, allRoundTrip_cons, and_true] at h
  cases i
  case pset d a => exact pset_roundTrips d a (bne_iff_ne.1 (Bool.and_eq_true_iff.1 hw).2)
  case sel d a b im => exact sel_roundTrips d a b im (bne_iff_ne.1 (Bool.and_eq_true_iff.1 hw).2)
  case porta d a k => exact porta_roundTrips d a k (bne_iff_ne.1 (Bool.and_eq_true_iff.1 hw).2)
  any_goals simp only [h]
  all_goals exact Bool.noConfusion he

/-- A number that decodes fits the word (R38). -/
theorem lt_of_decodeRaw_ok {n : Nat} {i : Instr} (h : decodeRaw n = .ok i) : n < 4294967296 := by
  by_contra hn
  have : decodeRaw n = .error .opcode := by simp (disch := omega) only [decodeRaw, decodeMajor, decodeSys, if_neg]
  rw [this] at h
  cases h

/-! ### Decoding, then encoding: table by table (R43) -/

/-- Whatever is read from a word has that word. -/
def ReadsBack (w : Nat) (o : Option Instr) : Prop := ∀ i, o = some i → encodeNat i = w ∧ i.encoded = true
theorem readsBack_none {w : Nat} : ReadsBack w none := fun i h => (Option.some_ne_none i h.symm).elim
theorem readsBack_some {w : Nat} {i : Instr} (h : encodeNat i = w) (he : i.encoded = true) : ReadsBack w (some i) :=
  fun _ e => Option.some.inj e ▸ ⟨h, he⟩
/-- A row of a table, and the rows after it. -/
theorem readsBack_ite {w : Nat} {c : Prop} [Decidable c] {o r : Option Instr} (ho : c → ReadsBack w o) (hr : ReadsBack w r) :
    ReadsBack w (if c then o else r) := by
  split
  · exact ho ‹c›
  · exact hr

/-- The table `t` of major opcode `op` reads back. -/
def TableOk (op : Nat) (t : Nat → Option Instr) : Prop := ∀ w, w / 33554432 = op → ReadsBack w (t w)

/-- The tables of integer arithmetic (0x01 to 0x09). -/
theorem integer_tables :
    TableOk 0x01 decodeOp01 ∧ TableOk 0x02 decodeOp02 ∧ TableOk 0x03 decodeOp03 ∧ TableOk 0x04 decodeOp04 ∧ TableOk 0x05 decodeOp05 ∧
    TableOk 0x06 decodeOp06 ∧ TableOk 0x07 decodeOp07 ∧ TableOk 0x08 decodeOp08 ∧ TableOk 0x09 decodeOp09 := by
  simp only [TableOk, decodeOp01, decodeOp02, decodeOp03, decodeOp04, decodeOp05, decodeOp06, decodeOp07, decodeOp08, decodeOp09]
  and_intros
  all_goals
    intro w hop
    repeat' refine readsBack_ite (fun _ => readsBack_some ?_ rfl) ?_
  any_goals exact readsBack_none
  any_goals refine readsBack_some ?_ rfl
  all_goals
    unfold encodeNat
    simp only [BitVec.toNat_ofNat, Nat.reducePow]
  all_goals omega
/-- The tables of compares, predicates and jumps (0x0A to 0x17). -/
theorem branch_tables :
    TableOk 0x0A decodeOp0A ∧ TableOk 0x0B decodeOp0B ∧ TableOk 0x0C decodeOp0C ∧ TableOk 0x0D decodeOp0D ∧ TableOk 0x0E decodeOp0E ∧
    TableOk 0x0F decodeOp0F ∧ TableOk 0x10 decodeOp10 ∧ TableOk 0x11 decodeOp11 ∧ TableOk 0x12 decodeOp12 ∧ TableOk 0x14 decodeOp14 ∧
    TableOk 0x15 decodeOp15 ∧ TableOk 0x16 decodeOp16 ∧ TableOk 0x17 decodeOp17 := by
  simp only [TableOk, decodeOp0A, decodeOp0B, decodeOp0C, decodeOp0D, decodeOp0E, decodeOp0F, decodeOp10, decodeOp11, decodeOp12,
    decodeOp14, decodeOp15, decodeOp16, decodeOp17]
  and_intros
  all_goals
    intro w hop
    repeat' refine readsBack_ite (fun _ => readsBack_some ?_ rfl) ?_
  any_goals exact readsBack_none
  any_goals refine readsBack_some ?_ rfl
  all_goals
    unfold encodeNat
    simp only [BitVec.toNat_ofNat, Nat.reducePow]
  all_goals omega
/-- The tables of scalar memory (0x1C to 0x2C). -/
theorem memory_tables :
    TableOk 0x1C decodeOp1C ∧ TableOk 0x1D decodeOp1D ∧ TableOk 0x1E decodeOp1E ∧ TableOk 0x1F decodeOp1F ∧ TableOk 0x20 decodeOp20 ∧
    TableOk 0x21 decodeOp21 ∧ TableOk 0x22 decodeOp22 ∧ TableOk 0x23 decodeOp23 ∧ TableOk 0x24 decodeOp24 ∧ TableOk 0x25 decodeOp25 ∧
    TableOk 0x26 decodeOp26 ∧ TableOk 0x27 decodeOp27 ∧ TableOk 0x28 decodeOp28 ∧ TableOk 0x29 decodeOp29 ∧ TableOk 0x2A decodeOp2A ∧
    TableOk 0x2B decodeOp2B ∧ TableOk 0x2C decodeOp2C := by
  simp only [TableOk, decodeOp1C, decodeOp1D, decodeOp1E, decodeOp1F, decodeOp20, decodeOp21, decodeOp22, decodeOp23, decodeOp24,
    decodeOp25, decodeOp26, decodeOp27, decodeOp28, decodeOp29, decodeOp2A, decodeOp2B, decodeOp2C]
  and_intros
  all_goals
    intro w hop
    repeat' refine readsBack_ite (fun _ => readsBack_some ?_ rfl) ?_
  any_goals exact readsBack_none
  any_goals refine readsBack_some ?_ rfl
  all_goals
    unfold encodeNat
    simp only [BitVec.toNat_ofNat, Nat.reducePow]
  all_goals omega
/-- The tables of remote accesses, atomics and cache operations (0x2D to 0x2F). -/
theorem atomic_tables :
    TableOk 0x2D decodeOp2D ∧ TableOk 0x2E decodeOp2E ∧ TableOk 0x2F decodeOp2F := by
  simp only [TableOk, decodeOp2D, decodeOp2E, decodeOp2F]
  and_intros
  all_goals
    intro w hop
    repeat' refine readsBack_ite (fun _ => readsBack_some ?_ rfl) ?_
  any_goals exact readsBack_none
  all_goals
    unfold encodeNat
    simp only [BitVec.toNat_ofNat, Nat.reducePow]
  all_goals omega
/-- The tables of scalar floats (0x30 to 0x34). -/
theorem float_tables :
    TableOk 0x30 decodeOp30 ∧ TableOk 0x31 decodeOp31 ∧ TableOk 0x32 decodeOp32 ∧ TableOk 0x33 decodeOp33 ∧ TableOk 0x34 decodeOp34 := by
  simp only [TableOk, decodeOp30, decodeOp31, decodeOp32, decodeOp33, decodeOp34]
  and_intros
  all_goals
    intro w hop
    repeat' refine readsBack_ite (fun _ => readsBack_some ?_ rfl) ?_
  any_goals exact readsBack_none
  all_goals
    unfold encodeNat
    simp only [BitVec.toNat_ofNat, Nat.reducePow]
  all_goals omega
/-- The tables of vector memory (0x38 to 0x3C). -/
theorem vectorMemory_tables :
    TableOk 0x38 decodeOp38 ∧ TableOk 0x39 decodeOp39 ∧ TableOk 0x3A decodeOp3A ∧ TableOk 0x3B decodeOp3B ∧ TableOk 0x3C decodeOp3C := by
  simp only [TableOk, decodeOp38, decodeOp39, decodeOp3A, decodeOp3B, decodeOp3C]
  and_intros
  all_goals
    intro w hop
    repeat' refine readsBack_ite (fun _ => readsBack_some ?_ rfl) ?_
  any_goals exact readsBack_none
  all_goals
    unfold encodeNat
    simp only [BitVec.toNat_ofNat, Nat.reducePow]
  all_goals omega
/-- The tables of vector arithmetic (0x3D, 0x3E). -/
theorem vector_tables :
    TableOk 0x3D decodeOp3D ∧ TableOk 0x3E decodeOp3E := by
  simp only [TableOk, decodeOp3D, decodeOp3E]
  and_intros
  all_goals
    intro w hop
    repeat' refine readsBack_ite (fun _ => readsBack_some ?_ rfl) ?_
  any_goals exact readsBack_none
  all_goals
    unfold encodeNat
    simp only [BitVec.toNat_ofNat, Nat.reducePow]
  all_goals omega
/-- The tables of lane compares and moves (0x3F, 0x40). -/
theorem lane_tables :
    TableOk 0x3F decodeOp3F ∧ TableOk 0x40 decodeOp40 := by
  simp only [TableOk, decodeOp3F, decodeOp40]
  and_intros
  all_goals
    intro w hop
    repeat' refine readsBack_ite (fun _ => readsBack_some ?_ rfl) ?_
  any_goals exact readsBack_none
  all_goals
    unfold encodeNat
    simp only [BitVec.toNat_ofNat, Nat.reducePow]
  all_goals omega
/-- The tables of conversions, reductions and dot products (0x41 to 0x44). -/
theorem convert_tables :
    TableOk 0x41 decodeOp41 ∧ TableOk 0x42 decodeOp42 ∧ TableOk 0x43 decodeOp43 ∧ TableOk 0x44 decodeOp44 := by
  simp only [TableOk, decodeOp41, decodeOp42, decodeOp43, decodeOp44]
  and_intros
  all_goals
    intro w hop
    repeat' refine readsBack_ite (fun _ => readsBack_some ?_ rfl) ?_
  any_goals exact readsBack_none
  all_goals
    unfold encodeNat
    simp only [BitVec.toNat_ofNat, Nat.reducePow]
  all_goals omega
/-- The tables of the matrix unit (0x48 to 0x54). -/
theorem matrix_tables :
    TableOk 0x48 decodeOp48 ∧ TableOk 0x49 decodeOp49 ∧ TableOk 0x4A decodeOp4A ∧ TableOk 0x4B decodeOp4B ∧ TableOk 0x4C decodeOp4C ∧
    TableOk 0x4D decodeOp4D ∧ TableOk 0x4E decodeOp4E ∧ TableOk 0x4F decodeOp4F ∧ TableOk 0x50 decodeOp50 ∧ TableOk 0x51 decodeOp51 ∧
    TableOk 0x52 decodeOp52 ∧ TableOk 0x53 decodeOp53 ∧ TableOk 0x54 decodeOp54 := by
  simp only [TableOk, decodeOp48, decodeOp49, decodeOp4A, decodeOp4B, decodeOp4C, decodeOp4D, decodeOp4E, decodeOp4F, decodeOp50,
    decodeOp51, decodeOp52, decodeOp53, decodeOp54]
  and_intros
  all_goals
    intro w hop
    repeat' refine readsBack_ite (fun _ => readsBack_some ?_ rfl) ?_
  any_goals exact readsBack_none
  all_goals
    unfold encodeNat
    simp only [BitVec.toNat_ofNat, Nat.reducePow]
  all_goals omega
/-- The tables of barges (0x58 to 0x5D). -/
theorem barge_tables :
    TableOk 0x58 decodeOp58 ∧ TableOk 0x59 decodeOp59 ∧ TableOk 0x5A decodeOp5A ∧ TableOk 0x5B decodeOp5B ∧ TableOk 0x5C decodeOp5C ∧
    TableOk 0x5D decodeOp5D := by
  simp only [TableOk, decodeOp58, decodeOp59, decodeOp5A, decodeOp5B, decodeOp5C, decodeOp5D]
  and_intros
  all_goals
    intro w hop
    repeat' refine readsBack_ite (fun _ => readsBack_some ?_ rfl) ?_
  any_goals exact readsBack_none
  any_goals refine readsBack_some ?_ rfl
  all_goals
    unfold encodeNat
    simp only [BitVec.toNat_ofNat, Nat.reducePow]
  all_goals omega
/-- The tables of nodes, channels, sluices and the staircase (0x60 to 0x6E). -/
theorem net_tables :
    TableOk 0x60 decodeOp60 ∧ TableOk 0x61 decodeOp61 ∧ TableOk 0x62 decodeOp62 ∧ TableOk 0x63 decodeOp63 ∧ TableOk 0x68 decodeOp68 ∧
    TableOk 0x69 decodeOp69 ∧ TableOk 0x6A decodeOp6A ∧ TableOk 0x6B decodeOp6B ∧ TableOk 0x6C decodeOp6C ∧ TableOk 0x6D decodeOp6D ∧
    TableOk 0x6E decodeOp6E := by
  simp only [TableOk, decodeOp60, decodeOp61, decodeOp62, decodeOp63, decodeOp68, decodeOp69, decodeOp6A, decodeOp6B, decodeOp6C,
    decodeOp6D, decodeOp6E]
  and_intros
  all_goals
    intro w hop
    repeat' refine readsBack_ite (fun _ => readsBack_some ?_ rfl) ?_
  any_goals exact readsBack_none
  any_goals refine readsBack_some ?_ rfl
  all_goals
    unfold encodeNat
    simp only [BitVec.toNat_ofNat, Nat.reducePow]
  all_goals omega
/-- The tables of repetition, CSRs, traps and launches (0x70 to 0x77). -/
theorem system_tables :
    TableOk 0x70 decodeOp70 ∧ TableOk 0x71 decodeOp71 ∧ TableOk 0x72 decodeOp72 ∧ TableOk 0x74 decodeOp74 ∧ TableOk 0x75 decodeOp75 ∧
    TableOk 0x76 decodeOp76 ∧ TableOk 0x77 decodeOp77 := by
  simp only [TableOk, decodeOp70, decodeOp71, decodeOp72, decodeOp74, decodeOp75, decodeOp76, decodeOp77]
  and_intros
  all_goals
    intro w hop
    repeat' refine readsBack_ite (fun _ => readsBack_some ?_ rfl) ?_
  any_goals exact readsBack_none
  all_goals
    unfold encodeNat
    simp only [BitVec.toNat_ofNat, Nat.reducePow]
  all_goals omega

/-- The same of a word's whole decoding. -/
def ReadsBackOk (w : Nat) (r : Except Reject Instr) : Prop := ∀ i, r = .ok i → encodeNat i = w ∧ i.encoded = true
theorem readsBackOk_error {w : Nat} {e : Reject} : ReadsBackOk w (.error e) := fun i h => by cases h
/-- A major opcode, and those after it. -/
theorem readsBackOk_ite {w op n : Nat} {t : Nat → Option Instr} {r : Except Reject Instr} (hop : w / 33554432 = op) (ht : TableOk n t)
    (hr : ReadsBackOk w r) : ReadsBackOk w (if op = n then (t w).elim (.error .function) .ok else r) := by
  split
  next h =>
    intro i hi
    refine ht w (hop.trans h) i ?_
    cases e : t w with
    | none => rw [e] at hi; cases hi
    | some j => rw [e] at hi; cases hi; rfl
  next => exact hr
theorem decodeCore_readsBack {w op : Nat} (hop : w / 33554432 = op) : ReadsBackOk w (decodeCore op w) := by
  unfold decodeCore
  repeat' refine readsBackOk_ite hop ?_ ?_
  all_goals simp only [integer_tables, branch_tables, memory_tables, atomic_tables, float_tables, vectorMemory_tables, vector_tables,
    lane_tables, convert_tables, matrix_tables, barge_tables, readsBackOk_error]
theorem decodeSys_readsBack {w op : Nat} (hop : w / 33554432 = op) : ReadsBackOk w (decodeSys op w) := by
  unfold decodeSys
  repeat' refine readsBackOk_ite hop ?_ ?_
  all_goals simp only [net_tables, system_tables, readsBackOk_error]
/-- R46: the number that an instruction was read from is its encoding. -/
theorem decodeRaw_readsBack (w : Nat) : ReadsBackOk w (decodeRaw w) := by
  unfold decodeRaw decodeMajor
  split
  · exact decodeCore_readsBack rfl
  · exact decodeSys_readsBack rfl

/-! ### Words (R43, R46) -/

theorem decodeWord_ok_iff {w : W32} {i : Instr} : decodeWord w = .ok i ↔ decodeRaw w.toNat = .ok i ∧ i.wf = true := by
  unfold decodeWord
  cases decodeRaw w.toNat with
  | error e => simp
  | ok j =>
    by_cases hj : j.wf = true
    · simp only [hj, if_true, Except.ok.injEq]
      exact ⟨fun h => ⟨h, h ▸ hj⟩, And.left⟩
    · simp only [hj, Bool.false_eq_true, if_false, reduceCtorEq, Except.ok.injEq, false_iff]
      rintro ⟨rfl, h⟩
      exact hj h

/-- The major opcodes that R43 reserves, and the two guards 0x00 and 0x7F. -/
def reservedOpcodes : List Nat := [0x00, 0x13, 0x18, 0x19, 0x1A, 0x1B, 0x35, 0x36, 0x37, 0x45, 0x46, 0x47, 0x55, 0x56, 0x57, 0x5E, 0x5F, 0x64,
  0x65, 0x66, 0x67, 0x6F, 0x73, 0x78, 0x79, 0x7A, 0x7B, 0x7C, 0x7D, 0x7E, 0x7F]
theorem decodeMajor_reserved (w : Nat) : ∀ op ∈ reservedOpcodes, decodeMajor op w = .error .opcode := by
  simp only [reservedOpcodes, List.forall_mem_cons, List.not_mem_nil, false_implies, implies_true, and_true]
  and_intros
  all_goals rfl

/-- Settles O50: the number of an instruction with a word fits 32 bits and decodes to it, by the tables above. -/
theorem decodeEncode : Obligations.DecodeEncode := by
  intro i hw he
  have h : decodeRaw (encodeNat i) = .ok i := roundTrips_of_wf hw he
  rw [decodeWord_ok_iff, encode_toNat i (lt_of_decodeRaw_ok h)]
  exact ⟨h, hw⟩

/-- Settles O51: a word is read back by its table, and a reserved opcode has no table. -/
theorem oneWordEach : Obligations.OneWordEach := by
  refine ⟨fun w i h => ?_, fun w hw i h => ?_⟩
  · obtain ⟨hr, hwf⟩ := decodeWord_ok_iff.1 h
    obtain ⟨he, henc⟩ := decodeRaw_readsBack w.toNat i hr
    exact ⟨by rw [encode, he, BitVec.ofNat_toNat, BitVec.setWidth_eq], hwf, henc⟩
  · have hr : decodeMajor (w.toNat / 2 ^ 25) w.toNat = .ok i := (decodeWord_ok_iff.1 h).1
    rw [decodeMajor_reserved _ _ hw] at hr
    cases hr

/-- Settles O52: the legal words are those of well-formed instructions; the last two end in no row and in no table. -/
theorem decodeWords : Obligations.DecodeWords :=
  ⟨decodeEncode (.add 3 1 2) rfl rfl, decodeEncode (.addi 5 6 (-1)) rfl rfl, decodeEncode (.bpT 3 5) rfl rfl, decodeEncode (.std 4 7 16) rfl rfl,
    decodeEncode (.mmaBf 1 12 0 0 0) rfl rfl, decodeEncode .tret rfl rfl, decodeEncode (.csrr 3 7) rfl rfl, rfl, rfl⟩
end Sys2Proof
end

section
/-! PROOFS OF THE SCOPE. Repetition: coupled blocks, their checks and the repetition buffer. -/
namespace Sys2Proof.Machine
open State Sys2Proof.Spec

/-! ### Completion in a coupled block (R51, R52, R93) -/

namespace State
/-- What a completing block word leaves of its berth's block, PC and mooring is what `stepBlock` says. -/
theorem next_me_inBlock {s : State} {k : Block} (h : s.me.rpt = some k) (hb : s.buffered = false) (lat : Nat) :
    (s.next lat).me.rpt = (stepBlock s.me k).rpt ∧ (s.next lat).me.pc = (stepBlock s.me k).pc ∧
      (s.next lat).me.moored = (stepBlock s.me k).moored := by
  unfold next
  rw [hb, if_neg (by decide)]
  dsimp only
  rw [me_modMe, retire_me, h]
  exact ⟨rfl, rfl, rfl⟩
theorem stepBlock_word (b : Berth) {k : Block} (h : k.idx + 1 < k.words.length) :
    stepBlock b k = { b with pc := b.pc + 4, rpt := some { k with idx := k.idx + 1 } } := if_pos h
theorem stepBlock_trip (b : Berth) {k : Block} (h : k.words.length ≤ k.idx + 1) (hk : k.k < k.cnt) :
    stepBlock b k = { b with pc := k.base + 4, rpt := some { k with idx := 0, k := k.k + 1 } } :=
  (if_neg (Nat.not_lt.2 h)).trans (if_pos hk)
theorem stepBlock_end (b : Berth) {k : Block} (h : k.words.length ≤ k.idx + 1) (hk : k.cnt ≤ k.k) :
    stepBlock b k = { b with pc := wordAt k k.words.length, rpt := none, moored := k.keep } :=
  (if_neg (Nat.not_lt.2 h)).trans (if_neg (Nat.not_lt.2 hk))
end State

theorem blockAdvance : BlockAdvance := by
  intro s k lat hk hb
  obtain ⟨hr, hp, hm⟩ := next_me_inBlock hk hb lat
  rw [hr, hp, hm]
  refine ⟨fun h => ?_, fun h hc => ?_, fun h hc => ?_⟩
  · rw [stepBlock_word _ h]; exact ⟨rfl, rfl⟩
  · rw [stepBlock_trip _ h hc]; exact ⟨rfl, rfl⟩
  · rw [stepBlock_end _ h hc]; exact ⟨rfl, rfl, rfl⟩

/-! ### RPT and RPT.D (R49, R53) -/

theorem exec_rpt {s : State} {n : BitVec 8} {l : BitVec 2} {sc : BitVec 1} {m : BitVec 12} {b : Block}
    (h : captureBlock s s.who s.me.pc (rptWord n l false sc m) false n.toNat l.toNat sc.toNat m.toNat 0 0 s.me.moored = .ok b) :
    exec (.rpt n l sc m) s = .next (s.next.modMe fun k => { k with rpt := some b, pc := b.base + 4, moored := true }) := by
  show execRpt n l sc m s = _
  unfold execRpt
  rw [h]
  rfl
theorem exec_rptD {s : State} {n : BitVec 8} {l : BitVec 2} {sc : BitVec 1} {m : BitVec 12} {b : Block}
    (h : captureBlock s s.who s.me.pc (rptWord n l true sc m) true n.toNat l.toNat sc.toNat m.toNat 0 0 true = .ok b) :
    exec (.rptD n l sc m) s = s.finish (if s.myCore.buffer.isSome then gone (s.moor.block .board) else
      .ok (((s.modMyCore fun c => { c with buffer := some ⟨s.berth, s.startAt, b, none, 0⟩ }).next).modMe fun k =>
        { k with pc := b.base + w64 (4 * (b.words.length + 1)), moored := true })) := by
  show execRptD n l sc m s = _
  unfold execRptD
  rw [h]
  rfl

theorem repeatStarts : RepeatStarts := by
  intro s n l sc m b
  refine ⟨exec_rpt, fun h => ⟨fun hf => ?_, fun hu => ?_⟩⟩
  · rw [exec_rptD h, hf]; rfl
  · rw [exec_rptD h, if_pos (Option.isSome_iff_ne_none.2 hu)]; rfl

/-! ### The checks of a block (R50) -/

/-- A block whose words are fetched and whose checks fail at a word stops with ILL, TVAL that word. -/
theorem captureBlock_stop {s : State} {w : Who} {base : Word} {rw' v : W32} {dec : Bool} {n l sc m k idx : Nat} {keep : Bool}
    {ws : List W32} (hw : codeWords s w base (l + 1) = .ok ws)
    (hv : checkBlock dec rw' ⟨base, ws, n, 1 + sc, m, k, idx, keep⟩ = some v) :
    captureBlock s w base rw' dec n l sc m k idx keep = stop .ill (v.setWidth 64) := by
  unfold captureBlock
  rw [hw]
  show (match checkBlock dec rw' ⟨base, ws, n, 1 + sc, m, k, idx, keep⟩ with | some v => _ | none => _) = _
  rw [hv]

/-- The first index that a search finds something at answers it. -/
theorem findSome?_upTo_first {α : Type} {f : Nat → Option α} {n i : Nat} {a : α} (hi : i < n) (hf : f i = some a)
    (hbefore : ∀ k < i, f k = none) : (upTo n).findSome? f = some a := by
  induction n with
  | zero => omega
  | succ n ih =>
    rw [upTo, List.findSome?_append]
    by_cases e : i = n
    · have hn : (upTo n).findSome? f = none := List.findSome?_eq_none_iff.2 fun k hk => hbefore k (by rw [mem_upTo] at hk; omega)
      rw [hn, Option.none_or, ← e, List.findSome?_singleton, hf]
    · rw [ih (by omega)]; rfl

theorem checkBlock_mask {b : Block} (dec : Bool) (rw' : W32) (h : 2 ^ (3 * b.words.length) ≤ b.mask) :
    checkBlock dec rw' b = some rw' :=
  if_pos (Nat.div_pos h (Nat.two_pow_pos _)).ne'
theorem checkBlock_words {b : Block} (dec : Bool) (rw' : W32) (h : b.mask < 2 ^ (3 * b.words.length)) :
    checkBlock dec rw' b = (upTo b.words.length).findSome? fun i => checkWord dec rw' b i :=
  if_neg (not_not.2 (Nat.div_eq_of_lt h))

section
variable {dec : Bool} {rw' w : W32} {b : Block} {i : Nat} (hw : b.words[i]? = some w)
include hw
/-- An excluded opcode reports the RPT word. -/
theorem checkWord_barred
    (h : (0x14 ≤ w.toNat / 2 ^ 25 ∧ w.toNat / 2 ^ 25 ≤ 0x1B) ∨ (0x58 ≤ w.toNat / 2 ^ 25 ∧ w.toNat / 2 ^ 25 ≤ 0x7E)) :
    checkWord dec rw' b i = some rw' := by
  unfold checkWord
  rw [hw]
  exact if_pos h
variable (hbar : ¬ ((0x14 ≤ w.toNat / 2 ^ 25 ∧ w.toNat / 2 ^ 25 ≤ 0x1B) ∨ (0x58 ≤ w.toNat / 2 ^ 25 ∧ w.toNat / 2 ^ 25 ≤ 0x7E)))
include hbar
/-- An illegal word reports itself. -/
theorem checkWord_illegal {e} (h : decodeBlockWord w = .error e) : checkWord dec rw' b i = some w := by
  unfold checkWord
  rw [hw]
  dsimp only [Option.getD_some]
  rw [if_neg hbar, h]
/-- A legal word passes or reports the RPT word: by RPT.D's restriction, then by its stepped fields. -/
theorem checkWord_legal {x} (h : decodeBlockWord w = .ok x) : checkWord dec rw' b i =
    if dec && !(decide ((0x38 ≤ w.toNat / 2 ^ 25 ∧ w.toNat / 2 ^ 25 ≤ 0x44) ∨ (0x48 ≤ w.toNat / 2 ^ 25 ∧ w.toNat / 2 ^ 25 ≤ 0x54))
      && w.toNat / 2 ^ 25 != 0x3B && w.toNat / 2 ^ 25 != 0x42) then some rw'
    else if (upTo 3).all fun j => stepOk b i w.toNat j then none else some rw' := by
  unfold checkWord
  rw [hw]
  dsimp only [Option.getD_some]
  rw [if_neg hbar, h]
/-- In RPT.D a word that is no vector or matrix word, or is VLDX, VSTX or DTAB.LD, reports the RPT word. -/
theorem checkWord_notBuffered {x} (h : decodeBlockWord w = .ok x) (hd : dec = true)
    (hop : w.toNat / 2 ^ 25 < 0x38 ∨ (0x44 < w.toNat / 2 ^ 25 ∧ w.toNat / 2 ^ 25 < 0x48) ∨ 0x54 < w.toNat / 2 ^ 25 ∨
      w.toNat / 2 ^ 25 = 0x3B ∨ w.toNat / 2 ^ 25 = 0x42) : checkWord dec rw' b i = some rw' := by
  rw [checkWord_legal hw hbar h, if_pos]
  rw [hd]
  simp only [Bool.true_and, Bool.not_eq_true', Bool.and_eq_false_iff, decide_eq_false_iff_not, bne_eq_false_iff_eq]
  omega
/-- A stepped field that would leave its class reports the RPT word. -/
theorem checkWord_stepped {x} {j : Nat} (h : decodeBlockWord w = .ok x) (hj : j < 3) (hs : stepOk b i w.toNat j = false) :
    checkWord dec rw' b i = some rw' := by
  rw [checkWord_legal hw hbar h, if_neg (c := ((upTo 3).all _ = true)), ite_self]
  intro hall
  have := List.all_eq_true.1 hall j ((mem_upTo 3 j).2 hj)
  rw [hs] at this
  cases this
end

theorem stepOk_eq_false {b : Block} {i w j : Nat} (hm : b.mask / 2 ^ (3 * i + j) % 2 = 1)
    (h : w / 2 ^ (fieldAt w j).2.1 % 2 ^ (fieldAt w j).2.2 < (clsRange (fieldAt w j).1).1 ∨
      (clsRange (fieldAt w j).1).2 < w / 2 ^ (fieldAt w j).2.1 % 2 ^ (fieldAt w j).2.2 + b.cnt * b.step) :
    stepOk b i w j = false := by
  unfold stepOk
  rw [if_neg (by omega)]
  dsimp only
  rw [decide_eq_false_iff_not]
  exact fun hc => h.elim (Nat.not_lt.2 hc.1) (Nat.not_lt.2 hc.2)

theorem repeatRefusals : RepeatRefusals := by
  intro s n l sc m ws b dec rw' v w i j
  refine ⟨fun hb hws => ⟨fun hv => ?_, fun hv => ?_⟩, checkBlock_mask dec rw', fun hm => ?_, fun hw => ?_⟩
  · show execRpt n l sc m s = _
    unfold execRpt
    rw [captureBlock_stop hws hv]
    exact finish_trap s .ill _ hb
  · show execRptD n l sc m s = _
    unfold execRptD
    rw [captureBlock_stop hws hv]
    exact finish_trap s .ill _ hb
  · rw [checkBlock_words dec rw' hm]
    exact ⟨fun h => List.findSome?_eq_none_iff.2 fun k hk => h k ((mem_upTo _ k).1 hk),
      fun hi hbefore hv => findSome?_upTo_first hi hv hbefore⟩
  · intro op barred
    refine ⟨checkWord_barred hw, fun hbar ⟨_, h⟩ => checkWord_illegal hw hbar h,
      fun hbar ⟨_, h⟩ => ⟨checkWord_notBuffered hw hbar h, ?_⟩⟩
    intro hj hbit f u hu
    exact checkWord_stepped hw hbar h hj (stepOk_eq_false hbit hu)

/-! ### Vector and matrix instructions answer a next state (R53, R285) -/

theorem encodeTable_next (s : State) (n : Nat) (d a : BitVec 4) (q : BitVec 2) (m : BitVec 1) :
    ∃ t, encodeTable s n d a q m = .next t := by
  unfold encodeTable
  dsimp only
  split
  · exact finishMoored_next _ _
  · exact ⟨_, rfl⟩
/-- An instruction of the matrix unit answers a next state, whatever its run comes to. -/
theorem finishMatrix_next (s : State) (latch : Latch) (reads : List (Nat × Nat)) (r : Run State) :
    ∃ t, finishMatrix s latch reads r = .next t := by
  rcases r with e | t
  · rcases e with ⟨c, v⟩ | y | t
    · exact ⟨_, rfl⟩
    · exact ⟨_, rfl⟩
    · exact ⟨_, rfl⟩
  · exact ⟨_, rfl⟩
/-- Every instruction that a buffered word may be answers a next state. -/
theorem execBlockWord_next (i : Instr) (s : State) : ∃ t, execBlockWord i s = .next t := by
  cases i with
  | vld | vst | vlds | vsts | vbcast | vextr | acq | azero | apois | ald | ast | arow | awr => exact finishMoored_next _ _
  | vadd | vsub | vmul | vfma | vfms | vmin | vmax | vabs | vrcp | vrsq | vexp2 | vlog2 | viadd | visub | vimul | vand | vor | vxor | vsll
  | vsrl | vsra | vsel | vshuf | vslideUp | vslideDn | vcvtI32F | vcvtFI32 | vcvtBfF | vcvtFBf | vcvtHfF | vcvtFHf | vencE2 | vdecT0
  | vdecT1 | vdecE2 | vred | vscan | vscanl | vdotbX8 | vdotbX4 | vcmpEq | vcmpNe | vcmpLt | vcmpLtu | vcmpGe | vcmpGeu
  | vcmpFeq | vcmpFlt | vcmpFle | vcmpFun => exact ⟨_, rfl⟩
  | rel | bstat => exact finish_next _ _
  | vencT0 | vencT1 => exact encodeTable_next _ _ _ _ _ _
  | mmaBf | mmaHf | mmaE4 | mmaE45 | mmaE5 | mmaX8 | mmaX84 | mmaX4 | mmaI8 | bld | tldt | brot => exact finishMatrix_next _ _ _ _
  | _ => exact ⟨s, rfl⟩

/-! ### The word that the repetition buffer issues (R32, R53) -/

/-- A buffered word that is due acts as its owner, and the executing place is as before. -/
theorem exec_bufferWord {s : State} {r : Nat} {q : Buf} {i : Instr} {t : State} (hdue : bufDue s r = true)
    (hq : (s.core r).buffer = some q) (hawake : (s.berthAt r q.owner).drowsy = false)
    (hi : decodeBlockWord (stepWord q.blk q.blk.k q.blk.idx) = .ok i)
    (ht : execBlockWord i { s with rank := r, berth := q.owner, buffered := true } = .next t) :
    exec (.repeatBufferWord r) s = .next (t.back s) := by
  show execRepeatBufferWord r s = _
  unfold execRepeatBufferWord
  rw [hdue, hq, if_neg (by decide)]
  dsimp only
  rw [hawake, if_neg Bool.false_ne_true, hi]
  dsimp only
  rw [ht]
/-- A drowsy owner's file is woken first. -/
theorem exec_bufferWord_drowsy {s : State} {r : Nat} {q : Buf} (hdue : bufDue s r = true) (hq : (s.core r).buffer = some q)
    (hd : (s.berthAt r q.owner).drowsy = true) :
    exec (.repeatBufferWord r) s = .next ((s.modBerth r q.owner fun k => { k with drowsy := false, lastIssue := s.cycle }).modCore r
      fun c => { c with buffer := c.buffer.map fun q => { q with due := s.cycle + 3 } }) := by
  show execRepeatBufferWord r s = _
  unfold execRepeatBufferWord
  rw [hdue, hq, if_neg (by decide)]
  dsimp only
  rw [hd, if_pos rfl]

/-! ### Completion and traps in the repetition buffer (R53) -/

namespace State
/-- A change of a core's repetition buffer alone leaves every berth. -/
theorem berthAt_setBuffer (s : State) (r q b : Nat) (g : Core → Option Buf) :
    (s.modCore r fun c => { c with buffer := g c }).berthAt q b = s.berthAt q b := berthAt_modCore _ _ _ _ _ fun _ => rfl
theorem me_setBuffer (s : State) (g : Core → Option Buf) : (s.modMyCore fun c => { c with buffer := g c }).me = s.me :=
  berthAt_setBuffer s s.rank s.rank s.berth g
theorem myCore_modMe_buffer (s : State) (f : Berth → Berth) : (s.modMe f).myCore.buffer = s.myCore.buffer := by
  rw [myCore_modMe]; rfl
theorem myCore_modMe_instret (s : State) (f : Berth → Berth) : (s.modMe f).myCore.instret = s.myCore.instret := by
  rw [myCore_modMe]; rfl
theorem next_buffered {s : State} (h : s.buffered = true) (lat : Nat) : s.next lat =
    s.retire.modMyCore fun c => { c with buffer := c.buffer.bind fun q => stepBuf q (Nat.max q.readyAt (s.readyAfter lat)) } := by
  unfold next
  rw [if_pos h]
theorem next_buffered_me {s : State} (h : s.buffered = true) (lat : Nat) : (s.next lat).me = s.me := by
  rw [next_buffered h, me_setBuffer, retire_me]
theorem next_buffered_buffer {s : State} {q : Buf} (h : s.buffered = true) (hq : s.myCore.buffer = some q) (lat : Nat) :
    (s.next lat).myCore.buffer = stepBuf q (Nat.max q.readyAt (s.readyAfter lat)) := by
  rw [next_buffered h, myCore_modMyCore, myCore_retire]
  dsimp only
  rw [hq]
  rfl
theorem next_buffered_instret {s : State} (h : s.buffered = true) (lat : Nat) :
    (s.next lat).myCore.instret = s.myCore.instret + 1 := by
  rw [next_buffered h, myCore_modMyCore, myCore_retire]
theorem bufTrap_buffer {s : State} {q : Buf} (hq : s.myCore.buffer = some q) (c : Cause) (v : Word) :
    (s.bufTrap c v).myCore.buffer = none := by
  unfold bufTrap
  rw [hq]
  dsimp only
  rw [myCore_modMe_buffer, myCore_modMyCore]
theorem bufTrap_me {s : State} {q : Buf} (hq : s.myCore.buffer = some q) (c : Cause) (v : Word) :
    (s.bufTrap c v).me = { s.me with bufTrap := some ⟨c, v, wordAt q.blk q.blk.idx, q.blk.k, q.blk.idx⟩ } := by
  unfold bufTrap
  rw [hq]
  dsimp only
  rw [me_modMe, me_setBuffer]
theorem stepBuf_word {q : Buf} (due : Nat) (h : q.blk.idx + 1 < q.blk.words.length) :
    stepBuf q due = some { q with blk := { q.blk with idx := q.blk.idx + 1 }, due := due, wait := none } := if_pos h
theorem stepBuf_trip {q : Buf} (due : Nat) (h : q.blk.words.length ≤ q.blk.idx + 1) (hk : q.blk.k < q.blk.cnt) :
    stepBuf q due = some { q with blk := { q.blk with idx := 0, k := q.blk.k + 1 }, due := due, wait := none } :=
  (if_neg (Nat.not_lt.2 h)).trans (if_pos hk)
theorem stepBuf_end {q : Buf} (due : Nat) (h : q.blk.words.length ≤ q.blk.idx + 1) (hk : q.blk.cnt ≤ q.blk.k) : stepBuf q due = none :=
  (if_neg (Nat.not_lt.2 h)).trans (if_neg (Nat.not_lt.2 hk))
end State

/-! ### A lane addition as a buffered word (R53, R102, R103, R112) -/

theorem orFlags_none (p : W32) (m : BitVec 1) (n : Nat) : orFlags p m (fun _ => 0) n = 0 := by
  induction n with
  | zero => rfl
  | succ n ih => rw [orFlags, ih, ite_self]; rfl
/-- Lane k of a result under the mask. -/
theorem lane_masked (p : W32) (m : BitVec 1) (old : VReg) (f : Nat → W32) {k : Nat} (hk : k < 32) :
    lane (masked p m old f) k = if m = 0 ∨ k = 0 ∨ p.getLsbD k = true then f k else lane old k := by
  rw [masked, lane_ofLanes _ hk]
  refine if_congr ?_ rfl rfl
  simp only [active, Bool.or_eq_true, beq_iff_eq, or_assoc]
/-- A lane addition answers its masked sums, and moors, with no flag. -/
theorem execViadd_eq (vd va vb : BitVec 4) (m : BitVec 1) (s : State) : execViadd vd va vb m s =
    .next ((s.wv vd (masked s.me.p m (s.rv vd) fun i => lane (s.rv va) i + lane (s.rv vb) i)).moor.next) := by
  show Host.Outcome.next (((s.wv vd _).flag (orFlags s.me.p m (fun _ => 0) 32)).moor.next) = _
  rw [orFlags_none, flag_zero]

namespace State
/-- A word of the repetition buffer waits and is ready by the buffer, whatever is written to its owner's berth. -/
theorem readyAfter_modMe {s : State} (h : s.buffered = true) (f : Berth → Berth) (lat : Nat) :
    (s.modMe f).readyAfter lat = s.readyAfter lat := by
  simp only [readyAfter, startAt, myWait, modMe_buffered, modMe_cycle, h, if_true, myCore_modMe_buffer]
/-- What a buffered word that writes a vector register and moors leaves. -/
theorem wv_moor_next_buffered {s : State} {q : Buf} (h : s.buffered = true) (hq : s.myCore.buffer = some q) (d : BitVec 4) (x : VReg) :
    ((s.wv d x).moor.next).rank = s.rank ∧ ((s.wv d x).moor.next).berth = s.berth ∧
      ((s.wv d x).moor.next).myCore.buffer = stepBuf q (Nat.max q.readyAt (s.readyAfter 8)) ∧
      ((s.wv d x).moor.next).myCore.instret = s.myCore.instret + 1 ∧
      ((s.wv d x).moor.next).me = { s.me with v := vset s.me.v d.toNat x, moored := true } := by
  have hb : (s.wv d x).moor.buffered = true := h
  have hbuf : (s.wv d x).moor.myCore.buffer = some q := by
    rw [moor, myCore_modMe_buffer, wv, myCore_modMe_buffer, hq]
  have hret : (s.wv d x).moor.myCore.instret = s.myCore.instret := by
    rw [moor, myCore_modMe_instret, wv, myCore_modMe_instret]
  have hready : (s.wv d x).moor.readyAfter 8 = s.readyAfter 8 := by
    rw [moor, readyAfter_modMe (s := s.wv d x) h, wv, readyAfter_modMe h]
  refine ⟨?_, ?_, ?_, ?_, ?_⟩
  · rw [next_buffered hb]; rfl
  · rw [next_buffered hb]; rfl
  · rw [next_buffered_buffer hb hbuf, hready]
  · rw [next_buffered_instret hb, hret]
  · rw [next_buffered_me hb, moor, me_modMe, wv, me_modMe]
    simp only [modMe_buffered, h, if_true]
theorem back_berthAt (t s : State) (r b : Nat) : (t.back s).berthAt r b = t.berthAt r b := berthAt_of_cores rfl r b
theorem back_core (t s : State) (r : Nat) : (t.back s).core r = t.core r := core_of_cores rfl r
end State

/-- A lane addition of the repetition buffer, in full. -/
theorem execViadd_buffered {s : State} {q : Buf} (h : s.buffered = true) (hq : s.myCore.buffer = some q)
    (vd va vb : BitVec 4) (m : BitVec 1) : ∃ t, execViadd vd va vb m s = .next t ∧ t.rank = s.rank ∧ t.berth = s.berth ∧
      t.myCore.buffer = stepBuf q (Nat.max q.readyAt (s.readyAfter 8)) ∧ t.myCore.instret = s.myCore.instret + 1 ∧ t.me.pc = s.me.pc ∧
      ∀ k < 32, lane (vget t.me.v vd.toNat 0) k =
        if m = 0 ∨ k = 0 ∨ s.me.p.getLsbD k = true then lane (s.rv va) k + lane (s.rv vb) k else lane (s.rv vd) k := by
  obtain ⟨hr, hb, hbuf, hret, hme⟩ :=
    wv_moor_next_buffered h hq vd (masked s.me.p m (s.rv vd) fun i => lane (s.rv va) i + lane (s.rv vb) i)
  refine ⟨_, execViadd_eq vd va vb m s, hr, hb, hbuf, hret, by rw [hme], fun k hk => ?_⟩
  rw [hme, vget_vset_self _ _ _ _ vd.isLt, lane_masked _ _ _ _ hk]

/-! ### The repetition buffer (R53) -/

theorem bufferWord : BufferWord := by
  intro s r q i lat due c v vd va vb m o awake
  refine ⟨fun hdue hq hd => ?_, fun hdue hq ha hi => ?_, fun hdue hq ha hi => ?_, fun hb hq => ?_, stepBuf_word due, stepBuf_trip due,
    stepBuf_end due⟩
  · refine ⟨_, exec_bufferWord_drowsy hdue hq hd, ?_, ?_⟩
    · rw [berthAt_setBuffer, berthAt_modBerth_self]
    · rw [core_modCore_self, core_modBerth_self]
      show Option.map _ (s.core r).buffer = _
      rw [hq]; rfl
  · obtain ⟨t, ht⟩ := execBlockWord_next i o
    exact ⟨t, ht, exec_bufferWord hdue hq ha hi ht⟩
  · obtain ⟨t, ht, hr, hb, hbuf, hret, hpc, hlanes⟩ := execViadd_buffered (s := o) rfl hq vd va vb m
    have hcore : t.myCore = t.core r := congrArg t.core hr
    have hme : t.me = t.berthAt r q.owner := congrArg₂ t.berthAt hr hb
    rw [hcore] at hbuf hret
    rw [hme] at hpc hlanes
    refine ⟨_, exec_bufferWord hdue hq ha hi ht, ?_⟩
    rw [back_core, back_berthAt]
    exact ⟨hbuf, hret, hpc, rfl, rfl, rfl, hlanes⟩
  · exact ⟨next_buffered_buffer hb hq lat, next_buffered_me hb lat, bufTrap_buffer hq c v, bufTrap_me hq c v⟩

/-- Settles O7: the four parts of repetition, each by what its shared operation does (`stepBlock`, the checks of a block,
`stepBuf`). -/
theorem repetitionOfBlocks : Obligations.RepetitionOfBlocks := ⟨blockAdvance, repeatStarts, repeatRefusals, bufferWord⟩
end Sys2Proof.Machine
end

section
/-! PROOFS OF THE SCOPE. Latch halves, accumulators, and how an instruction of the matrix unit ends. -/
namespace Sys2Proof.Machine
open State Sys2Proof.Spec

/-! ### Halves and accumulators of a core (R122, R133) -/

namespace Core
@[simp] theorem half_setHalf_self (c : Core) (h : Nat) (x : Half) : (c.setHalf h x).half h = x :=
  vget_vset_self _ _ _ _ (Nat.mod_lt h (by decide))
theorem half_setHalf_of_ne (c : Core) {h k : Nat} (x : Half) (hne : k % 2 ≠ h % 2) : (c.setHalf h x).half k = c.half k :=
  vget_vset_of_ne _ _ _ _ _ hne
theorem acc_setAcc_self (c : Core) {n : Nat} (a : Acc) (h : n < 8) : (c.setAcc n a).acc n = a := vget_vset_self _ _ _ _ h
theorem acc_setAcc_of_ne (c : Core) {n k : Nat} (a : Acc) (h : k ≠ n) : (c.setAcc n a).acc k = c.acc k := vget_vset_of_ne _ _ _ _ _ h
@[simp] theorem acc_setHalf (c : Core) (h n : Nat) (x : Half) : (c.setHalf h x).acc n = c.acc n := rfl
@[simp] theorem half_setAcc (c : Core) (n h : Nat) (a : Acc) : (c.setAcc n a).half h = c.half h := rfl
end Core

/-! ### Operands in the executing core's own CLM (R123, R166) -/

/-- The offset that an address of the local window holds in its low bits. -/
theorem fld_localAlias {va : Word} {off : Nat} (h : va.toNat = 14 * 2 ^ 48 + off) (ho : off < 0x20000) : fld va 0 17 = off := by
  unfold fld; omega
theorem decodeAddr_localAlias (s : State) (w : Who) (k : Kind) {va : Word} {off align : Nat} (hva : va.toNat = 14 * 2 ^ 48 + off)
    (ho : off < 0x20000) (ha : va.toNat % align = 0) : s.decodeAddr w k va align = .ok (.clm w.rank off) := by
  have h1 : fld va 52 12 = 0 := by unfold fld; omega
  have h2 : fld va 48 4 = 14 := by unfold fld; omega
  have h3 : fld va 17 31 = 0 := by unfold fld; omega
  unfold decodeAddr
  simp [ha, h1, h2, zeroBits, h3, fld_localAlias hva ho]
/-- The map's protection starts below the area that every mode may use. -/
theorem clmBad_open (user store : Bool) {off : Nat} (n : Nat) (h : 0x8000 ≤ off) : clmBad user store off n = none := by
  simp [clmBad, clmOk, h]
/-- An aligned matrix operand in the open part of the core's own CLM passes its checks. -/
theorem matOperand_here (s : State) (k : Kind) {va : Word} {off n : Nat} (hva : va.toNat = 14 * 2 ^ 48 + off) (hlo : 0x8000 ≤ off)
    (hal : off % 128 = 0) (hn : 0 < n) (hhi : off + n ≤ 0x20000) : s.matOperand va n k = .ok off := by
  unfold matOperand
  dsimp only
  rw [decodeAddr_localAlias s s.who k hva (by omega) (by omega)]
  have hb : ¬ (s.who.rank ≠ s.rank ∨ 131072 < off + n) := by rintro (h | h); exacts [h rfl, by omega]
  simp only [bind, Except.bind, if_neg hb, clmBad_open _ _ n hlo]

/-! ### How an instruction of the matrix unit ends (R142, R143) -/

section
variable (s : State) (latch : Latch) (reads : List (Nat × Nat))
theorem finishMatrix_ok (t : State) : finishMatrix s latch reads (.ok t) = .next t := rfl
theorem finishMatrix_gone (t : State) : finishMatrix s latch reads (gone t) = .next t := rfl
theorem finishMatrix_stop (c : Cause) (v : Word) :
    finishMatrix s latch reads (stop c v) = .next ((s.trapNow c v).drainAfter s.rank s.myWait) := rfl
theorem finishMatrix_wait_fill (h : Nat) : finishMatrix s latch reads (waitFor (.fill h)) =
    .next ((s.moor.block (.fill h)).noteIssued fun i => { i with latch := latch, reads := reads }) := rfl
theorem finishMatrix_wait_mma (h : Nat) (t0 t1 : DTab) : finishMatrix s latch reads (waitFor (.mma h t0 t1)) =
    .next ((s.moor.block (.mma h t0 t1)).noteIssued fun i => { i with latch := latch, reads := reads }) := rfl
theorem finishMatrix_wait_brot : finishMatrix s latch reads (waitFor .brot) =
    .next ((s.moor.block .brot).noteIssued fun i => { i with latch := latch, reads := [] }) := rfl
end
end Sys2Proof.Machine
end

section
/-! PROOFS OF THE SCOPE. The issue of an MMA. -/
namespace Sys2Proof.Machine
open State Sys2Proof.Spec

/-! ### What an MMA binds, and its operands (R61, R123, R140) -/

theorem mmaBinds_eq (s : State) : mmaBinds s = match s.myWait with
    | none => (s.myCore.curh, s.myCore.dt0, s.myCore.dt1)
    | some y => (y.issued.half, y.issued.t0, y.issued.t1) := by
  unfold mmaBinds issued
  cases s.myWait <;> rfl
/-- The x registers an MMA of a format reads. -/
def mmaSrcs (fmt : Nat) (a sc : BitVec 5) : List (BitVec 5) := if mmaScaled fmt then [a, sc] else [a]
/-- The bytes of CLM it reads, as runs: its A rows, and the scale words of a scaled format. -/
def mmaReads (fmt steps off soff : Nat) : List (Nat × Nat) :=
  (off, steps * 128 * mmaBitsA fmt) :: if mmaScaled fmt then [(soff, 128 * steps)] else []
/-- What an MMA that passes its checks finds: its accumulator is its berth's, its ports are ready, and its operands lie in the
executing core's own CLM. -/
structure MmaOperands (s : State) (fmt n : Nat) (a sc : BitVec 5) (steps off soff : Nat) : Prop where
  owned : s.owns n = true
  ports : Ready s (mmaSrcs fmt a sc) 0
  rows : s.matOperand (s.rx a) (steps * 128 * mmaBitsA fmt) .read = .ok off ∧ fld (s.rx a) 0 17 = off
  scales : mmaScaled fmt = true → s.matOperand (s.rx sc) (128 * steps) .read = .ok soff ∧ fld (s.rx sc) 0 17 = soff

section
variable {s : State} {fmt op : Nat} {c : BitVec 3} {a sc : BitVec 5} {n t : BitVec 1} {k : BitVec 3} {off soff : Nat}
theorem mmaBitsA_pos (f : Nat) : 0 < mmaBitsA f := by
  unfold mmaBitsA
  split
  · decide
  · split <;> decide
/-- Operands as an MMA's statement names them. -/
theorem mmaOperands_here {m : Nat} (ho : s.owns m = true) (hp : Ready s (mmaSrcs fmt a sc) 0) (ha : (s.rx a).toNat = 14 * 2 ^ 48 + off)
    (hlo : 0x8000 ≤ off) (hal : off % 128 = 0) (hhi : off + (k.toNat + 1) * 128 * mmaBitsA fmt ≤ 0x20000)
    (hs : mmaScaled fmt = true → (s.rx sc).toNat = 14 * 2 ^ 48 + soff ∧ 0x8000 ≤ soff ∧ soff % 128 = 0 ∧ soff + 128 * (k.toNat + 1) ≤ 0x20000) :
    MmaOperands s fmt m a sc (k.toNat + 1) off soff where
  owned := ho
  ports := hp
  rows := by
    have hpos : 0 < (k.toNat + 1) * 128 * mmaBitsA fmt := Nat.mul_pos (by omega) (mmaBitsA_pos fmt)
    exact ⟨matOperand_here s .read ha hlo hal hpos hhi, fld_localAlias ha (by omega)⟩
  scales h := by
    obtain ⟨h1, h2, h3, h4⟩ := hs h
    exact ⟨matOperand_here s .read h1 h2 h3 (by omega) h4, fld_localAlias h1 (by omega)⟩

/-! ### The shared issue (R124) -/

theorem issueMma_notOwned (ho : s.owns c.toNat = false) (hb : s.buffered = false) : issueMma s fmt op c a sc n t k =
    .next ((s.takeTrap .ill (wd (op * 2 ^ 25) [(c.toNat, 22), (a.toNat, 17), (sc.toNat, 12), (n.toNat, 4), (t.toNat, 3), (k.toNat, 0)])).drainAfter
      s.rank s.myWait) := by
  unfold issueMma
  dsimp only
  rw [ho, Bool.not_false, if_pos rfl, finishMatrix_stop, trapNow, hb, if_neg Bool.false_ne_true]
/-- The state in which an MMA has entered the queue. -/
def mmaEntered (s : State) (m : Mma) (srcs : List (BitVec 5)) : State :=
  ((s.modMyCore fun x => { x with mq := enqueueMma m x.mq }).pops srcs).moor
/-- What an MMA that has passed its checks comes to: it waits for one of its accumulator that has not started, or enters the queue,
where one with the poison trap on waits for the unit's answer. -/
def mmaTurn (s : State) (m : Mma) (srcs : List (BitVec 5)) : Run State :=
  if accQueued s m.acc then waitFor (.mma (mmaBinds s).1 (mmaBinds s).2.1 (mmaBinds s).2.2)
  else if m.wide then gone (((mmaEntered s m srcs).await .slow).noteIssued fun i => { i with latch := .none, reads := [] })
  else .ok (mmaEntered s m srcs).next
theorem issueMma_checked (h : MmaOperands s fmt c.toNat a sc (k.toNat + 1) off soff) : issueMma s fmt op c a sc n t k =
    finishMatrix s .mma (mmaReads fmt (k.toNat + 1) off soff)
      (mmaTurn s (newMma s fmt c.toNat (s.rx a) (s.rx sc) (k.toNat + 1) (t == 1) (n == 1)) (mmaSrcs fmt a sc)) := by
  obtain ⟨ho, hp, ⟨hr, hra⟩, hs⟩ := h
  unfold mmaSrcs at *
  unfold issueMma mmaReads
  dsimp only
  rw [ho, Bool.not_true, if_neg Bool.false_ne_true, checkIns_ok hp.1, hr, hra]
  by_cases hsc : mmaScaled fmt = true
  · obtain ⟨h1, h2⟩ := hs hsc
    simp only [if_pos hsc]
    rw [h1, h2]
    rfl
  · simp only [if_neg hsc]
    rfl
/-- The issue of an MMA whose operands are in place, as its berth or the repetition buffer sees it. -/
theorem issueMma_waits (h : MmaOperands s fmt c.toNat a sc (k.toNat + 1) off soff) (hq : accQueued s c.toNat = true) :
    issueMma s fmt op c a sc n t k = .next ((s.moor.block (.mma (mmaBinds s).1 (mmaBinds s).2.1 (mmaBinds s).2.2)).noteIssued fun x =>
      { x with latch := .mma, reads := mmaReads fmt (k.toNat + 1) off soff }) := by
  rw [issueMma_checked h, mmaTurn]
  exact congrArg (finishMatrix s _ _) (if_pos hq)
theorem issueMma_enters (h : MmaOperands s fmt c.toNat a sc (k.toNat + 1) off soff) (hq : accQueued s c.toNat = false) :
    let m := newMma s fmt c.toNat (s.rx a) (s.rx sc) (k.toNat + 1) (t == 1) (n == 1)
    let u := mmaEntered s m (mmaSrcs fmt a sc)
    issueMma s fmt op c a sc n t k =
      .next (if s.me.pte then (u.await .slow).noteIssued fun x => { x with latch := .none, reads := [] } else u.next) := by
  intro m u
  have hq' : ¬ accQueued s m.acc = true := by rw [show m.acc = c.toNat from rfl, hq]; exact Bool.false_ne_true
  have hw : m.wide = s.me.pte := rfl
  rw [issueMma_checked h, mmaTurn, if_neg hq']
  show finishMatrix s _ _ (if m.wide = true then _ else _) = _
  rw [hw]
  split
  · exact finishMatrix_gone _ _ _ _
  · exact finishMatrix_ok _ _ _ _
end

/-! ### The order of the queue (R124) -/

/-- An MMA enters before the first one that issued later and has not started. -/
theorem enqueueMma_split (m : Mma) (q : List Mma) : ∃ before after, q = before ++ after ∧ enqueueMma m q = before ++ m :: after ∧
    (∀ e ∈ before, e.seq ≤ m.seq ∨ e.st ≠ 0 ∨ e.due ≠ 0) ∧ (∀ e, after.head? = some e → m.seq < e.seq ∧ e.st = 0 ∧ e.due = 0) := by
  induction q with
  | nil => exact ⟨[], [], rfl, rfl, by simp, by simp⟩
  | cons e q ih =>
    by_cases h : m.seq < e.seq ∧ e.st = 0 ∧ e.due = 0
    · refine ⟨[], e :: q, rfl, ?_, by simp, ?_⟩
      · simp [enqueueMma, h]
      · rintro x hx
        cases hx
        exact h
    · obtain ⟨before, after, h1, h2, h3, h4⟩ := ih
      refine ⟨e :: before, after, by rw [h1]; rfl, ?_, ?_, h4⟩
      · have : (decide (m.seq < e.seq) && e.st == 0 && e.due == 0) = false := by
          simpa [and_assoc] using h
        rw [enqueueMma, this, if_neg Bool.false_ne_true, h2]; rfl
      · rintro x (_ | ⟨_, hx⟩)
        · omega
        · exact h3 x hx

/-! ### The issue's clause (R61, R123, R124, R139, R140) -/

/-- The word an ILL of an MMA reports is the MMA's. -/
theorem mma_illWord {i : Instr} {op : Nat} {c : BitVec 3} {a x : BitVec 5} {n t : BitVec 1} {k : BitVec 3} (hl : op < 2 ^ 7)
    (hw : encodeNat i = op * 2 ^ 25 + c.toNat * 2 ^ 22 + a.toNat * 2 ^ 17 + x.toNat * 2 ^ 12 + n.toNat * 2 ^ 4 + t.toNat * 2 ^ 3 + k.toNat) :
    wd (op * 2 ^ 25) [(c.toNat, 22), (a.toNat, 17), (x.toNat, 12), (n.toNat, 4), (t.toNat, 3), (k.toNat, 0)] = (encode i).setWidth 64 := by
  apply BitVec.eq_of_toNat_eq
  simp only [encode, hw, wd, w64, List.foldl, BitVec.toNat_setWidth, BitVec.toNat_ofNat]
  omega
theorem mmaIssue : MmaIssue := by
  refine ⟨?_, enqueueMma_split⟩
  intro s c a sc n t k off soff bound ready joins
  have hbound : mmaBinds s = bound := mmaBinds_eq s
  have join {i : Instr} (fmt op : Nat) (x : BitVec 5) (he : exec i s = issueMma s fmt op c a x n t k)
      (hx : s.rx x = if mmaScaled fmt then s.rx sc else 0) (hsrc : mmaSrcs fmt a x = mmaSrcs fmt a sc)
      (h : ready (mmaBitsA fmt) (mmaScaled fmt)) : joins i fmt (mmaBitsA fmt) (mmaScaled fmt) := by
    obtain ⟨ho, hp, ha, hlo, hal, hhi, hs⟩ := h
    have ops : MmaOperands s fmt c.toNat a x (k.toNat + 1) off soff :=
      mmaOperands_here ho (hsrc ▸ hp) ha hlo hal hhi fun hsc => by rw [hx, if_pos hsc]; exact hs hsc
    refine ⟨fun hq => ?_, fun hq => ?_⟩
    · rw [he, issueMma_waits ops hq, hbound]; rfl
    · rw [he, issueMma_enters ops hq]
      unfold newMma
      rw [hbound, hx, hsrc]
      rfl
  have plain {i : Instr} (fmt op : Nat) (he : exec i s = issueMma s fmt op c a 0 n t k) (hf : mmaScaled fmt = false)
      (h : ready (mmaBitsA fmt) (mmaScaled fmt)) : joins i fmt (mmaBitsA fmt) (mmaScaled fmt) :=
    join fmt op 0 he (by rw [rx_zero, hf]; rfl) (by unfold mmaSrcs; rw [hf]; rfl) h
  have scaled {i : Instr} (fmt op : Nat) (he : exec i s = issueMma s fmt op c a sc n t k) (hf : mmaScaled fmt = true)
      (h : ready (mmaBitsA fmt) (mmaScaled fmt)) : joins i fmt (mmaBitsA fmt) (mmaScaled fmt) :=
    join fmt op sc he (by rw [hf]; rfl) rfl h
  have ill {i : Instr} (fmt op : Nat) (x : BitVec 5) (ho : s.owns c.toNat = false) (hb : s.buffered = false)
      (he : exec i s = issueMma s fmt op c a x n t k) (hl : op < 2 ^ 7) (hw : encodeNat i =
        op * 2 ^ 25 + c.toNat * 2 ^ 22 + a.toNat * 2 ^ 17 + x.toNat * 2 ^ 12 + n.toNat * 2 ^ 4 + t.toNat * 2 ^ 3 + k.toNat) :
      exec i s = .next ((trapped s .ill ((encode i).setWidth 64)).drainAfter s.rank s.myWait) := by
    rw [he, issueMma_notOwned ho hb, mma_illWord hl hw]; rfl
  refine ⟨fun h => ⟨plain 0 0x48 rfl rfl h, plain 1 0x49 rfl rfl h⟩,
    fun h => ⟨plain 2 0x4A rfl rfl h, plain 3 0x4B rfl rfl h, plain 4 0x4C rfl rfl h, plain 8 0x50 rfl rfl h⟩,
    fun h => ⟨scaled 5 0x4D rfl rfl h, scaled 6 0x4E rfl rfl h⟩, fun h => scaled 7 0x4F rfl rfl h, fun ho hb => ?_⟩
  simp only [List.forall_mem_cons, List.not_mem_nil, false_implies, implies_true, and_true]
  exact ⟨ill 0 0x48 0 ho hb rfl (by decide) rfl, ill 1 0x49 0 ho hb rfl (by decide) rfl, ill 2 0x4A 0 ho hb rfl (by decide) rfl,
    ill 3 0x4B 0 ho hb rfl (by decide) rfl, ill 4 0x4C 0 ho hb rfl (by decide) rfl, ill 8 0x50 0 ho hb rfl (by decide) rfl,
    ill 5 0x4D sc ho hb rfl (by decide) rfl, ill 6 0x4E sc ho hb rfl (by decide) rfl, ill 7 0x4F sc ho hb rfl (by decide) rfl⟩
end Sys2Proof.Machine
end

section
/-! PROOFS OF THE SCOPE. Numbers made of pieces of one width. -/
namespace Sys2Proof.Machine
open State

/-! ### Pieces of one width (R59, R130, R140) -/

section
variable {g d : Nat → Nat} {w : Nat} (h0 : g 0 = 0) (hs : ∀ n, g (n + 1) = g n + d n * 2 ^ (w * n)) (hd : ∀ n, d n < 2 ^ w)
include h0 hs hd
/-- A number built from pieces of w bits, the lowest first, is below the width of the pieces. -/
theorem piecewise_lt (n : Nat) : g n < 2 ^ (w * n) := by
  induction n with
  | zero => simp [h0]
  | succ n ih =>
    calc g (n + 1) = g n + d n * 2 ^ (w * n) := hs n
      _ < 2 ^ (w * n) + d n * 2 ^ (w * n) := Nat.add_lt_add_right ih _
      _ = (d n + 1) * 2 ^ (w * n) := by rw [Nat.succ_mul, Nat.add_comm]
      _ ≤ 2 ^ w * 2 ^ (w * n) := Nat.mul_le_mul_right _ (hd n)
      _ = 2 ^ (w * (n + 1)) := by rw [← Nat.pow_add, Nat.mul_succ, Nat.add_comm]
/-- And each piece is the one it was built from. -/
theorem piece_piecewise {n i : Nat} (h : i < n) : piece (g n) w i = d i := by
  unfold piece
  induction n with
  | zero => omega
  | succ n ih =>
    rw [hs]
    by_cases e : i = n
    · subst e
      rw [Nat.add_mul_div_right _ _ (Nat.two_pow_pos _), Nat.div_eq_of_lt (piecewise_lt h0 hs hd i), Nat.zero_add, Nat.mod_eq_of_lt (hd i)]
    · have hp : 2 ^ (w * n) = 2 ^ (w * (n - i - 1)) * 2 ^ w * 2 ^ (w * i) := by
        obtain ⟨j, rfl⟩ : ∃ j, n = i + 1 + j := ⟨n - i - 1, by omega⟩
        rw [← Nat.pow_add, ← Nat.pow_add, show i + 1 + j - i - 1 = j by omega]
        congr 1
        ring
      rw [hp, ← Nat.mul_assoc, ← Nat.mul_assoc, Nat.add_mul_div_right _ _ (Nat.two_pow_pos _), Nat.add_mul_mod_self_right, ih (by omega)]
end

theorem piecesNat_lt (w : Nat) (f : Nat → Nat) (n : Nat) : piecesNat w f n < 2 ^ (w * n) :=
  piecewise_lt (d := fun i => f i % 2 ^ w) rfl (fun _ => rfl) (fun _ => Nat.mod_lt _ (Nat.two_pow_pos w)) n
theorem piece_piecesNat (w : Nat) (f : Nat → Nat) {n i : Nat} (h : i < n) : piece (piecesNat w f n) w i = f i % 2 ^ w :=
  piece_piecewise (d := fun i => f i % 2 ^ w) rfl (fun _ => rfl) (fun _ => Nat.mod_lt _ (Nat.two_pow_pos w)) h
theorem readN_lt (s : State) (l : Loc) (n : Nat) : s.readN l n < 2 ^ (8 * n) := by
  refine piecewise_lt (g := s.readN l) (d := fun i => (s.readByte (l.plus i)).toNat) rfl (fun i => ?_) (fun i => (s.readByte (l.plus i)).isLt) n
  rw [Nat.pow_mul]; rfl
theorem accOf_lt (f : Nat → VReg) (n : Nat) : accOf f n < 2 ^ (1024 * n) :=
  piecewise_lt (d := fun i => (f i).toNat) rfl (fun _ => rfl) (fun i => (f i).isLt) n
theorem piece_accOf (f : Nat → VReg) {n i : Nat} (h : i < n) : piece (accOf f n) 1024 i = (f i).toNat :=
  piece_piecewise (d := fun i => (f i).toNat) rfl (fun _ => rfl) (fun i => (f i).isLt) h

/-! ### Rows and elements of an accumulator (R122) -/

/-- Row i of an accumulator made of rows. -/
theorem accRow_accOf (f : Nat → VReg) {i : Nat} (h : i < 32) : accRow (BitVec.ofNat 32768 (accOf f 32)) i = f i := by
  apply BitVec.eq_of_toNat_eq
  rw [accRow, BitVec.extractLsb'_toNat, BitVec.toNat_ofNat, Nat.mod_eq_of_lt (accOf_lt f 32), Nat.shiftRight_eq_div_pow]
  exact piece_accOf f h
/-- An element is a lane of its row. -/
theorem accElem_eq_lane (d : AccData) (i : Nat) {j : Nat} (h : j < 32) : accElem d i j = lane (accRow d i) j := by
  apply BitVec.eq_of_getLsbD_eq
  intro k hk
  simp only [accElem, accRow, lane, BitVec.getLsbD_extractLsb']
  rw [show 1024 * i + (32 * j + k) = 32 * (32 * i + j) + k by ring]
  simp [hk, show 32 * j + k < 1024 by omega]
theorem accElem_accOf (f : Nat → VReg) {i j : Nat} (hi : i < 32) (hj : j < 32) :
    accElem (BitVec.ofNat 32768 (accOf f 32)) i j = lane (f i) j := by
  rw [accElem_eq_lane _ _ hj, accRow_accOf f hi]
theorem lane_nanRow {j : Nat} (h : j < 32) : lane nanRow j = 0x7FC00000 := lane_ofLanes _ h
end Sys2Proof.Machine
end

section
/-! PROOFS OF THE SCOPE. The steps of an MMA. -/
namespace Sys2Proof.Machine
open State Sys2Proof.Spec

/-! ### What leaves a core's accumulators, its matrix queue and memory -/

/-- `t` has the memory of `s`, and core r has its accumulators and its matrix queue there. -/
structure SameUnit (r : Nat) (s t : State) : Prop where
  mem : t.mem = s.mem
  accs : (t.core r).accs = (s.core r).accs
  mq : (t.core r).mq = (s.core r).mq

namespace SameUnit
variable {r : Nat}
theorem refl (s : State) : SameUnit r s s := ⟨rfl, rfl, rfl⟩
theorem trans {s t u : State} (h : SameUnit r s t) (k : SameUnit r t u) : SameUnit r s u :=
  ⟨k.mem.trans h.mem, k.accs.trans h.accs, k.mq.trans h.mq⟩
theorem modCore (s : State) (q : Nat) (f : Core → Core) (h : ∀ c, (f c).accs = c.accs ∧ (f c).mq = c.mq) : SameUnit r s (s.modCore q f) := by
  refine ⟨rfl, ?_, ?_⟩ <;> by_cases e : r = q
  · subst e; rw [core_modCore_self]; exact (h _).1
  · rw [core_modCore_of_ne _ _ _ _ e]
  · subst e; rw [core_modCore_self]; exact (h _).2
  · rw [core_modCore_of_ne _ _ _ _ e]
theorem of_cores {s t : State} (hm : t.mem = s.mem) (hc : t.cores = s.cores) : SameUnit r s t :=
  ⟨hm, by rw [core_of_cores hc], by rw [core_of_cores hc]⟩
theorem countPoison (s : State) (q lid a : Nat) : SameUnit r s (s.countPoison q lid a) :=
  have h : SameUnit r s (s.countField q 16) := modCore s q _ fun _ => ⟨rfl, rfl⟩
  h.trans (of_cores rfl rfl)
theorem consumeRange (s : State) (q lid off n : Nat) : SameUnit r s (consumeRange q lid off n s) := by
  unfold Machine.consumeRange
  split
  · exact refl s
  · refine foldl_keeps (SameUnit r s) _ _ s (refl s) fun t i _ h => ?_
    split
    · exact h.trans (countPoison t _ _ _)
    · exact h
theorem mmaConsume (s : State) (q : Nat) (m : Mma) (aOff wa sOff : Nat) (half : Bool) : SameUnit r s (mmaConsume s q m aOff wa sOff half) := by
  unfold Machine.mmaConsume
  extract_lets lid s1 s2
  have h1 : SameUnit r s s1 := consumeRange s _ _ _ _
  have h2 : SameUnit r s s2 := by unfold s2; split; exacts [h1.trans (consumeRange s1 _ _ _ _), h1]
  split
  · exact h2.trans (countPoison s2 _ _ _)
  · exact h2
theorem drain (s : State) (q h : Nat) : SameUnit r s (s.drain q h) := by
  unfold State.drain
  split
  · exact modCore s q _ fun _ => ⟨rfl, rfl⟩
  · exact refl s
theorem modWait (s : State) (q b : Nat) (f : Wait → Wait) : SameUnit r s (s.modWait q b f) := by
  unfold State.modWait
  split
  · exact modCore s q _ fun _ => ⟨rfl, rfl⟩
  · exact modCore s q (fun c => c.setBerth b _) fun _ => ⟨rfl, rfl⟩
theorem reply (s : State) (q b : Nat) (p : Reply) (d : Nat) : SameUnit r s (s.reply q b p d) :=
  (modWait s q b _).trans (of_cores rfl rfl)
theorem acc {s t : State} (h : SameUnit r s t) (n : Nat) : (t.core r).acc n = (s.core r).acc n := by unfold Core.acc; rw [h.accs]
end SameUnit

/-! ### The next step's start, and an accumulator let go (R124, R127) -/

/-- The unit's queue with its head's next step started, or as it is. -/
theorem mmaStart_mq (s : State) (r : Nat) {m : Mma} {rest : List Mma} (h : (s.core r).mq = m :: rest) :
    ∃ d, ((mmaStart s r).core r).mq = { m with due := d } :: rest := by
  unfold mmaStart
  rw [h]
  dsimp only
  split
  · exact ⟨_, by rw [core_modCore_self]⟩
  · exact ⟨m.due, h⟩
theorem mmaStart_seqs (s : State) (r : Nat) : ((mmaStart s r).core r).mq.map Mma.seq = (s.core r).mq.map Mma.seq := by
  cases h : (s.core r).mq with
  | nil => unfold mmaStart; simp [h]
  | cons m rest =>
    obtain ⟨d, hd⟩ := mmaStart_mq s r h
    rw [hd]; rfl
theorem mmaStart_mem (s : State) (r : Nat) : (mmaStart s r).mem = s.mem := by
  unfold mmaStart
  split
  · rfl
  · split <;> rfl
theorem mmaStart_acc (s : State) (r n : Nat) : ((mmaStart s r).core r).acc n = (s.core r).acc n := by
  unfold mmaStart
  split
  · rfl
  · split
    · rw [core_modCore_self]; rfl
    · rfl
/-- Letting an accumulator go changes its owner alone. -/
theorem freeAcc_keeps (s : State) (r : Nat) {n : Nat} (hn : n < 8) : (s.freeAcc r n).mem = s.mem ∧
    ((s.freeAcc r n).core r).mq = (s.core r).mq ∧ (∀ k, k ≠ n → ((s.freeAcc r n).core r).acc k = (s.core r).acc k) ∧
    (((s.freeAcc r n).core r).acc n).data = ((s.core r).acc n).data ∧ (((s.freeAcc r n).core r).acc n).pois = ((s.core r).acc n).pois := by
  unfold freeAcc
  split
  · unfold relAcc
    rw [core_modCore_self]
    split
    · exact ⟨rfl, rfl, fun k hk => Core.acc_setAcc_of_ne _ _ hk, by rw [Core.acc_setAcc_self _ _ hn], by rw [Core.acc_setAcc_self _ _ hn]⟩
    · exact ⟨rfl, rfl, fun k hk => Core.acc_setAcc_of_ne _ _ hk, by rw [Core.acc_setAcc_self _ _ hn], by rw [Core.acc_setAcc_self _ _ hn]⟩
  · exact ⟨rfl, rfl, fun _ _ => rfl, rfl, rfl⟩

/-! ### The rows that read poison, and the first poisoned unit (R141, log 66) -/

theorem mmaPoisRows_lt (s : State) (r : Nat) (m : Mma) (aOff sOff n : Nat) : mmaPoisRows s r m aOff sOff n < 2 ^ n := by
  induction n with
  | zero => simp [mmaPoisRows]
  | succ n ih => rw [mmaPoisRows, Nat.pow_succ]; split <;> omega
theorem mmaPoisRows_testBit (s : State) (r : Nat) (m : Mma) (aOff sOff : Nat) {n i : Nat} (h : i < n) :
    (mmaPoisRows s r m aOff sOff n).testBit i = mmaRowPois s r m aOff sOff i := by
  induction n with
  | zero => omega
  | succ n ih =>
    rw [mmaPoisRows, Nat.add_comm]
    by_cases e : i = n
    · subst e
      have low := Nat.testBit_lt_two_pow (mmaPoisRows_lt s r m aOff sOff i)
      split
      next hp => rw [Nat.testBit_two_pow_add_eq, low, hp]; rfl
      next hp => rw [Nat.zero_add, low]; simpa using hp
    · have hi : i < n := by omega
      split
      · rw [Nat.testBit_two_pow_add_gt hi, ih hi]
      · rw [Nat.zero_add, ih hi]
theorem poisoned_of_empty {s : State} (h : s.poison.isEmpty = true) (l : Loc) : s.poisoned l = false := by
  unfold poisoned
  rw [List.isEmpty_iff.1 h]; rfl
/-- No unit of the range is poisoned, or the first one that is gives its address. -/
theorem firstUnit_none {s : State} {r : Nat} {va : Word} {off n : Nat} (h : ¬ ∃ u, u < n / 8 ∧ s.poisoned (.clm r (off + 8 * u)) = true) :
    firstUnit s r va off n = none := by
  unfold firstUnit
  rw [List.find?_eq_none.2 fun u hu hp => h ⟨u, List.mem_range.1 hu, hp⟩]; rfl
theorem firstUnit_some {s : State} {r : Nat} {va : Word} {off n : Nat} (h : ∃ u, u < n / 8 ∧ s.poisoned (.clm r (off + 8 * u)) = true) :
    ∃ u, u < n / 8 ∧ s.poisoned (.clm r (off + 8 * u)) = true ∧ (∀ v, v < u → s.poisoned (.clm r (off + 8 * v)) = false) ∧
      firstUnit s r va off n = some (va + w64 (8 * u)) := by
  unfold firstUnit
  cases hf : (List.range (n / 8)).find? fun u => s.poisoned (.clm r (off + 8 * u)) with
  | none =>
    obtain ⟨u, hu, hp⟩ := h
    exact absurd hp (List.find?_eq_none.1 hf u (List.mem_range.2 hu))
  | some u =>
    obtain ⟨hp, hu, hmin⟩ := List.find?_range_eq_some.1 hf
    exact ⟨u, List.mem_range.1 hu, hp, fun v hv => by simpa using hmin v hv, rfl⟩
end Sys2Proof.Machine
end

section
/-! PROOFS OF THE SCOPE. The completion of a step of an MMA. -/
namespace Sys2Proof.Machine
open State Sys2Proof.Spec

/-! ### The parts of a step (R69, R140, R141) -/

theorem fld_low {w : Nat} (x : BitVec w) (n : Nat) : fld x 0 n = x.toNat % 2 ^ n := by unfold fld; rw [Nat.pow_zero, Nat.div_one]

/-- Where a step's A rows and its scale words start in CLM. -/
def stepRows (m : Mma) : Nat := m.a.toNat % 2 ^ 17 + 128 * mmaBitsA m.fmt * m.st
def stepScales (m : Mma) : Nat := m.sc.toNat % 2 ^ 17 + 128 * m.st
/-- Element (i, j) after the step. -/
def stepElem (s : State) (r : Nat) (m : Mma) (i j : Nat) : W32 :=
  mmaElem m (s.readN (.clm r (stepRows m)) (128 * mmaBitsA m.fmt))
    (((s.core r).half m.half).data.toNat / 2 ^ (1024 * mmaBitsB m.fmt * m.st))
    (if mmaScaled m.fmt then s.readN (.clm r (stepScales m)) 128 else 0)
    (((s.core r).half m.half).scales.toNat / 2 ^ (1024 * m.st)) (accElem ((s.core r).acc m.acc).data i j) i j
/-- The rows that read poison in this step, and those that have so far. -/
def stepPois (s : State) (r : Nat) (m : Mma) : W32 :=
  if ((s.core r).half m.half).pois then BitVec.allOnes 32 else if s.poison.isEmpty then 0
  else BitVec.ofNat 32 (mmaPoisRows s r m (stepRows m) (stepScales m) 32)
def stepBad (s : State) (r : Nat) (m : Mma) : W32 := m.pois ||| stepPois s r m
/-- The first poisoned unit that the MMA has read. -/
def stepFirst (s : State) (r : Nat) (m : Mma) : Option Word :=
  match m.first with
  | some x => some x
  | none => match firstUnit s r (m.a + w64 (128 * mmaBitsA m.fmt * m.st)) (stepRows m) (128 * mmaBitsA m.fmt) with
    | some x => some x
    | none => if mmaScaled m.fmt then firstUnit s r (m.sc + w64 (128 * m.st)) (stepScales m) 128 else none
/-- The state in which the accumulator holds the step's elements, and the poison that the step has consumed is counted. -/
def stepDone (s : State) (r : Nat) (m : Mma) : State :=
  let t := s.modCore r fun c => c.setAcc m.acc { c.acc m.acc with
    data := BitVec.ofNat 32768 (accOf (fun i => ofLanes fun j => stepElem s r m i j) 32) }
  if m.wide then t else mmaConsume t r m (stepRows m) (mmaBitsA m.fmt) (stepScales m) ((s.core r).half m.half).pois
/-- The queue's head after a step that is not its last. -/
def stepNext (s : State) (r : Nat) (m : Mma) : Mma := { m with st := m.st + 1, pois := stepBad s r m, first := stepFirst s r m, due := 0 }

section
variable {s : State} {r : Nat} {m : Mma} {rest : List Mma} (hq : (s.core r).mq = m :: rest)

include hq in
theorem exec_mmaStep_running (hdue : mmaDue s r = true) (hrun : m.due ≠ 0) : exec (.mmaStep r) s =
    .next (mmaStart (if m.st + 1 < m.n then (stepDone s r m).modCore r fun c => { c with mq := stepNext s r m :: rest }
      else mmaEnd (stepDone s r m) r { m with first := stepFirst s r m } (stepBad s r m)) r) := by
  show execMmaStep r s = _
  unfold execMmaStep
  rw [hdue, Bool.not_true, if_neg Bool.false_ne_true, hq]
  simp only [if_neg hrun, fld_low]
  split <;> rfl

/-! ### What a step leaves -/

theorem stepDone_unit (s : State) (r : Nat) (m : Mma) : SameUnit r (s.modCore r fun c => c.setAcc m.acc { c.acc m.acc with
    data := BitVec.ofNat 32768 (accOf (fun i => ofLanes fun j => stepElem s r m i j) 32) }) (stepDone s r m) := by
  unfold stepDone
  dsimp only
  split
  · exact SameUnit.refl _
  · exact SameUnit.mmaConsume _ _ _ _ _ _ _
theorem stepDone_mem (s : State) (r : Nat) (m : Mma) : (stepDone s r m).mem = s.mem := (stepDone_unit s r m).mem
theorem stepDone_mq (s : State) (r : Nat) (m : Mma) : ((stepDone s r m).core r).mq = (s.core r).mq := by
  rw [(stepDone_unit s r m).mq, core_modCore_self]; rfl
theorem stepDone_acc_of_ne (s : State) (r : Nat) (m : Mma) {n : Nat} (h : n ≠ m.acc) : ((stepDone s r m).core r).acc n = (s.core r).acc n := by
  rw [(stepDone_unit s r m).acc, core_modCore_self, Core.acc_setAcc_of_ne _ _ h]
theorem stepDone_acc (s : State) (r : Nat) {m : Mma} (h : m.acc < 8) : ((stepDone s r m).core r).acc m.acc =
    { (s.core r).acc m.acc with data := BitVec.ofNat 32768 (accOf (fun i => ofLanes fun j => stepElem s r m i j) 32) } := by
  rw [(stepDone_unit s r m).acc, core_modCore_self, Core.acc_setAcc_self _ _ h]
theorem stepDone_elem (s : State) (r : Nat) {m : Mma} (h : m.acc < 8) {i j : Nat} (hi : i < 32) (hj : j < 32) :
    accElem (((stepDone s r m).core r).acc m.acc).data i j = stepElem s r m i j := by
  rw [stepDone_acc s r h, accElem_accOf _ hi hj, lane_ofLanes _ hj]

/-! ### The poison that a step reads (R141) -/

/-- Row i has read poison: before this step, in its half, or in one of the row's A units or its scale word. -/
def rowBad (s : State) (r : Nat) (m : Mma) (i : Nat) : Prop :=
  m.pois.getLsbD i = true ∨ ((s.core r).half m.half).pois = true ∨
    (∃ k, k < 32 ∧ s.poisoned (.clm r (stepRows m + mmaBitsA m.fmt * (if m.ta then 32 * k + i else 32 * i + k) / 8)) = true) ∨
    (mmaScaled m.fmt = true ∧ s.poisoned (.clm r (stepScales m + 4 * i)) = true)
theorem mmaRowPois_iff (s : State) (r : Nat) (m : Mma) (i : Nat) : mmaRowPois s r m (stepRows m) (stepScales m) i = true ↔
    (∃ k, k < 32 ∧ s.poisoned (.clm r (stepRows m + mmaBitsA m.fmt * (if m.ta then 32 * k + i else 32 * i + k) / 8)) = true) ∨
    (mmaScaled m.fmt = true ∧ s.poisoned (.clm r (stepScales m + 4 * i)) = true) := by
  simp only [mmaRowPois, lanes32, Bool.or_eq_true, List.any_eq_true, mem_upTo, Bool.and_eq_true]
theorem stepBad_iff (s : State) (r : Nat) (m : Mma) {i : Nat} (hi : i < 32) : (stepBad s r m).getLsbD i = true ↔ rowBad s r m i := by
  unfold stepBad stepPois rowBad
  rw [BitVec.getLsbD_or, Bool.or_eq_true]
  refine or_congr_right ?_
  by_cases hh : ((s.core r).half m.half).pois = true
  · rw [if_pos hh, BitVec.getLsbD_allOnes]
    simp [hh, hi]
  · rw [if_neg hh, ← mmaRowPois_iff]
    simp only [hh, Bool.false_eq_true, false_or]
    by_cases he : s.poison.isEmpty = true
    · rw [if_pos he]
      simp [mmaRowPois, poisoned_of_empty he]
    · rw [if_neg he, BitVec.getLsbD_ofNat, mmaPoisRows_testBit _ _ _ _ _ hi]
      simp [hi]
theorem stepBad_eq_zero (s : State) (r : Nat) (m : Mma) : stepBad s r m = 0 ↔ ∀ i, i < 32 → ¬ rowBad s r m i := by
  refine ⟨fun h i hi hb => ?_, fun h => BitVec.eq_of_getLsbD_eq fun i hi => ?_⟩
  · rw [← stepBad_iff s r m hi, h] at hb
    simp at hb
  · have := h i hi
    rw [← stepBad_iff s r m hi] at this
    simpa using this

/-! ### The end of an MMA (R140, R141) -/

/-- The poisoned rows of an accumulator take the canonical NaN and their mask bits. -/
def nanRows (a : Acc) (bad : W32) : Acc :=
  { a with
    pois := a.pois ||| bad
    data := BitVec.ofNat 32768 (accOf (fun i => if (a.pois ||| bad).getLsbD i then nanRow else accRow a.data i) 32) }
theorem nanRows_elem (a : Acc) (bad : W32) {i j : Nat} (hi : i < 32) (hj : j < 32) : accElem (nanRows a bad).data i j =
    if (nanRows a bad).pois.getLsbD i = true then 0x7FC00000 else accElem a.data i j := by
  unfold nanRows
  dsimp only
  rw [accElem_accOf _ hi hj]
  split
  · exact lane_nanRow hj
  · exact (accElem_eq_lane _ _ hj).symm
/-- The state in which the unit has let the MMA go, before the answer of one with the poison trap on. -/
def mmaGone (s : State) (r : Nat) (m : Mma) (bad : W32) : State :=
  ((s.modCore r fun c => { (c.setAcc m.acc (nanRows (c.acc m.acc) bad)) with mq := c.mq.tail }).freeAcc r m.acc).drain r m.half
theorem mmaEnd_eq (s : State) (r : Nat) (m : Mma) (bad : W32) : mmaEnd s r m bad =
    if m.wide then (mmaGone s r m bad).reply r (if m.bufAt.isSome then 16 else m.berth)
      { trap := if bad = 0 then none else some (.poison, m.first.getD ones64), past := true }
    else mmaGone s r m bad := by
  unfold mmaEnd
  cases m.wide <;> rfl
structure MmaGone (s t : State) (r : Nat) (m : Mma) (bad : W32) : Prop where
  mem : t.mem = s.mem
  mq : (t.core r).mq = (s.core r).mq.tail
  others : ∀ n, n ≠ m.acc → (t.core r).acc n = (s.core r).acc n
  data : ((t.core r).acc m.acc).data = (nanRows ((s.core r).acc m.acc) bad).data
  pois : ((t.core r).acc m.acc).pois = (nanRows ((s.core r).acc m.acc) bad).pois
theorem MmaGone.trans {s t u : State} {bad : W32} (h : MmaGone s t r m bad) (k : SameUnit r t u) : MmaGone s u r m bad where
  mem := k.mem.trans h.mem
  mq := k.mq.trans h.mq
  others n hn := (k.acc n).trans (h.others n hn)
  data := by rw [k.acc, h.data]
  pois := by rw [k.acc, h.pois]
theorem mmaGone_leaves (s : State) (r : Nat) {m : Mma} (bad : W32) (h : m.acc < 8) : MmaGone s (mmaGone s r m bad) r m bad := by
  unfold mmaGone
  generalize ht : (s.modCore r fun c => { (c.setAcc m.acc (nanRows (c.acc m.acc) bad)) with mq := c.mq.tail }) = t
  have hc : t.core r = { ((s.core r).setAcc m.acc (nanRows ((s.core r).acc m.acc) bad)) with mq := (s.core r).mq.tail } := by
    rw [← ht, core_modCore_self]
  have hself : (t.core r).acc m.acc = nanRows ((s.core r).acc m.acc) bad := by rw [hc]; exact Core.acc_setAcc_self _ _ h
  obtain ⟨hmem, hmq, hne, hdata, hpois⟩ := freeAcc_keeps t r h
  have e : MmaGone s (t.freeAcc r m.acc) r m bad := {
    mem := by rw [hmem, ← ht]; rfl
    mq := by rw [hmq, hc]
    others := fun n hn => by rw [hne n hn, hc]; exact Core.acc_setAcc_of_ne _ _ hn
    data := by rw [hdata, hself]
    pois := by rw [hpois, hself] }
  exact e.trans (SameUnit.drain _ _ _)
theorem mmaEnd_leaves (s : State) (r : Nat) {m : Mma} (bad : W32) (h : m.acc < 8) : MmaGone s (mmaEnd s r m bad) r m bad := by
  rw [mmaEnd_eq]
  split
  · exact (mmaGone_leaves s r bad h).trans (SameUnit.reply _ _ _ _ _)
  · exact mmaGone_leaves s r bad h

/-! ### The first poisoned unit (R141, log 66) -/

/-- The first unit of an earlier step stays; else it is the first of this step's, where there is one. -/
theorem stepFirst_kept {x : Word} (h : m.first = some x) : stepFirst s r m = some x := by unfold stepFirst; rw [h]
theorem stepFirst_none (h : m.first = none) (ha : ¬ ∃ u, u < 16 * mmaBitsA m.fmt ∧ s.poisoned (.clm r (stepRows m + 8 * u)) = true)
    (hs : mmaScaled m.fmt = true → ¬ ∃ u, u < 16 ∧ s.poisoned (.clm r (stepScales m + 8 * u)) = true) : stepFirst s r m = none := by
  have hn : 128 * mmaBitsA m.fmt / 8 = 16 * mmaBitsA m.fmt := by omega
  unfold stepFirst
  rw [h, firstUnit_none (by rw [hn]; exact ha)]
  dsimp only
  split
  next hsc => exact firstUnit_none (hs hsc)
  next => rfl
theorem stepFirst_unit (h : m.first = none) (ha : ∃ u, u < 16 * mmaBitsA m.fmt ∧ s.poisoned (.clm r (stepRows m + 8 * u)) = true) :
    ∃ u, u < 16 * mmaBitsA m.fmt ∧ s.poisoned (.clm r (stepRows m + 8 * u)) = true ∧
      (∀ v, v < u → s.poisoned (.clm r (stepRows m + 8 * v)) = false) ∧
      stepFirst s r m = some (m.a + w64 (128 * mmaBitsA m.fmt * m.st + 8 * u)) := by
  have hn : 128 * mmaBitsA m.fmt / 8 = 16 * mmaBitsA m.fmt := by omega
  rw [← hn] at ha ⊢
  obtain ⟨u, hu, hp, hmin, hf⟩ := firstUnit_some (va := m.a + w64 (128 * mmaBitsA m.fmt * m.st)) ha
  refine ⟨u, hu, hp, hmin, ?_⟩
  unfold stepFirst
  rw [h, hf]
  dsimp only
  rw [BitVec.add_assoc, w64, w64, w64, ← BitVec.ofNat_add]

/-! ### The clause of the steps -/

theorem mmaSteps : MmaSteps := by
  intro s r m rest hq hdue hrun hacc w half old aOff sOff a b sa sb elem unitA unitS bad does
  have hexec := exec_mmaStep_running hq hdue hrun
  refine ⟨fun hmore => ?_, fun hlast => ?_⟩
  · rw [if_pos hmore] at hexec
    generalize ht : ((stepDone s r m).modCore r fun c => { c with mq := stepNext s r m :: rest }) = t at hexec
    have hmq : (t.core r).mq = stepNext s r m :: rest := by rw [← ht, core_modCore_self]
    have hac (n : Nat) : ((mmaStart t r).core r).acc n = ((stepDone s r m).core r).acc n := by
      rw [mmaStart_acc, ← ht, core_modCore_self]; rfl
    obtain ⟨d, hd⟩ := mmaStart_mq t r hmq
    refine ⟨mmaStart t r, _, ⟨hexec, ?_, fun n hn => ?_⟩, fun i j hi hj => ?_, ?_, hd, rfl, rfl, rfl, fun i hi => stepBad_iff s r m hi⟩
    · rw [mmaStart_mem, ← ht]; exact stepDone_mem s r m
    · rw [hac, stepDone_acc_of_ne s r m hn]
    · rw [hac]; exact stepDone_elem s r hacc hi hj
    · rw [hac, stepDone_acc s r hacc]
  · rw [if_neg (Nat.not_lt.2 hlast)] at hexec
    generalize ht : mmaEnd (stepDone s r m) r { m with first := stepFirst s r m } (stepBad s r m) = t at hexec
    obtain ⟨hmem, hmq, hothers, hdata, hpois⟩ : MmaGone (stepDone s r m) t r { m with first := stepFirst s r m } (stepBad s r m) := by
      rw [← ht]; exact mmaEnd_leaves _ r _ hacc
    rw [stepDone_mq, hq] at hmq
    refine ⟨mmaStart t r, ⟨hexec, ?_, fun n hn => ?_⟩, ?_, fun i hi => ?_, fun i j hi hj => ?_, fun hw => ?_⟩
    · rw [mmaStart_mem, hmem, stepDone_mem]
    · rw [mmaStart_acc, hothers n hn, stepDone_acc_of_ne s r m hn]
    · rw [mmaStart_seqs, hmq]; rfl
    · rw [mmaStart_acc, hpois, stepDone_acc s r hacc, nanRows, BitVec.getLsbD_or, Bool.or_eq_true, stepBad_iff s r m hi]
      exact Iff.rfl
    · rw [mmaStart_acc, hpois, hdata, nanRows_elem _ _ hi hj, stepDone_elem s r hacc hi hj]
      rfl
    · rw [mmaEnd_eq, if_pos hw] at ht
      refine ⟨_, _, by rw [← ht], fun hb => ?_, fun ⟨i, hi, hb⟩ => ?_⟩
      · rw [if_pos ((stepBad_eq_zero s r m).2 hb)]
      · rw [if_neg fun h0 => (stepBad_eq_zero s r m).1 h0 i hi hb]
        refine ⟨_, rfl, fun y hy => ?_, fun h0 ha hs => ?_, fun h0 ha => ?_⟩
        · rw [stepFirst_kept hy]; rfl
        · rw [stepFirst_none h0 ha hs]; rfl
        · obtain ⟨u, hu, hp, hmin, hf⟩ := stepFirst_unit h0 ha
          exact ⟨u, hu, hp, hmin, by rw [hf]; rfl⟩
end

/-- Settles O27: an MMA's issue by the shared `issueMma`, and its steps by what the completion of one leaves. -/
theorem mmaQueuesAndSteps : Obligations.MmaQueuesAndSteps := ⟨mmaIssue, mmaSteps⟩
end Sys2Proof.Machine
end

section
/-! PROOFS OF THE SCOPE. Fills of the latch. -/
namespace Sys2Proof.Machine
open State Sys2Proof.Spec

/-! ### The half of an instruction's issue goes with it into its waits (R136, R143) -/

namespace State
/-- What a wait fixes of the half: that of the issue, or of the wait before. -/
theorem nextWait_half (y : Why) (k c : Nat) (i : Issued) (o : Option Wait) :
    (nextWait y k c i o).issued.half = (match o with | some w => w.issued | none => i).half := by
  cases o with
  | none => rfl
  | some w =>
    unfold nextWait
    dsimp only
    split
    · rfl
    · unfold startWait keptIssue
      dsimp only
      split <;> rfl
theorem myWait_of_cores {s t : State} (hc : t.cores = s.cores) (hr : t.rank = s.rank) (hb : t.berth = s.berth) (hf : t.buffered = s.buffered) :
    t.myWait = s.myWait := by
  unfold myWait myCore me
  rw [hf, hr, hb, core_of_cores hc, berthAt_of_cores hc]
/-- The wait that an instruction is told to be in, if it is in one: a buffer's word needs a buffer. -/
theorem setWait_myWait {s : State} {w k : Wait} (h : (s.setWait w).myWait = some k) : k = w := by
  unfold setWait at h
  unfold myWait at h
  by_cases hb : s.buffered = true
  · rw [if_pos hb, show (s.modMyCore _).buffered = s.buffered from rfl, if_pos hb, myCore_modMyCore] at h
    cases hq : s.myCore.buffer with
    | none => simp [hq] at h
    | some q =>
      rw [hq] at h
      exact (Option.some.inj h).symm
  · rw [if_neg hb, show (s.modMe _).buffered = s.buffered from rfl, if_neg hb, me_modMe] at h
    exact (Option.some.inj h).symm
/-- A change of the executing instruction's wait. -/
theorem modMyWait_myWait (s : State) (f : Wait → Wait) : (s.modMyWait f).myWait = s.myWait.map f := by
  by_cases hb : s.buffered = true
  · unfold modMyWait modWait slot myWait
    rw [if_pos hb, if_pos rfl, show (s.modCore _ _).buffered = s.buffered from rfl, if_pos hb, if_pos hb]
    show (s.modMyCore _).myCore.buffer.bind Buf.wait = _
    rw [myCore_modMyCore]
    cases s.myCore.buffer <;> rfl
  · have hb : s.buffered = false := by simpa using hb
    rw [modMyWait_berth hb]
    unfold myWait
    rw [show (s.modMe _).buffered = s.buffered from rfl, hb, if_neg Bool.false_ne_true, if_neg Bool.false_ne_true, me_modMe]
theorem modMyWait_ticket (s : State) (n : Nat) (f : Wait → Wait) :
    ({ s with ticket := n } : State).modMyWait f = { s.modMyWait f with ticket := n } := by
  unfold modMyWait modWait
  show (if s.slot = 16 then _ else _) = { (if s.slot = 16 then _ else _ : State) with ticket := n }
  split <;> rfl
/-- The wait that `block` begins, but for a held request's mark on it. -/
theorem block_myWait (s : State) (y : Why) : ∃ f : Wait → Wait, (∀ w, (f w).issued = w.issued) ∧
    (s.block y).myWait = (s.setWait (nextWait y s.ticket s.cycle s.issueNow s.myWait)).myWait.map f := by
  let w := nextWait y s.ticket s.cycle s.issueNow s.myWait
  have same {t : State} (hc : t.cores = (s.setWait w).cores) (hr : t.rank = (s.setWait w).rank) (hb : t.berth = (s.setWait w).berth)
      (hf : t.buffered = (s.setWait w).buffered) :
      ∃ f : Wait → Wait, (∀ w, (f w).issued = w.issued) ∧ t.myWait = (s.setWait w).myWait.map f :=
    ⟨id, fun _ => rfl, by rw [Option.map_id, myWait_of_cores hc hr hb hf]; rfl⟩
  cases y with
  | walk asid gran store =>
    unfold block
    dsimp only
    split <;> exact same rfl rfl rfl rfl
  | held r =>
    refine ⟨fun w => { w with hold := true, reply := some { again := true } }, fun _ => rfl, ?_⟩
    have e := modMyWait_ticket (s.setWait w) (s.ticket + 1) fun w => { w with hold := true, reply := some { again := true } }
    rw [← modMyWait_myWait]
    exact myWait_of_cores (congrArg State.cores e :) (congrArg State.rank e :) (congrArg State.berth e :) (congrArg State.buffered e :)
  | _ => exact same rfl rfl rfl rfl
/-- An instruction's wait, whatever it waits for, keeps the half of its issue. -/
theorem block_half {s : State} {y : Why} {k : Wait} (h : (s.block y).myWait = some k) : k.issued.half = s.issued.half := by
  obtain ⟨f, hf, e⟩ := block_myWait s y
  rw [e, Option.map_eq_some_iff] at h
  obtain ⟨w, hw, rfl⟩ := h
  rw [hf, setWait_myWait hw, nextWait_half]; rfl
end State
end Sys2Proof.Machine
end

section
/-! PROOFS OF THE SCOPE. What a fill or a ring transfer leaves in a half. -/
namespace Sys2Proof.Machine
open State Sys2Proof.Spec

/-! ### Low bits replaced (R133, R136) -/

section
variable {o x B N : Nat} (hx : x < 2 ^ B)
include hx
/-- A number whose low B bits are replaced by x. -/
theorem withLow_div : (o / 2 ^ B * 2 ^ B + x) / 2 ^ B = o / 2 ^ B := by
  rw [Nat.add_comm, Nat.add_mul_div_right _ _ (Nat.two_pow_pos B), Nat.div_eq_of_lt hx, Nat.zero_add]
theorem withLow_mod : (o / 2 ^ B * 2 ^ B + x) % 2 ^ B = x := by
  rw [Nat.add_comm, Nat.add_mul_mod_self_right, Nat.mod_eq_of_lt hx]
theorem toNat_withLow (ho : o < 2 ^ N) (hB : B ≤ N) : (BitVec.ofNat N (o / 2 ^ B * 2 ^ B + x)).toNat = o / 2 ^ B * 2 ^ B + x := by
  obtain ⟨d, rfl⟩ := Nat.exists_eq_add_of_le hB
  have h : o / 2 ^ B < 2 ^ d := Nat.div_lt_of_lt_mul (by rwa [← Nat.pow_add])
  rw [BitVec.toNat_ofNat, Nat.mod_eq_of_lt]
  calc o / 2 ^ B * 2 ^ B + x < o / 2 ^ B * 2 ^ B + 2 ^ B := Nat.add_lt_add_left hx _
    _ = (o / 2 ^ B + 1) * 2 ^ B := (Nat.succ_mul _ _).symm
    _ ≤ 2 ^ d * 2 ^ B := Nat.mul_le_mul_right _ h
    _ = 2 ^ (B + d) := by rw [← Nat.pow_add, Nat.add_comm]
end
/-- A piece below bit B is one of the low B bits. -/
theorem piece_mod (x : Nat) {w i B : Nat} (h : w * (i + 1) ≤ B) : piece (x % 2 ^ B) w i = piece x w i := by
  obtain ⟨d, rfl⟩ := Nat.exists_eq_add_of_le h
  unfold piece
  rw [show w * (i + 1) + d = w * i + (w + d) by ring, Nat.pow_add, Nat.mod_mul_right_div_self,
    Nat.mod_mod_of_dvd _ (Nat.pow_dvd_pow 2 (Nat.le_add_right w d))]
theorem piece_withLow {o x B w i : Nat} (hx : x < 2 ^ B) (h : w * (i + 1) ≤ B) : piece (o / 2 ^ B * 2 ^ B + x) w i = piece x w i := by
  rw [← piece_mod _ h, withLow_mod hx]
/-- A piece of a wide piece. -/
theorem piece_piece (x w c i : Nat) {m : Nat} (h : m < c) : piece (piece x (w * c) i) w m = piece x w (c * i + m) := by
  have hb : w * (m + 1) ≤ w * c := Nat.mul_le_mul_left w h
  rw [show piece x (w * c) i = x / 2 ^ (w * c * i) % 2 ^ (w * c) from rfl, piece_mod _ hb]
  unfold piece
  rw [Nat.div_div_eq_div_mul, ← Nat.pow_add, show w * c * i + w * m = w * (c * i + m) by ring]

/-! ### Tiles and scale words (R57, R135, R136) -/

/-- Step st of a transposed tile, as a number of 1024 pieces. -/
def transposedStep (src w st : Nat) : Nat := piecesNat w (fun m => src / 2 ^ (1024 * w * st) / 2 ^ (w * (32 * (m % 32) + m / 32))) 1024
theorem transposed_succ (src w n : Nat) : transposed src w (n + 1) = transposed src w n + transposedStep src w n * 2 ^ (1024 * w * n) := by
  unfold transposed
  rw [List.range_succ, List.foldl_append]
  rfl
theorem transposedStep_lt (src w st : Nat) : transposedStep src w st < 2 ^ (1024 * w) := by
  rw [Nat.mul_comm]; exact piecesNat_lt _ _ _
theorem transposed_lt (src w n : Nat) : transposed src w n < 2 ^ (1024 * w * n) :=
  piecewise_lt (d := transposedStep src w) rfl (transposed_succ src w) (transposedStep_lt src w) n
/-- Element 32 j + i of a step of a transposed tile is element 32 i + j of the source's step. -/
theorem piece_transposed (src w : Nat) {n st i j : Nat} (hst : st < n) (hi : i < 32) (hj : j < 32) :
    piece (transposed src w n) w (1024 * st + 32 * j + i) = piece src w (1024 * st + 32 * i + j) := by
  have hm : 32 * j + i < 1024 := by omega
  have h1 : (32 * j + i) % 32 = i := by omega
  have h2 : (32 * j + i) / 32 = j := by omega
  rw [Nat.add_assoc, ← piece_piece _ w 1024 st hm, Nat.mul_comm w 1024,
    piece_piecewise (d := transposedStep src w) rfl (transposed_succ src w) (transposedStep_lt src w) hst, transposedStep,
    piece_piecesNat w _ hm, h1, h2, Nat.div_div_eq_div_mul, ← Nat.pow_add]
  unfold piece
  rw [show 1024 * w * st + w * (32 * i + j) = w * (1024 * st + 32 * i + j) by ring]
theorem scaleBits_lt (x n : Nat) : scaleBits x n < 2 ^ (32 * n) :=
  piecewise_lt (d := fun i => x / 2 ^ (32 * i) % 2 ^ 20) rfl (fun _ => rfl) (fun i => by have := Nat.mod_lt (x / 2 ^ (32 * i)) (Nat.two_pow_pos 20); omega) n
/-- A scale word as a unit writes it. -/
theorem piece_scaleBits (x : Nat) {n i : Nat} (h : i < n) : piece (scaleBits x n) 32 i = piece x 32 i % 2 ^ 20 := by
  rw [piece_piecewise (d := fun i => x / 2 ^ (32 * i) % 2 ^ 20) rfl (fun _ => rfl)
    (fun i => by have := Nat.mod_lt (x / 2 ^ (32 * i)) (Nat.two_pow_pos 20); omega) h]
  exact (Nat.mod_mod_of_dvd _ (Nat.pow_dvd_pow 2 (by decide))).symm

/-- A descriptor's step tiles number at most 8, and each holds 1,024 elements of 16, 8 or 4 bits. -/
theorem descN_le (d : Nat) : descN d ≤ 8 := by unfold descN; omega
theorem descSb_cases (d : Nat) : descSb d = 2048 ∨ descSb d = 1024 ∨ descSb d = 512 := by
  unfold descSb
  split
  · exact .inr (.inl rfl)
  · split
    · exact .inr (.inr rfl)
    · exact .inl rfl
theorem descSb_elem (d : Nat) : descSb d * 8 / 1024 = descSb d / 128 ∧ 8 * descN d * descSb d = 1024 * (descSb d / 128) * descN d := by
  obtain h | h | h := descSb_cases d <;> rw [h] <;> omega
/-- An element of a step's tile lies in the tile data of its half. -/
theorem tileElem_le {d st i j : Nat} (hi : i < 32) (hj : j < 32) (hst : st < descN d) :
    descSb d / 128 * (1024 * st + 32 * j + i + 1) ≤ 8 * descN d * descSb d := by
  obtain ⟨-, h⟩ := descSb_elem d
  calc descSb d / 128 * (1024 * st + 32 * j + i + 1) ≤ descSb d / 128 * (1024 * descN d) := Nat.mul_le_mul_left _ (by omega)
    _ = 8 * descN d * descSb d := by rw [h]; ring
theorem descTile_le (d : Nat) : 8 * descN d * descSb d ≤ 131072 := by
  have := descN_le d
  obtain h | h | h := descSb_cases d <;> rw [h] <;> omega
theorem descBytes_pos (d : Nat) : 0 < descBytes d := by
  have : 0 < descN d := by unfold descN; omega
  unfold descBytes
  obtain h | h | h := descSb_cases d <;> rw [h] <;> omega

/-! ### The scale words and the tile of a half that has been written (R136, R137) -/

/-- The tile data of a half, its low bytes replaced. -/
def tileOf (d : Nat) (o : BitVec 131072) (tile : Nat) : BitVec 131072 :=
  BitVec.ofNat 131072 (o.toNat / 2 ^ (8 * descN d * descSb d) * 2 ^ (8 * descN d * descSb d) + tile)
/-- The scale words of a half, those of its step tiles replaced where the descriptor has any. -/
def scalesOf (d : Nat) (o : BitVec 8192) (x : Nat) : BitVec 8192 :=
  if descSc d then BitVec.ofNat 8192 (o.toNat / 2 ^ (1024 * descN d) * 2 ^ (1024 * descN d) + scaleBits x (32 * descN d)) else o
section
variable {d tile : Nat} (o : BitVec 131072) (ht : tile < 2 ^ (8 * descN d * descSb d))
include ht
theorem tileOf_toNat : (tileOf d o tile).toNat = o.toNat / 2 ^ (8 * descN d * descSb d) * 2 ^ (8 * descN d * descSb d) + tile :=
  toNat_withLow ht o.isLt (descTile_le d)
theorem tileOf_div : (tileOf d o tile).toNat / 2 ^ (8 * descN d * descSb d) = o.toNat / 2 ^ (8 * descN d * descSb d) := by
  rw [tileOf_toNat o ht, withLow_div ht]
theorem tileOf_mod : (tileOf d o tile).toNat % 2 ^ (8 * descN d * descSb d) = tile := by
  rw [tileOf_toNat o ht, withLow_mod ht]
end
theorem scalesOf_none {d : Nat} (o : BitVec 8192) (x : Nat) (h : descSc d = false) : scalesOf d o x = o := by
  unfold scalesOf; rw [h, if_neg Bool.false_ne_true]
theorem scalesOf_words {d : Nat} (o : BitVec 8192) (x : Nat) (h : descSc d = true) :
    (∀ i, i < 32 * descN d → piece (scalesOf d o x).toNat 32 i = piece x 32 i % 2 ^ 20) ∧
      (scalesOf d o x).toNat / 2 ^ (1024 * descN d) = o.toNat / 2 ^ (1024 * descN d) := by
  have hlt : scaleBits x (32 * descN d) < 2 ^ (1024 * descN d) := by
    have := scaleBits_lt x (32 * descN d)
    rwa [← Nat.mul_assoc] at this
  have hle : 1024 * descN d ≤ 8192 := by have := descN_le d; omega
  unfold scalesOf
  rw [if_pos h, toNat_withLow hlt o.isLt hle]
  exact ⟨fun i hi => by rw [piece_withLow hlt (by omega), piece_scaleBits x hi], withLow_div hlt⟩
end Sys2Proof.Machine
end

section
/-! PROOFS OF THE SCOPE. Fills of the latch: their issue and their end. -/
namespace Sys2Proof.Machine
open State Sys2Proof.Spec

/-! ### The issue of a fill (R136, R143) -/

/-- The half of an instruction that issues now is the current one; of one that has waited, that of its issue. -/
theorem issued_half_first {s : State} (h : s.myWait = none) : s.issued.half = s.myCore.curh := by unfold issued; rw [h]; rfl
theorem issued_half_waited {s : State} {k : Wait} (h : s.myWait = some k) : s.issued.half = k.issued.half := by unfold issued; rw [h]

section
variable {s : State} {a b : BitVec 5} {off : Nat} {tr : Bool} (hp : Ready s [a, b] 0) (ha : (s.rx a).toNat = 14 * 2 ^ 48 + off)
  (hlo : 0x8000 ≤ off) (hal : off % 128 = 0) (hhi : off + descBytes ((s.rx b).toNat % 128) ≤ 0x20000)
include hp ha hlo hal hhi
/-- A fill behind its checks starts, or waits for its half. -/
theorem fillHalf_checked : fillHalf s a b tr =
    finishMatrix s (.fill (some (fillTarget s ((s.rx b).toNat % 128)))) [(off, descBytes ((s.rx b).toNat % 128))] (
      if !s.mayFill s.rank (fillTarget s ((s.rx b).toNat % 128)) s.issueSeq then waitFor (.fill (fillTarget s ((s.rx b).toNat % 128)))
      else .ok (((s.modMyCore fun k => k.setHalf (fillTarget s ((s.rx b).toNat % 128)) { k.half (fillTarget s ((s.rx b).toNat % 128)) with
        st := .filling, fill := some (s.berth, off, w64 ((s.rx b).toNat % 128 % 64), s.startAt + descBytes ((s.rx b).toNat % 128) / 32, tr) }).pops
          [a, b]).moor.next)) := by
  have hd : fld (s.rx b) 0 7 = (s.rx b).toNat % 128 := fld_low _ 7
  have hpos := descBytes_pos ((s.rx b).toNat % 128)
  have hb : s.checkIns [b] = .ok () := checkIns_ok fun r hr => hp.1 r (List.mem_cons_of_mem a hr)
  have hop := matOperand_here s .read ha hlo hal hpos hhi
  unfold fillHalf fillLatch
  dsimp only
  rw [hd, hb, checkIns_ok hp.1, hop, fld_localAlias ha (by omega)]
  rfl
theorem fillHalf_starts (h : s.mayFill s.rank (fillTarget s ((s.rx b).toNat % 128)) s.issueSeq = true) : fillHalf s a b tr =
    .next (((s.modMyCore fun k => k.setHalf (fillTarget s ((s.rx b).toNat % 128)) { k.half (fillTarget s ((s.rx b).toNat % 128)) with
        st := .filling, fill := some (s.berth, off, w64 ((s.rx b).toNat % 128 % 64), s.startAt + descBytes ((s.rx b).toNat % 128) / 32, tr) }).pops
          [a, b]).moor.next) := by
  rw [fillHalf_checked hp ha hlo hal hhi, h, Bool.not_true, if_neg Bool.false_ne_true, finishMatrix_ok]
theorem fillHalf_waits (h : s.mayFill s.rank (fillTarget s ((s.rx b).toNat % 128)) s.issueSeq = false) : fillHalf s a b tr =
    .next ((s.moor.block (.fill (fillTarget s ((s.rx b).toNat % 128)))).noteIssued fun x => { x with
      latch := .fill (some (fillTarget s ((s.rx b).toNat % 128))), reads := [(off, descBytes ((s.rx b).toNat % 128))] }) := by
  rw [fillHalf_checked hp ha hlo hal hhi, h, Bool.not_false, if_pos rfl, finishMatrix_wait_fill]
end

/-! ### The end of a fill (R57, R133, R136) -/

/-- What a fill leaves in its half. -/
def filledHalf (s : State) (r src d : Nat) (tr : Bool) (o : Half) : Half :=
  let raw := s.readN (.clm r src) (descN d * descSb d)
  { o with
    data := tileOf d o.data (if tr then transposed raw (descSb d * 8 / 1024) (descN d) else raw)
    scales := scalesOf d o.scales (s.readN (.clm r (src + descN d * descSb d)) (128 * descN d))
    st := .full
    desc := BitVec.ofNat 6 d
    pois := s.anyPoison (.clm r src) (descBytes d)
    fill := none }
theorem exec_latchFillDone {s : State} {r k own src due : Nat} {dw : Word} {tr : Bool}
    (h : ((s.core r).half k).fill = some (own, src, dw, due, tr)) : exec (.latchFillDone r k) s =
      .next (s.modCore r fun c => c.setHalf k (filledHalf s r src dw.toNat tr (c.half k))) := by
  show execLatchFillDone r k s = _
  unfold execLatchFillDone
  rw [h]
  rfl
/-- The tile that a fill brings has the bytes of its source, as many as the descriptor says. -/
theorem fillTile_lt (s : State) (r src d : Nat) (tr : Bool) : (if tr then
    transposed (s.readN (.clm r src) (descN d * descSb d)) (descSb d * 8 / 1024) (descN d) else s.readN (.clm r src) (descN d * descSb d)) <
      2 ^ (8 * descN d * descSb d) := by
  split
  · obtain ⟨h1, h2⟩ := descSb_elem d
    rw [h1, h2]; exact transposed_lt _ _ _
  · rw [Nat.mul_assoc]; exact readN_lt _ _ _

theorem latchFills : LatchFills := by
  intro s a b d off w c h fills
  refine ⟨fun hw => ?_, fun k hk => ?_, fun y k hw hk => ?_, fun y j k hj hk => ?_, fun hp ha hlo hal hhi => ?_, fun hp => ?_,
    fun r k own src dw due tr hf => ?_, fun r k hf => ?_⟩
  · rw [← issued_half_first hw]; rfl
  · rw [← issued_half_waited hk]; rfl
  · rw [block_half hk, issued_half_first hw]
  · rw [block_half hk, issued_half_waited hj]
  · exact ⟨⟨fillHalf_starts hp ha hlo hal hhi, fillHalf_waits hp ha hlo hal hhi⟩,
      ⟨fillHalf_starts hp ha hlo hal hhi, fillHalf_waits hp ha hlo hal hhi⟩⟩
  · show s.finish _ = _
    rw [checkOut_ok hp.2]; rfl
  · have ht := fillTile_lt s r src dw.toNat tr
    refine ⟨_, exec_latchFillDone hf, ?_⟩
    rw [core_modCore_self]
    dsimp only
    rw [Core.half_setHalf_self]
    generalize (s.core r).half k = old
    refine ⟨rfl, rfl, rfl, rfl, rfl, tileOf_div old.data ht, fun htr => ?_, fun htr i j st hi hj hst => ?_,
      scalesOf_none old.scales _, scalesOf_words old.scales _⟩
    · rw [show (filledHalf s r src dw.toNat tr old).data = tileOf dw.toNat old.data _ from rfl, tileOf_mod old.data ht, htr]; rfl
    · obtain ⟨h1, -⟩ := descSb_elem dw.toNat
      rw [show (filledHalf s r src dw.toNat tr old).data = tileOf dw.toNat old.data _ from rfl, ← piece_mod _ (tileElem_le hi hj hst), tileOf_mod old.data ht, htr,
        if_pos rfl, h1, piece_transposed _ _ hst hi hj]
  · show execLatchFillDone r k s = _
    unfold execLatchFillDone
    rw [hf]
end Sys2Proof.Machine
end

section
/-! PROOFS OF THE SCOPE. BROT, the ring and the latch's timeouts. -/
namespace Sys2Proof.Machine
open State Sys2Proof.Spec

/-! ### A half that may drain (R133) -/

section
variable (s : State) (r h : Nat)
/-- The half's core after a half with nothing outstanding has drained. -/
theorem drain_core : (s.drain r h).core r =
    if ((s.core r).half h).st = .draining ∧ s.halfBound r h = false ∧ s.halfSending r h = false then
      (s.core r).setHalf h { (s.core r).half h with st := .empty }
    else s.core r := by
  unfold drain
  simp only [Bool.not_eq_true']
  split
  · exact core_modCore_self _ _ _
  · rfl
theorem drain_core_of_ne {q : Nat} (hne : q ≠ r) : (s.drain r h).core q = s.core q := by
  unfold drain
  split
  · exact core_modCore_of_ne _ _ _ _ hne
  · rfl
theorem drain_place : SamePlace s (s.drain r h) := by
  unfold drain
  split <;> exact ⟨rfl, rfl, rfl, rfl⟩
theorem drain_mem : (s.drain r h).mem = s.mem := by
  unfold drain
  split <;> rfl
theorem drain_half_st : (((s.drain r h).core r).half h).st =
    if ((s.core r).half h).st = .draining ∧ s.halfBound r h = false ∧ s.halfSending r h = false then .empty else ((s.core r).half h).st := by
  rw [drain_core]
  split
  · rw [Core.half_setHalf_self]
  · rfl
/-- Draining a half leaves everything of its core but that half. -/
theorem drain_core_keeps {α : Type} (g : Core → α) (hg : ∀ c x, g (c.setHalf h x) = g c) : g ((s.drain r h).core r) = g (s.core r) := by
  rw [drain_core]
  split
  · exact hg _ _
  · rfl
end
/-- What is outstanding on a half depends on the core's queue, its waits and its sends alone. -/
theorem halfBound_of_core {s t : State} {r : Nat} (h : Nat) (hq : (t.core r).mq = (s.core r).mq) (hw : (t.core r).waits = (s.core r).waits) :
    t.halfBound r h = s.halfBound r h := by unfold halfBound; rw [hq, hw]

/-! ### BROT (R137) -/

theorem myBrot_none {s : State} (h : s.myCore.brot = none) : myBrot s = false := by unfold myBrot; rw [h]
theorem openBrot_core (s : State) (ring : Bool) : (openBrot s ring).myCore = { s.myCore with
    brot := some ⟨s.berth, (brotSince s).1, s.issueSeq, s.buffered, ring, (brotSince s).2⟩
    sends := if ring && !s.myCore.sdone then s.myCore.sends ++ [⟨s.myCore.curh, s.issueSeq, false, none⟩] else s.myCore.sends
    sdone := if ring then false else s.myCore.sdone } := myCore_modMyCore _ _
theorem openBrot_fillBefore (s : State) (ring : Bool) (h q : Nat) : (openBrot s ring).fillBefore s.rank h q = s.fillBefore s.rank h q := by
  unfold fillBefore
  rw [show (openBrot s ring).core s.rank = (openBrot s ring).myCore from rfl, openBrot_core]
  rfl
section
variable {s : State} {a : BitVec 5} (hp : Ready s [a] 0)
include hp
/-- A BROT that has to wait behind another one. -/
theorem exec_brot_behind (hm : myBrot s = false) (h : s.myCore.brot ≠ none ∨ brotBefore s = true) : exec (.brot a) s =
    .next ((s.moor.block .brot).noteIssued fun i => { i with latch := .brot, reads := [] }) := by
  have hw : (s.myCore.brot.isSome || brotBefore s) = true := by
    simpa [Option.isSome_iff_ne_none] using h
  show execBrot a s = _
  unfold execBrot
  rw [hm, checkIns_ok hp.1, hw]
  rfl
/-- A BROT whose turn it is: it asks for its send, and swaps at its write-back when its incoming half is FULL. -/
theorem exec_brot_first (h : s.myCore.brot = none) (hb : brotBefore s = false) :
    let ring := a == 0 || !(s.rx a).getLsbD 0
    exec (.brot a) s = .next (
      if (s.myCore.half (1 - s.myCore.curh)).st = .full ∧ s.fillBefore s.rank (1 - s.myCore.curh) s.issueSeq = false then
        ((openBrot s ring).moor.atWriteBack { srcs := [a], brot := true }).noteIssued fun i => { i with latch := .brot }
      else ((openBrot s ring).moor.block .brot).noteIssued fun i => { i with latch := .brot }) := by
  intro ring
  have hring : (a.toNat == 0 || !bit (s.rx a) 0) = ring := by
    have : (a.toNat == 0) = (a == 0) := by rw [Bool.eq_iff_iff, beq_iff_eq, beq_iff_eq, BitVec.toNat_eq]; rfl
    rw [this]; rfl
  have hcond : (((openBrot s ring).myCore.half (1 - (openBrot s ring).myCore.curh)).st = .full ∧
      (!(openBrot s ring).fillBefore s.rank (1 - (openBrot s ring).myCore.curh) (brotSeq (openBrot s ring).myCore)) = true) ↔
      ((s.myCore.half (1 - s.myCore.curh)).st = .full ∧ s.fillBefore s.rank (1 - s.myCore.curh) s.issueSeq = false) := by
    rw [openBrot_fillBefore, openBrot_core, Bool.not_eq_true']
    exact Iff.rfl
  show execBrot a s = _
  unfold execBrot
  rw [myBrot_none h, checkIns_ok hp.1, h, hb, hring]
  by_cases hfull : (s.myCore.half (1 - s.myCore.curh)).st = .full ∧ s.fillBefore s.rank (1 - s.myCore.curh) s.issueSeq = false
  · rw [if_pos hfull]
    exact congrArg (finishMatrix s .brot []) (if_pos (hcond.2 hfull))
  · rw [if_neg hfull]
    exact congrArg (finishMatrix s .brot []) (if_neg fun hc => hfull (hcond.1 hc))
end

/-- The core after a swap, before its old half may drain. -/
def swappedCore (k : Core) : Core :=
  { (k.setHalf k.curh { k.half k.curh with st := if (k.half k.curh).fill.isSome then .filling else .draining }) with
    curh := 1 - k.curh
    brot := none
    sends := k.sends.map fun e => if e.half = k.curh then { e with full := (k.half k.curh).st == .full } else e }
theorem swapHalves_eq (s : State) (r : Nat) : swapHalves s r = (s.modCore r swappedCore).drain r (s.core r).curh := rfl
theorem swapped_halfSending (s : State) (r h : Nat) : (s.modCore r swappedCore).halfSending r h = s.halfSending r h := by
  unfold halfSending
  rw [core_modCore_self, swappedCore, List.any_map]
  congr 1
  funext e
  dsimp only [Function.comp]
  split <;> rfl
/-- What a swap leaves of its core. -/
theorem swapHalves_core {s : State} {r : Nat} (h : (s.core r).curh < 2) :
    ((swapHalves s r).core r).curh = 1 - (s.core r).curh ∧ ((swapHalves s r).core r).brot = none ∧
      (((swapHalves s r).core r).half (1 - (s.core r).curh)).st = ((s.core r).half (1 - (s.core r).curh)).st ∧
      (((swapHalves s r).core r).half (s.core r).curh).st = if ((s.core r).half (s.core r).curh).fill.isSome = true then .filling
        else if s.halfBound r (s.core r).curh = true ∨ s.halfSending r (s.core r).curh = true then .draining else .empty := by
  have hk := core_modCore_self s r swappedCore
  have hne : (1 - (s.core r).curh) % 2 ≠ (s.core r).curh % 2 := by omega
  have other (c : Core) (x : Half) : (c.setHalf (s.core r).curh x).half (1 - (s.core r).curh) = c.half (1 - (s.core r).curh) :=
    Core.half_setHalf_of_ne c x hne
  rw [swapHalves_eq]
  refine ⟨?_, ?_, ?_, ?_⟩
  · rw [drain_core_keeps _ r _ Core.curh fun _ _ => rfl, hk]; rfl
  · rw [drain_core_keeps _ r _ Core.brot fun _ _ => rfl, hk]; rfl
  · rw [drain_core_keeps _ r _ (fun c => (c.half (1 - (s.core r).curh)).st) fun c x => by rw [other], hk]
    exact congrArg Half.st (other _ _)
  · have hst : (((s.modCore r swappedCore).core r).half (s.core r).curh).st =
        if ((s.core r).half (s.core r).curh).fill.isSome = true then .filling else .draining := by
      rw [hk]; exact congrArg Half.st (Core.half_setHalf_self _ _ _)
    rw [drain_half_st, hst, swapped_halfSending, halfBound_of_core (s := s) _ (by rw [hk]; rfl) (by rw [hk]; rfl)]
    by_cases hf : ((s.core r).half (s.core r).curh).fill.isSome = true
    · simp [hf]
    · cases s.halfBound r (s.core r).curh <;> cases s.halfSending r (s.core r).curh <;> simp [hf]

/-- A swap's reply in the last part of its cycle swaps, and the berth goes on. -/
theorem takeReply_swap {w : Wait} {a : BitVec 5} (t : State) (h : w.issued.acc = none) :
    takeReply w { srcs := [a], brot := true, past := true } t = ((swapHalves t t.rank).pops [a]).next := by
  rw [takeReply_noPush rfl rfl rfl rfl]
  unfold finishReply
  rw [h]
  rfl

theorem latchSwaps : LatchSwaps := by
  intro s a hp c ring v marked
  refine ⟨exec_brot_behind hp, fun h hb hst => ?_, ?_, fun h hb hst hf => ?_, fun r b w hb hd hw hr hacc => ?_, fun hc => ?_⟩
  · rw [exec_brot_first hp h hb, if_neg fun hfull => hst hfull.1]
  · rw [openBrot_core]
    exact if_congr (by rw [Bool.and_eq_true, Bool.not_eq_true']) rfl rfl
  · rw [exec_brot_first hp h hb, if_pos ⟨hst, hf⟩]
  · rw [exec_replyArrival_taken hb hw hr hd, takeReply_swap _ hacc]; rfl
  · have hv : v.myCore = v.core s.rank := congrArg v.core (drain_place _ _ _).rank
    obtain ⟨h1, h2, h3, h4⟩ := swapHalves_core (r := s.rank) hc
    rw [hv]
    exact ⟨h1, h2, drain_mem _ _ _, h3, h4⟩

/-! ### The ring (R134, R137) -/

/-- What a transfer leaves in the half that receives it. -/
def receivedHalf (src o : Half) : Half :=
  { o with
    data := tileOf src.desc.toNat o.data (src.data.toNat % 2 ^ (8 * descN src.desc.toNat * descSb src.desc.toNat))
    scales := scalesOf src.desc.toNat o.scales src.scales.toNat
    st := .full
    desc := src.desc
    pois := src.pois }
/-- A core that starts to receive, and one that has received. -/
def receivingCore (c : Core) : Core :=
  { (c.setHalf (1 - c.curh) { c.half (1 - c.curh) with st := .filling }) with recv := true }
def receivedCore (src : Half) (c : Core) : Core :=
  { (c.setHalf (1 - c.curh) (receivedHalf src (c.half (1 - c.curh)))) with recv := false }
section
variable {s : State} {r : Nat} {e : Send} {l : List Send} (hs : (s.core r).sends = e :: l)
theorem exec_ringSend_not (h : ringSendReady s r = false) : exec (.ringSend r) s = .next s := by
  show execRingSend r s = _
  unfold execRingSend
  rw [h, if_neg Bool.false_ne_true]
include hs
theorem exec_ringSend_ready (h : ringSendReady s r = true) : exec (.ringSend r) s = .next ((s.modCore r fun c => { c with
    sends := { e with till := some (s.cycle + descBytes ((s.core r).half e.half).desc.toNat / 32 + 4) } :: l }).modCore (ringNext r)
      receivingCore) := by
  show execRingSend r s = _
  unfold execRingSend
  rw [if_pos h, hs]
  rfl
theorem exec_ringTransferDone_none (h : e.till = none) : exec (.ringTransferDone r) s = .next s := by
  obtain ⟨half, seq, full, till⟩ := e
  cases h
  show execRingTransferDone r s = _
  unfold execRingTransferDone
  rw [hs]
theorem exec_ringTransferDone_some (h : e.till ≠ none) : exec (.ringTransferDone r) s = .next
    (((s.modCore r fun c => { c with sends := l }).modCore (ringNext r) (receivedCore ((s.core r).half e.half))).drain r e.half) := by
  obtain ⟨half, seq, full, till⟩ := e
  obtain ⟨till, rfl⟩ := Option.ne_none_iff_exists'.1 h
  show execRingTransferDone r s = _
  unfold execRingTransferDone
  rw [hs]
  rfl
end

theorem latchRing : LatchRing := by
  intro s r e l hne hs src n bits k old
  refine ⟨fun h => ⟨_, exec_ringSend_ready hs h, ?_, ?_, ?_⟩, exec_ringSend_not, fun h => ⟨_, exec_ringTransferDone_some hs h, ?_⟩,
    exec_ringTransferDone_none hs⟩
  · rw [core_modCore_of_ne _ _ _ _ hne, core_modCore_self]
  · rw [core_modCore_self]; rfl
  · rw [core_modCore_self, core_modCore_of_ne _ _ _ _ hne.symm]
    exact congrArg Half.st (Core.half_setHalf_self _ _ _)
  · generalize ht : (s.modCore r fun c => { c with sends := l }).modCore (ringNext r) (receivedCore ((s.core r).half e.half)) = t
    have hr : t.core r = { s.core r with sends := l } := by rw [← ht, core_modCore_of_ne _ _ _ _ hne, core_modCore_self]
    have hn : (t.drain r e.half).core (ringNext r) = receivedCore src (s.core (ringNext r)) := by
      rw [drain_core_of_ne _ _ _ hne.symm, ← ht, core_modCore_self, core_modCore_of_ne _ _ _ _ hne.symm]
    have hgot : ((t.drain r e.half).core (ringNext r)).half k = receivedHalf src old := by
      rw [hn]; exact Core.half_setHalf_self _ _ _
    have hlt : src.data.toNat % 2 ^ bits < 2 ^ bits := Nat.mod_lt _ (Nat.two_pow_pos _)
    rw [hn] at *
    refine ⟨?_, rfl, ?_⟩
    · rw [drain_core_keeps t r _ Core.sends fun _ _ => rfl, hr]
    · dsimp only
      rw [hgot]
      refine ⟨rfl, rfl, rfl, tileOf_mod old.data hlt, tileOf_div old.data hlt, scalesOf_words old.scales _, scalesOf_none old.scales _,
        fun hst hb ha => ?_⟩
      have hbound : t.halfBound r e.half = false := by
        rw [halfBound_of_core (s := s) _ (by rw [hr]) (by rw [hr]; rfl)]; exact hb
      have hsend : t.halfSending r e.half = false := by unfold halfSending; rw [hr]; exact ha
      have hdr : ((t.core r).half e.half).st = .draining := by rw [hr]; exact hst
      rw [drain_half_st, if_pos ⟨hdr, hbound, hsend⟩]

/-! ### A BROT that waits too long (R137, R294) -/

namespace State
/-- A trap changes the executing berth alone, which then has its cause and its value, and waits for nothing. -/
theorem enter_modMe (s : State) (c : Cause) (v tpc : Word) (rpts k idx : Nat) (rkm : Bool) : ∃ f : Berth → Berth,
    s.enter c v tpc rpts k idx rkm = s.modMe f ∧ ∀ b, (f b).tcause = c.word ∧ (f b).tval = v ∧ (f b).wait = none := by
  unfold enter
  extract_lets base at_
  exact ⟨_, rfl, fun _ => ⟨rfl, rfl, rfl⟩⟩
theorem takeTrap_modMe (s : State) (c : Cause) (v : Word) : ∃ f : Berth → Berth, s.takeTrap c v = s.modMe f ∧
    ∀ b, (f b).tcause = c.word ∧ (f b).tval = v ∧ (f b).wait = none := by
  unfold takeTrap
  split <;> exact enter_modMe _ _ _ _ _ _ _ _
/-- A trap of a buffered word changes the executing berth and empties the core's buffer. -/
theorem bufTrap_core (s : State) (c : Cause) (v : Word) : ((s.bufTrap c v).core s.rank).stall = (s.core s.rank).stall ∧ (s.bufTrap c v).mem = s.mem := by
  unfold bufTrap
  split
  · exact ⟨rfl, rfl⟩
  · refine ⟨?_, rfl⟩
    show (State.myCore _).stall = _
    rw [myCore_modMe]
    show (State.myCore _).stall = _
    rw [myCore_modMyCore]
    rfl
end State
theorem closeBrot_keeps (s : State) (r : Nat) : ((closeBrot s r).core r).stall = (s.core r).stall ∧ (closeBrot s r).mem = s.mem := by
  unfold closeBrot
  split
  · exact ⟨rfl, rfl⟩
  · exact ⟨by rw [core_modCore_self], rfl⟩
/-- The outstanding BROT, when it is the one whose wait has passed the timeout. -/
def stalledOwn (s : State) (r : Nat) : Option Brot :=
  match (s.core r).brot with
  | some k => if !k.told && brotWaits s r k && brotLate s (s.core r) k.since then some k else none
  | none => none
theorem stalledOwn_some {s : State} {r : Nat} {k : Brot} (h : stalledOwn s r = some k) : (s.core r).brot = some k := by
  unfold stalledOwn at h
  split at h
  next j hj =>
    split at h
    · rw [hj, ← h]
    · cases h
  next => cases h
/-- Whether that BROT is a word of the repetition buffer. -/
def stalledBuffered (s : State) (r : Nat) : Bool := match stalledOwn s r with | some k => k.buffered | none => false
theorem stalledBuffered_false {s : State} {r : Nat} (h : ∀ k, (s.core r).brot = some k → k.buffered = false) : stalledBuffered s r = false := by
  unfold stalledBuffered
  split
  next k hk => exact h k (stalledOwn_some hk)
  next => rfl
/-- A stall that has been recorded. -/
def stallNoted (s : State) (r : Nat) : State := s.modCore r fun k => { k with stall := true }
theorem stallNoted_core (s : State) (r : Nat) : (stallNoted s r).core r = { s.core r with stall := true } := core_modCore_self _ _ _
theorem stallNoted_berthAt (s : State) (r q b : Nat) : (stallNoted s r).berthAt q b = s.berthAt q b := berthAt_modCore _ _ _ _ _ fun _ => rfl
/-- The state in which the stalled BROT's trap is taken: the outstanding one is withdrawn. -/
def stallTrapState (s : State) (r b : Nat) : State :=
  (if (stalledOwn s r).isSome then closeBrot (stallNoted s r) r else stallNoted s r).as r b
theorem stallTrapState_keeps (s : State) (r b : Nat) :
    ((stallTrapState s r b).core r).stall = true ∧ (stallTrapState s r b).mem = s.mem := by
  have h : ((stallNoted s r).core r).stall = true := by rw [stallNoted_core]
  unfold stallTrapState
  split
  · obtain ⟨h1, h2⟩ := closeBrot_keeps (stallNoted s r) r
    exact ⟨h1.trans h, h2⟩
  · exact ⟨h, rfl⟩
section
variable {s : State} {r b : Nat} (hs : brotStalled s r = some b)
include hs
theorem exec_brotTimeout_trap (h : (s.core r).probecfg.getLsbD 1 = true) : exec (.brotTimeout r) s = .next
    ((if stalledBuffered s r then
        (stallTrapState s r b).bufTrap .barstall (bstatWord { s.core r with stall := true })
      else (stallTrapState s r b).takeTrap .barstall (bstatWord { s.core r with stall := true })).back s) := by
  show execBrotTimeout r s = _
  unfold execBrotTimeout
  rw [hs]
  rw [← stallNoted_core]
  exact if_pos h
theorem exec_brotTimeout_waits (h : (s.core r).probecfg.getLsbD 1 = false) : exec (.brotTimeout r) s = .next
    (match stalledOwn s r with
      | some k => (stallNoted s r).modCore r fun c => { c with brot := some { k with told := true } }
      | none => (stallNoted s r).modBerth r b fun x => { x with wait := x.wait.map fun w => { w with failed := true } }) := by
  show execBrotTimeout r s = _
  unfold execBrotTimeout
  rw [hs]
  have h' : ¬ bit (s.core r).probecfg 1 = true := by rw [bit, h]; exact Bool.false_ne_true
  refine (if_neg h').trans ?_
  show (match stalledOwn s r with | some k => _ | none => _) = _
  cases stalledOwn s r <;> rfl
end
/-- A stall without a trap leaves the berth in its wait, the outstanding BROT's berth and the core's sends. -/
theorem stallNoted_waits (s : State) (r b : Nat) (t : State) (ht : t = match stalledOwn s r with
      | some k => (stallNoted s r).modCore r fun c => { c with brot := some { k with told := true } }
      | none => (stallNoted s r).modBerth r b fun x => { x with wait := x.wait.map fun w => { w with failed := true } }) :
    ((t.core r).stall = true ∧ t.mem = s.mem) ∧ (t.berthAt r b).pc = (s.berthAt r b).pc ∧
      (t.berthAt r b).wait.map Wait.why = (s.berthAt r b).wait.map Wait.why ∧
      (t.core r).brot.map Brot.berth = (s.core r).brot.map Brot.berth ∧ (t.core r).sends = (s.core r).sends := by
  cases hk : stalledOwn s r with
  | some k =>
    rw [hk] at ht
    dsimp only at ht
    have hcore : t.core r = { s.core r with stall := true, brot := some { k with told := true } } := by
      rw [ht, core_modCore_self, stallNoted_core]
    have hberth : t.berthAt r b = s.berthAt r b := by
      rw [ht, berthAt_modCore _ r r b (fun c => { c with brot := some { k with told := true } }) fun _ => rfl, stallNoted_berthAt]
    rw [hcore, hberth, stalledOwn_some hk]
    exact ⟨⟨rfl, by rw [ht]; rfl⟩, rfl, rfl, rfl, rfl⟩
  | none =>
    rw [hk] at ht
    dsimp only at ht
    have keeps {α : Type} (g : Core → α) (hg : ∀ c x, g (c.setBerth b x) = g c) : g (t.core r) = g { s.core r with stall := true } := by
      rw [ht, core_modBerth_self, hg, stallNoted_core]
    have hberth : t.berthAt r b = { s.berthAt r b with wait := (s.berthAt r b).wait.map fun w => { w with failed := true } } := by
      rw [ht, berthAt_modBerth_self, stallNoted_berthAt]
    refine ⟨⟨keeps Core.stall fun _ _ => rfl, by rw [ht]; rfl⟩, by rw [hberth], ?_, keeps (fun c => c.brot.map Brot.berth) fun _ _ => rfl,
      keeps Core.sends fun _ _ => rfl⟩
    rw [hberth, Option.map_map]
    rfl
theorem brotTimeouts : BrotTimeouts := by
  intro s r b
  refine ⟨fun h => ?_, fun h => ?_⟩
  · show execBrotTimeout r s = _
    unfold execBrotTimeout
    rw [h]
  · cases hb : (s.core r).probecfg.getLsbD 1 with
    | false =>
      obtain ⟨⟨hstall, hmem⟩, hwaits⟩ := stallNoted_waits s r b _ rfl
      exact ⟨_, exec_brotTimeout_waits h hb, hstall, hmem, fun _ => hwaits, fun h1 => by cases h1⟩
    | true =>
      obtain ⟨hstall, hmem⟩ := stallTrapState_keeps s r b
      have hexec := exec_brotTimeout_trap h hb
      obtain ⟨f, hf, htrap⟩ := takeTrap_modMe (stallTrapState s r b) .barstall (bstatWord { s.core r with stall := true })
      cases hbuf : stalledBuffered s r with
      | true =>
        obtain ⟨h1, h2⟩ := bufTrap_core (stallTrapState s r b) .barstall (bstatWord { s.core r with stall := true })
        rw [hbuf, if_pos rfl] at hexec
        refine ⟨_, hexec, h1.trans hstall, h2.trans hmem, fun h0 => (by cases h0), fun _ hk => ?_⟩
        rw [stalledBuffered_false hk] at hbuf
        cases hbuf
      | false =>
        rw [hbuf, if_neg Bool.false_ne_true, hf] at hexec
        refine ⟨_, hexec, ?_, hmem, fun h0 => (by cases h0), fun _ _ => ?_⟩
        · show ((State.modMe _ f).myCore).stall = true
          rw [myCore_modMe]; exact hstall
        · have hme : ((stallTrapState s r b).modMe f).berthAt r b = f (stallTrapState s r b).me := me_modMe (stallTrapState s r b) f
          rw [back_berthAt, hme]
          exact htrap _

/-- Settles O26, clause by clause: fills by `fillHalf` and their end, BROT by its turn and its swap, the ring by what a transfer
leaves in the half that receives it, and the timeout by whose wait has passed it. -/
theorem latchFillsAndRing : Obligations.LatchFillsAndRing := ⟨latchFills, latchSwaps, latchRing, brotTimeouts⟩
end Sys2Proof.Machine
end

section
/-! PROOFS OF THE SCOPE. The formats: what a bit pattern encodes. -/
namespace Sys2Proof.Machine

/-! ### The fields of a bit pattern (R54) -/

namespace Fmt
/-- A format with room for its special values and for a normal number. -/
structure Sound (f : Fmt) : Prop where
  ew : 2 ≤ f.ew
  mw : 1 ≤ f.mw
theorem sound_of_mem {f : Fmt} (h : f ∈ [fp32, fp16, bf16, e4m3, e5m2, e2m1]) : f.Sound := by
  simp only [List.mem_cons, List.not_mem_nil, or_false] at h
  obtain rfl | rfl | rfl | rfl | rfl | rfl := h <;> exact ⟨by decide, by decide⟩
theorem sound_fp32 : fp32.Sound := ⟨by decide, by decide⟩

/-- What the exponent and mantissa fields stand for. -/
def ofFields (f : Fmt) (neg : Bool) (ef m : Nat) : FVal :=
  let finite : FVal := if ef = 0 then .num neg m f.qmin else .num neg (2 ^ f.mw + m) (f.qOf ef)
  match f.special with
  | .ieee => if ef = 2 ^ f.ew - 1 then (if m = 0 then .inf neg else .nan (m < 2 ^ (f.mw - 1))) else finite
  | .oneNan => if ef = 2 ^ f.ew - 1 ∧ m = 2 ^ f.mw - 1 then .nan false else finite
  | .none => finite
variable {f : Fmt}
theorem decode_fields (neg : Bool) {ef m : Nat} (he : ef < 2 ^ f.ew) (hm : m < 2 ^ f.mw) :
    f.decode (f.sign neg + (ef * 2 ^ f.mw + m)) = f.ofFields neg ef m := by
  have hp : 0 < 2 ^ f.mw := Nat.two_pow_pos _
  have hlow : ef * 2 ^ f.mw + m < 2 ^ (f.ew + f.mw) := by
    rw [Nat.pow_add]
    calc ef * 2 ^ f.mw + m < (ef + 1) * 2 ^ f.mw := by rw [Nat.succ_mul]; omega
      _ ≤ 2 ^ f.ew * 2 ^ f.mw := Nat.mul_le_mul_right _ he
  have hneg : ((f.sign neg + (ef * 2 ^ f.mw + m)) / 2 ^ (f.ew + f.mw) % 2 == 1) = neg := by
    unfold sign
    cases neg
    · rw [if_neg Bool.false_ne_true, Nat.zero_add, Nat.div_eq_of_lt hlow]; rfl
    · rw [if_pos rfl, Nat.add_div_left _ (Nat.two_pow_pos _), Nat.div_eq_of_lt hlow]; rfl
  have hsign : f.sign neg = (if neg then 2 ^ f.ew else 0) * 2 ^ f.mw := by
    unfold sign
    cases neg
    · exact (Nat.zero_mul _).symm
    · exact Nat.pow_add _ _ _
  have hef : (f.sign neg + (ef * 2 ^ f.mw + m)) / 2 ^ f.mw % 2 ^ f.ew = ef := by
    rw [hsign, ← Nat.add_assoc, ← Nat.add_mul, Nat.add_comm, Nat.add_mul_div_right _ _ hp, Nat.div_eq_of_lt hm, Nat.zero_add]
    cases neg
    · rw [if_neg Bool.false_ne_true, Nat.zero_add, Nat.mod_eq_of_lt he]
    · rw [if_pos rfl, Nat.add_mod_left, Nat.mod_eq_of_lt he]
  have hman : (f.sign neg + (ef * 2 ^ f.mw + m)) % 2 ^ f.mw = m := by
    rw [hsign, ← Nat.add_assoc, ← Nat.add_mul, Nat.add_comm, Nat.add_mul_mod_self_right, Nat.mod_eq_of_lt hm]
  unfold decode ofFields
  rw [hneg, hef, hman] <;> rfl

/-! ### The largest finite magnitude (R54) -/

/-- The mantissa of the largest finite magnitude, with its leading bit. -/
def maxMant (f : Fmt) : Nat := 2 ^ f.mw + f.maxBits % 2 ^ f.mw
/-- The exponent field of the largest finite magnitude, and its mantissa field. -/
theorem maxBits_fields (h : f.Sound) : 1 ≤ f.maxBits / 2 ^ f.mw ∧ f.maxBits / 2 ^ f.mw < 2 ^ f.ew ∧
    (f.special = .ieee → f.maxBits / 2 ^ f.mw = 2 ^ f.ew - 2) ∧
    (f.special = .oneNan → f.maxBits / 2 ^ f.mw = 2 ^ f.ew - 1 ∧ f.maxBits % 2 ^ f.mw = 2 ^ f.mw - 2) := by
  have he : 4 ≤ 2 ^ f.ew := Nat.pow_le_pow_right (n := 2) (by decide) h.ew
  have hm : 2 ≤ 2 ^ f.mw := Nat.pow_le_pow_right (n := 2) (by decide) h.mw
  have hpow : 2 ^ (f.ew + f.mw) = (2 ^ f.ew - 1) * 2 ^ f.mw + 2 ^ f.mw := by
    rw [Nat.pow_add, ← Nat.succ_mul]; congr 1; omega
  have split (a b : Nat) (hb : b < 2 ^ f.mw) : (a * 2 ^ f.mw + b) / 2 ^ f.mw = a ∧ (a * 2 ^ f.mw + b) % 2 ^ f.mw = b := by
    rw [Nat.add_comm, Nat.add_mul_div_right _ _ (by omega), Nat.add_mul_mod_self_right, Nat.div_eq_of_lt hb, Nat.mod_eq_of_lt hb, Nat.zero_add]
    exact ⟨rfl, rfl⟩
  unfold maxBits
  cases hs : f.special with
  | ieee =>
    have e : (2 ^ f.ew - 1) * 2 ^ f.mw - 1 = (2 ^ f.ew - 2) * 2 ^ f.mw + (2 ^ f.mw - 1) := by
      rw [show 2 ^ f.ew - 1 = (2 ^ f.ew - 2) + 1 by omega, Nat.succ_mul]; omega
    obtain ⟨h1, h2⟩ := split (2 ^ f.ew - 2) (2 ^ f.mw - 1) (by omega)
    dsimp only
    rw [e, h1]
    exact ⟨by omega, by omega, fun _ => rfl, nofun⟩
  | oneNan =>
    have e : 2 ^ (f.ew + f.mw) - 2 = (2 ^ f.ew - 1) * 2 ^ f.mw + (2 ^ f.mw - 2) := by omega
    obtain ⟨h1, h2⟩ := split (2 ^ f.ew - 1) (2 ^ f.mw - 2) (by omega)
    dsimp only
    rw [e, h1, h2]
    exact ⟨by omega, by omega, nofun, fun _ => ⟨rfl, rfl⟩⟩
  | none =>
    have e : 2 ^ (f.ew + f.mw) - 1 = (2 ^ f.ew - 1) * 2 ^ f.mw + (2 ^ f.mw - 1) := by omega
    obtain ⟨h1, h2⟩ := split (2 ^ f.ew - 1) (2 ^ f.mw - 1) (by omega)
    dsimp only
    rw [e, h1]
    exact ⟨by omega, by omega, nofun, nofun⟩

/-! ### Numbers of a format, and their bit patterns -/

/-- n * 2^q is a magnitude of the format, with q the spacing of its binade. -/
structure InRange (f : Fmt) (n : Nat) (q : Int) : Prop where
  mant : n < 2 ^ (f.mw + 1)
  lo : f.qmin ≤ q
  hi : q ≤ f.qmax
  norm : q = f.qmin ∨ 2 ^ f.mw ≤ n
  max : q = f.qmax → n ≤ f.maxMant
theorem toNat_qOf (f : Fmt) (ef : Nat) : (f.qOf ef + f.bias + f.mw).toNat = ef := by unfold qOf; omega
theorem maxMant_lt (f : Fmt) : f.maxMant < 2 ^ (f.mw + 1) := by
  have := Nat.mod_lt f.maxBits (Nat.two_pow_pos f.mw)
  unfold maxMant; rw [Nat.pow_succ]; omega
theorem qmin_le_qmax (h : f.Sound) : f.qmin ≤ f.qmax := by
  obtain ⟨h1, -⟩ := maxBits_fields h
  unfold qmin qmax qOf
  omega
theorem decode_encode (h : f.Sound) (neg : Bool) {n : Nat} {q : Int} (hr : f.InRange n q) :
    f.decode (f.encode neg n q) = .num neg n q ∧ f.encode neg n q < 2 ^ f.width := by
  obtain ⟨hmant, hlo, hhi, hnorm, hmax⟩ := hr
  obtain ⟨h1, hlt, hieee, hone⟩ := maxBits_fields h
  have he : 4 ≤ 2 ^ f.ew := Nat.pow_le_pow_right (n := 2) (by decide) h.ew
  have hm : 2 ≤ 2 ^ f.mw := Nat.pow_le_pow_right (n := 2) (by decide) h.mw
  rw [Nat.pow_succ] at hmant
  -- the fields of the pattern
  obtain ⟨ef, m, henc, hef, hml, hval, hsp⟩ : ∃ ef m, f.encode neg n q = f.sign neg + (ef * 2 ^ f.mw + m) ∧ ef < 2 ^ f.ew ∧ m < 2 ^ f.mw ∧
      (if ef = 0 then FVal.num neg m f.qmin else .num neg (2 ^ f.mw + m) (f.qOf ef)) = .num neg n q ∧
      (f.special = .ieee → ef ≠ 2 ^ f.ew - 1) ∧ (f.special = .oneNan → ¬ (ef = 2 ^ f.ew - 1 ∧ m = 2 ^ f.mw - 1)) := by
    by_cases hn : n < 2 ^ f.mw
    · obtain rfl : q = f.qmin := hnorm.resolve_right (by omega)
      refine ⟨0, n, ?_, by omega, hn, if_pos rfl, fun _ => by omega, fun _ => by omega⟩
      unfold encode
      rw [if_pos hn, Nat.zero_mul, Nat.zero_add]
    · obtain ⟨ef, hef⟩ : ∃ ef : Nat, q = f.qOf ef ∧ 1 ≤ ef := by
        unfold qmin at hlo
        exact ⟨(q + f.bias + f.mw).toNat, by unfold qOf; omega, by omega⟩
      obtain ⟨rfl, hpos⟩ := hef
      have hle : ef ≤ f.maxBits / 2 ^ f.mw := by unfold qmax qOf at hhi; omega
      refine ⟨ef, n - 2 ^ f.mw, ?_, by omega, by omega, ?_, fun hs => ?_, fun hs => ?_⟩
      · unfold encode
        rw [if_neg hn, toNat_qOf]
      · rw [if_neg (by omega), show 2 ^ f.mw + (n - 2 ^ f.mw) = n by omega]
      · have := hieee hs; omega
      · rintro ⟨h2, h3⟩
        obtain ⟨h4, h5⟩ := hone hs
        have := hmax (by unfold qmax; rw [h4, h2])
        unfold maxMant at this
        omega
  refine ⟨?_, ?_⟩
  · rw [henc, decode_fields neg hef hml]
    unfold ofFields
    obtain ⟨hi, ho⟩ := hsp
    rw [hval]
    cases hs : f.special with
    | ieee => exact if_neg (hi hs)
    | oneNan => exact if_neg (ho hs)
    | none => rfl
  · rw [henc]
    have hs : f.sign neg ≤ 2 ^ (f.ew + f.mw) := by unfold sign; split; exacts [Nat.le_refl _, Nat.zero_le _]
    have hw : 2 ^ f.width = 2 ^ (f.ew + f.mw) + 2 ^ (f.ew + f.mw) := by unfold width; rw [Nat.add_assoc, Nat.pow_add, Nat.pow_one]; omega
    have hlow : ef * 2 ^ f.mw + m < 2 ^ (f.ew + f.mw) := by
      rw [Nat.pow_add]
      calc ef * 2 ^ f.mw + m < (ef + 1) * 2 ^ f.mw := by rw [Nat.succ_mul]; omega
        _ ≤ 2 ^ f.ew * 2 ^ f.mw := Nat.mul_le_mul_right _ hef
    omega
theorem inRange_max (h : f.Sound) : f.InRange f.maxMant f.qmax where
  mant := maxMant_lt f
  lo := qmin_le_qmax h
  hi := Int.le_refl _
  norm := .inr (Nat.le_add_right _ _)
  max _ := Nat.le_refl _
theorem encode_max (f : Fmt) (neg : Bool) : f.encode neg f.maxMant f.qmax = f.sign neg + f.maxBits := by
  have hd := Nat.div_add_mod f.maxBits (2 ^ f.mw)
  unfold encode qmax
  rw [if_neg (show ¬ f.maxMant < 2 ^ f.mw from Nat.not_lt.2 (Nat.le_add_right _ _)), maxMant, Nat.add_sub_cancel_left,
    toNat_qOf, Nat.mul_comm, hd]
/-- The largest finite magnitude as a number. -/
theorem decode_maxBits (h : f.Sound) : f.decode f.maxBits = .num false f.maxMant f.qmax := by
  have e := (decode_encode h false (inRange_max h)).1
  rwa [encode_max, show f.sign false = 0 from rfl, Nat.zero_add] at e
/-- The zero of a sign. -/
theorem decode_sign (h : f.Sound) (neg : Bool) : f.decode (f.sign neg) = .num neg 0 f.qmin ∧ f.sign neg < 2 ^ f.width := by
  have hr : f.InRange 0 f.qmin := ⟨Nat.two_pow_pos _, Int.le_refl _, qmin_le_qmax h, .inl rfl, fun _ => Nat.zero_le _⟩
  have e : f.encode neg 0 f.qmin = f.sign neg := by unfold encode; rw [if_pos (Nat.two_pow_pos _), Nat.add_zero]
  have := decode_encode h neg hr
  rwa [e] at this
end Fmt
end Sys2Proof.Machine
end

section
/-! PROOFS OF THE SCOPE. One rounding, in rational numbers: what the truncation keeps, and what the rounding makes of it. -/
namespace Sys2Proof.Machine
open Spec

/-! ### Exact magnitudes as rational numbers -/

theorem two_zpow_pos (q : Int) : (0 : ℚ) < 2 ^ q := zpow_pos (by norm_num) q
theorem two_zpow_add (a b : Int) : (2 : ℚ) ^ (a + b) = 2 ^ a * 2 ^ b := zpow_add₀ (by norm_num) a b
theorem two_zpow_le {a b : Int} (h : a ≤ b) : (2 : ℚ) ^ a ≤ 2 ^ b := zpow_le_zpow_right₀ (by norm_num) h
theorem two_zpow_toNat {k : Int} (h : 0 ≤ k) : (2 : ℚ) ^ k.toNat = 2 ^ k := by
  rw [← zpow_natCast, Int.toNat_of_nonneg h]
/-- A magnitude in units, times the unit, is the magnitude. -/
theorem units_mul (m : Nat) {e c : Int} (h : c ≤ e) : (units m e c : ℚ) * 2 ^ c = m * 2 ^ e := by
  unfold units
  push_cast
  rw [two_zpow_toNat (by omega), mul_assoc, ← two_zpow_add, Int.sub_add_cancel]
theorem units_le_units (n m : Nat) {q e c : Int} (hq : c ≤ q) (he : c ≤ e) :
    units n q c ≤ units m e c ↔ (n : ℚ) * 2 ^ q ≤ m * 2 ^ e := by
  rw [← units_mul n hq, ← units_mul m he, mul_le_mul_iff_left₀ (two_zpow_pos c), Nat.cast_le]
theorem units_lt_units (n m : Nat) {q e c : Int} (hq : c ≤ q) (he : c ≤ e) :
    units n q c < units m e c ↔ (n : ℚ) * 2 ^ q < m * 2 ^ e := by
  rw [← Nat.not_le, units_le_units m n he hq, not_le]
theorem units_eq_units (n m : Nat) {q e c : Int} (hq : c ≤ q) (he : c ≤ e) :
    units n q c = units m e c ↔ (n : ℚ) * 2 ^ q = m * 2 ^ e := by
  rw [Nat.le_antisymm_iff, units_le_units n m hq he, units_le_units m n he hq, le_antisymm_iff]

/-- n * 2^q is not above V. -/
def Lo (V : ℚ) (n : Nat) (q : Int) : Prop := (n : ℚ) * 2 ^ q ≤ V
/-- n * 2^q is not below V. -/
def Hi (V : ℚ) (n : Nat) (q : Int) : Prop := V ≤ (n : ℚ) * 2 ^ q
/-- The exact quotient of a rounding as a rational number. -/
theorem rounded_iff (f : Fmt) (mode : Rm) (sat neg : Bool) (num : Nat) {den : Nat} (e : Int) (r : Nat × Flags) (hd : den ≠ 0) :
    Rounded f mode sat neg num den e r ↔ RoundedBy f mode sat neg (Lo (num / den * 2 ^ e)) (Hi (num / den * 2 ^ e)) r := by
  have hd' : (0 : ℚ) < den := by exact_mod_cast Nat.pos_of_ne_zero hd
  have key (n : Nat) (q : Int) : (units n q (min e q) * den : ℚ) * 2 ^ min e q = n * 2 ^ q * den := by
    rw [mul_right_comm, units_mul n (min_le_right e q)]
  have val : (num / den * 2 ^ e : ℚ) * den = num * 2 ^ e := by field_simp
  have low : (fun n q => units n q (min e q) * den ≤ units num e (min e q)) = Lo (num / den * 2 ^ e) := by
    funext n q
    unfold Lo
    rw [← mul_le_mul_iff_left₀ hd', val, ← key, ← units_mul num (min_le_left e q), mul_le_mul_iff_left₀ (two_zpow_pos _)]
    exact propext (by exact_mod_cast Iff.rfl)
  have high : (fun n q => units num e (min e q) ≤ units n q (min e q) * den) = Hi (num / den * 2 ^ e) := by
    funext n q
    unfold Hi
    rw [← mul_le_mul_iff_left₀ hd', val, ← key, ← units_mul num (min_le_left e q), mul_le_mul_iff_left₀ (two_zpow_pos _)]
    exact propext (by exact_mod_cast Iff.rfl)
  unfold Rounded
  rw [low, high]

/-! ### The truncated magnitude -/

/-- V is n spacings of 2^q and the part ρ of one, with q at least the format's least spacing, and n a full mantissa above it. -/
structure Trunc (f : Fmt) (V : ℚ) (q : Int) (n : Nat) (ρ : ℚ) : Prop where
  val : V = (n + ρ) * 2 ^ q
  nonneg : 0 ≤ ρ
  lt_one : ρ < 1
  lo : f.qmin ≤ q
  norm : q = f.qmin ∨ 2 ^ f.mw ≤ n
variable {f : Fmt} {V : ℚ} {q : Int} {n : Nat} {ρ : ℚ}
/-- A number at a finer spacing against the truncated one. -/
theorem Trunc.lo_sub (h : Trunc f V q n ρ) (a k : Nat) : Lo V a (q - k) ↔ (a : ℚ) ≤ 2 ^ k * (n + ρ) := by
  have e : (n + ρ) * 2 ^ q = 2 ^ k * (n + ρ) * 2 ^ (q - k) := by
    rw [mul_comm ((2 : ℚ) ^ k), mul_assoc, ← zpow_natCast, ← two_zpow_add, add_sub_cancel]
  unfold Lo
  rw [h.val, e, mul_le_mul_iff_left₀ (two_zpow_pos _)]
theorem Trunc.hi_sub (h : Trunc f V q n ρ) (a k : Nat) : Hi V a (q - k) ↔ 2 ^ k * (n + ρ) ≤ (a : ℚ) := by
  have e : (n + ρ) * 2 ^ q = 2 ^ k * (n + ρ) * 2 ^ (q - k) := by
    rw [mul_comm ((2 : ℚ) ^ k), mul_assoc, ← zpow_natCast, ← two_zpow_add, add_sub_cancel]
  unfold Hi
  rw [h.val, e, mul_le_mul_iff_left₀ (two_zpow_pos _)]
theorem Trunc.lo_iff (h : Trunc f V q n ρ) (a : Nat) : Lo V a q ↔ (a : ℚ) ≤ n + ρ := by
  have := h.lo_sub a 0
  rwa [Nat.cast_zero, sub_zero, pow_zero, one_mul] at this
theorem Trunc.hi_iff (h : Trunc f V q n ρ) (a : Nat) : Hi V a q ↔ n + ρ ≤ (a : ℚ) := by
  have := h.hi_sub a 0
  rwa [Nat.cast_zero, sub_zero, pow_zero, one_mul] at this
theorem Trunc.lo_iff_one (h : Trunc f V q n ρ) (a : Nat) : Lo V a (q - 1) ↔ (a : ℚ) ≤ 2 * (n + ρ) := by
  have := h.lo_sub a 1
  rwa [Nat.cast_one, pow_one] at this
theorem Trunc.hi_iff_one (h : Trunc f V q n ρ) (a : Nat) : Hi V a (q - 1) ↔ 2 * (n + ρ) ≤ (a : ℚ) := by
  have := h.hi_sub a 1
  rwa [Nat.cast_one, pow_one] at this
theorem Trunc.lo_iff_two (h : Trunc f V q n ρ) (a : Nat) : Lo V a (q - 1 - 1) ↔ (a : ℚ) ≤ 4 * (n + ρ) := by
  have := h.lo_sub a 2
  rwa [Nat.cast_two, show (2 : ℚ) ^ 2 = 4 by norm_num, show q - 2 = q - 1 - 1 by omega] at this
theorem Trunc.hi_iff_two (h : Trunc f V q n ρ) (a : Nat) : Hi V a (q - 1 - 1) ↔ 4 * (n + ρ) ≤ (a : ℚ) := by
  have := h.hi_sub a 2
  rwa [Nat.cast_two, show (2 : ℚ) ^ 2 = 4 by norm_num, show q - 2 = q - 1 - 1 by omega] at this
theorem Trunc.lo_succ (h : Trunc f V q n ρ) (a : Nat) : Lo V a (q + 1) ↔ 2 * (a : ℚ) ≤ n + ρ := by
  rw [← Nat.cast_two, ← Nat.cast_mul, ← h.lo_iff]
  unfold Lo
  rw [add_comm, two_zpow_add, zpow_one, Nat.cast_mul, Nat.cast_two, ← mul_assoc, mul_comm (a : ℚ)]
theorem Trunc.hi_succ (h : Trunc f V q n ρ) (a : Nat) : Hi V a (q + 1) ↔ n + ρ ≤ 2 * (a : ℚ) := by
  rw [← Nat.cast_two, ← Nat.cast_mul, ← h.hi_iff]
  unfold Hi
  rw [add_comm, two_zpow_add, zpow_one, Nat.cast_mul, Nat.cast_two, ← mul_assoc, mul_comm (a : ℚ)]

/-! ### Which way a mode rounds -/

/-- Whether each mode takes the next magnitude after n, when the part ρ of a spacing is left. -/
structure UpBy (mode : Rm) (neg : Bool) (n : Nat) (ρ : ℚ) (up : Prop) : Prop where
  toward : towardZero mode neg = true → ¬ up
  away : towardZero mode neg = false → mode ≠ .rne → (up ↔ 0 < ρ)
  nearest : mode = .rne → (up ↔ 1 / 2 < ρ ∨ ρ = 1 / 2 ∧ n % 2 = 1)
theorem UpBy.part_pos {mode neg} {up : Prop} (h : UpBy mode neg n ρ up) (hup : up) : 0 < ρ := by
  by_cases hm : mode = .rne
  · rcases (h.nearest hm).1 hup with h1 | ⟨h1, -⟩
    · exact lt_trans (by norm_num) h1
    · rw [h1]; norm_num
  · cases ht : towardZero mode neg
    · exact (h.away ht hm).1 hup
    · exact absurd hup (h.toward ht)
/-- The model's test is the mode's rule, for the part rem / 2^k of a spacing. -/
theorem upBy_roundUp {mode : Rm} (hsr : mode ≠ .sr) (neg : Bool) (n : Nat) {rem k : Nat} (draw : Nat) (hρ : ρ = rem / 2 ^ k) :
    UpBy mode neg n ρ (rem ≠ 0 ∧ roundUp mode neg n rem k draw = true) := by
  have hk : (0 : ℚ) < 2 ^ k := by positivity
  have pos : 0 < ρ ↔ rem ≠ 0 := by
    rw [hρ, div_pos_iff_of_pos_right hk, Nat.cast_pos, Nat.pos_iff_ne_zero]
  have half : 1 / 2 < ρ ↔ 2 ^ k < 2 * rem := by
    rw [hρ, div_lt_div_iff₀ (by norm_num) hk, one_mul, mul_comm (rem : ℚ)]; exact_mod_cast Iff.rfl
  have tie : ρ = 1 / 2 ↔ 2 * rem = 2 ^ k := by
    rw [hρ, div_eq_div_iff hk.ne' (by norm_num), one_mul, mul_comm (rem : ℚ)]; exact_mod_cast Iff.rfl
  cases mode with
  | rne =>
    have := Nat.two_pow_pos k
    refine ⟨fun h => (Bool.false_ne_true h).elim, fun _ h => absurd rfl h, fun _ => ?_⟩
    rw [half, tie]
    simp only [roundUp, Bool.or_eq_true, decide_eq_true_eq, Bool.and_eq_true, beq_iff_eq]
    omega
  | rtz => exact ⟨fun _ h => Bool.false_ne_true h.2, nofun, nofun⟩
  | rdn =>
    refine ⟨fun h => ?_, fun h _ => ?_, nofun⟩ <;> rw [show neg = _ from (Bool.not_eq_eq_eq_not.1 h)]
    · exact fun h => Bool.false_ne_true h.2
    · rw [pos]; simp [roundUp]
  | rup =>
    refine ⟨fun h => ?_, fun h _ => ?_, nofun⟩ <;> rw [show neg = _ from h]
    · exact fun h => Bool.false_ne_true h.2
    · rw [pos]; simp [roundUp]
  | sr => exact absurd rfl hsr
end Sys2Proof.Machine
end

section
/-! PROOFS OF THE SCOPE. The end of a rounding: carry, overflow and flags; R54 and R64 to R66 for every mode but SR. -/
namespace Sys2Proof.Machine
open Spec

/-! ### The end of a rounding -/

/-- The flags of a result that does not overflow (R66). -/
def fitFlags (f : Fmt) (inexact : Bool) (n : Nat) : Flags :=
  flIf inexact flNX ||| flIf (inexact ∧ n ≠ 0 ∧ n < 2 ^ f.mw) flUF
/-- n spacings of 2^q as a result of the format: a mantissa that has grown by a bit is halved; beyond the largest finite
magnitude stands R65's value. -/
def endRound (f : Fmt) (mode : Rm) (sat neg : Bool) (q : Int) (n : Nat) (inexact : Bool) : Nat × Flags :=
  let n1 := if n = 2 ^ (f.mw + 1) then 2 ^ f.mw else n
  let q1 := if n = 2 ^ (f.mw + 1) then q + 1 else q
  if q1 > f.qmax ∨ (q1 = f.qmax ∧ n1 > f.maxMant) ∨ n1 > 2 ^ (f.mw + 1) then (overflow f mode sat neg, 5)
  else (f.encode neg n1 q1, fitFlags f inexact n1)
theorem fitFlags_eq (f : Fmt) (inexact : Bool) (n : Nat) :
    fitFlags f inexact n = if inexact then (if n ≠ 0 ∧ n < 2 ^ f.mw then 3 else 1) else 0 := by
  unfold fitFlags flIf
  cases inexact
  · simp
  · by_cases h : n ≠ 0 ∧ n < 2 ^ f.mw <;> simp [h, flNX, flUF]
theorem fitFlags_and (f : Fmt) (inexact : Bool) (n : Nat) : fitFlags f inexact n &&& 4 = 0 := by
  rw [fitFlags_eq]
  split
  · split <;> rfl
  · rfl

/-- n spacings of 2^q are beyond the largest finite magnitude. -/
def Beyond (f : Fmt) (q : Int) (n : Nat) : Prop := f.qmax < q ∨ (q = f.qmax ∧ f.maxMant < n)
/-- The magnitude n * 2^q as the format writes it: itself, or half as many of the next spacing. -/
inductive Carried (f : Fmt) (q : Int) (n : Nat) : Int → Nat → Prop
  | same : n < 2 ^ (f.mw + 1) → Carried f q n q n
  | carry : n = 2 ^ (f.mw + 1) → Carried f q n (q + 1) (2 ^ f.mw)
variable {f : Fmt}
theorem endRound_cases (f : Fmt) (mode : Rm) (sat neg inexact : Bool) {q : Int} {n : Nat} (hlo : f.qmin ≤ q)
    (hnorm : q = f.qmin ∨ 2 ^ f.mw ≤ n) (hn : n ≤ 2 ^ (f.mw + 1) ∨ q = f.qmax) :
    (∃ q1 n1, Carried f q n q1 n1 ∧ f.InRange n1 q1 ∧ ¬ Beyond f q n ∧
      endRound f mode sat neg q n inexact = (f.encode neg n1 q1, fitFlags f inexact n1)) ∨
    (Beyond f q n ∧ endRound f mode sat neg q n inexact = (overflow f mode sat neg, 5)) := by
  have hM := f.maxMant_lt
  have hM' : 2 ^ f.mw ≤ f.maxMant := Nat.le_add_right _ _
  have h2 : 2 ^ (f.mw + 1) = 2 * 2 ^ f.mw := by rw [Nat.pow_succ, Nat.mul_comm]
  have hp := Nat.two_pow_pos f.mw
  unfold endRound Beyond
  dsimp only
  by_cases hc : n = 2 ^ (f.mw + 1)
  · rw [if_pos hc, if_pos hc]
    split
    · exact .inr ⟨by omega, rfl⟩
    · exact .inl ⟨q + 1, 2 ^ f.mw, .carry hc, ⟨by omega, by omega, by omega, .inr (Nat.le_refl _), fun _ => hM'⟩, by omega, rfl⟩
  · rw [if_neg hc, if_neg hc]
    split
    · exact .inr ⟨by omega, rfl⟩
    · exact .inl ⟨q, n, .same (by omega), ⟨by omega, hlo, by omega, hnorm, by omega⟩, by omega, rfl⟩

/-! ### A rounding is correct -/

variable {V : ℚ} {q : Int} {n : Nat} {ρ : ℚ} {mode : Rm} {neg : Bool}
/-- What a number of the format, n * 2^q, has to be as the rounding of a magnitude. -/
def NearestBy (f : Fmt) (mode : Rm) (neg : Bool) (low high : Nat → Int → Prop) (n : Nat) (q : Int) : Prop :=
  let k : Nat := if n = 2 ^ f.mw ∧ f.qmin < q then 1 else 0
  (towardZero mode neg = true → low n q ∧ ¬ low (n + 1) q) ∧
  (towardZero mode neg = false → mode ≠ .rne → high n q ∧ (n ≠ 0 → ¬ high (2 ^ k * n - 1) (q - k))) ∧
  (mode = .rne → high (2 * n + 1) (q - 1) ∧ (n ≠ 0 → low (2 ^ (k + 1) * n - 1) (q - k - 1)) ∧
    (low (2 * n + 1) (q - 1) ∨ (n ≠ 0 ∧ high (2 ^ (k + 1) * n - 1) (q - k - 1)) → n % 2 = 0))

theorem cast_pred_mul {a n : Nat} (ha : 0 < a) (hn : n ≠ 0) : ((a * n - 1 : Nat) : ℚ) = a * n - 1 := by
  rw [Nat.cast_sub (Nat.mul_pos ha (Nat.pos_of_ne_zero hn))]; push_cast; rfl
/-- A truncated magnitude that is not taken up. -/
theorem Trunc.nearest_down (h : Trunc f V q n ρ) (hu : UpBy mode neg n ρ False) : NearestBy f mode neg (Lo V) (Hi V) n q := by
  obtain ⟨-, h0, h1, -, -⟩ := id h
  unfold NearestBy
  dsimp only
  generalize (if n = 2 ^ f.mw ∧ f.qmin < q then 1 else 0) = k
  refine ⟨fun _ => ?_, fun ht hm => ?_, fun hm => ?_⟩
  · rw [h.lo_iff, h.lo_iff]; push_cast
    constructor <;> linarith
  · have hρ : ρ = 0 := le_antisymm (not_lt.1 fun hp => (hu.away ht hm).2 hp) h0
    refine ⟨by rw [h.hi_iff, hρ, add_zero], fun hn => ?_⟩
    rw [h.hi_sub, cast_pred_mul (Nat.two_pow_pos _) hn, hρ]; push_cast
    linarith
  · have hle : ρ ≤ 1 / 2 := not_lt.1 fun hp => (hu.nearest hm).2 (.inl hp)
    have hev : ρ = 1 / 2 → n % 2 = 0 := fun hp => by
      by_contra hodd
      exact (hu.nearest hm).2 (.inr ⟨hp, by omega⟩)
    rw [h.hi_iff_one, h.lo_iff_one]; push_cast
    refine ⟨by linarith, fun hn => ?_, ?_⟩
    · rw [show q - (k : Int) - 1 = q - (k + 1 : Nat) by omega, h.lo_sub, cast_pred_mul (Nat.two_pow_pos _) hn]; push_cast
      have : (0 : ℚ) ≤ 2 ^ (k + 1) * ρ := by positivity
      linarith
    · rintro (ht | ⟨hn, ht⟩)
      · exact hev (by linarith)
      · rw [show q - (k : Int) - 1 = q - (k + 1 : Nat) by omega, h.hi_sub, cast_pred_mul (Nat.two_pow_pos _) hn] at ht
        push_cast at ht
        have : (0 : ℚ) ≤ 2 ^ (k + 1) * ρ := by positivity
        linarith
/-- A truncated magnitude that is taken up within its binade. -/
theorem Trunc.nearest_up (h : Trunc f V q n ρ) (hu : UpBy mode neg n ρ True) : NearestBy f mode neg (Lo V) (Hi V) (n + 1) q := by
  have hpos := hu.part_pos trivial
  obtain ⟨-, h0, h1, -, hnorm⟩ := id h
  have hk : ¬ (n + 1 = 2 ^ f.mw ∧ f.qmin < q) := by omega
  unfold NearestBy
  dsimp only
  rw [if_neg hk, Nat.cast_zero, sub_zero, pow_zero, Nat.one_mul, Nat.zero_add, pow_one]
  refine ⟨fun ht => absurd trivial (hu.toward ht), fun ht hm => ?_, fun hm => ?_⟩
  · rw [h.hi_iff, h.hi_iff, Nat.add_sub_cancel]; push_cast
    exact ⟨by linarith, fun _ => by linarith⟩
  · have hge : 1 / 2 ≤ ρ := by
      rcases (hu.nearest hm).1 trivial with hp | ⟨hp, -⟩
      exacts [hp.le, hp.ge]
    have hodd : ρ = 1 / 2 → n % 2 = 1 := fun hp => by
      rcases (hu.nearest hm).1 trivial with hp' | ⟨-, ho⟩
      · exact absurd hp' (by rw [hp]; exact lt_irrefl _)
      · exact ho
    rw [h.hi_iff_one, h.lo_iff_one, h.lo_iff_one, h.hi_iff_one, show 2 * (n + 1) - 1 = 2 * n + 1 by omega]; push_cast
    refine ⟨by linarith, fun _ => by linarith, ?_⟩
    rintro (ht | ⟨-, ht⟩)
    · linarith
    · have := hodd (by linarith); omega
/-- A truncated magnitude that is taken up to the next binade. -/
theorem Trunc.nearest_carry (h : Trunc f V q n ρ) (hf : f.Sound) (hu : UpBy mode neg n ρ True) (hn : n + 1 = 2 ^ (f.mw + 1)) :
    NearestBy f mode neg (Lo V) (Hi V) (2 ^ f.mw) (q + 1) := by
  have hpos := hu.part_pos trivial
  obtain ⟨-, h0, h1, hlo, -⟩ := id h
  have hn' : 2 * 2 ^ f.mw = n + 1 := by rw [hn, Nat.pow_succ, Nat.mul_comm]
  have hnq : 2 * (2 : ℚ) ^ f.mw = n + 1 := by exact_mod_cast hn'
  have hk : (2 ^ f.mw = 2 ^ f.mw ∧ f.qmin < q + 1) := ⟨rfl, by omega⟩
  unfold NearestBy
  dsimp only
  rw [if_pos hk, Nat.cast_one, add_sub_cancel_right, pow_one, show 2 ^ (1 + 1) * 2 ^ f.mw - 1 = 2 * n + 1 by omega, hn', Nat.add_sub_cancel]
  refine ⟨fun ht => absurd trivial (hu.toward ht), fun ht hm => ?_, fun hm => ?_⟩
  · rw [h.hi_iff, h.hi_succ]; push_cast
    exact ⟨by linarith, fun _ => by linarith⟩
  · have hge : 1 / 2 ≤ ρ := by
      rcases (hu.nearest hm).1 trivial with hp | ⟨hp, -⟩
      exacts [hp.le, hp.ge]
    rw [h.hi_iff, h.lo_iff_one]; push_cast
    refine ⟨by linarith, fun _ => by linarith, fun _ => ?_⟩
    obtain ⟨w, hw⟩ := Nat.exists_eq_add_of_le' hf.mw
    rw [hw, Nat.pow_succ, Nat.mul_mod_left]
end Sys2Proof.Machine
end

section
/-! PROOFS OF THE SCOPE. A rounding under each mode but SR is the one its mode asks for (R54, R64 to R66). -/
namespace Sys2Proof.Machine
open Spec
variable {f : Fmt} {V : ℚ} {q : Int} {n : Nat} {ρ : ℚ} {mode : Rm} {neg : Bool} {up : Prop}

theorem Carried.value {f : Fmt} {q q1 : Int} {n n1 : Nat} (h : Carried f q n q1 n1) : (n1 : ℚ) * 2 ^ q1 = n * 2 ^ q := by
  cases h with
  | same => rfl
  | carry hn => rw [hn, add_comm, two_zpow_add, zpow_one, Nat.pow_succ]; push_cast; ring
/-- A result is exact when no part of a spacing is left. -/
theorem Trunc.exact_iff (h : Trunc f V q n ρ) {N n1 : Nat} {q1 : Int} (hc : Carried f q N q1 n1) :
    (Lo V n1 q1 ∧ Hi V n1 q1) ↔ (N : ℚ) = n + ρ := by
  unfold Lo Hi
  rw [← le_antisymm_iff, hc.value, h.val, mul_eq_mul_right_iff]
  exact or_iff_left (two_zpow_pos q).ne'
/-- Beyond the largest finite magnitude, the truncated magnitude is beyond it or is it and is taken up. -/
theorem Trunc.beyond (h : Trunc f V q n ρ) (hf : f.Sound) {N : Nat} (hN : N = n + 1 ∧ 0 < ρ ∨ N = n) (hb : Beyond f q N) :
    Lo V (f.maxMant + 1) f.qmax ∨ (q = f.qmax ∧ n = f.maxMant ∧ N = n + 1) := by
  by_cases hq : f.qmax < q
  · left
    have hn : 2 ^ f.mw ≤ n := h.norm.resolve_left (by have := Fmt.qmin_le_qmax hf; omega)
    have hM : (f.maxMant + 1 : ℚ) ≤ n * 2 := by
      have := f.maxMant_lt
      rw [Nat.pow_succ] at this
      exact_mod_cast (by omega : f.maxMant + 1 ≤ n * 2)
    have h2 : (2 : ℚ) ^ f.qmax * 2 ≤ 2 ^ q := by
      rw [← zpow_one (2 : ℚ), ← zpow_mul, ← two_zpow_add, one_mul]
      exact two_zpow_le (by omega)
    have hP := two_zpow_pos f.qmax
    have h0 := h.nonneg
    unfold Lo
    rw [h.val]
    push_cast
    calc (f.maxMant + 1 : ℚ) * 2 ^ f.qmax ≤ n * 2 * 2 ^ f.qmax := mul_le_mul_of_nonneg_right hM hP.le
      _ = n * (2 ^ f.qmax * 2) := by ring
      _ ≤ n * 2 ^ q := mul_le_mul_of_nonneg_left h2 (Nat.cast_nonneg _)
      _ ≤ (n + ρ) * 2 ^ q := mul_le_mul_of_nonneg_right (by linarith) (two_zpow_pos q).le
  · obtain ⟨rfl, hM⟩ := hb.resolve_left hq
    by_cases hn : f.maxMant + 1 ≤ n
    · left
      have h0 := h.nonneg
      have : ((f.maxMant + 1 : Nat) : ℚ) ≤ n := by exact_mod_cast hn
      rw [h.lo_iff]
      linarith
    · exact .inr ⟨rfl, by omega, by omega⟩
/-- An overflow goes beyond the largest finite magnitude by the mode's measure. -/
theorem Trunc.not_within (h : Trunc f V q n ρ) (hf : f.Sound) (hu : UpBy mode neg n ρ up) {N : Nat}
    (hN : up ∧ N = n + 1 ∨ ¬ up ∧ N = n) (hb : Beyond f q N) :
    ¬ (Hi V f.maxMant f.qmax ∨
      (mode = .rne ∧ (¬ Lo V (2 * f.maxMant + 1) (f.qmax - 1) ∨ (f.maxMant % 2 = 0 ∧ Hi V (2 * f.maxMant + 1) (f.qmax - 1)))) ∨
      (towardZero mode neg = true ∧ ¬ Lo V (f.maxMant + 1) f.qmax)) := by
  have hP := two_zpow_pos f.qmax
  rcases h.beyond hf (hN.imp (fun ⟨h1, h2⟩ => ⟨h2, hu.part_pos h1⟩) (·.2)) hb with hV | ⟨rfl, rfl, hN1⟩
  · have half : (2 : ℚ) ^ f.qmax = 2 ^ (f.qmax - 1) * 2 := by
      rw [← zpow_add_one₀ (by norm_num), Int.sub_add_cancel]
    have hP' := two_zpow_pos (f.qmax - 1)
    have hV' : (f.maxMant + 1 : ℚ) * 2 ^ f.qmax ≤ V := by exact_mod_cast hV
    rintro (h1 | ⟨-, h1 | ⟨-, h1⟩⟩ | ⟨-, h1⟩)
    · have h1 : V ≤ f.maxMant * 2 ^ f.qmax := h1
      nlinarith
    · refine h1 ?_
      unfold Lo
      push_cast
      rw [half] at hV'
      nlinarith
    · unfold Hi at h1
      push_cast at h1
      rw [half] at hV'
      nlinarith
    · exact h1 hV
  · have hup : up := by
      rcases hN with ⟨h1, -⟩ | ⟨-, h1⟩
      · exact h1
      · omega
    have hpos := hu.part_pos hup
    rw [h.hi_iff, h.hi_iff_one, h.lo_iff_one]
    push_cast
    rintro (h1 | ⟨hm, h1⟩ | ⟨ht, -⟩)
    · linarith
    · rcases (hu.nearest hm).1 hup with h2 | ⟨h2, h3⟩ <;> rcases h1 with h1 | ⟨h1, h4⟩
      · exact h1 (by linarith)
      · linarith
      · exact h1 (by linarith)
      · omega
    · exact hu.toward ht hup
/-- The value that R65 names for an overflow. -/
theorem overflow_eq (f : Fmt) (mode : Rm) (sat neg : Bool) :
    (f.special = .ieee → overflow f mode sat neg =
      f.sign neg + if (sat || towardZero mode neg) = true then f.maxBits else (2 ^ f.ew - 1) * 2 ^ f.mw) ∧
    (f.special = .oneNan → overflow f mode sat neg =
      if (sat || towardZero mode neg) = true then f.sign neg + f.maxBits else 2 ^ (f.ew + f.mw) - 1) ∧
    (f.special = .none → overflow f mode sat neg = f.sign neg + f.maxBits) := by
  unfold overflow Fmt.infBits Fmt.qnan
  refine ⟨fun hs => ?_, fun hs => ?_, fun hs => ?_⟩ <;> rw [hs] <;> cases mode <;> rfl
/-- A truncated magnitude, taken up as its mode asks, ends as the rounding of the whole magnitude. -/
theorem Trunc.roundedBy (h : Trunc f V q n ρ) (hf : f.Sound) (hmant : n < 2 ^ (f.mw + 1))
    (hu : UpBy mode neg n ρ up) {N : Nat} (hN : up ∧ N = n + 1 ∨ ¬ up ∧ N = n) (sat : Bool) {inexact : Bool}
    (hi : inexact = true ↔ 0 < ρ) :
    RoundedBy f mode sat neg (Lo V) (Hi V) (endRound f mode sat neg q N inexact) := by
  have exact_part {n1 : Nat} {q1 : Int} (hc : Carried f q N q1 n1) : (Lo V n1 q1 ∧ Hi V n1 q1) ↔ inexact = false := by
    rw [h.exact_iff hc, ← Bool.not_eq_true, hi]
    have h0 := h.nonneg
    have h1 := h.lt_one
    rcases hN with ⟨hup, rfl⟩ | ⟨-, rfl⟩
    · have := hu.part_pos hup
      push_cast
      exact ⟨fun e => by linarith, fun e => absurd this e⟩
    · exact ⟨fun e => by linarith, fun e => by linarith⟩
  unfold RoundedBy
  dsimp only
  rw [Fmt.decode_maxBits hf]
  rcases endRound_cases f mode sat neg inexact (n := N) h.lo (by have := h.norm; omega) (by omega) with
    ⟨q1, n1, hc, hr, hb, e⟩ | ⟨hb, e⟩
  · rw [e]
    have h4 := fitFlags_and f inexact n1
    refine ⟨fun _ => ?_, fun hov => absurd h4 hov, fun _ _ _ _ => h4⟩
    obtain ⟨hdec, hlt⟩ := Fmt.decode_encode hf neg hr
    have near : NearestBy f mode neg (Lo V) (Hi V) n1 q1 := by
      rcases hN with ⟨hup, rfl⟩ | ⟨hup, rfl⟩
      · rw [eq_true hup] at hu
        cases hc with
        | same => exact h.nearest_up hu
        | carry hn => exact h.nearest_carry hf hu hn
      · rw [eq_false hup] at hu
        cases hc with
        | same => exact h.nearest_down hu
        | carry hn => omega
    obtain ⟨htz, haw, hne⟩ := near
    refine ⟨n1, q1, hdec, hlt, htz, haw, hne, fun hx => ?_, fun hx => ?_⟩
    · rw [fitFlags_eq, (exact_part hc).1 hx]; rfl
    · rw [fitFlags_eq, Bool.eq_true_of_not_eq_false (mt (exact_part hc).2 hx), if_pos rfl]
  · rw [e]
    refine ⟨fun h4 => absurd h4 (by decide : (5 : Flags) &&& 4 ≠ 0), fun _ => ⟨rfl, overflow_eq f mode sat neg⟩, fun m p hmp hw => ?_⟩
    obtain ⟨-, rfl, rfl⟩ := FVal.num.inj hmp
    exact absurd hw (h.not_within hf hu hN hb)
end Sys2Proof.Machine
end

section
/-! PROOFS OF THE SCOPE. The model's rounding under each mode (R54, R64 to R66) and under SR (R68). -/
namespace Sys2Proof.Machine
open Spec
variable {f : Fmt}

/-! ### The truncation that a rounding starts from -/

/-- The exponent of the greatest power of two within a magnitude. -/
theorem log2_bounds {m : Nat} (hm : m ≠ 0) (e : Int) :
    (2 : ℚ) ^ (e + log2 m) ≤ m * 2 ^ e ∧ (m : ℚ) * 2 ^ e < 2 ^ (e + log2 m + 1) := by
  have h1 : 2 ^ log2 m ≤ m := Nat.log2_self_le hm
  have h2 : m < 2 ^ (log2 m + 1) := Nat.lt_log2_self
  have hp := two_zpow_pos e
  rw [two_zpow_add, add_assoc, two_zpow_add e, mul_comm _ ((2 : ℚ) ^ (log2 m : Int)), mul_comm _ ((2 : ℚ) ^ ((log2 m : Int) + 1)),
    mul_le_mul_iff_left₀ hp, mul_lt_mul_iff_left₀ hp]
  constructor
  · rw [zpow_natCast]; exact_mod_cast h1
  · rw [← Nat.cast_succ, zpow_natCast]; exact_mod_cast h2
/-- m * 2^e in whole spacings of 2^q. -/
def wholePart (m : Nat) (e q : Int) : Nat := if q ≤ e then m * 2 ^ (e - q).toNat else m / 2 ^ (q - e).toNat
/-- What is left of it, in parts of a spacing: there are 2^(q - e) of them. -/
def leftPart (m : Nat) (e q : Int) : Nat := if q ≤ e then 0 else m % 2 ^ (q - e).toNat
theorem leftPart_lt (m : Nat) (e q : Int) : leftPart m e q < 2 ^ (q - e).toNat := by
  unfold leftPart
  split
  · exact Nat.two_pow_pos _
  · exact Nat.mod_lt _ (Nat.two_pow_pos _)
/-- The spacings and the parts make up the magnitude, in units of the finer of the two exponents. -/
theorem wholePart_leftPart (m : Nat) (e q : Int) :
    wholePart m e q * 2 ^ (q - e).toNat + leftPart m e q = units m e (min e q) := by
  unfold wholePart leftPart units
  split
  · rename_i h
    rw [min_eq_right h, show (q - e).toNat = 0 by omega, Nat.pow_zero, Nat.mul_one, Nat.add_zero]
  · rename_i h
    rw [min_eq_left (by omega), show (e - e).toNat = 0 by omega, Nat.pow_zero, Nat.mul_one, Nat.div_add_mod']
theorem value_wholePart (m : Nat) (e q : Int) :
    (m : ℚ) * 2 ^ e = (wholePart m e q + leftPart m e q / 2 ^ (q - e).toNat) * 2 ^ q := by
  have hk : (0 : ℚ) < 2 ^ (q - e).toNat := by positivity
  have hq : (units 1 q (min e q) : ℚ) = 2 ^ (q - e).toNat := by
    unfold units
    push_cast
    rw [one_mul]
    congr 1
    omega
  have h1 := units_mul 1 (min_le_right e q)
  rw [Nat.cast_one, one_mul, hq] at h1
  rw [← units_mul m (min_le_left e q), ← wholePart_leftPart, ← h1]
  push_cast
  field_simp
/-- The spacing that a rounding to nearest or toward a side truncates to. -/
def spacing (f : Fmt) (m : Nat) (e : Int) : Int := max (e + log2 m - f.mw) f.qmin
theorem trunc_of_le (f : Fmt) {m : Nat} (hm : m ≠ 0) {e q : Int} (hlo : f.qmin ≤ q) (hq : q = f.qmin ∨ q ≤ e + log2 m - f.mw) :
    Trunc f (m * 2 ^ e) q (wholePart m e q) (leftPart m e q / 2 ^ (q - e).toNat) := by
  have hk : (0 : ℚ) < 2 ^ (q - e).toNat := by positivity
  have hlt : (leftPart m e q / 2 ^ (q - e).toNat : ℚ) < 1 := by
    rw [div_lt_one hk]; exact_mod_cast leftPart_lt m e q
  refine ⟨value_wholePart m e q, by positivity, hlt, hlo, hq.imp_right fun h => ?_⟩
  obtain ⟨h1, -⟩ := log2_bounds hm e
  have h2 : (2 : ℚ) ^ (f.mw : Int) * 2 ^ q ≤ 2 ^ (e + log2 m) := by
    rw [← two_zpow_add]; exact two_zpow_le (by omega)
  have h3 := h2.trans h1
  rw [value_wholePart m e q, mul_le_mul_iff_left₀ (two_zpow_pos q), zpow_natCast] at h3
  have h4 : ((2 ^ f.mw : Nat) : ℚ) < (wholePart m e q + 1 : Nat) := by push_cast; linarith
  exact Nat.lt_succ_iff.1 (Nat.cast_lt.1 h4)
/-- Above the least spacing needed, the whole part has at most the format's bits. -/
theorem wholePart_lt (f : Fmt) {m : Nat} (hm : m ≠ 0) {e q : Int} (hq : e + log2 m - f.mw ≤ q) : wholePart m e q < 2 ^ (f.mw + 1) := by
  obtain ⟨-, h1⟩ := log2_bounds hm e
  have h2 : (2 : ℚ) ^ (e + log2 m + 1) ≤ 2 ^ ((f.mw + 1 : Nat) : Int) * 2 ^ q := by
    rw [← two_zpow_add]; exact two_zpow_le (by push_cast; omega)
  have h3 := h1.trans_le h2
  rw [value_wholePart m e q, mul_lt_mul_iff_left₀ (two_zpow_pos q), zpow_natCast] at h3
  have h4 : (0 : ℚ) ≤ leftPart m e q / 2 ^ (q - e).toNat := by positivity
  have h5 : (wholePart m e q : ℚ) < ((2 ^ (f.mw + 1) : Nat) : ℚ) := by push_cast at h3 ⊢; linarith
  exact Nat.cast_lt.1 h5

/-! ### The model's rounding -/

theorem roundTo_zero (f : Fmt) (mode : Rm) (sat neg : Bool) (e : Int) (draw : Nat) : roundTo f mode sat neg 0 e draw = (f.sign neg, 0) := if_pos rfl
/-- A rounding truncates, takes the next magnitude or not, and ends. -/
theorem roundTo_eq (f : Fmt) (mode : Rm) (sat neg : Bool) {m : Nat} (hm : m ≠ 0) (e : Int) (draw : Nat) :
    roundTo f mode sat neg m e draw =
      let q := if mode = .sr then min (spacing f m e) f.qmax else spacing f m e
      let n := wholePart m e q
      endRound f mode sat neg q
        (if leftPart m e q ≠ 0 ∧ roundUp mode neg n (leftPart m e q) (q - e).toNat draw = true then n + 1 else n) (decide (leftPart m e q ≠ 0)) := by
  have hq : (match mode with | .sr => min (spacing f m e) f.qmax | _ => spacing f m e) =
      if mode = .sr then min (spacing f m e) f.qmax else spacing f m e := by cases mode <;> rfl
  unfold roundTo
  rw [if_neg hm]
  dsimp only
  rw [show max (e + log2 m - f.mw) f.qmin = spacing f m e from rfl]
  unfold endRound fitFlags
  simp only [decide_eq_true_eq]
  rw [← hq]
  rfl
theorem roundedBy_roundTo (hf : f.Sound) {mode : Rm} (hsr : mode ≠ .sr) (sat neg : Bool) {m : Nat} (hm : m ≠ 0) (e : Int) :
    RoundedBy f mode sat neg (Lo (m * 2 ^ e)) (Hi (m * 2 ^ e)) (roundTo f mode sat neg m e) := by
  have h := trunc_of_le f hm (q := spacing f m e) (le_max_right _ _) ((max_choice _ _).symm.imp id le_of_eq)
  have hu := upBy_roundUp hsr neg (wholePart m e (spacing f m e)) 0 (rem := leftPart m e (spacing f m e))
    (k := (spacing f m e - e).toNat) rfl
  rw [roundTo_eq f mode sat neg hm, if_neg hsr]
  refine h.roundedBy hf (wholePart_lt f hm (le_max_left _ _)) hu ?_ sat ?_
  · split
    · exact .inl ⟨‹_›, rfl⟩
    · exact .inr ⟨‹_›, rfl⟩
  · rw [decide_eq_true_eq, div_pos_iff_of_pos_right (by positivity), Nat.cast_pos, Nat.pos_iff_ne_zero]
/-- Zero is its own rounding. -/
theorem roundedBy_zero (hf : f.Sound) (mode : Rm) (sat neg : Bool) : RoundedBy f mode sat neg (Lo 0) (Hi 0) (f.sign neg, 0) := by
  obtain ⟨hdec, hlt⟩ := Fmt.decode_sign hf neg
  have low {n : Nat} {q : Int} : Lo 0 n q ↔ n = 0 := by
    unfold Lo
    rw [← zero_mul ((2 : ℚ) ^ q), mul_le_mul_iff_left₀ (two_zpow_pos q)]
    exact_mod_cast Nat.le_zero
  have high (n : Nat) (q : Int) : Hi 0 n q := by have := two_zpow_pos q; unfold Hi; positivity
  have exact : Lo 0 0 f.qmin ∧ Hi 0 0 f.qmin := ⟨low.2 rfl, high _ _⟩
  refine ⟨fun _ => ⟨0, f.qmin, hdec, hlt, fun _ => ⟨low.2 rfl, fun h => absurd (low.1 h) (by decide)⟩, fun _ _ => ⟨high _ _, fun h => absurd rfl h⟩,
    fun _ => ⟨high _ _, fun h => absurd rfl h, fun _ => rfl⟩, fun _ => rfl, fun h => absurd exact h⟩, fun h => absurd (BitVec.zero_and) h, fun _ _ _ _ => BitVec.zero_and⟩
/-- R54, R64 to R66: every rounding but SR's is right. -/
theorem rounded_roundTo (hf : f.Sound) {mode : Rm} (hsr : mode ≠ .sr) (sat neg : Bool) (m : Nat) (e : Int) :
    Rounded f mode sat neg m 1 e (roundTo f mode sat neg m e) := by
  rw [rounded_iff _ _ _ _ _ _ _ one_ne_zero, Nat.cast_one, div_one]
  by_cases hm : m = 0
  · rw [hm, roundTo_zero, Nat.cast_zero, zero_mul]
    exact roundedBy_zero hf mode sat neg
  · exact roundedBy_roundTo hf hsr sat neg hm e

/-! ### The fields of an FP32 word -/

theorem f32_eq (x : W32) : f32 x =
    let s := x.getLsbD 31
    let e : Nat := x.toNat / 2 ^ 23 % 256
    let m : Nat := x.toNat % 2 ^ 23
    if e = 255 then (if m = 0 then .inf s else .nan (decide (m < 2 ^ 22)))
    else if e = 0 then .num s m (-149) else .num s (2 ^ 23 + m) ((e : Int) - 150) := by
  have hs : (x.toNat / 2 ^ 31 % 2 == 1) = x.getLsbD 31 := by
    rw [BitVec.getLsbD, Nat.testBit_eq_decide_div_mod_eq]; rfl
  have hq (ef : Nat) : fp32.qOf ef = (ef : Int) - 150 := by unfold Fmt.qOf fp32; push_cast; omega
  unfold f32 Fmt.decode
  dsimp only
  rw [hq]
  show (if x.toNat / 2 ^ 23 % 256 = 255 then _ else _) = _
  rw [show fp32.qmin = -149 from rfl]
  rw [show (x.toNat / 2 ^ (fp32.ew + fp32.mw) % 2 == 1) = x.getLsbD 31 from hs]
  rfl
theorem rounding : Spec.Rounding :=
  ⟨fun _ _ sat neg m e hf hsr => rounded_roundTo (Fmt.sound_of_mem hf) hsr sat neg m e, f32_eq⟩
end Sys2Proof.Machine
end

section
/-! PROOFS OF THE SCOPE. Stochastic rounding and its draws (R65, R66, R68). -/
namespace Sys2Proof.Machine
open Spec
variable {f : Fmt}

/-! ### The spacing and the count of spacings -/

theorem mul_units (a b : Nat) (q c : Int) : a * units b q c = units (a * b) q c := (Nat.mul_assoc _ _ _).symm
/-- One spacing of 2^q, in units of the finer of the two exponents. -/
theorem units_one (e q : Int) : units 1 q (min e q) = 2 ^ (q - e).toNat := by
  unfold units
  rw [Nat.one_mul]
  congr 1
  omega
/-- The spacing at a magnitude, between the least and the greatest of the format. -/
theorem spacing_unique (f : Fmt) {m : Nat} (hm : m ≠ 0) {e q : Int} (hlo : f.qmin ≤ q) (hhi : q ≤ f.qmax)
    (hge : q = f.qmin ∨ 2 ^ f.mw * units 1 q (min e q) ≤ units m e (min e q))
    (hlt : q = f.qmax ∨ units m e (min e q) < 2 ^ (f.mw + 1) * units 1 q (min e q)) :
    (q = f.qmin ∨ q ≤ e + log2 m - f.mw) ∧ (q = f.qmax ∨ e + log2 m - f.mw ≤ q) ∧ min (spacing f m e) f.qmax = q := by
  obtain ⟨h1, h2⟩ := log2_bounds hm e
  have low : q = f.qmin ∨ q ≤ e + log2 m - f.mw := by
    refine hge.imp_right fun h => ?_
    rw [mul_units, units_le_units _ _ (min_le_right _ _) (min_le_left _ _), Nat.mul_one, Nat.cast_pow, Nat.cast_two, ← zpow_natCast,
      ← two_zpow_add] at h
    have := (zpow_lt_zpow_iff_right₀ (by norm_num : (1 : ℚ) < 2)).1 (h.trans_lt h2)
    omega
  have high : q = f.qmax ∨ e + log2 m - f.mw ≤ q := by
    refine hlt.imp_right fun h => ?_
    rw [mul_units, units_lt_units _ _ (min_le_left _ _) (min_le_right _ _), Nat.mul_one, Nat.cast_pow, Nat.cast_two, ← zpow_natCast,
      ← two_zpow_add] at h
    have := (zpow_lt_zpow_iff_right₀ (by norm_num : (1 : ℚ) < 2)).1 (h1.trans_lt h)
    push_cast at this
    omega
  refine ⟨low, high, ?_⟩
  unfold spacing
  omega
/-- With w spacings of K units and l units left, the draw takes the next spacing when it fills up the last one. -/
theorem drawn_count {w l d K : Nat} (hl : l < K) (hd : d < 2 ^ 32) :
    ((w * K + l) * 2 ^ 32 + d * K) / (K * 2 ^ 32) = if l ≠ 0 ∧ K * 2 ^ 32 ≤ l * 2 ^ 32 + d * K then w + 1 else w := by
  have hK : 0 < K * 2 ^ 32 := Nat.mul_pos (by omega) (by decide)
  have hdK : d * K < K * 2 ^ 32 := by rw [Nat.mul_comm]; exact Nat.mul_lt_mul_of_pos_left hd (by omega)
  rw [show (w * K + l) * 2 ^ 32 + d * K = (l * 2 ^ 32 + d * K) + w * (K * 2 ^ 32) by ring, Nat.add_mul_div_right _ _ hK, Nat.add_comm]
  split
  · rename_i h
    rw [Nat.div_eq_of_lt_le (k := 1)] <;> omega
  · rename_i h
    have : l * 2 ^ 32 + d * K < K * 2 ^ 32 := by
      by_cases h0 : l = 0
      · rw [h0]; omega
      · omega
    rw [Nat.div_eq_of_lt this, Nat.add_zero]
/-- The count is exact when nothing is left. -/
theorem drawn_exact {w l K n : Nat} (hl : l < K) (hn : n = w + 1 ∧ l ≠ 0 ∨ n = w) : w * K + l = n * K ↔ l = 0 := by
  rcases hn with ⟨rfl, h0⟩ | rfl
  · rw [Nat.succ_mul]; omega
  · omega
theorem count_cases (m : Nat) (e q : Int) {d : Nat} (hd : d < 2 ^ 32) :
    let n := (units m e (min e q) * 2 ^ 32 + d * units 1 q (min e q)) / (units 1 q (min e q) * 2 ^ 32)
    n = wholePart m e q + 1 ∧ leftPart m e q ≠ 0 ∨ n = wholePart m e q := by
  dsimp only
  rw [units_one, ← wholePart_leftPart, drawn_count (leftPart_lt m e q) hd]
  split
  · exact .inl ⟨rfl, ‹_ ∧ _›.1⟩
  · exact .inr rfl
/-- The model's rounding under SR, by the spacing and the count of R68. -/
theorem roundTo_sr (f : Fmt) (sat neg : Bool) {m d : Nat} {e q : Int} (hm : m ≠ 0) (hd : d < 2 ^ 32) (hq : min (spacing f m e) f.qmax = q) :
    roundTo f .sr sat neg m e d = endRound f .sr sat neg q
      ((units m e (min e q) * 2 ^ 32 + d * units 1 q (min e q)) / (units 1 q (min e q) * 2 ^ 32)) (decide (leftPart m e q ≠ 0)) := by
  rw [roundTo_eq _ _ _ _ hm, if_pos rfl, hq, units_one, ← wholePart_leftPart, drawn_count (leftPart_lt m e q) hd]
  dsimp only
  simp only [roundUp, decide_eq_true_eq, Nat.pow_add]
/-- Within the spacings of the format, a count goes beyond the largest finite magnitude by its value. -/
theorem beyond_iff {q : Int} {n : Nat} (hhi : q ≤ f.qmax) (hn : n ≤ 2 ^ (f.mw + 1) ∨ q = f.qmax) :
    Beyond f q n ↔ units f.maxMant f.qmax (min q f.qmax) < units n q (min q f.qmax) := by
  rw [min_eq_left hhi]
  by_cases hq : q = f.qmax
  · rw [hq]
    unfold Beyond units
    rw [Int.sub_self, Int.toNat_zero, Nat.pow_zero]
    omega
  · have h1 : 2 ^ f.mw ≤ f.maxMant := Nat.le_add_right _ _
    have h2 : n ≤ f.maxMant * 2 := (hn.resolve_right hq).trans (by rw [Nat.pow_succ]; omega)
    have h3 : 2 ≤ 2 ^ (f.qmax - q).toNat := Nat.pow_le_pow_right (n := 2) (by decide) (by omega : 1 ≤ (f.qmax - q).toNat)
    have h4 : units n q q ≤ units f.maxMant f.qmax q := by
      unfold units
      rw [Int.sub_self, Int.toNat_zero, Nat.pow_zero, Nat.mul_one]
      exact h2.trans (Nat.mul_le_mul_left _ h3)
    unfold Beyond
    omega
/-- R65, R66, R68: a rounding under SR. -/
theorem stochastic (hf : f.Sound) (sat neg : Bool) {m d : Nat} {e q : Int} (hm : m ≠ 0) (hd : d < 2 ^ 32) :
    let sign := if neg then 2 ^ (f.ew + f.mw) else 0
    let c := min e q
    let X := units m e c
    let Q := units 1 q c
    let n := (X * 2 ^ 32 + d * Q) / (Q * 2 ^ 32)
    let r := roundTo f .sr sat neg m e d
    f.qmin ≤ q → q ≤ f.qmax → (q = f.qmin ∨ 2 ^ f.mw * Q ≤ X) → (q = f.qmax ∨ X < 2 ^ (f.mw + 1) * Q) →
    ∀ (k : Nat) (p : Int), f.decode f.maxBits = .num false k p →
      (units n q (min q p) ≤ units k p (min q p) →
        (∃ j h, f.decode r.1 = .num neg j h ∧ r.1 < 2 ^ f.width ∧ units j h (min q h) = units n q (min q h)) ∧
        r.2 = if X = n * Q then 0 else if n ≠ 0 ∧ n < 2 ^ f.mw then 3 else 1) ∧
      (units k p (min q p) < units n q (min q p) → r.2 = 5 ∧
        r.1 = if sat = true ∨ f.special = .none then sign + f.maxBits
          else if f.special = .ieee then sign + (2 ^ f.ew - 1) * 2 ^ f.mw else 2 ^ (f.ew + f.mw) - 1) := by
  intro sign c X Q n r hlo hhi hge hlt k p hmax
  rw [Fmt.decode_maxBits hf] at hmax
  obtain ⟨-, rfl, rfl⟩ := FVal.num.inj hmax
  obtain ⟨hle, hge', hq⟩ := spacing_unique f hm hlo hhi hge hlt
  have hl := leftPart_lt m e q
  have hn : n = wholePart m e q + 1 ∧ leftPart m e q ≠ 0 ∨ n = wholePart m e q := count_cases m e q hd
  have hX : X = n * Q ↔ leftPart m e q = 0 := by
    show units m e (min e q) = n * units 1 q (min e q) ↔ _
    rw [units_one, ← wholePart_leftPart, drawn_exact hl hn]
  have hw : q = f.qmax ∨ wholePart m e q < 2 ^ (f.mw + 1) := hge'.imp_right (wholePart_lt f hm)
  have hnorm := (trunc_of_le f hm hlo hle).norm
  have hr : r = endRound f .sr sat neg q n (decide (leftPart m e q ≠ 0)) := roundTo_sr f sat neg hm hd hq
  have hbound : n ≤ 2 ^ (f.mw + 1) ∨ q = f.qmax := by omega
  rw [← Nat.not_lt, ← beyond_iff hhi hbound, hr]
  rcases endRound_cases f .sr sat neg (decide (leftPart m e q ≠ 0)) hlo (n := n) (by omega) hbound with ⟨q1, n1, hc, hin, hb, e1⟩ | ⟨hb, e1⟩
  · rw [e1]
    refine ⟨fun _ => ⟨?_, ?_⟩, fun h => absurd h hb⟩
    · obtain ⟨hdec, hwid⟩ := Fmt.decode_encode hf neg hin
      exact ⟨n1, q1, hdec, hwid, (units_eq_units _ _ (min_le_right _ _) (min_le_left _ _)).2 hc.value⟩
    · have hsame : (n1 ≠ 0 ∧ n1 < 2 ^ f.mw) ↔ (n ≠ 0 ∧ n < 2 ^ f.mw) := by
        cases hc with
        | same => exact Iff.rfl
        | carry hn2 => rw [hn2, Nat.pow_succ]; omega
      rw [fitFlags_eq]
      by_cases h0 : leftPart m e q = 0
      · rw [if_pos (hX.2 h0), if_neg (by rw [decide_eq_true_eq]; exact fun h => h h0)]
      · rw [if_neg (mt hX.1 h0), if_pos (decide_eq_true h0)]
        simp only [hsame]
  · rw [e1]
    refine ⟨fun h => absurd hb h, fun _ => ⟨rfl, ?_⟩⟩
    obtain ⟨h1, h2, h3⟩ := overflow_eq f .sr sat neg
    have hsat : (sat || towardZero .sr neg) = sat := Bool.or_false _
    rw [hsat] at h1 h2
    show overflow f .sr sat neg = _
    cases hs : f.special with
    | ieee => rw [h1 hs]; cases sat <;> rfl
    | oneNan => rw [h2 hs]; cases sat <;> rfl
    | none => rw [h3 hs, if_pos (.inr rfl)]; rfl

/-! ### The draws -/

theorem drawLane_eq (seed : Word) {n j : Nat} (hj : j < 32) :
    drawLane seed n j = (philox seed (BitVec.ofNat 32 (n <<< 5 ||| j)) 0x00100000 0xFFF00000 0).1.toNat := by
  unfold drawLane
  rw [← Nat.shiftLeft_add_eq_or_of_lt (i := 5) hj, Nat.shiftLeft_eq]
theorem drawMem_eq (seed a : Word) (i : Nat) :
    drawMem seed a i =
      (philox seed (a.setWidth 32) (BitVec.ofNat 32 (a.toNat / 2 ^ 32 % 2 ^ 20)) 0xFFF00000 (BitVec.ofNat 32 i)).1.toNat := by
  have h1 : a.extractLsb' 0 32 = a.setWidth 32 := by
    apply BitVec.eq_of_toNat_eq
    rw [BitVec.extractLsb'_toNat, Nat.shiftRight_zero, BitVec.toNat_setWidth]
  have h2 : (a.extractLsb' 32 20).setWidth 32 = BitVec.ofNat 32 (a.toNat / 2 ^ 32 % 2 ^ 20) := by
    apply BitVec.eq_of_toNat_eq
    rw [BitVec.toNat_setWidth, BitVec.extractLsb'_toNat, Nat.shiftRight_eq_div_pow, BitVec.toNat_ofNat]
  unfold drawMem
  rw [h1, h2]
theorem stochasticRounding : Spec.StochasticRounding :=
  ⟨fun _ sat neg _ _ _ _ hf hm hd => stochastic (Fmt.sound_of_mem hf) sat neg hm hd,
    fun seed a _ _ i _ hj => ⟨drawLane_eq seed hj, drawMem_eq seed a i⟩⟩
end Sys2Proof.Machine
end

section
/-! PROOFS OF THE SCOPE. Roundings of a magnitude that is known up to a sticky bit, and quotients (R64 to R66, R85). -/
namespace Sys2Proof.Machine
open Spec
variable {f : Fmt} {V : ℚ}

/-! ### A magnitude next to an odd number of units -/

theorem UpBy.congr {mode : Rm} {neg : Bool} {n : Nat} {ρ σ : ℚ} {up : Prop} (h : UpBy mode neg n ρ up) (hpos : 0 < σ ↔ 0 < ρ)
    (hhalf : 1 / 2 < σ ↔ 1 / 2 < ρ) (htie : σ = 1 / 2 ↔ ρ = 1 / 2) : UpBy mode neg n σ up where
  toward := h.toward
  away ht hm := (h.away ht hm).trans hpos.symm
  nearest hm := by rw [h.nearest hm, hhalf, htie]
/-- A magnitude of r units and a part θ of one, where θ is 0 or r is odd, is on the same side of each even number of units as r. -/
theorem compare_even {r h : Nat} {θ : ℚ} (hθ : θ = 0 ∨ r % 2 = 1) (h1 : -1 < θ) (h2 : θ < 1) (he : h % 2 = 0) :
    ((h : ℚ) < r + θ ↔ h < r) ∧ ((r : ℚ) + θ = h ↔ r = h) := by
  rcases hθ with rfl | hr
  · rw [add_zero]
    exact ⟨Nat.cast_lt, Nat.cast_inj⟩
  · rcases Nat.lt_or_gt_of_ne (show r ≠ h by omega) with hlt | hlt
    · have : (r : ℚ) + 1 ≤ h := by exact_mod_cast hlt
      exact ⟨⟨fun _ => by linarith, fun _ => by omega⟩, ⟨fun _ => by linarith, fun _ => by omega⟩⟩
    · have : (h : ℚ) + 1 ≤ r := by exact_mod_cast hlt
      exact ⟨⟨fun _ => hlt, fun _ => by linarith⟩, ⟨fun _ => by linarith, fun _ => by omega⟩⟩
section
variable {l j : Nat} {θ : ℚ} (hθ : θ = 0 ∨ l % 2 = 1) (h1 : -1 < θ) (h2 : θ < 1)
include hθ h1 h2
/-- Left over in a spacing of 2^(j + 2) units, such a magnitude is a part of one, -/
theorem sticky_part (hl : l < 2 ^ (j + 2)) : 0 ≤ (l + θ) / 2 ^ (j + 2) ∧ (l + θ) / 2 ^ (j + 2) < 1 := by
  have hK : (0 : ℚ) < 2 ^ (j + 2) := by positivity
  have hnn : (0 : ℚ) ≤ l + θ := by
    rcases hθ with rfl | ho
    · rw [add_zero]; exact Nat.cast_nonneg _
    · have : (1 : ℚ) ≤ l := by exact_mod_cast (by omega : 1 ≤ l)
      linarith
  obtain ⟨hone, hone'⟩ := compare_even hθ h1 h2 (h := 2 ^ (j + 2)) (by rw [Nat.pow_succ, Nat.mul_mod_left])
  have hle := mt hone.1 (by omega)
  have hne := mt hone'.1 (by omega)
  push_cast at hle hne
  exact ⟨div_nonneg hnn hK.le, (div_lt_one hK).2 (lt_of_le_of_ne (not_lt.1 hle) hne)⟩
/-- which is zero when the whole units are, -/
theorem sticky_pos : 0 < (l + θ) / 2 ^ (j + 2) ↔ 0 < l := by
  obtain ⟨hpos, -⟩ := compare_even hθ h1 h2 (h := 0) rfl
  rw [Nat.cast_zero] at hpos
  rw [div_pos_iff_of_pos_right (by positivity), hpos]
/-- and is taken up when they are. -/
theorem UpBy.sticky {mode : Rm} {neg : Bool} {n : Nat} {up : Prop} (hu : UpBy mode neg n (l / 2 ^ (j + 2)) up) :
    UpBy mode neg n ((l + θ) / 2 ^ (j + 2)) up := by
  have hK : (0 : ℚ) < 2 ^ (j + 2) := by positivity
  have hpow : (2 : ℚ) ^ (j + 2) = 2 * ((2 * 2 ^ j : Nat) : ℚ) := by push_cast; ring
  obtain ⟨hhalf, htie⟩ := compare_even hθ h1 h2 (h := 2 * 2 ^ j) (Nat.mul_mod_right _ _)
  refine hu.congr ?_ ?_ ?_
  · rw [sticky_pos hθ h1 h2, div_pos_iff_of_pos_right hK, Nat.cast_pos]
  · rw [div_lt_div_iff₀ (by norm_num) hK, div_lt_div_iff₀ (by norm_num) hK, one_mul, hpow, mul_comm _ (2 : ℚ), mul_comm _ (2 : ℚ),
      mul_lt_mul_iff_right₀ (by norm_num), mul_lt_mul_iff_right₀ (by norm_num), hhalf, Nat.cast_lt]
  · rw [div_eq_div_iff hK.ne' (by norm_num), div_eq_div_iff hK.ne' (by norm_num), one_mul, hpow, mul_comm _ (2 : ℚ), mul_comm _ (2 : ℚ),
      mul_right_inj' (by norm_num), mul_right_inj' (by norm_num), htie, Nat.cast_inj]
end
/-- Rounding a number of units whose lowest bit is sticky rounds the magnitude that it stands for: with two bits or more below the
spacing, none of the mode's measures lies at an odd number of units. -/
theorem roundedBy_sticky (hf : f.Sound) {mode : Rm} (hsr : mode ≠ .sr) (sat neg : Bool) {m : Nat} (hm : m ≠ 0) {e : Int} {θ : ℚ}
    (hq : e + 2 ≤ spacing f m e) (hV : V = (m + θ) * 2 ^ e) (hθ : θ = 0 ∨ m % 2 = 1) (h1 : -1 < θ) (h2 : θ < 1) :
    RoundedBy f mode sat neg (Lo V) (Hi V) (roundTo f mode sat neg m e) := by
  have ht := trunc_of_le f hm (q := spacing f m e) (le_max_right _ _) ((max_choice _ _).symm.imp id le_of_eq)
  have hlt := wholePart_lt f hm (q := spacing f m e) (le_max_left _ _)
  rw [roundTo_eq f mode sat neg hm, if_neg hsr]
  dsimp only
  generalize spacing f m e = q at *
  obtain ⟨j, hj, hjq⟩ : ∃ j : Nat, (q - e).toNat = j + 2 ∧ q = (j + 2 : Nat) + e := ⟨(q - e).toNat - 2, by omega, by omega⟩
  have hwl := wholePart_leftPart m e q
  have hll := leftPart_lt m e q
  have hu := upBy_roundUp hsr neg (wholePart m e q) 0 (rem := leftPart m e q) (k := (q - e).toNat) rfl
  rw [min_eq_left (by omega), show units m e e = m by unfold units; rw [Int.sub_self, Int.toNat_zero, Nat.pow_zero, Nat.mul_one]] at hwl
  rw [hj] at *
  generalize wholePart m e q = w at *
  generalize leftPart m e q = l at *
  have hθl : θ = 0 ∨ l % 2 = 1 := hθ.imp_right fun h => by
    have : w * 2 ^ (j + 2) % 2 = 0 := by rw [Nat.pow_succ, ← Nat.mul_assoc, Nat.mul_mod_left]
    omega
  have hV' : V = (w + (l + θ) / 2 ^ (j + 2)) * 2 ^ q := by
    have hq : (2 : ℚ) ^ q = 2 ^ (j + 2) * 2 ^ e := by
      rw [← zpow_natCast, ← two_zpow_add, ← hjq]
    rw [hV, hq, ← hwl]
    push_cast
    field_simp
    ring
  obtain ⟨hnn, hlt1⟩ := sticky_part hθl h1 h2 hll
  have htV : Trunc f V q w ((l + θ) / 2 ^ (j + 2)) := ⟨hV', hnn, hlt1, ht.lo, ht.norm⟩
  refine htV.roundedBy hf hlt (hu.sticky hθl h1 h2) ?_ sat ?_
  · split
    · exact .inl ⟨‹_›, rfl⟩
    · exact .inr ⟨‹_›, rfl⟩
  · rw [decide_eq_true_eq, sticky_pos hθl h1 h2, Nat.pos_iff_ne_zero]

/-! ### FP32 results -/

/-- A rounding into FP32 is an FP32 word. -/
theorem roundedBy_fp32_lt {mode : Rm} {sat neg : Bool} {low high : Nat → Int → Prop} {r : Nat × Flags}
    (h : RoundedBy fp32 mode sat neg low high r) : r.1 < 2 ^ 32 := by
  obtain ⟨hfit, hover, -⟩ := h
  by_cases h4 : r.2 &&& 4 = 0
  · obtain ⟨_, _, -, hlt, -⟩ := hfit h4
    exact hlt
  · obtain ⟨-, hieee, -⟩ := hover h4
    rw [hieee rfl]
    generalize (sat || towardZero mode neg) = b
    cases neg <;> cases b <;> decide
theorem bits_w32 {r : Nat × Flags} (h : r.1 < 2 ^ 32) : bits (w32 r) = r := by
  unfold bits w32
  rw [BitVec.toNat_ofNat, Nat.mod_eq_of_lt h]
theorem rounded_w32 {mode : Rm} (hsr : mode ≠ .sr) (sat neg : Bool) (m : Nat) (e : Int) :
    Rounded fp32 mode sat neg m 1 e (bits (w32 (roundTo fp32 mode sat neg m e))) := by
  have h := rounded_roundTo Fmt.sound_fp32 hsr sat neg m e
  rwa [bits_w32 (roundedBy_fp32_lt h)]
/-- The model's quotient has at least 64 bits. -/
theorem le_quotient {num den : Nat} (hn : num ≠ 0) (hd : den ≠ 0) : 2 ^ 63 ≤ num * 2 ^ (64 + log2 den) / den := by
  rw [Nat.le_div_iff_mul_le (Nat.pos_of_ne_zero hd)]
  have h : den < 2 ^ (log2 den + 1) := Nat.lt_log2_self
  calc 2 ^ 63 * den ≤ 2 ^ 63 * 2 ^ (log2 den + 1) := Nat.mul_le_mul_left _ h.le
    _ = 1 * 2 ^ (64 + log2 den) := by rw [← Nat.pow_add, Nat.one_mul]; congr 1; omega
    _ ≤ num * 2 ^ (64 + log2 den) := Nat.mul_le_mul_right _ (Nat.pos_of_ne_zero hn)
theorem rounded_roundQuot (env : FpEnv) (hsr : env.mode ≠ .sr) (neg : Bool) {num den : Nat} (hn : num ≠ 0) (hd : den ≠ 0) (E : Int) :
    Rounded fp32 env.mode env.sat neg num den E (bits (roundQuot env neg num den E)) := by
  rw [rounded_iff _ _ _ _ _ _ _ hd]
  have hbig := le_quotient hn hd
  have hdiv := Nat.div_add_mod (num * 2 ^ (64 + log2 den)) den
  have hmod := Nat.mod_lt (num * 2 ^ (64 + log2 den)) (Nat.pos_of_ne_zero hd)
  unfold roundQuot
  dsimp only
  generalize hk : 64 + log2 den = k at *
  generalize num * 2 ^ k / den = Q at *
  generalize num * 2 ^ k % den = R at *
  have hd' : (0 : ℚ) < den := by exact_mod_cast Nat.pos_of_ne_zero hd
  have hdivq : (den * Q + R : ℚ) = num * 2 ^ k := by exact_mod_cast hdiv
  have hR0 : (0 : ℚ) ≤ R / den := by positivity
  have hR1 : (R / den : ℚ) < 1 := by rw [div_lt_one hd']; exact_mod_cast hmod
  have hval (st : Nat) : (num / den * 2 ^ E : ℚ) = ((2 * Q + st : Nat) + (2 * (R / den) - st)) * 2 ^ (E - k - 1) := by
    have h2 : (2 : ℚ) ^ E = 2 ^ (E - k - 1) * (2 ^ k * 2) := by
      rw [← zpow_natCast, ← zpow_add_one₀ (by norm_num), ← two_zpow_add]; congr 1; omega
    have h3 : (num * 2 ^ k / den : ℚ) = Q + R / den := by rw [← hdivq]; field_simp
    push_cast
    calc (num / den * 2 ^ E : ℚ) = num * 2 ^ k / den * 2 * 2 ^ (E - k - 1) := by rw [h2]; ring
      _ = _ := by rw [h3]; ring
  have hsp (st : Nat) : E - k - 1 + 2 ≤ spacing fp32 (2 * Q + st) (E - k - 1) := by
    have hlog : 63 ≤ log2 (2 * Q + st) := (Nat.le_log2 (by omega)).2 (by omega)
    have : E - k - 1 + (log2 (2 * Q + st) : Int) - fp32.mw ≤ spacing fp32 (2 * Q + st) (E - k - 1) := le_max_left _ _
    have hmw : fp32.mw = 23 := rfl
    omega
  have key : RoundedBy fp32 env.mode env.sat neg (Lo (num / den * 2 ^ E)) (Hi (num / den * 2 ^ E))
      (roundTo fp32 env.mode env.sat neg (2 * Q + if R = 0 then 0 else 1) (E - k - 1)) := by
    by_cases h0 : R = 0
    · rw [if_pos h0]
      exact roundedBy_sticky Fmt.sound_fp32 hsr _ _ (by omega) (hsp 0) (hval 0) (.inl (by rw [h0]; norm_num)) (by push_cast; linarith)
        (by rw [h0]; norm_num)
    · rw [if_neg h0]
      have hRp : (0 : ℚ) < R / den := div_pos (by exact_mod_cast Nat.pos_of_ne_zero h0) hd'
      exact roundedBy_sticky Fmt.sound_fp32 hsr _ _ (by omega) (hsp 1) (hval 1) (.inr (by omega)) (by push_cast; linarith)
        (by push_cast; linarith)
  rwa [bits_w32 (roundedBy_fp32_lt key)]
end Sys2Proof.Machine
end

section
/-! PROOFS OF THE SCOPE. FP32 sums, products, fused sums and quotients (R55, R66, R85, R89). -/
namespace Sys2Proof.Machine
open Spec

/-! ### Values -/

@[simp] theorem FVal.isZero_num (n : Bool) (m : Nat) (e : Int) : (FVal.num n m e).isZero = decide (m = 0) := by cases m <;> rfl
theorem flIf_or (a b : Bool) (f : Flags) : flIf a f ||| flIf b f = flIf (a || b) f := by cases a <;> cases b <;> simp [flIf]
theorem or_flIf_false (r : W32 × Flags) (f : Flags) : (r.1, r.2 ||| flIf false f) = r := Prod.ext rfl BitVec.or_zero
/-- Reversing the sign bit of an FP32 word reverses the sign of its value. -/
theorem f32_flip (b : W32) : f32 (b ^^^ 0x80000000) = (f32 b).flip := by
  have hsign : (b ^^^ 0x80000000).getLsbD 31 = !b.getLsbD 31 := by
    rw [BitVec.getLsbD_xor, show (0x80000000 : W32).getLsbD 31 = true from rfl, Bool.xor_true]
  have hlow : (b ^^^ 0x80000000).toNat % 2 ^ 31 = b.toNat % 2 ^ 31 := by
    rw [BitVec.toNat_xor, Nat.xor_mod_two_pow, show (0x80000000 : W32).toNat % 2 ^ 31 = 0 from rfl, Nat.xor_zero]
  have hexp : (b ^^^ 0x80000000).toNat / 2 ^ 23 % 256 = b.toNat / 2 ^ 23 % 256 := by omega
  have hman : (b ^^^ 0x80000000).toNat % 2 ^ 23 = b.toNat % 2 ^ 23 := by omega
  rw [f32_eq, f32_eq]
  dsimp only
  rw [hsign, hexp, hman]
  split
  · split <;> rfl
  · split <;> rfl

/-! ### Products -/

/-- Zero times infinity. -/
def Invalid (x y : FVal) : Prop := (∃ n, x = .inf n ∧ y.isZero = true) ∨ ∃ n, y = .inf n ∧ x.isZero = true
/-- A product is invalid for zero times infinity, which is a NaN, as is one with a NaN; it is signalling with a signalling operand. -/
theorem mulExact_kind (x y : FVal) : ((mulExact x y).2 = true ↔ Invalid x y) ∧
    ((mulExact x y).1.isNan = true ↔ ¬ (x.isNan = false ∧ y.isNan = false ∧ ¬ Invalid x y)) ∧
    (mulExact x y).1.isSig = (x.isSig || y.isSig) := by
  unfold Invalid
  cases x with
  | nan => cases y <;> simp [mulExact, FVal.isNan, FVal.isSig, FVal.isZero]
  | inf n =>
    cases y with
    | nan => simp [mulExact, FVal.isNan, FVal.isSig, FVal.isZero]
    | inf k => simp [mulExact, FVal.isNan, FVal.isSig, FVal.isZero]
    | num k m e => by_cases hm : m = 0 <;> simp [mulExact, FVal.isNan, FVal.isSig, hm]
  | num n m e =>
    cases y with
    | nan => simp [mulExact, FVal.isNan, FVal.isSig]
    | inf k => by_cases hm : m = 0 <;> simp [mulExact, FVal.isNan, FVal.isSig, hm]
    | num k m' e' => simp [mulExact, FVal.isNan, FVal.isSig]
theorem mulExact_invalid (x y : FVal) : (mulExact x y).2 = true ↔ Invalid x y := (mulExact_kind x y).1
theorem mulExact_isNan (x y : FVal) : (mulExact x y).1.isNan = true ↔ ¬ (x.isNan = false ∧ y.isNan = false ∧ ¬ Invalid x y) :=
  (mulExact_kind x y).2.1
theorem mulExact_isSig (x y : FVal) : (mulExact x y).1.isSig = (x.isSig || y.isSig) := (mulExact_kind x y).2.2
/-- A valid product with an infinite operand. -/
theorem mulExact_inf {x y : FVal} (h : (mulExact x y).1.isNan = false) (hi : (∃ n, x = .inf n) ∨ ∃ n, y = .inf n) :
    mulExact x y = (.inf (x.neg != y.neg), false) := by
  rcases hi with ⟨n, rfl⟩ | ⟨n, rfl⟩
  · cases y with
    | nan => exact nomatch h
    | inf k => rfl
    | num k m e =>
      cases m with
      | zero => exact nomatch h
      | succ m => rfl
  · cases x with
    | nan => exact nomatch h
    | inf k => rfl
    | num k m e =>
      cases m with
      | zero => exact nomatch h
      | succ m => rfl

/-! ### Sums -/

theorem addV_nan (env : FpEnv) {x y : FVal} (h : x.isNan = true ∨ y.isNan = true) : addV env x y = (qnan32, flIf (x.isSig || y.isSig) flNV) := by
  cases x with
  | nan => cases y <;> rfl
  | inf n =>
    cases y with
    | nan => rfl
    | inf => exact nomatch h
    | num => exact nomatch h
  | num =>
    cases y with
    | nan => rfl
    | inf => exact nomatch h
    | num => exact nomatch h
theorem addV_inf (env : FpEnv) (n : Bool) {y : FVal} (h : y.isNan = false) :
    addV env (.inf n) y = if y = .inf (!n) then (qnan32, flNV) else (inf32 n, 0) := by
  cases y with
  | nan => exact nomatch h
  | inf k => cases n <;> cases k <;> rfl
  | num => exact (if_neg nofun).symm
/-- The exact sum of two numbers, rounded once. -/
theorem roundSum_ne_zero (env : FpEnv) (hsr : env.mode ≠ .sr) {nx ny : Bool} {mx my : Nat} {ex ey : Int}
    (hz : signed nx (units mx ex (min ex ey)) + signed ny (units my ey (min ex ey)) ≠ 0) :
    let z := signed nx (units mx ex (min ex ey)) + signed ny (units my ey (min ex ey))
    Rounded fp32 env.mode env.sat (decide (z < 0)) z.natAbs 1 (min ex ey) (bits (roundSum env nx mx ex ny my ey)) := by
  have e : roundSum env nx mx ex ny my ey = w32 (roundTo fp32 env.mode env.sat _ _ _) := if_neg hz
  rw [e]
  exact rounded_w32 hsr _ _ _ _
theorem roundSum_eq_zero (env : FpEnv) {nx ny : Bool} {mx my : Nat} {ex ey : Int}
    (hz : signed nx (units mx ex (min ex ey)) + signed ny (units my ey (min ex ey)) = 0) :
    roundSum env nx mx ex ny my ey = (zero32 (if nx = ny then nx else env.mode == .rdn), 0) := by
  have e : roundSum env nx mx ex ny my ey = (zero32 (if nx == ny then nx else env.mode == .rdn), 0) := if_pos hz
  rw [e]
  simp only [beq_iff_eq]

/-! ### The operations by their operands' kinds -/

section
variable (env : FpEnv) {x y z : FVal}
theorem fmaV_nan (h : ¬ (x.isNan = false ∧ y.isNan = false ∧ ¬ Invalid x y) ∨ z.isNan = true) :
    (Invalid x y ∨ x.isSig = true ∨ y.isSig = true ∨ z.isSig = true → fmaV env x y z = (qnan32, 16)) ∧
    (¬ Invalid x y → x.isSig = false → y.isSig = false → z.isSig = false → fmaV env x y z = (qnan32, 0)) := by
  rw [← mulExact_isNan] at h
  rw [← mulExact_invalid]
  unfold fmaV
  dsimp only
  rw [addV_nan env h, mulExact_isSig]
  generalize (mulExact x y).2 = i
  generalize x.isSig = a
  generalize y.isSig = b
  generalize z.isSig = c
  rw [flIf_or]
  refine ⟨fun hany => ?_, fun hi ha hb hc => ?_⟩
  · have : (a || b || c || i) = true := by rcases hany with rfl | rfl | rfl | rfl <;> simp
    rw [this]; rfl
  · rw [Bool.eq_false_of_not_eq_true hi, ha, hb, hc]; rfl
theorem fmaV_inf (h : x.isNan = false ∧ y.isNan = false ∧ ¬ Invalid x y) (hz : z.isNan = false)
    (hi : (∃ n, x = .inf n) ∨ ∃ n, y = .inf n) :
    fmaV env x y z = if z = .inf (!(x.neg != y.neg)) then (qnan32, 16) else (inf32 (x.neg != y.neg), 0) := by
  unfold fmaV
  dsimp only
  rw [mulExact_inf (Bool.eq_false_of_not_eq_true (mt (mulExact_isNan x y).1 (not_not.2 h))) hi, or_flIf_false, addV_inf env _ hz]
  rfl
theorem fmaV_num_inf (hx : x.isNan = false) (hy : y.isNan = false) (hxi : ∀ n, x ≠ .inf n) (hyi : ∀ n, y ≠ .inf n) (n : Bool) :
    fmaV env x y (.inf n) = (inf32 n, 0) := by
  cases x with
  | nan => exact nomatch hx
  | inf k => exact absurd rfl (hxi k)
  | num =>
    cases y with
    | nan => exact nomatch hy
    | inf k => exact absurd rfl (hyi k)
    | num => exact or_flIf_false _ _
theorem fDivV_nan (h : x.isNan = true ∨ y.isNan = true) : fDivV env x y = (qnan32, flIf (x.isSig || y.isSig) flNV) := by
  cases x with
  | nan => cases y <;> rfl
  | inf n =>
    cases y with
    | nan => rfl
    | inf => exact nomatch h
    | num => exact nomatch h
  | num =>
    cases y with
    | nan => rfl
    | inf => exact nomatch h
    | num => exact nomatch h
/-- The product as the model rounds it. -/
def mulV (x y : FVal) : W32 × Flags := ((roundV env (mulExact x y).1).1, (roundV env (mulExact x y).1).2 ||| flIf (mulExact x y).2 flNV)
theorem fMul_eq (a b : W32) : fMul env a b = mulV env (f32 a) (f32 b) := rfl
theorem mulV_nan (h : x.isNan = true ∨ y.isNan = true) : mulV env x y = (qnan32, flIf (x.isSig || y.isSig) flNV) := by
  have hi : ¬ Invalid x y := by
    rintro (⟨n, rfl, hz⟩ | ⟨n, rfl, hz⟩)
    · cases y with
      | nan => exact nomatch hz
      | inf => exact nomatch hz
      | num => exact nomatch h
    · cases x with
      | nan => exact nomatch hz
      | inf => exact nomatch hz
      | num => exact nomatch h
  have hn := (mulExact_isNan x y).2 (fun hf => by rcases h with h | h <;> simp [h] at hf)
  have hs := mulExact_isSig x y
  unfold mulV
  rw [Bool.eq_false_of_not_eq_true (mt (mulExact_invalid x y).1 hi), ← hs, or_flIf_false]
  cases hp : (mulExact x y).1 with
  | nan => rfl
  | inf => rw [hp] at hn; exact nomatch hn
  | num => rw [hp] at hn; exact nomatch hn
theorem mulV_inf (h : (mulExact x y).1.isNan = false) (hi : (∃ n, x = .inf n) ∨ ∃ n, y = .inf n) :
    mulV env x y = (inf32 (x.neg != y.neg), 0) := by
  unfold mulV
  rw [mulExact_inf h hi]
  exact or_flIf_false _ _
theorem mulV_inf_num (n k : Bool) (m : Nat) (e : Int) :
    mulV env (.inf n) (.num k m e) = if m = 0 then (qnan32, 16) else (inf32 (n != k), 0) := by
  cases m with
  | zero =>
    show (qnan32, flIf false flNV ||| flIf true flNV) = _
    rw [flIf_or]
    rfl
  | succ m => exact mulV_inf env rfl (.inl ⟨n, rfl⟩)
theorem mulV_num (nx ny : Bool) (mx my : Nat) (ex ey : Int) :
    mulV env (.num nx mx ex) (.num ny my ey) = w32 (roundTo fp32 env.mode env.sat (nx != ny) (mx * my) (ex + ey)) := by
  unfold mulV
  exact or_flIf_false _ _
/-- A zero quotient. -/
theorem rounded_zero32 (mode : Rm) (sat neg : Bool) {den : Nat} (hd : den ≠ 0) (e : Int) :
    Rounded fp32 mode sat neg 0 den e (bits (zero32 neg, 0)) := by
  rw [rounded_iff _ _ _ _ _ _ _ hd, Nat.cast_zero, zero_div, zero_mul]
  have h := roundedBy_zero Fmt.sound_fp32 mode sat neg
  cases neg <;> exact h
theorem fDivV_num (hsr : env.mode ≠ .sr) (nx ny : Bool) (mx : Nat) {my : Nat} (hy : my ≠ 0) (ex ey : Int) :
    Rounded fp32 env.mode env.sat (nx != ny) mx my (ex - ey) (bits (fDivV env (.num nx mx ex) (.num ny my ey))) := by
  unfold fDivV
  dsimp only
  rw [if_neg hy]
  by_cases hx : mx = 0
  · rw [if_pos hx, hx]
    exact rounded_zero32 _ _ _ hy _
  · rw [if_neg hx]
    exact rounded_roundQuot env hsr _ hx hy _
theorem fmaV_num (nx ny nw : Bool) (mx my mw : Nat) (ex ey ew : Int) :
    fmaV env (.num nx mx ex) (.num ny my ey) (.num nw mw ew) = roundSum env (nx != ny) (mx * my) (ex + ey) nw mw ew := by
  unfold fmaV
  exact or_flIf_false _ _
end

theorem exactOperations : Spec.ExactOperations := by
  intro env a b hsr x y nan inf zero nv whole
  refine ⟨⟨?_, fun w => ⟨?_, ?_⟩⟩, fun w => ?_, fun h => ?_, fun n k hx hy => ?_, fun n k m e hx hy => ?_, fun nx mx ex ny my ey hx hy => ?_⟩
  · show addV env x y.flip = addV env x (f32 (b ^^^ 0x80000000)); rw [f32_flip]
  · show fmaV env x y (f32 w).flip = fmaV env x y (f32 (w ^^^ 0x80000000)); rw [f32_flip]
  · show fmaV env x.flip y (f32 w) = fmaV env (f32 (a ^^^ 0x80000000)) y (f32 w); rw [f32_flip]
  · exact ⟨fmaV_nan env, fun hp@⟨hxn, hyn, _⟩ hz => ⟨fmaV_inf env hp hz, fun hx hy n hw => by
      show fmaV env x y (f32 w) = _
      rw [hw, fmaV_num_inf env hxn hyn hx hy]; rfl⟩⟩
  · exact ⟨addV_nan env h, mulV_nan env h, fDivV_nan env h⟩
  · show addV env x y = _ ∧ mulV env x y = _ ∧ fDivV env x y = _
    rw [hx, hy]
    exact ⟨by cases n <;> cases k <;> rfl, mulV_inf env rfl (.inl ⟨n, rfl⟩), rfl⟩
  · show addV env x y = _ ∧ addV env y x = _ ∧ mulV env x y = _ ∧ fDivV env x y = _ ∧ fDivV env y x = _
    rw [hx, hy, mulV_inf_num]
    exact ⟨rfl, rfl, rfl, rfl, by cases n <;> cases k <;> rfl⟩
  · show (_ → whole _ _ (addV env x y)) ∧ (_ → addV env x y = _) ∧ Rounded _ _ _ _ _ _ _ (bits (mulV env x y)) ∧
      (_ → Rounded _ _ _ _ _ _ _ (bits (fDivV env x y))) ∧ (_ → fDivV env x y = _) ∧ ∀ w nw mw ew, _
    rw [hx, hy, mulV_num]
    refine ⟨roundSum_ne_zero env hsr, roundSum_eq_zero env, rounded_w32 hsr _ _ _ _, fun h => fDivV_num env hsr nx ny mx h ex ey, fun h => ?_,
      fun w nw mw ew hw => ?_⟩
    · unfold fDivV
      dsimp only
      rw [if_pos h]
      rfl
    · show (_ → whole _ _ (fmaV env x y (f32 w))) ∧ (_ → fmaV env x y (f32 w) = _)
      rw [hx, hy, hw, fmaV_num]
      refine ⟨roundSum_ne_zero env hsr, fun h => (roundSum_eq_zero env h).trans ?_⟩
      by_cases he : (nx != ny) = nw
      · rw [he]; rfl
      · rw [if_neg he, if_neg he]; rfl
end Sys2Proof.Machine
end

section
/-! PROOFS OF THE SCOPE. The exact sum of a block's products, and a step of an MMA (R69 to R71). -/
namespace Sys2Proof.Machine
open Spec

/-! ### The exact sum of a list of values -/

/-- One value added to an exact sum; the Bool says whether every value so far is -0. -/
def addPart (p : FVal) (r : FVal × Bool) : FVal × Bool :=
  match p, r.1 with
  | .nan _, _ => (.nan false, false)
  | _, .nan _ => (.nan false, false)
  | .inf x, .inf y => if x == y then (.inf x, false) else (.nan false, false)
  | .inf x, .num _ _ _ => (.inf x, false)
  | .num _ _ _, .inf y => (.inf y, false)
  | .num na ma ea, .num nb mb eb =>
    let s := addExact na ma ea nb mb eb
    (.num (if s.1 = 0 then r.2 && p.isZero && p.neg else s.1 < 0) s.1.natAbs s.2, r.2 && p.isZero && p.neg)
def sumVals (vs : List FVal) : FVal × Bool := vs.foldr addPart (.num true 0 0, true)
@[simp] theorem sumVals_nil : sumVals [] = (.num true 0 0, true) := rfl
@[simp] theorem sumVals_cons (v : FVal) (vs : List FVal) : sumVals (v :: vs) = addPart v (sumVals vs) := rfl
/-- The model's sum is that of the products' values. -/
theorem sumExact_eq (ps : List (FVal × FVal)) : sumExact ps = sumVals (ps.map fun p => (mulExact p.1 p.2).1) := by
  induction ps with
  | nil => rfl
  | cons p ps ih =>
    obtain ⟨a, b⟩ := p
    rw [List.map_cons, sumVals_cons, ← ih]
    rfl
theorem addPart_nan_left {p : FVal} (h : p.isNan = true) (r : FVal × Bool) : (addPart p r).1.isNan = true := by
  cases p with
  | nan => rfl
  | inf => exact nomatch h
  | num => exact nomatch h
theorem addPart_nan_right (p : FVal) {r : FVal × Bool} (h : r.1.isNan = true) : (addPart p r).1.isNan = true := by
  obtain ⟨v, z⟩ := r
  cases v with
  | nan => cases p <;> rfl
  | inf => exact nomatch h
  | num => exact nomatch h
theorem addPart_inf_same {n : Bool} {r : FVal × Bool} (h : r.1 = .inf n) : (addPart (.inf n) r).1 = .inf n := by
  obtain ⟨v, z⟩ := r
  obtain rfl : v = _ := h
  cases n <;> rfl
theorem addPart_inf_unlike {n : Bool} {r : FVal × Bool} (h : r.1 = .inf (!n)) : (addPart (.inf n) r).1.isNan = true := by
  obtain ⟨v, z⟩ := r
  obtain rfl : v = _ := h
  cases n <;> rfl
theorem addPart_inf_num {n : Bool} {r : FVal × Bool} (h : ∃ k m e, r.1 = .num k m e) : (addPart (.inf n) r).1 = .inf n := by
  obtain ⟨v, z⟩ := r
  obtain ⟨k, m, e, rfl⟩ : ∃ k m e, v = _ := h
  rfl
theorem addPart_num_inf (k : Bool) (m : Nat) (e : Int) {n : Bool} {r : FVal × Bool} (h : r.1 = .inf n) : (addPart (.num k m e) r).1 = .inf n := by
  obtain ⟨v, z⟩ := r
  obtain rfl : v = _ := h
  rfl
theorem addPart_num_num (n : Bool) (m : Nat) (e : Int) {k : Bool} {m' : Nat} {e' : Int} {r : FVal × Bool} (h : r.1 = .num k m' e') :
    addPart (.num n m e) r =
      let s := addExact n m e k m' e'
      let z := r.2 && (FVal.num n m e).isZero && n
      (.num (if s.1 = 0 then z else s.1 < 0) s.1.natAbs s.2, z) := by
  obtain ⟨v, z⟩ := r
  obtain rfl : v = _ := h
  rfl
theorem sumVals_num (vs : List FVal) (h : ∀ v ∈ vs, ∃ n m e, v = .num n m e) : ∃ n m e, (sumVals vs).1 = .num n m e := by
  induction vs with
  | nil => exact ⟨_, _, _, rfl⟩
  | cons v vs ih =>
    obtain ⟨n, m, e, rfl⟩ := h v List.mem_cons_self
    obtain ⟨k, m', e', hr⟩ := ih fun w hw => h w (List.mem_cons_of_mem _ hw)
    rw [sumVals_cons, addPart_num_num n m e hr]
    exact ⟨_, _, _, rfl⟩
/-- With infinities of one sign alone, and no NaN, the sum is an infinity. -/
theorem sumVals_inf {n : Bool} (vs : List FVal) (hnan : ∀ v ∈ vs, v.isNan = false) (hn : .inf n ∈ vs) (hn' : .inf (!n) ∉ vs) :
    (sumVals vs).1 = .inf n := by
  induction vs with
  | nil => exact absurd hn (List.not_mem_nil)
  | cons v vs ih =>
    have hrest := fun w hw => hnan w (List.mem_cons_of_mem v hw)
    have hrest' : .inf (!n) ∉ vs := mt (List.mem_cons_of_mem v) hn'
    rw [sumVals_cons]
    by_cases hin : .inf n ∈ vs
    · have hr := ih hrest hin hrest'
      cases v with
      | nan => exact nomatch hnan _ List.mem_cons_self
      | inf k =>
        obtain rfl : k = n := by
          by_contra hk
          rw [Bool.eq_not_of_ne hk] at hn'
          exact hn' List.mem_cons_self
        exact addPart_inf_same hr
      | num k m e => exact addPart_num_inf k m e hr
    · obtain rfl : v = .inf n := ((List.mem_cons.1 hn).resolve_right hin).symm
      refine addPart_inf_num (sumVals_num vs fun w hw => ?_)
      cases w with
      | nan => exact nomatch hrest _ hw
      | inf k =>
        by_cases hk : k = n
        · exact absurd (hk ▸ hw) hin
        · exact absurd (Bool.eq_not_of_ne hk ▸ hw) hrest'
      | num k m e => exact ⟨k, m, e, rfl⟩
/-- With a NaN, or infinities of both signs, the sum is a NaN. -/
theorem sumVals_nan (vs : List FVal) (h : (∃ v ∈ vs, v.isNan = true) ∨ (.inf true ∈ vs ∧ .inf false ∈ vs)) : (sumVals vs).1.isNan = true := by
  induction vs with
  | nil => simp at h
  | cons v vs ih =>
    rw [sumVals_cons]
    by_cases hv : v.isNan = true
    · exact addPart_nan_left hv _
    by_cases hrest : (∃ w ∈ vs, w.isNan = true) ∨ (.inf true ∈ vs ∧ .inf false ∈ vs)
    · exact addPart_nan_right v (ih hrest)
    rw [not_or] at hrest
    obtain ⟨hnan, hboth⟩ := hrest
    have hnan' : ∀ w ∈ vs, w.isNan = false := fun w hw => Bool.eq_false_of_not_eq_true fun hn => hnan ⟨w, hw, hn⟩
    obtain ⟨ht, hf⟩ := h.resolve_left (by
      rintro ⟨w, hw, hn⟩
      rcases List.mem_cons.1 hw with rfl | hw
      · exact hv hn
      · exact hnan ⟨w, hw, hn⟩)
    rcases List.mem_cons.1 ht with rfl | ht'
    · have hf' := (List.mem_cons.1 hf).resolve_left nofun
      exact addPart_inf_unlike (sumVals_inf vs hnan' hf' fun hn => hboth ⟨hn, hf'⟩)
    · obtain rfl : _ = v := (List.mem_cons.1 hf).resolve_right fun hf => hboth ⟨ht', hf⟩
      exact addPart_inf_unlike (sumVals_inf vs hnan' ht' fun hn => hboth ⟨ht', hn⟩)

/-! ### The value of a sum of numbers -/

/-- A number's value in units of 2^c. -/
def valueAt (c : Int) : FVal → Int
  | .num n m e => if n then -(units m e c : Int) else units m e c
  | _ => 0
theorem units_units (m : Nat) {e g c : Int} (h1 : c ≤ g) (h2 : g ≤ e) : units (units m e g) g c = units m e c := by
  unfold units
  rw [Nat.mul_assoc, ← Nat.pow_add]
  congr 2
  omega
theorem valueAt_num (c : Int) (n : Bool) {m : Nat} {e g : Int} (h1 : c ≤ g) (h2 : g ≤ e) :
    valueAt c (.num n m e) = signed n (units m e g) * 2 ^ (g - c).toNat := by
  unfold valueAt signed
  dsimp only
  rw [← units_units m h1 h2]
  unfold units
  cases n <;> push_cast <;> simp
/-- An integer as a number's sign and magnitude. -/
theorem valueAt_natAbs (c : Int) (n : Bool) (s g : Int) (hn : s ≠ 0 → n = decide (s < 0)) :
    valueAt c (.num n s.natAbs g) = s * 2 ^ (g - c).toNat := by
  unfold valueAt units
  push_cast
  rcases lt_trichotomy s 0 with h | rfl | h
  · rw [hn h.ne, decide_eq_true h, if_pos rfl, abs_of_neg h]; ring
  · simp
  · rw [hn h.ne', decide_eq_false (by omega), if_neg Bool.false_ne_true, abs_of_pos h]
theorem sumVals_value {c : Int} (hc : c ≤ 0) (vs : List FVal) (h : ∀ v ∈ vs, ∃ n m e, v = .num n m e ∧ c ≤ e) :
    (∃ n m e, (sumVals vs).1 = .num n m e ∧ c ≤ e ∧ valueAt c (.num n m e) = (vs.map (valueAt c)).sum ∧
      (m = 0 → n = (sumVals vs).2)) ∧
    ((sumVals vs).2 = true ↔ ∀ v ∈ vs, v.isZero = true ∧ v.neg = true) := by
  induction vs with
  | nil => exact ⟨⟨true, 0, 0, rfl, hc, by simp [valueAt, units], fun _ => rfl⟩, by simp⟩
  | cons v vs ih =>
    obtain ⟨n, m, e, rfl, he⟩ := h v List.mem_cons_self
    obtain ⟨⟨k, m', e', hr, he', hsum, -⟩, hneg⟩ := ih fun w hw => h w (List.mem_cons_of_mem _ hw)
    have hg : c ≤ min e e' := le_min he he'
    rw [sumVals_cons, addPart_num_num n m e hr]
    dsimp only
    refine ⟨⟨_, _, _, rfl, hg, ?_, fun h0 => if_pos (Int.natAbs_eq_zero.1 h0)⟩, ?_⟩
    · rw [valueAt_natAbs _ _ _ _ fun hne => if_neg hne, List.map_cons, List.sum_cons, ← hsum, valueAt_num c n hg (min_le_left e e'),
        valueAt_num c k hg (min_le_right e e'), ← Int.add_mul]
      rfl
    · rw [List.forall_mem_cons, ← hneg, Bool.and_eq_true, Bool.and_eq_true]
      exact ⟨fun ⟨⟨h1, h2⟩, h3⟩ => ⟨⟨h2, h3⟩, h1⟩, fun ⟨⟨h2, h3⟩, h1⟩ => ⟨⟨h1, h2⟩, h3⟩⟩

/-! ### A step of an MMA -/

theorem upTo_eq_range (n : Nat) : upTo n = List.range n := by
  induction n with
  | zero => rfl
  | succ n ih => rw [List.range_succ, ← ih]; rfl
theorem lanes32_eq : lanes32 = List.range 32 := upTo_eq_range 32
theorem foldl_add_eq_sum (f : Nat → Int) (l : List Nat) (z : Int) : l.foldl (fun acc k => acc + f k) z = z + (l.map f).sum := by
  induction l generalizing z with
  | nil => exact (Int.add_zero z).symm
  | cons k l ih => rw [List.foldl_cons, ih, List.map_cons, List.sum_cons, Int.add_assoc]
theorem mmaScaled_iff (f : Nat) : mmaScaled f = true ↔ 5 ≤ f ∧ f ≤ 7 := decide_eq_true_iff
theorem accumulate_eq (neg : Bool) (c t : W32) : accumulate neg c t = (if neg then fSub envRne c t else fAdd envRne c t).1 := by
  cases neg <;> rfl

theorem blockSums : Spec.BlockSums := by
  refine ⟨fun ps c hc => ?_, fun m a b sa sb c i j => ⟨fun hf => ?_, fun hf => ?_⟩⟩
  · dsimp only
    rw [sumExact_eq]
    generalize ps.map (fun p => (mulExact p.1 p.2).1) = vs
    refine ⟨sumVals_nan vs, fun n hnan hn hn' => sumVals_inf vs hnan hn hn', fun h => ?_⟩
    obtain ⟨⟨n, m, e, hs, he, hsum, h0⟩, hneg⟩ := sumVals_value hc vs h
    exact ⟨n, m, e, hs, he, hsum, fun hm => by rw [h0 hm, hneg]⟩
  · unfold mmaElem
    dsimp only
    rw [if_neg hf, lanes32_eq, accumulate_eq]
    by_cases hs : 5 ≤ m.fmt ∧ m.fmt ≤ 7
    · rw [if_pos hs, if_pos ((mmaScaled_iff _).2 hs)]; rfl
    · rw [if_neg hs, if_neg (mt (mmaScaled_iff _).1 hs)]; rfl
  · unfold mmaElem
    dsimp only
    rw [if_pos hf, lanes32_eq, foldl_add_eq_sum, Int.zero_add]
    rfl
end Sys2Proof.Machine
end

section
/-! PROOFS OF THE SCOPE. Encoding through a table (R60, R63). -/
namespace Sys2Proof.Machine
open Spec

/-! ### The first code that is best -/

theorem scanCodes_succ_none {ok : Nat → Bool} {better : Nat → Nat → Bool} {n : Nat} (h : scanCodes ok better n = none) :
    scanCodes ok better (n + 1) = if ok n then some n else none := by rw [scanCodes, h]
theorem scanCodes_succ_some {ok : Nat → Bool} {better : Nat → Nat → Bool} {n b : Nat} (h : scanCodes ok better n = some b) :
    scanCodes ok better (n + 1) = if ok n && better n b then some n else some b := by rw [scanCodes, h]
theorem scanCodes_none {ok : Nat → Bool} {better : Nat → Nat → Bool} {n : Nat} : scanCodes ok better n = none ↔ ∀ c < n, ok c = false := by
  induction n with
  | zero => exact ⟨fun _ c hc => absurd hc (Nat.not_lt_zero c), fun _ => rfl⟩
  | succ n ih =>
    rw [Nat.forall_lt_succ_right, ← ih]
    cases h : scanCodes ok better n with
    | none => rw [scanCodes_succ_none h]; cases ok n <;> simp
    | some b => rw [scanCodes_succ_some h]; cases ok n && better n b <;> simp
/-- A scan by a rank finds the lowest of the codes of least rank. -/
theorem scanCodes_some {α : Type} [LinearOrder α] {ok : Nat → Bool} {better : Nat → Nat → Bool} (rank : Nat → α)
    (hb : ∀ c b, ok c = true → ok b = true → (better c b = true ↔ rank c < rank b)) {n b : Nat} (h : scanCodes ok better n = some b) :
    b < n ∧ ok b = true ∧ (∀ c < n, ok c = true → rank b ≤ rank c) ∧ ∀ c < b, ok c = true → rank b < rank c := by
  induction n generalizing b with
  | zero => exact nomatch h
  | succ n ih =>
    cases hs : scanCodes ok better n with
    | none =>
      have hno := scanCodes_none.1 hs
      rw [scanCodes_succ_none hs] at h
      split at h
      · rename_i hok
        obtain rfl := Option.some.inj h
        have hlow : ∀ c < n, ok c = true → rank n < rank c := fun c hc hc' => absurd (hno c hc) (by rw [hc']; decide)
        exact ⟨Nat.lt_succ_self n, hok, Nat.forall_lt_succ_right.2 ⟨fun c hc hc' => (hlow c hc hc').le, fun _ => le_refl _⟩, hlow⟩
      · exact nomatch h
    | some d =>
      obtain ⟨hd, hdok, hdle, hdlt⟩ := ih hs
      rw [scanCodes_succ_some hs] at h
      split at h
      · rename_i hok
        obtain rfl := Option.some.inj h
        rw [Bool.and_eq_true] at hok
        obtain ⟨hok, hbet⟩ := hok
        have hlow : ∀ c < n, ok c = true → rank n < rank c := fun c hc hc' => ((hb n d hok hdok).1 hbet).trans_le (hdle c hc hc')
        exact ⟨Nat.lt_succ_self n, hok, Nat.forall_lt_succ_right.2 ⟨fun c hc hc' => (hlow c hc hc').le, fun _ => le_refl _⟩, hlow⟩
      · rename_i hno
        obtain rfl := Option.some.inj h
        refine ⟨Nat.lt_succ_of_lt hd, hdok, Nat.forall_lt_succ_right.2 ⟨hdle, fun hok => not_lt.1 fun hlt => hno ?_⟩, hdlt⟩
        rw [hok, (hb n d hok hdok).2 hlt]; rfl
/-- A scan without a measure finds the first code that will do. -/
theorem scanCodes_first {ok : Nat → Bool} {n b : Nat} (h : scanCodes ok (fun _ _ => false) n = some b) :
    b < n ∧ ok b = true ∧ ∀ c < b, ok c = false := by
  obtain ⟨hlt, hok, -, hlow⟩ := scanCodes_some (fun _ => 0) (fun _ _ _ _ => by simp) h
  exact ⟨hlt, hok, fun c hc => Bool.eq_false_of_not_eq_true fun hc' => absurd (hlow c hc hc') (Nat.lt_irrefl 0)⟩
theorem scanCodes_eq_first {ok : Nat → Bool} {n k : Nat} (hk : k < n) (hok : ok k = true) (hlow : ∀ c < k, ok c = false) :
    scanCodes ok (fun _ _ => false) n = some k := by
  cases h : scanCodes ok (fun _ _ => false) n with
  | none => exact absurd (scanCodes_none.1 h k hk) (by rw [hok]; decide)
  | some b =>
    obtain ⟨-, hb, hbl⟩ := scanCodes_first h
    rcases Nat.lt_trichotomy b k with hlt | rfl | hlt
    · exact absurd (hlow b hlt) (by rw [hb]; decide)
    · rfl
    · exact absurd (hbl k hlt) (by rw [hok]; decide)
theorem exists_scanCodes {ok : Nat → Bool} {n : Nat} (better : Nat → Nat → Bool) (h : ∃ c < n, ok c = true) :
    ∃ b, scanCodes ok better n = some b := by
  obtain ⟨c, hc, hok⟩ := h
  cases hs : scanCodes ok better n with
  | none => exact absurd (scanCodes_none.1 hs c hc) (by rw [hok]; decide)
  | some b => exact ⟨b, rfl⟩
theorem scanCodes_lt {ok : Nat → Bool} {better : Nat → Nat → Bool} {n b : Nat} (h : scanCodes ok better n = some b) : b < n := by
  induction n generalizing b with
  | zero => exact nomatch h
  | succ n ih =>
    cases hs : scanCodes ok better n with
    | none =>
      rw [scanCodes_succ_none hs] at h
      split at h
      · exact Option.some.inj h ▸ Nat.lt_succ_self n
      · exact nomatch h
    | some d =>
      rw [scanCodes_succ_some hs] at h
      split at h
      · exact Option.some.inj h ▸ Nat.lt_succ_self n
      · exact Option.some.inj h ▸ Nat.lt_succ_of_lt (ih hs)
theorem scanCodes_getD_lt (ok : Nat → Bool) (better : Nat → Nat → Bool) {n : Nat} (hn : 0 < n) : (scanCodes ok better n).getD 0 < n := by
  cases h : scanCodes ok better n with
  | none => exact hn
  | some b => exact scanCodes_lt h

/-! ### The exponents of a table's entries and of an FP32 word -/

/-- A value whose exponent, if it is a number, is not below the least of FP32. -/
def Wide (v : FVal) : Prop := ∀ n m e, v = .num n m e → -149 ≤ e
theorem wide_of_decode (f : Fmt) (h : -149 ≤ f.qmin) (bits : Nat) : Wide (f.decode bits) := by
  have hfin (neg : Bool) (ef m : Nat) : Wide (if ef = 0 then .num neg m f.qmin else .num neg (2 ^ f.mw + m) (f.qOf ef)) := by
    intro n k e he
    split at he
    · obtain ⟨-, -, rfl⟩ := FVal.num.inj he
      exact h
    · obtain ⟨-, -, rfl⟩ := FVal.num.inj he
      unfold Fmt.qmin at h
      unfold Fmt.qOf
      omega
  unfold Fmt.decode
  dsimp only
  split
  · split
    · split <;> exact fun _ _ _ he => nomatch he
    · exact hfin _ _ _
  · split
    · exact fun _ _ _ he => nomatch he
    · exact hfin _ _ _
  · exact hfin _ _ _
theorem wide_f32 (a : W32) : Wide (f32 a) := wide_of_decode fp32 (by decide) _
theorem wide_dtabVal (t : DTab) (c : Nat) : Wide (dtabVal t c) := wide_of_decode f19 (by decide) _

/-! ### The order of values, and their distance -/

/-- A value's place among the numbers and the infinities. -/
def place : FVal → WithBot (WithTop Int)
  | .nan _ => ⊥
  | .inf true => ⊥
  | .inf false => ((⊤ : WithTop Int) : WithBot (WithTop Int))
  | .num n m e => ((valueAt (-149) (.num n m e) : WithTop Int) : WithBot (WithTop Int))
theorem place_num (n : Bool) (m : Nat) (e : Int) :
    place (.num n m e) = ((valueAt (-149) (.num n m e) : WithTop Int) : WithBot (WithTop Int)) := rfl
/-- The exact difference of two numbers in units of FP32's least spacing. -/
theorem addExact_not (n k : Bool) (m p : Nat) {e q : Int} (he : -149 ≤ e) (hq : -149 ≤ q) :
    (addExact n m e (!k) p q).1 * 2 ^ (min e q - -149).toNat = valueAt (-149) (.num n m e) - valueAt (-149) (.num k p q) := by
  have hg : -149 ≤ min e q := le_min he hq
  rw [valueAt_num (-149) n hg (min_le_left e q), valueAt_num (-149) k hg (min_le_right e q), ← Int.sub_mul]
  congr 1
  show sgn n _ + sgn (!k) _ = signed n _ - signed k _
  rw [Int.sub_eq_add_neg]
  congr 1
  cases k
  · rfl
  · exact (Int.neg_neg _).symm
theorem cmpV_eq {x y : FVal} (hx : Wide x) (hy : Wide y) (hxn : x.isNan = false) (hyn : y.isNan = false) :
    cmpV x y = some (compare (place x) (place y)) := by
  cases x with
  | nan => exact nomatch hxn
  | inf n =>
    cases y with
    | nan => exact nomatch hyn
    | inf k => cases n <;> cases k <;> rfl
    | num k p q => cases n <;> rfl
  | num n m e =>
    cases y with
    | nan => exact nomatch hyn
    | inf k => cases k <;> rfl
    | num k p q =>
      have hd := addExact_not n k m p (hx n m e rfl) (hy k p q rfl)
      have hp : (0 : Int) < 2 ^ (min e q - -149).toNat := by positivity
      rw [place_num, place_num]
      show some (compare (addExact n m e (!k) p q).1 0) = _
      generalize valueAt (-149) (.num n m e) = u at *
      generalize valueAt (-149) (.num k p q) = v at *
      generalize (addExact n m e (!k) p q).1 = s at *
      congr 1
      rcases lt_trichotomy s 0 with h | rfl | h
      · have huv : u < v := by nlinarith
        rw [compare_lt_iff_lt.2 h, compare_lt_iff_lt.2 (by exact_mod_cast huv)]
      · have huv : u = v := by linarith
        rw [compare_eq_iff_eq.2 rfl, compare_eq_iff_eq.2 (by rw [huv])]
      · have huv : v < u := by nlinarith
        rw [compare_gt_iff_gt.2 h, compare_gt_iff_gt.2 (by exact_mod_cast huv)]
/-- A distance in units of FP32's least spacing. -/
def farness : Option (Nat × Int) → WithTop Nat
  | none => ⊤
  | some (a, e) => WithTop.some (units a e (-149))
end Sys2Proof.Machine
end

section
/-! PROOFS OF THE SCOPE. The code of a value in a table (R60, R63). -/
namespace Sys2Proof.Machine
open Spec

/-! ### Distances -/

/-- Whether a distance, if finite, is in units no finer than FP32's least spacing. -/
def WideDist (d : Option (Nat × Int)) : Prop := ∀ a e, d = some (a, e) → -149 ≤ e
theorem wideDist_distV {x y : FVal} (hx : Wide x) (hy : Wide y) : WideDist (distV x y) := by
  cases x with
  | nan => exact fun _ _ h => nomatch h
  | inf n =>
    cases y with
    | nan => exact fun _ _ h => nomatch h
    | inf k =>
      intro a e h
      unfold distV at h
      dsimp only at h
      split at h
      · obtain ⟨-, rfl⟩ := Prod.mk.inj (Option.some.inj h)
        decide
      · exact nomatch h
    | num => exact fun _ _ h => nomatch h
  | num n m e =>
    cases y with
    | nan => exact fun _ _ h => nomatch h
    | inf => exact fun _ _ h => nomatch h
    | num k p q =>
      rintro a g h
      obtain ⟨-, rfl⟩ := Prod.mk.inj (Option.some.inj h)
      exact le_min (hx n m e rfl) (hy k p q rfl)
theorem distLt_iff {p q : Option (Nat × Int)} (hp : WideDist p) (hq : WideDist q) : distLt p q = true ↔ farness p < farness q := by
  cases p with
  | none => exact ⟨fun h => (nomatch h), fun h => absurd h not_top_lt⟩
  | some d =>
    obtain ⟨a, ea⟩ := d
    cases q with
    | none => exact ⟨fun _ => WithTop.coe_lt_top _, fun _ => rfl⟩
    | some d =>
      obtain ⟨b, eb⟩ := d
      have hg : -149 ≤ min ea eb := le_min (hp a ea rfl) (hq b eb rfl)
      show decide ((units a ea (min ea eb) : Int) + -(units b eb (min ea eb) : Int) < 0) = true ↔
        WithTop.some (units a ea (-149)) < WithTop.some (units b eb (-149))
      rw [decide_eq_true_eq, WithTop.coe_lt_coe, units_lt_units a b (hp a ea rfl) (hq b eb rfl),
        ← units_lt_units a b (min_le_left ea eb) (min_le_right ea eb)]
      omega
theorem farness_distV (k n : Bool) (p m : Nat) {q e : Int} (hq : -149 ≤ q) (he : -149 ≤ e) :
    farness (distV (.num k p q) (.num n m e)) = WithTop.some (valueAt (-149) (.num k p q) - valueAt (-149) (.num n m e)).natAbs := by
  rw [← addExact_not k n p m hq he, Int.natAbs_mul, Int.natAbs_pow]
  rfl
theorem farness_distV_lt_top {v : FVal} {n : Bool} {m : Nat} {e : Int} (h : farness (distV v (.num n m e)) < ⊤) : ∃ k p q, v = .num k p q := by
  cases v with
  | nan => exact absurd h (lt_irrefl _)
  | inf => exact absurd h (lt_irrefl _)
  | num k p q => exact ⟨k, p, q, rfl⟩

/-! ### The branches of the encoding -/

section
variable (t : DTab)
def nanScan : Option Nat := scanCodes (fun c => (dtabVal t c).isNan) (fun _ _ => false) 256
def realScan (better : Nat → Nat → Bool) : Option Nat := scanCodes (fun c => !(dtabVal t c).isNan) better 256
def zeroScan (n : Bool) : Option Nat := scanCodes (fun c => (dtabVal t c).isZero && (dtabVal t c).neg == n) (fun _ _ => false) 256
theorem nanScan_getD_lt : (nanScan t).getD 0 < 256 := by unfold nanScan; exact scanCodes_getD_lt _ _ (by decide)
theorem realScan_getD_lt (better : Nat → Nat → Bool) : (realScan t better).getD 0 < 256 := by
  unfold realScan; exact scanCodes_getD_lt _ _ (by decide)
/-- A code's entry lies beyond another's on a side. -/
def beyondBy (o : Ordering) (c b : Nat) : Bool := cmpV (dtabVal t c) (dtabVal t b) == some o
/-- A code's entry lies nearer to a value than another's. -/
def nearerTo (x : FVal) (c b : Nat) : Bool := distLt (distV (dtabVal t c) x) (distV (dtabVal t b) x)
theorem realScan_ne_none (better : Nat → Nat → Bool) (h : ∃ c < 256, (dtabVal t c).isNan = false) : ∃ b, realScan t better = some b := by
  obtain ⟨c, hc, hn⟩ := h
  exact exists_scanCodes _ ⟨c, hc, by rw [hn]; rfl⟩
/-- The extreme entry on a side. -/
theorem realScan_beyond {o : Ordering} (ho : o ≠ .eq) {b : Nat} (h : realScan t (beyondBy t o) = some b) :
    b < 256 ∧ (dtabVal t b).isNan = false ∧ ∀ c < 256, cmpV (dtabVal t c) (dtabVal t b) ≠ some o ∧
      (c < b → (dtabVal t c).isNan = false → cmpV (dtabVal t c) (dtabVal t b) = some o.swap) := by
  have hcmp (c d : Nat) (hc : (dtabVal t c).isNan = false) (hd : (dtabVal t d).isNan = false) :=
    cmpV_eq (wide_dtabVal t c) (wide_dtabVal t d) hc hd
  have hnone (c d : Nat) (hc : (dtabVal t c).isNan = true) : cmpV (dtabVal t c) (dtabVal t d) = none := by
    cases hv : dtabVal t c with
    | nan => rfl
    | inf => rw [hv] at hc; exact nomatch hc
    | num => rw [hv] at hc; exact nomatch hc
  have hok (c : Nat) : (!(dtabVal t c).isNan) = true ↔ (dtabVal t c).isNan = false := by cases (dtabVal t c).isNan <;> simp
  cases o with
  | eq => exact absurd rfl ho
  | lt =>
    obtain ⟨hlt, hb, hle, hlow⟩ := scanCodes_some (fun c => place (dtabVal t c)) (fun c d hc hd => by
      rw [hok] at hc hd
      rw [beyondBy, hcmp c d hc hd, beq_iff_eq, Option.some_inj, compare_lt_iff_lt]) h
    rw [hok] at hb
    refine ⟨hlt, hb, fun c hc => ⟨?_, fun hcb hcn => ?_⟩⟩
    · cases hcn : (dtabVal t c).isNan with
      | true => rw [hnone c b hcn]; nofun
      | false =>
        rw [hcmp c b hcn hb, ne_eq, Option.some_inj, compare_lt_iff_lt, not_lt]
        exact hle c hc ((hok c).2 hcn)
    · rw [hcmp c b hcn hb, Option.some_inj]
      exact compare_gt_iff_gt.2 (hlow c hcb ((hok c).2 hcn))
  | gt =>
    obtain ⟨hlt, hb, hle, hlow⟩ := scanCodes_some (fun c => OrderDual.toDual (place (dtabVal t c))) (fun c d hc hd => by
      rw [hok] at hc hd
      rw [beyondBy, hcmp c d hc hd, beq_iff_eq, Option.some_inj, compare_gt_iff_gt, OrderDual.toDual_lt_toDual]) h
    rw [hok] at hb
    refine ⟨hlt, hb, fun c hc => ⟨?_, fun hcb hcn => ?_⟩⟩
    · cases hcn : (dtabVal t c).isNan with
      | true => rw [hnone c b hcn]; nofun
      | false =>
        rw [hcmp c b hcn hb, ne_eq, Option.some_inj, compare_gt_iff_gt, not_lt]
        exact hle c hc ((hok c).2 hcn)
    · rw [hcmp c b hcn hb, Option.some_inj]
      exact compare_lt_iff_lt.2 (hlow c hcb ((hok c).2 hcn))
/-- The entry nearest to a number. -/
theorem realScan_nearest {n : Bool} {m : Nat} {e : Int} (he : -149 ≤ e) {b : Nat} (h : realScan t (nearerTo t (.num n m e)) = some b)
    (hnum : ∃ c < 256, ∃ k p q, dtabVal t c = .num k p q) :
    let val := valueAt (-149)
    ∃ k p q, dtabVal t b = .num k p q ∧ ∀ c < 256, ∀ k' p' q', dtabVal t c = .num k' p' q' →
      (val (.num k p q) - val (.num n m e)).natAbs ≤ (val (.num k' p' q') - val (.num n m e)).natAbs ∧
      (c < b → (val (.num k p q) - val (.num n m e)).natAbs < (val (.num k' p' q') - val (.num n m e)).natAbs) := by
  have hwide (c : Nat) : WideDist (distV (dtabVal t c) (.num n m e)) := by
    refine wideDist_distV (wide_dtabVal t c) ?_
    rintro _ _ _ h
    obtain ⟨rfl, rfl, rfl⟩ := FVal.num.inj h
    exact he
  obtain ⟨-, -, hle, hlow⟩ := scanCodes_some (fun c => farness (distV (dtabVal t c) (.num n m e))) (fun c d _ _ => distLt_iff (hwide c) (hwide d)) h
  have hreal {c : Nat} {k p q} (hv : dtabVal t c = .num k p q) : (!(dtabVal t c).isNan) = true := by rw [hv]; rfl
  have hfar {c : Nat} {k p q} (hv : dtabVal t c = .num k p q) := farness_distV k n p m (wide_dtabVal t c k p q hv) he
  have hfin : farness (distV (dtabVal t b) (.num n m e)) < ⊤ := by
    obtain ⟨c, hc, k, p, q, hv⟩ := hnum
    refine lt_of_le_of_lt (hle c hc (hreal hv)) ?_
    rw [hv, hfar hv]
    exact WithTop.coe_lt_top _
  obtain ⟨k, p, q, hv⟩ := farness_distV_lt_top hfin
  refine ⟨k, p, q, hv, fun c hc k' p' q' hv' => ⟨?_, fun hcb => ?_⟩⟩
  · have := hle c hc (hreal hv')
    rw [hv, hv', hfar hv, hfar hv', WithTop.coe_le_coe] at this
    exact this
  · have := hlow c hcb (hreal hv')
    rw [hv, hv', hfar hv, hfar hv', WithTop.coe_lt_coe] at this
    exact this

/-! ### The encoding by the kind of the value -/

variable {a : W32}
theorem venc_nan_some (hx : (f32 a).isNan = true) {c : Nat} (h : nanScan t = some c) : venc t a = (c, 0) := by
  unfold venc
  dsimp only
  rw [if_pos hx]
  unfold nanScan at h
  rw [h]
theorem venc_nan_none (hx : (f32 a).isNan = true) (h : nanScan t = none) : venc t a = ((realScan t (beyondBy t .gt)).getD 0, 16) := by
  unfold venc
  dsimp only
  rw [if_pos hx]
  unfold nanScan at h
  rw [h]
  rfl
theorem venc_none (hx : (f32 a).isNan = false) (h : realScan t (fun _ _ => false) = none) : venc t a = ((nanScan t).getD 0, 16) := by
  unfold venc
  dsimp only
  rw [if_neg (by rw [hx]; decide)]
  unfold realScan at h
  rw [h]
  rfl
theorem venc_inf {n : Bool} (hx : f32 a = .inf n) {b c : Nat} (h : realScan t (fun _ _ => false) = some b)
    (hc : realScan t (beyondBy t (if n then .lt else .gt)) = some c) :
    venc t a = (c, flIf (cmpV (dtabVal t c) (.inf n) != some .eq) flNX) := by
  unfold venc
  dsimp only
  unfold realScan at h
  rw [hx, if_neg nofun, h]
  unfold realScan beyondBy at hc
  show ((scanCodes _ _ 256).getD 0, flIf (cmpV (dtabVal t ((scanCodes _ _ 256).getD 0)) _ != _) _) = _
  simp only [if_true]
  rw [show (FVal.inf n).neg = n from rfl, hc]
  rfl
theorem venc_zero {n : Bool} {m : Nat} {e : Int} (hx : f32 a = .num n m e) {b c : Nat} (h : realScan t (fun _ _ => false) = some b)
    (hm : m = 0) (hc : zeroScan t n = some c) : venc t a = (c, 0) := by
  unfold venc
  dsimp only
  unfold realScan at h
  unfold zeroScan at hc
  rw [hx, if_neg nofun, h]
  dsimp only
  rw [if_pos (by rw [FVal.isZero_num]; exact decide_eq_true hm), show (FVal.num n m e).neg = n from rfl, hc]
theorem venc_nearest {n : Bool} {m : Nat} {e : Int} (hx : f32 a = .num n m e) {b c : Nat} (h : realScan t (fun _ _ => false) = some b)
    (hm : m = 0 → zeroScan t n = none) (hc : realScan t (nearerTo t (.num n m e)) = some c) :
    venc t a = (c, flIf (cmpV (dtabVal t c) (.num n m e) != some .eq) flNX) := by
  have hs : (if (FVal.num n m e).isZero then zeroScan t n else none) = none := by
    rw [FVal.isZero_num]
    split
    · exact hm (of_decide_eq_true ‹_›)
    · rfl
  unfold venc
  dsimp only
  unfold realScan at h
  unfold zeroScan at hs
  rw [hx, if_neg nofun, h]
  dsimp only
  rw [show (FVal.num n m e).neg = n from rfl, hs]
  unfold realScan nearerTo at hc
  dsimp only
  simp only [Bool.false_eq_true, if_false]
  rw [hc]
  rfl
end
end Sys2Proof.Machine
end

section
/-! PROOFS OF THE SCOPE. The encoding as R63 gives it, and the obligation on rounding. -/
namespace Sys2Proof.Machine
open Spec
theorem nanScan_none_iff {t : DTab} : nanScan t = none ↔ ∀ c < 256, (dtabVal t c).isNan = false := scanCodes_none
theorem nanScan_first {t : DTab} {c : Nat} (h : nanScan t = some c) :
    c < 256 ∧ (dtabVal t c).isNan = true ∧ ∀ d < c, (dtabVal t d).isNan = false := scanCodes_first h
theorem venc_lt (t : DTab) (a : W32) : (venc t a).1 < 256 := by
  cases hx : (f32 a).isNan with
  | true =>
    cases hn : nanScan t with
    | none => rw [venc_nan_none t hx hn]; dsimp only; exact realScan_getD_lt t _
    | some c => rw [venc_nan_some t hx hn]; exact scanCodes_lt hn
  | false =>
    cases hr : realScan t (fun _ _ => false) with
    | none => rw [venc_none t hx hr]; dsimp only; exact nanScan_getD_lt t
    | some b =>
      have hreal : ∃ c < 256, (dtabVal t c).isNan = false := by
        obtain ⟨hb, hok, -⟩ := scanCodes_first hr
        exact ⟨b, hb, by simpa using hok⟩
      cases hv : f32 a with
      | nan => rw [hv] at hx; exact nomatch hx
      | inf n =>
        obtain ⟨c, hc⟩ := realScan_ne_none t (beyondBy t (if n then .lt else .gt)) hreal
        rw [venc_inf t hv hr hc]
        exact scanCodes_lt hc
      | num n m e =>
        by_cases hz : m = 0 ∧ ∃ c, zeroScan t n = some c
        · obtain ⟨hm, c, hc⟩ := hz
          rw [venc_zero t hv hr hm hc]
          exact scanCodes_lt hc
        · obtain ⟨c, hc⟩ := realScan_ne_none t (nearerTo t (.num n m e)) hreal
          rw [venc_nearest t hv hr (fun hm => Option.eq_none_iff_forall_ne_some.2 fun c hc => hz ⟨hm, c, hc⟩) hc]
          exact scanCodes_lt hc
/-- NX is raised when two numbers differ. -/
theorem flIf_cmpV_num {k n : Bool} {p m : Nat} {q e : Int} (hx : Wide (.num k p q)) (hy : Wide (.num n m e)) :
    flIf (cmpV (.num k p q) (.num n m e) != some .eq) flNX =
      if valueAt (-149) (.num k p q) = valueAt (-149) (.num n m e) then 0 else 1 := by
  rw [cmpV_eq hx hy rfl rfl, place_num, place_num]
  by_cases h : valueAt (-149) (.num k p q) = valueAt (-149) (.num n m e)
  · rw [if_pos h, h, compare_eq_iff_eq.2 rfl]; rfl
  · rw [if_neg h]
    generalize valueAt (-149) (.num k p q) = u at *
    generalize valueAt (-149) (.num n m e) = v at *
    have hne : compare ((u : WithTop Int) : WithBot (WithTop Int)) ((v : WithTop Int) : WithBot (WithTop Int)) ≠ .eq :=
      mt compare_eq_iff_eq.1 fun h' => h (WithTop.coe_inj.1 (WithBot.coe_inj.1 h'))
    rw [show (some (compare _ _) != some Ordering.eq) = true by simpa using hne]
    rfl
theorem tableEncoding : Spec.TableEncoding := by
  intro t a x en r val
  refine ⟨venc_lt t a, fun hx hnan => ?_, fun hx hnan => ?_, fun hx hnan => ?_, fun n hx hreal => ?_, fun n m e hx => ⟨?_, ?_⟩⟩
  · -- a NaN, with a NaN entry
    obtain ⟨c, hc⟩ : ∃ c, nanScan t = some c := exists_scanCodes _ hnan
    obtain ⟨-, hcn, hlow⟩ := nanScan_first hc
    have hr : r = (c, 0) := venc_nan_some t hx hc
    rw [hr]
    exact ⟨hcn, hlow, rfl⟩
  · -- a NaN, without
    obtain ⟨b, hb⟩ := realScan_ne_none t (beyondBy t .gt) ⟨0, by decide, hnan 0 (by decide)⟩
    obtain ⟨hlt, -, hbest⟩ := realScan_beyond t (by decide) hb
    have hr : r = (b, 16) := by
      rw [show r = _ from venc_nan_none t hx (nanScan_none_iff.2 hnan), hb]; rfl
    rw [hr]
    exact ⟨rfl, fun c hc => ⟨(hbest c hc).1, fun hcb => (hbest c hc).2 hcb (hnan c hc)⟩⟩
  · -- a table of NaNs
    have hreal : realScan t (fun _ _ => false) = none := scanCodes_none.2 fun c hc => by
      rw [show (dtabVal t c).isNan = true from hnan c hc]; rfl
    have hfirst : nanScan t = some 0 := scanCodes_eq_first (by decide) (hnan 0 (by decide)) fun c hc => absurd hc (Nat.not_lt_zero c)
    rw [show r = _ from venc_none t hx hreal, hfirst]
    rfl
  · -- an infinity
    obtain ⟨b, hb⟩ := realScan_ne_none t (fun _ _ => false) hreal
    obtain ⟨c, hc⟩ := realScan_ne_none t (beyondBy t (if n then .lt else .gt)) hreal
    obtain ⟨-, hcn, hbest⟩ := realScan_beyond t (by cases n <;> decide) hc
    have hr : r = _ := venc_inf t hx hb hc
    rw [hr]
    refine ⟨hcn, fun d hd => (hbest d hd).1, ?_⟩
    show flIf (cmpV (dtabVal t c) (.inf n) != some .eq) flNX = if cmpV (dtabVal t c) (f32 a) = some .eq then 0 else 1
    rw [show f32 a = .inf n from hx]
    by_cases hq : cmpV (dtabVal t c) (.inf n) = some .eq
    · rw [if_pos hq, hq]; rfl
    · have : (cmpV (dtabVal t c) (.inf n) != some .eq) = true := by simpa using hq
      rw [if_neg hq, this]; rfl
  · -- a zero with a zero entry of its sign
    intro k hk hm hz hneg hlow
    have hnan : (dtabVal t k).isNan = false := by
      cases hv : dtabVal t k with
      | nan => rw [show en k = _ from hv] at hz; exact nomatch hz
      | inf => rfl
      | num => rfl
    obtain ⟨b, hb⟩ := realScan_ne_none t (fun _ _ => false) ⟨k, hk, hnan⟩
    have hc : zeroScan t n = some k := by
      refine scanCodes_eq_first hk ?_ fun c hc => Bool.eq_false_of_not_eq_true fun h => hlow c hc ?_
      · rw [show (dtabVal t k).isZero = true from hz, show (dtabVal t k).neg = n from hneg]; simp
      · rw [Bool.and_eq_true, beq_iff_eq] at h
        exact h
    exact venc_zero t hx hb hm hc
  · -- any other number
    intro hzero hnum
    obtain ⟨d, hd, k0, p0, q0, hv0⟩ := id hnum
    have hreal : ∃ c < 256, (dtabVal t c).isNan = false := ⟨d, hd, by rw [show dtabVal t d = _ from hv0]; rfl⟩
    obtain ⟨b, hb⟩ := realScan_ne_none t (fun _ _ => false) hreal
    obtain ⟨c, hc⟩ := realScan_ne_none t (nearerTo t (.num n m e)) hreal
    have he : -149 ≤ e := wide_f32 a n m e hx
    have hz : m = 0 → zeroScan t n = none := fun hm => scanCodes_none.2 fun c hc => Bool.eq_false_of_not_eq_true fun h => by
      rw [Bool.and_eq_true, beq_iff_eq] at h
      exact hzero hm c hc h
    obtain ⟨k, p, q, hv, hbest⟩ := realScan_nearest t he hc hnum
    have hr : r = _ := venc_nearest t hx hb hz hc
    rw [hr]
    refine ⟨k, p, q, hv, ?_, hbest⟩
    have hwide : Wide (.num n m e) := hx ▸ wide_f32 a
    have hwide' : Wide (.num k p q) := hv ▸ wide_dtabVal t c
    show flIf (cmpV (dtabVal t c) _ != _) flNX = _
    rw [hv, flIf_cmpV_num hwide' hwide]
    rfl

/-- Settles O60: a rounding truncates to the format's spacing and takes the next magnitude as its mode asks, which is compared with
every neighbour in rational numbers; a quotient's sticky bit keeps it on the side of each neighbour that the quotient is on. -/
theorem roundingAndSaturation : Obligations.RoundingAndSaturation :=
  ⟨rounding, stochasticRounding, exactOperations, tableEncoding, blockSums⟩
end Sys2Proof.Machine
end

section
/-! PROOFS OF THE SCOPE. Integer results: registers, division, immediates, compares and predicates (R77 to R83). -/
namespace Sys2Proof.Machine
open State Sys2Proof.Spec

/-! ### Words as numbers -/

theorem sx32_eq (w : Word) : sx32 w = (w.setWidth 32).signExtend 64 := by
  unfold sx32; rw [BitVec.setWidth_eq_extractLsb' (by decide)]
theorem shamt_eq (b : Word) : shamt b = b.toNat % 64 := by
  unfold shamt fld; rw [Nat.pow_zero, Nat.div_one]; rfl
theorem ror64_eq (a : Word) {n : Nat} (h : n < 64) : ror64 a n = (a >>> n) ||| (a <<< ((64 - n) % 64)) := by
  unfold ror64
  rw [BitVec.rotateRight_def, Nat.mod_eq_of_lt h]
  by_cases h0 : n = 0
  · simp [h0]
  · rw [Nat.mod_eq_of_lt (by omega)]
theorem immU_eq (u : BitVec 20) : immU u = ((u.setWidth 32) <<< 12).signExtend 64 := by
  unfold immU
  congr 1
  apply BitVec.eq_of_toNat_eq
  have := u.isLt
  rw [BitVec.toNat_append, BitVec.toNat_shiftLeft, BitVec.toNat_setWidth, Nat.shiftLeft_eq, Nat.shiftLeft_eq]
  change u.toNat * 2 ^ 12 ||| 0 = _
  rw [Nat.or_zero]
  omega
theorem highHalf_eq (p : Int) : highHalf p = BitVec.ofInt 64 (p / 2 ^ 64) := by
  unfold highHalf
  apply BitVec.eq_of_toNat_eq
  rw [BitVec.extractLsb'_toNat, BitVec.toNat_ofInt, BitVec.toNat_ofInt, Nat.shiftRight_eq_div_pow]
  omega
theorem highHalf_natCast (n : Nat) : highHalf (n : Int) = BitVec.ofNat 64 (n / 2 ^ 64) := by
  rw [highHalf_eq, ← BitVec.ofInt_natCast]
  rfl
/-- Of equal values either one is the lesser and the greater: the model tests `<` where R77's table has `≤`. -/
theorem ite_lt_eq_ite_le {α : Type} [LinearOrder α] {f : Word → α} (hf : f.Injective) (x y : Word) :
    (if f x < f y then x else y) = (if f x ≤ f y then x else y) ∧ (if f x < f y then y else x) = if f x ≤ f y then y else x := by
  rcases lt_trichotomy (f x) (f y) with h | h | h
  · rw [if_pos h, if_pos h.le, if_pos h, if_pos h.le]; exact ⟨rfl, rfl⟩
  · rw [hf h]; simp
  · rw [if_neg h.not_gt, if_neg h.not_ge, if_neg h.not_gt, if_neg h.not_ge]; exact ⟨rfl, rfl⟩
theorem toInt_injective : Function.Injective (BitVec.toInt : Word → Int) := fun _ _ h => BitVec.eq_of_toInt_eq h
theorem toNat_injective : Function.Injective (BitVec.toNat : Word → Nat) := fun _ _ h => BitVec.eq_of_toNat_eq h
theorem ite_slt (x y a b : Word) : (if x.slt y then a else b) = if x.toInt < y.toInt then a else b := by
  simp only [BitVec.slt_iff_toInt_lt]
theorem not_slt (x y : Word) : (!x.slt y) = decide (y.toInt ≤ x.toInt) := by
  rw [BitVec.slt, ← decide_not]; exact decide_eq_decide.2 Int.not_lt
theorem not_ult (x y : Word) : (!x.ult y) = decide (y.toNat ≤ x.toNat) := by
  rw [BitVec.ult, ← decide_not]; exact decide_eq_decide.2 Nat.not_lt

/-! ### Counts of bits (R77) -/

/-- The zero bits above the highest one bit. -/
theorem clz64_spec (x : Word) : clz64 x ≤ 64 ∧ (∀ i < clz64 x, x.getLsbD (63 - i) = false) ∧ (clz64 x < 64 → x.getLsbD (63 - clz64 x) = true) := by
  unfold clz64
  by_cases h0 : x = 0
  · rw [if_pos h0, h0]
    exact ⟨Nat.le_refl _, fun i _ => BitVec.getLsbD_zero, fun h => absurd h (Nat.lt_irrefl _)⟩
  · have hne : x.toNat ≠ 0 := fun h => h0 (BitVec.eq_of_toNat_eq h)
    have hlt : log2 x.toNat < 64 := (Nat.log2_lt hne).2 x.isLt
    rw [if_neg h0]
    refine ⟨by omega, fun i hi => ?_, fun _ => ?_⟩
    · exact Nat.testBit_lt_two_pow (Nat.lt_of_lt_of_le Nat.lt_log2_self (Nat.pow_le_pow_right (by decide) (by unfold log2 at hi; omega)))
    · rw [show 63 - (63 - log2 x.toNat) = log2 x.toNat by omega]
      exact Nat.testBit_log2 hne
/-- A word and its negation have the lowest one bit in common, and no other. -/
theorem and_neg_eq_twoPow {x : Word} {k : Nat} (hk : x.getLsbD k = true) (hlow : ∀ i < k, x.getLsbD i = false) : x &&& -x = BitVec.twoPow 64 k := by
  apply BitVec.eq_of_getLsbD_eq
  intro i hi
  have hbelow : (∃ j < i, x.getLsbD j = true) ↔ k < i := by
    refine ⟨fun ⟨j, hj, hx⟩ => ?_, fun h => ⟨k, h, hk⟩⟩
    by_contra hki
    rw [hlow j (by omega)] at hx
    cases hx
  have hkw : k < 64 := BitVec.lt_of_getLsbD hk
  rw [BitVec.getLsbD_and, BitVec.getLsbD_neg, BitVec.getLsbD_twoPow, decide_eq_true hi, decide_eq_true hkw, Bool.true_and, Bool.true_and,
    decide_eq_decide.2 hbelow]
  rcases lt_trichotomy i k with h | rfl | h
  · rw [hlow i h, decide_eq_false (show ¬ k = i by omega)]; rfl
  · rw [hk]; simp
  · rw [decide_eq_true h, decide_eq_false (show ¬ k = i by omega)]; cases x.getLsbD i <;> rfl
/-- The zero bits below the lowest one bit. -/
theorem ctz64_spec (x : Word) : ctz64 x ≤ 64 ∧ (∀ i < ctz64 x, x.getLsbD i = false) ∧ (ctz64 x < 64 → x.getLsbD (ctz64 x) = true) := by
  unfold ctz64
  by_cases h0 : x = 0
  · rw [if_pos h0, h0]
    exact ⟨Nat.le_refl _, fun i _ => BitVec.getLsbD_zero, fun h => absurd h (Nat.lt_irrefl _)⟩
  · have hex : ∃ k, x.getLsbD k = true := by
      by_contra h
      push Not at h
      exact h0 (BitVec.eq_of_getLsbD_eq fun i _ => (Bool.eq_false_iff.2 (h i)).trans BitVec.getLsbD_zero.symm)
    have hk := Nat.find_spec hex
    have hlow : ∀ i < Nat.find hex, x.getLsbD i = false := fun i hi => by simpa using Nat.find_min hex hi
    have hkw : Nat.find hex < 64 := BitVec.lt_of_getLsbD hk
    have hlog : log2 (x &&& -x).toNat = Nat.find hex := by
      rw [and_neg_eq_twoPow hk hlow, BitVec.toNat_twoPow, Nat.mod_eq_of_lt (Nat.pow_lt_pow_right (by decide) hkw)]
      exact Nat.log2_two_pow
    rw [if_neg h0, hlog]
    exact ⟨hkw.le, hlow, fun _ => hk⟩
theorem popCount_eq (n v : Nat) : popCount n v = ((List.range n).filter fun i => v.testBit i).length := by
  induction n generalizing v with
  | zero => rfl
  | succ n ih =>
    rw [popCount, ih, List.range_succ_eq_map, List.filter_cons, List.filter_map, Nat.testBit_zero]
    have e : ((fun i => v.testBit i) ∘ Nat.succ) = fun i => (v / 2).testBit i := funext fun i => Nat.testBit_succ v i
    rw [e]
    by_cases h : v % 2 = 1 <;> simp [h] <;> omega

/-! ### Instructions by what they put into a register (R77 to R80, R83) -/

section
variable {s : State} {l : List (BitVec 5)} {d p : BitVec 5} {i : Instr}
/-- An instruction that puts a value into x[d] completes with it when its ports are ready. -/
theorem exec_putX {v w : Word} (h : Ready s l d) (hx : exec i s = s.putX l d v) (hv : v = w) : exec i s = .next (wrote s l d w) := by
  rw [hx, hv]; exact putX_ready w h
/-- An instruction that marks a predicate bit completes with it when its ports are ready. -/
theorem exec_putS_mark {v w : Bool} (h : Ready s l 0) (hx : exec i s = s.putS l fun t => t.wp p v) (hv : v = w) :
    exec i s = .next (marked s l p w) := by
  rw [hx, hv]; exact putS_mark p w h
end

theorem registerResults : Spec.IntegerResults := by
  intro s d a b h x y n put
  have hn : shamt y = n := shamt_eq y
  have signed := ite_lt_eq_ite_le toInt_injective x y
  have unsigned := ite_lt_eq_ite_le toNat_injective x y
  have done {i : Instr} {v w : Word} (hx : exec i s = s.putX [a, b] d v) (hv : v = w) : exec i s = put w := exec_putX h hx hv
  refine ⟨done rfl rfl, done rfl rfl, done rfl rfl, done rfl rfl, done rfl rfl, done rfl rfl, done rfl rfl, ?_, ?_, ?_, ?_,
    done rfl (sx32_eq _), done rfl (sx32_eq _), done rfl rfl, done rfl (highHalf_eq _), ?_, done rfl (highHalf_eq _), ?_, ?_, ?_, ?_⟩
  · exact done rfl (congrArg (x <<< ·) hn)
  · exact done rfl (congrArg (x >>> ·) hn)
  · exact done rfl (congrArg x.sshiftRight hn)
  · exact done rfl ((congrArg (ror64 x) hn).trans (ror64_eq x (Nat.mod_lt _ (by decide))))
  · exact done rfl (highHalf_natCast (x.toNat * y.toNat))
  · exact done rfl ((ite_slt x y x y).trans signed.1)
  · exact done rfl ((ite_slt x y y x).trans signed.2)
  · exact done rfl unsigned.1
  · exact done rfl unsigned.2

theorem unaryResults : Spec.UnaryResults := by
  intro s d a h x put
  have done {i : Instr} {v w : Word} (hx : exec i s = s.putX [a] d v) (hv : v = w) : exec i s = put w := exec_putX h hx hv
  refine ⟨⟨clz64 x, done rfl rfl, clz64_spec x⟩, ⟨ctz64 x, done rfl rfl, ctz64_spec x⟩, done rfl (congrArg w64 (popCount_eq 64 x.toNat)),
    done rfl (congrArg (BitVec.signExtend 64) ?_), done rfl (congrArg (BitVec.signExtend 64) ?_), done rfl (sx32_eq _),
    done rfl (congrArg (BitVec.setWidth 64) ?_)⟩ <;> exact (BitVec.setWidth_eq_extractLsb' (by decide)).symm

theorem immediateResults : Spec.ImmediateResults := by
  intro s d a im n u h x put sxi zxi up
  have done {i : Instr} {v w : Word} (hx : exec i s = s.putX [a] d v) (hv : v = w) : exec i s = put w := exec_putX h hx hv
  have bare {i : Instr} {v w : Word} (hx : exec i s = s.putX [] d v) (hv : v = w) : exec i s = .next (wrote s [] d w) :=
    exec_putX ⟨fun _ hr => (nomatch hr), h.2⟩ hx hv
  exact ⟨done rfl rfl, done rfl rfl, done rfl rfl, done rfl rfl, done rfl (sx32_eq _), done rfl rfl, done rfl rfl, done rfl rfl,
    done rfl (ror64_eq x n.isLt), bare rfl (immU_eq u), bare rfl (congrArg (s.me.pc + ·) (immU_eq u))⟩

theorem compareResults : Spec.CompareResults := by
  intro s p a b im x
  constructor
  · intro h y put
    have done {i : Instr} {v w : Bool} (hx : exec i s = s.putS [a, b] fun t => t.wp p v) (hv : v = w) : exec i s = put w :=
      exec_putS_mark h hx hv
    exact ⟨done rfl rfl, done rfl (decide_not (p := x = y)).symm, done rfl rfl, done rfl rfl, done rfl (not_slt x y), done rfl (not_ult x y)⟩
  · intro h y put
    have done {i : Instr} {v w : Bool} (hx : exec i s = s.putS [a] fun t => t.wp p v) (hv : v = w) : exec i s = put w :=
      exec_putS_mark h hx hv
    exact ⟨done rfl rfl, done rfl (decide_not (p := x = y)).symm, done rfl rfl, done rfl rfl, done rfl (not_slt x y), done rfl (not_ult x y)⟩

/-! ### Predicates (R82, R83) -/

namespace State
theorem stepBlock_regs (b : Berth) (k : Block) :
    (stepBlock b k).x = b.x ∧ (stepBlock b k).f = b.f ∧ (stepBlock b k).v = b.v ∧ (stepBlock b k).p = b.p := by
  unfold stepBlock
  dsimp only
  split
  · exact ⟨rfl, rfl, rfl, rfl⟩
  · split <;> exact ⟨rfl, rfl, rfl, rfl⟩
/-- A completion leaves the registers and predicates of its berth. -/
theorem next_me_regs (s : State) (lat : Nat) : (s.next lat).me.x = s.me.x ∧ (s.next lat).me.f = s.me.f ∧
    (s.next lat).me.v = s.me.v ∧ (s.next lat).me.p = s.me.p := by
  unfold next
  dsimp only
  split
  · have same {t : State} (h : t.me = s.me) : t.me.x = s.me.x ∧ t.me.f = s.me.f ∧ t.me.v = s.me.v ∧ t.me.p = s.me.p := by
      rw [h]; exact ⟨rfl, rfl, rfl, rfl⟩
    exact same (Eq.trans (b := s.retire.me) (berthAt_modCore _ _ _ _ _ fun _ => by rfl) (retire_me s))
  · rw [me_modMe, retire_me]
    cases s.me.rpt with
    | none => exact ⟨rfl, rfl, rfl, rfl⟩
    | some k => exact stepBlock_regs s.me k
end State
/-- PSET P: every predicate bit but p0, which stays 1. -/
theorem exec_psetP {s : State} {a : BitVec 5} (h : Ready s [a] 0) :
    ∃ t, exec (.psetP a) s = .next t ∧ t.me.p = (s.rx a).extractLsb' 0 32 ||| 1 := by
  refine ⟨_, putS_ready (l := [a]) (fun t => t.modMe fun b => { b with p := (s.rx a).extractLsb' 0 32 ||| 1 }) h.1, ?_⟩
  obtain ⟨-, -, -, hp⟩ := next_me_regs ((s.pops [a]).modMe fun b => { b with p := (s.rx a).extractLsb' 0 32 ||| 1 }) 8
  rw [hp, me_modMe]

theorem predicateResults : Spec.PredicateResults := by
  intro s pd pa pb d a b i
  have bare {j : Instr} {v w : Bool} (hx : exec j s = s.putS [] fun t => t.wp pd v) (hv : v = w) : exec j s = .next (marked s [] pd w) :=
    exec_putS_mark (ready_none s) hx hv
  refine ⟨bare rfl rfl, bare rfl rfl, bare rfl rfl, bare rfl rfl, bare rfl rfl, fun h => ⟨?_, ?_⟩, fun h => exec_putX h rfl rfl,
    fun h => exec_putX h rfl rfl⟩
  · exact exec_putS_mark h rfl (decide_not (p := s.rx a = 0)).symm
  · obtain ⟨t, ht, hp⟩ := exec_psetP h
    refine ⟨t, ht, fun k hk => ?_, ?_⟩
    · have hk0 : k.toNat ≠ 0 := bitVec5_toNat_ne hk
      rw [rp_of_ne_zero t hk, hp, BitVec.getLsbD_or, BitVec.getLsbD_extractLsb', BitVec.ofNat_eq_ofNat, BitVec.getLsbD_one]
      simp [k.isLt, hk0]
    · rw [hp, BitVec.getLsbD_or]; exact Bool.or_true _

/-- Settles O4, group by group: each instruction puts its result, and the result is the tabled one. -/
theorem integerResults : Obligations.IntegerResults :=
  ⟨registerResults, unaryResults, immediateResults, compareResults, predicateResults⟩

/-! ### Division (R78) -/

theorem remS_eq (x y : Word) : remS x y = if y = 0 then x else if x = 0x8000000000000000 ∧ y = 0xFFFFFFFFFFFFFFFF then 0
    else BitVec.ofInt 64 (x.toInt - x.toInt.tdiv y.toInt * y.toInt) := by
  unfold remS
  rw [Int.tmod_def, Int.mul_comm y.toInt]
  by_cases h : x = 0x8000000000000000 ∧ y = 0xFFFFFFFFFFFFFFFF
  · rw [h.1, h.2]; rfl
  · rw [if_neg h]
theorem divS_eq (x y : Word) : divS x y = if y = 0 then 0xFFFFFFFFFFFFFFFF else if x = 0x8000000000000000 ∧ y = 0xFFFFFFFFFFFFFFFF then x
    else BitVec.ofInt 64 (x.toInt.tdiv y.toInt) := by
  unfold divS
  by_cases h : x = 0x8000000000000000 ∧ y = 0xFFFFFFFFFFFFFFFF
  · rw [h.1, h.2]; rfl
  · rw [if_neg h]; rfl
theorem remU_eq (x y : Word) : remU x y = if y = 0 then x else BitVec.ofNat 64 (x.toNat - x.toNat / y.toNat * y.toNat) := by
  unfold remU
  rw [Nat.mod_eq_sub_div_mul]; rfl

/-- Settles O2: each form puts the model's quotient or remainder, and these are R78's. -/
theorem divisionResults : Obligations.DivisionResults := by
  intro s d a b h x y put low ones
  exact ⟨exec_putX h rfl (divS_eq x y), exec_putX h rfl (remS_eq x y), exec_putX h rfl rfl, exec_putX h rfl (remU_eq x y)⟩
end Sys2Proof.Machine
end

section
/-! PROOFS OF THE SCOPE. Branches and jumps (R84). -/
namespace Sys2Proof.Machine
open State Sys2Proof.Spec

/-! ### Targets -/

theorem fld_target (t : Word) : fld t 52 12 = 0 ↔ t.toNat < 2 ^ 52 := by
  have := t.isLt
  unfold fld
  omega
theorem goTo_inside (s : State) {t : Word} (h : t.toNat < 2 ^ 52) : goTo s t = .ok (s.jump t) := if_neg (not_not.2 ((fld_target t).2 h))
theorem goTo_outside (s : State) {t : Word} (h : 2 ^ 52 ≤ t.toNat) : goTo s t = stop .fetch t :=
  if_pos fun h0 => absurd ((fld_target t).1 h0) (Nat.not_lt.2 h)
section
variable (s : State) (srcs : List (BitVec 5)) (d : BitVec 5) {t : Word}
theorem goLinked_inside (h : t.toNat < 2 ^ 52) : goLinked s srcs d t =
    .ok (s.done 8 { srcs := srcs, writes := [(d.toNat, s.me.pc + 4)], pc := some t }) := if_neg (not_not.2 ((fld_target t).2 h))
theorem goLinked_outside (h : 2 ^ 52 ≤ t.toNat) : goLinked s srcs d t = stop .fetch t :=
  if_pos fun h0 => absurd ((fld_target t).1 h0) (Nat.not_lt.2 h)
variable {d}
/-- A link into a register is written at once, and the jump made. -/
theorem done_linked (hd : d.toNat < 24) : s.done 8 { srcs := srcs, writes := [(d.toNat, s.me.pc + 4)], pc := some t } =
    ((s.pops srcs).wx d (s.me.pc + 4)).jump t := by
  rw [done_jump (by simpa [pushes] using hd) (Nat.le_refl 8) rfl]
  simp [put]
end

/-! ### Behind the checks -/

section
variable {s : State} {d a : BitVec 5}
theorem exec_jal (oj : BitVec 20) (h : Ready s [] d) : exec (.jal d oj) s = s.finish (goLinked s [] d (s.me.pc + 4 * oj.signExtend 64)) := by
  show s.finish _ = _
  rw [checkOut_ok h.2]; rfl
variable (im : BitVec 15) (h : Ready s [a] d)
include h
theorem exec_jalr_aligned (h4 : (s.rx a + im.signExtend 64).toNat % 4 = 0) :
    exec (.jalr d a im) s = s.finish (goLinked s [a] d (s.rx a + im.signExtend 64)) := by
  have h0 : fld (s.rx a + immS im) 0 2 = 0 := by unfold fld; rw [Nat.pow_zero, Nat.div_one]; exact h4
  show s.finish _ = _
  rw [checkPorts_ok h]
  exact congrArg s.finish (if_neg (not_not.2 h0))
theorem exec_jalr_misaligned (h4 : (s.rx a + im.signExtend 64).toNat % 4 ≠ 0) :
    exec (.jalr d a im) s = s.finish (stop .align (s.rx a + im.signExtend 64)) := by
  have h0 : fld (s.rx a + immS im) 0 2 ≠ 0 := by unfold fld; rw [Nat.pow_zero, Nat.div_one]; exact h4
  show s.finish _ = _
  rw [checkPorts_ok h]
  exact congrArg s.finish (if_pos h0)
end
section
variable {s : State} {p : BitVec 5} (o : BitVec 19)
theorem exec_bpT_taken (h : s.rp p = true) : exec (.bpT p o) s = s.finish (goTo s (s.me.pc + 4 * o.signExtend 64)) :=
  congrArg s.finish (if_pos h)
theorem exec_bpT_untaken (h : s.rp p = false) : exec (.bpT p o) s = .next s.next := congrArg s.finish (if_neg (by simp [h]))
theorem exec_bpF_taken (h : s.rp p = false) : exec (.bpF p o) s = s.finish (goTo s (s.me.pc + 4 * o.signExtend 64)) :=
  congrArg s.finish (if_neg (by simp [h]))
theorem exec_bpF_untaken (h : s.rp p = true) : exec (.bpF p o) s = .next s.next := congrArg s.finish (if_pos h)
end

theorem jumps : Spec.Jumps := by
  intro s d a p ob oj im tb tj tr
  refine ⟨fun h ht => ?_, exec_bpT_untaken ob, fun h ht => ?_, exec_bpF_untaken ob, fun ht => ?_, fun h ht => ?_, fun h h4 ht => ?_⟩
  · rw [exec_bpT_taken ob h, goTo_inside s ht]; rfl
  · rw [exec_bpF_taken ob h, goTo_inside s ht]; rfl
  · exact congrArg s.finish (goTo_inside s ht)
  · have e : exec (.jal d oj) s = .next (s.done 8 { writes := [(d.toNat, s.me.pc + 4)], pc := some tj }) := by
      rw [exec_jal oj h, goLinked_inside s [] d ht]; rfl
    exact ⟨e, fun hd => e.trans (congrArg _ (done_linked s [] hd))⟩
  · have e : exec (.jalr d a im) s = .next (s.done 8 { srcs := [a], writes := [(d.toNat, s.me.pc + 4)], pc := some tr }) := by
      rw [exec_jalr_aligned im h h4, goLinked_inside s [a] d ht]; rfl
    exact ⟨e, fun hd => e.trans (congrArg _ (done_linked s [a] hd))⟩

theorem jumpTraps : Spec.JumpTraps := by
  intro s d a p ob oj im hb tb tj tr
  have trap {i : Instr} {r : Run State} {c : Cause} {v : Word} (hx : exec i s = s.finish r) (hr : r = stop c v) :
      exec i s = .next (trapped s c v) := by rw [hx, hr]; exact finish_trap s c v hb
  exact ⟨fun h ht => trap (exec_bpT_taken ob h) (goTo_outside s ht), fun h ht => trap (exec_bpF_taken ob h) (goTo_outside s ht),
    fun ht => trap rfl (goTo_outside s ht), fun h ht => trap (exec_jal oj h) (goLinked_outside s [] d ht),
    fun h h4 => trap (exec_jalr_misaligned im h h4) rfl, fun h h4 ht => trap (exec_jalr_aligned im h h4) (goLinked_outside s [a] d ht)⟩

/-- Settles O5: a target inside the 52 bits of an address is jumped to, one outside traps. -/
theorem jumpTargetsAndTraps : Obligations.JumpTargetsAndTraps := ⟨jumps, jumpTraps⟩
end Sys2Proof.Machine
end

section
/-! PROOFS OF THE SCOPE. Scalar floating point: forms, signs and classes (R85 to R92). -/
namespace Sys2Proof.Machine
open State Sys2Proof.Spec

/-! ### What the forms write -/

/-- An instruction that writes f[d] and raises flags completes. -/
theorem putF_eq (s : State) (d : BitVec 4) (r : W32 × Flags) : putF s d r = .next (floated s [] d r) := rfl
theorem putP_eq (s : State) (p : BitVec 5) (r : Bool × Flags) : putP s p r = .next (marked s [] p r.1 r.2) := rfl
/-- One that reads an x register completes when it may be read. -/
theorem putS_float {s : State} {a : BitVec 5} (d : BitVec 4) (r : W32 × Flags) (h : Ready s [a] 0) :
    s.putS [a] (fun t => (t.wf d r.1).flag r.2) = .next (floated s [a] d r) := putS_ready _ h.1
theorem putX_flags {s : State} {d : BitVec 5} (v : Word) (fl : Flags) (h : Ready s [] d) :
    s.putX [] d v fl = .next (wrote (s.flag fl) [] d v) := by
  unfold putX
  rw [checkPorts_ok h]; rfl
theorem fld_low16 (x : W32) : fld x 0 16 = x.toNat % 65536 := by
  unfold fld; rw [Nat.pow_zero, Nat.div_one]; rfl

theorem floatForms : Spec.FloatResults := by
  intro s d a b c p x y z e put yes
  have float {i : Instr} {r q : W32 × Flags} (hx : exec i s = putF s d r) (hr : r = q) : exec i s = put q := by rw [hx, hr]; rfl
  have mark {i : Instr} {r : Bool × Flags} (hx : exec i s = putP s p r) : exec i s = yes r := hx
  exact ⟨float rfl rfl, float rfl rfl, float rfl rfl, float rfl rfl, float rfl rfl, float rfl rfl, float rfl rfl, float rfl rfl, float rfl rfl,
    float rfl rfl, float rfl rfl, float rfl rfl, float rfl rfl, mark rfl, mark rfl, mark rfl, mark rfl, float rfl rfl,
    float rfl (congrArg (fun n => w32 (widen bf16 n)) (fld_low16 x)), float rfl rfl,
    float rfl (congrArg (fun n => w32 (widen fp16 n)) (fld_low16 x))⟩

theorem floatMoves : Spec.FloatMoves := by
  intro s fd fa d a
  have low : (s.rx a).extractLsb' 0 32 = (s.rx a).setWidth 32 := (BitVec.setWidth_eq_extractLsb' (by decide)).symm
  refine ⟨fun h => ⟨exec_putX h rfl rfl, exec_putX h rfl rfl, putX_flags _ _ h, putX_flags _ _ h⟩, fun h => ⟨?_, ?_, putS_float fd _ h⟩⟩
  · rw [← low]
    refine (putS_ready (fun t => t.wf fd ((s.rx a).extractLsb' 0 32)) h.1).trans ?_
    unfold floated
    rw [flag_zero]
  · rw [← low]; exact putS_float fd _ h

/-! ### Signs and classes by the fields of an FP32 word (R87, R88) -/

section
variable {x : W32}
theorem f32_inf (he : x.toNat / 2 ^ 23 % 256 = 255) (hm : x.toNat % 2 ^ 23 = 0) : f32 x = .inf (x.getLsbD 31) := by
  rw [f32_eq]
  dsimp only
  rw [if_pos he, if_pos hm]
theorem f32_nan (he : x.toNat / 2 ^ 23 % 256 = 255) (hm : x.toNat % 2 ^ 23 ≠ 0) : f32 x = .nan (!x.getLsbD 22) := by
  have hbit : x.getLsbD 22 = !decide (x.toNat % 2 ^ 23 < 2 ^ 22) := by
    rw [BitVec.getLsbD, Nat.testBit_eq_decide_div_mod_eq, ← decide_not, decide_eq_decide]
    omega
  rw [f32_eq, hbit]
  dsimp only
  rw [if_pos he, if_neg hm, Bool.not_not]
theorem f32_subnormal (he : x.toNat / 2 ^ 23 % 256 = 0) : f32 x = .num (x.getLsbD 31) (x.toNat % 2 ^ 23) (-149) := by
  rw [f32_eq]
  dsimp only
  rw [he]; rfl
theorem f32_normal (h1 : x.toNat / 2 ^ 23 % 256 ≠ 255) (h0 : x.toNat / 2 ^ 23 % 256 ≠ 0) :
    f32 x = .num (x.getLsbD 31) (2 ^ 23 + x.toNat % 2 ^ 23) ((x.toNat / 2 ^ 23 % 256 : Nat) - 150) := by
  rw [f32_eq]
  dsimp only
  rw [if_neg h1, if_neg h0]
/-- A word that is no NaN is an infinity or a number of its sign. -/
theorem f32_real (h : ¬ (x.toNat / 2 ^ 23 % 256 = 255 ∧ x.toNat % 2 ^ 23 ≠ 0)) :
    f32 x = .inf (x.getLsbD 31) ∨ ∃ m e, f32 x = .num (x.getLsbD 31) m e := by
  by_cases he : x.toNat / 2 ^ 23 % 256 = 255
  · exact .inl (f32_inf he (not_not.1 fun hm => h ⟨he, hm⟩))
  · by_cases h0 : x.toNat / 2 ^ 23 % 256 = 0
    · exact .inr ⟨_, _, f32_subnormal h0⟩
    · exact .inr ⟨_, _, f32_normal he h0⟩
end
/-- A sign before the low 31 bits of a word. -/
theorem sign_append (x : W32) (sign : Bool) : BitVec.ofBool sign ++ x.extractLsb' 0 31 = (x &&& 0x7FFFFFFF) ||| (if sign then 0x80000000 else 0) := by
  apply BitVec.eq_of_toNat_eq
  have hx : (x &&& 0x7FFFFFFF).toNat = x.toNat % 2 ^ 31 := by
    rw [BitVec.toNat_and]; exact Nat.and_two_pow_sub_one_eq_mod x.toNat 31
  rw [BitVec.toNat_append, BitVec.toNat_or, hx, BitVec.extractLsb'_toNat, Nat.shiftRight_zero, Nat.or_comm]
  cases sign <;> rfl
theorem fSgnj_eq (sign : Bool → Bool → Bool) (x y : W32) : fSgnj sign x y =
    if x.toNat / 2 ^ 23 % 256 = 255 ∧ x.toNat % 2 ^ 23 ≠ 0 then
      (0x7FC00000, if (x.toNat / 2 ^ 23 % 256 = 255 ∧ x.toNat % 2 ^ 23 ≠ 0) ∧ x.getLsbD 22 = false then 16 else 0)
    else ((x &&& 0x7FFFFFFF) ||| (if sign (x.getLsbD 31) (y.getLsbD 31) then 0x80000000 else 0), 0) := by
  unfold fSgnj
  dsimp only
  rw [sign_append]
  by_cases h : x.toNat / 2 ^ 23 % 256 = 255 ∧ x.toNat % 2 ^ 23 ≠ 0
  · rw [if_pos h, f32_nan h.1 h.2, show (if _ ∧ x.getLsbD 22 = false then (16 : Flags) else 0) = if x.getLsbD 22 = false then 16 else 0 from
      if_congr (and_iff_right h) rfl rfl]
    cases x.getLsbD 22 <;> rfl
  · rw [if_neg h]
    obtain hx | ⟨m, e, hx⟩ := f32_real h <;> rw [hx] <;> rfl
theorem fClass_eq (x : W32) : fClass x =
    if x.toNat / 2 ^ 23 % 256 = 255 then
      (if x.toNat % 2 ^ 23 = 0 then (if x.getLsbD 31 then 0 else 7) else if x.getLsbD 22 then 9 else 8)
    else if x.toNat / 2 ^ 23 % 256 = 0 then (if x.toNat % 2 ^ 23 = 0 then (if x.getLsbD 31 then 3 else 4) else if x.getLsbD 31 then 2 else 5)
    else if x.getLsbD 31 then 1 else 6 := by
  unfold fClass
  by_cases he : x.toNat / 2 ^ 23 % 256 = 255
  · rw [if_pos he]
    by_cases hm : x.toNat % 2 ^ 23 = 0
    · rw [if_pos hm, f32_inf he hm]
    · rw [if_neg hm, f32_nan he hm]
      cases x.getLsbD 22 <;> rfl
  · rw [if_neg he]
    by_cases h0 : x.toNat / 2 ^ 23 % 256 = 0
    · rw [if_pos h0, f32_subnormal h0]
      exact if_congr Iff.rfl rfl (if_pos (Nat.mod_lt _ (Nat.two_pow_pos 23)))
    · rw [if_neg h0, f32_normal he h0]
      exact (if_neg (by omega)).trans (if_neg (by omega))

theorem floatSigns : Spec.FloatSigns := by
  intro s d a b x sa sb nan signalling put
  have sgn {i : Instr} {sign : Bool → Bool → Bool} (hx : exec i s = putF s d (fSgnj sign x (s.rf b))) : exec i s = put (sign sa sb) := by
    rw [hx, fSgnj_eq]; rfl
  exact ⟨sgn (sign := fun _ v => v) rfl, sgn (sign := fun _ v => !v) rfl, sgn (sign := fun u v => u != v) rfl⟩
theorem floatClasses : Spec.FloatClasses := by
  intro s d a h x e m neg cls
  exact exec_putX h rfl (congrArg (fun c => w64 (2 ^ c)) (fClass_eq x))

/-- Settles O58: both are read off the fields of FP32's encoding. -/
theorem signsAndClasses : Obligations.SignsAndClasses := ⟨floatSigns, floatClasses⟩
end Sys2Proof.Machine
end

section
/-! PROOFS OF THE SCOPE. Comparisons, minima and maxima of FP32 words (R55, R66, R86, R90). -/
namespace Sys2Proof.Machine
open State Sys2Proof.Spec

/-! ### The order of values -/

section
variable {x y : FVal}
theorem below_real (h : Below x y) : x.isNan = false ∧ y.isNan = false := by
  cases x with
  | nan => exact h.elim
  | inf => cases y with
    | nan => exact h.elim
    | inf => exact ⟨rfl, rfl⟩
    | num => exact ⟨rfl, rfl⟩
  | num => cases y with
    | nan => exact h.elim
    | inf => exact ⟨rfl, rfl⟩
    | num => exact ⟨rfl, rfl⟩
/-- A smaller number stands before a greater one. -/
theorem below_iff_place (hx : Wide x) (hy : Wide y) (hxn : x.isNan = false) (hyn : y.isNan = false) : Below x y ↔ place x < place y := by
  cases x with
  | nan => exact nomatch hxn
  | inf n =>
    cases y with
    | nan => exact nomatch hyn
    | inf k => cases n <;> cases k <;> simp [Below, place]
    | num k p q => cases n <;> simp [Below, place]
  | num n m e =>
    cases y with
    | nan => exact nomatch hyn
    | inf k =>
      cases k
      · exact iff_of_true rfl (WithBot.coe_lt_coe.2 (WithTop.coe_lt_top _))
      · exact iff_of_false Bool.noConfusion not_lt_bot
    | num k p q =>
      have hg : -149 ≤ min e q := le_min (hx n m e rfl) (hy k p q rfl)
      have hpos : (0 : Int) < 2 ^ (min e q - -149).toNat := by positivity
      rw [place_num, place_num, WithBot.coe_lt_coe, WithTop.coe_lt_coe, valueAt_num (-149) n hg (min_le_left e q),
        valueAt_num (-149) k hg (min_le_right e q), mul_lt_mul_iff_left₀ hpos]
      rfl
theorem cmpV_nan (h : x.isNan = true ∨ y.isNan = true) : cmpV x y = none := by
  cases x with
  | nan => rfl
  | inf => cases y with
    | nan => rfl
    | inf => simp [FVal.isNan] at h
    | num => simp [FVal.isNan] at h
  | num => cases y with
    | nan => rfl
    | inf => simp [FVal.isNan] at h
    | num => simp [FVal.isNan] at h
theorem isSig_real (h : x.isNan = false) : x.isSig = false := by
  cases x with
  | nan => exact nomatch h
  | inf => rfl
  | num => rfl
end
section
variable (a b : W32)
/-- What a comparison of two words comes to, by their order. -/
theorem cmpV_cases : (((f32 a).isNan || (f32 b).isNan) = true ∧ cmpV (f32 a) (f32 b) = none) ∨
    ((f32 a).isNan = false ∧ (f32 b).isNan = false ∧ cmpV (f32 a) (f32 b) = some (compare (place (f32 a)) (place (f32 b)))) := by
  cases hx : (f32 a).isNan
  · cases hy : (f32 b).isNan
    · exact .inr ⟨rfl, rfl, cmpV_eq (wide_f32 a) (wide_f32 b) hx hy⟩
    · exact .inl ⟨rfl, cmpV_nan (.inr hy)⟩
  · exact .inl ⟨rfl, cmpV_nan (.inl hx)⟩
theorem below_f32 (ha : (f32 a).isNan = false) (hb : (f32 b).isNan = false) : Below (f32 a) (f32 b) ↔ place (f32 a) < place (f32 b) :=
  below_iff_place (wide_f32 a) (wide_f32 b) ha hb
/-- Neither of two words is below the other with a NaN. -/
theorem not_below_nan (h : ((f32 a).isNan || (f32 b).isNan) = true) : ¬ Below (f32 a) (f32 b) := fun hlt => by
  obtain ⟨h1, h2⟩ := below_real hlt
  rw [h1, h2] at h
  cases h
theorem fCmpLt_iff : (fCmpLt a b).1 = true ↔ Below (f32 a) (f32 b) := by
  unfold fCmpLt
  obtain ⟨hn, hc⟩ | ⟨ha, hb, hc⟩ := cmpV_cases a b <;> rw [hc]
  · exact iff_of_false Bool.noConfusion (not_below_nan a b hn)
  · rw [below_f32 a b ha hb, ← compare_lt_iff_lt]; exact beq_iff_eq.trans (Option.some_inj)
theorem fCmpEq_iff : (fCmpEq a b).1 = true ↔
    ((f32 a).isNan || (f32 b).isNan) = false ∧ ¬ Below (f32 a) (f32 b) ∧ ¬ Below (f32 b) (f32 a) := by
  unfold fCmpEq
  obtain ⟨hn, hc⟩ | ⟨ha, hb, hc⟩ := cmpV_cases a b <;> rw [hc]
  · exact iff_of_false Bool.noConfusion fun h => by rw [hn] at h; cases h.1
  · rw [below_f32 a b ha hb, below_f32 b a hb ha, not_lt, not_lt, ha, hb, and_iff_right (Bool.or_false false), and_comm, ← le_antisymm_iff]
    exact beq_iff_eq.trans (Option.some_inj.trans compare_eq_iff_eq)
theorem fCmpLe_iff : (fCmpLe a b).1 = true ↔ ((f32 a).isNan || (f32 b).isNan) = false ∧ ¬ Below (f32 b) (f32 a) := by
  unfold fCmpLe
  dsimp only
  obtain ⟨hn, hc⟩ | ⟨ha, hb, hc⟩ := cmpV_cases a b <;> rw [hc]
  · exact iff_of_false Bool.noConfusion fun h => by rw [hn] at h; cases h.1
  · rw [below_f32 b a hb ha, ha, hb, and_iff_right (Bool.or_false false), ← compare_gt_iff_gt]
    cases compare (place (f32 a)) (place (f32 b)) <;> decide
end

/-! ### The lesser and the greater -/

/-- With one operand below the other, the order in which they are given does not matter. -/
theorem fMinMax_below {a b : W32} (h : Below (f32 a) (f32 b)) : fMinMax false a b = (a, 0) ∧ fMinMax false b a = (a, 0) ∧
    fMinMax true a b = (b, 0) ∧ fMinMax true b a = (b, 0) := by
  obtain ⟨ha, hb⟩ := below_real h
  have hlt := (below_f32 a b ha hb).1 h
  have h1 : cmpV (f32 a) (f32 b) = some .lt := by rw [cmpV_eq (wide_f32 a) (wide_f32 b) ha hb, compare_lt_iff_lt.2 hlt]
  have h2 : cmpV (f32 b) (f32 a) = some .gt := by rw [cmpV_eq (wide_f32 b) (wide_f32 a) hb ha, compare_gt_iff_gt.2 hlt]
  unfold fMinMax
  simp [ha, hb, h1, h2, isSig_real ha, isSig_real hb, flIf]
theorem fMinMax_self {a : W32} (mx : Bool) (h : (f32 a).isNan = false) : fMinMax mx a a = (a, 0) := by
  unfold fMinMax
  simp [h, isSig_real h, flIf]
theorem fMinMax_nan_nan {a b : W32} (mx : Bool) (ha : (f32 a).isNan = true) (hb : (f32 b).isNan = true) :
    fMinMax mx a b = (0x7FC00000, if (f32 a).isSig || (f32 b).isSig then 16 else 0) := by
  unfold fMinMax
  dsimp only
  rw [ha, hb]; rfl
theorem fMinMax_nan_left {a b : W32} (mx : Bool) (ha : (f32 a).isNan = true) (hb : (f32 b).isNan = false) :
    fMinMax mx a b = (b, if (f32 a).isSig || (f32 b).isSig then 16 else 0) := by
  unfold fMinMax
  dsimp only
  rw [ha, hb]; rfl
theorem fMinMax_nan_right {a b : W32} (mx : Bool) (ha : (f32 a).isNan = false) (hb : (f32 b).isNan = true) :
    fMinMax mx a b = (a, if (f32 b).isSig || (f32 a).isSig then 16 else 0) := by
  unfold fMinMax
  dsimp only
  rw [ha, hb, Bool.or_comm (f32 b).isSig]; rfl

theorem comparisons : Spec.Comparisons := by
  intro a b mx x y nan nv
  refine ⟨fCmpLt_iff a b, fCmpLe_iff a b, fCmpEq_iff a b, rfl, rfl, rfl, rfl, rfl, fMinMax_nan_nan mx,
    fun ha hb => ⟨fMinMax_nan_left mx ha hb, fMinMax_nan_right mx hb ha⟩, fMinMax_below, fMinMax_self mx, ?_, ?_⟩ <;> cases mx <;> decide
end Sys2Proof.Machine
end

section
/-! PROOFS OF THE SCOPE. Conversions (R55, R65 to R67). -/
namespace Sys2Proof.Machine
open State Sys2Proof.Spec

/-! ### A number to an integer -/

/-- The model's test of a rounding, in whole parts: rem of 2^k are left over n. -/
theorem roundUp_iff {mode : Rm} (hsr : mode ≠ .sr) (neg : Bool) (n rem k draw : Nat) :
    (towardZero mode neg = true → ¬ (rem ≠ 0 ∧ roundUp mode neg n rem k draw = true)) ∧
    (towardZero mode neg = false → mode ≠ .rne → (rem ≠ 0 ∧ roundUp mode neg n rem k draw = true ↔ rem ≠ 0)) ∧
    (mode = .rne → (rem ≠ 0 ∧ roundUp mode neg n rem k draw = true ↔ 2 ^ k < 2 * rem ∨ 2 * rem = 2 ^ k ∧ n % 2 = 1)) := by
  have hk : (0 : ℚ) < 2 ^ k := by positivity
  obtain ⟨htz, haw, hne⟩ := upBy_roundUp hsr neg n (rem := rem) (k := k) draw rfl
  refine ⟨htz, fun h hm => (haw h hm).trans ?_, fun hm => (hne hm).trans (or_congr ?_ (and_congr_left fun _ => ?_))⟩
  · rw [div_pos_iff_of_pos_right hk, Nat.cast_pos, Nat.pos_iff_ne_zero]
  · rw [div_lt_div_iff₀ (by norm_num) hk, one_mul, mul_comm (rem : ℚ)]; exact_mod_cast Iff.rfl
  · rw [div_eq_div_iff hk.ne' (by norm_num), one_mul, mul_comm (rem : ℚ)]; exact_mod_cast Iff.rfl
/-- The whole number that a mode rounds m * 2^e to. -/
def wholeBy (mode : Rm) (neg : Bool) (m : Nat) (e : Int) : Nat :=
  if leftPart m e 0 ≠ 0 ∧ roundUp mode neg (wholePart m e 0) (leftPart m e 0) (0 - e).toNat 0 = true then wholePart m e 0 + 1 else wholePart m e 0
/-- It is what R64 says, in units of the finer of m's exponent and 1. -/
theorem wholeBy_spec {mode : Rm} (hsr : mode ≠ .sr) (neg : Bool) (m : Nat) (e : Int) :
    let X := units m e (min e 0)
    let U := units 1 0 (min e 0)
    let k := wholeBy mode neg m e
    (towardZero mode neg = true → k * U ≤ X ∧ X < (k + 1) * U) ∧
    (towardZero mode neg = false → mode ≠ .rne → X ≤ k * U ∧ k * U < X + U) ∧
    (mode = .rne → 2 * X ≤ (2 * k + 1) * U ∧ 2 * k * U ≤ 2 * X + U ∧ (2 * X = (2 * k + 1) * U ∨ 2 * k * U = 2 * X + U → k % 2 = 0)) ∧
    (X = k * U ↔ leftPart m e 0 = 0) := by
  intro X U k
  obtain ⟨htz, haw, hne⟩ := roundUp_iff hsr neg (wholePart m e 0) (leftPart m e 0) (0 - e).toNat 0
  have hX : wholePart m e 0 * 2 ^ (0 - e).toNat + leftPart m e 0 = X := wholePart_leftPart m e 0
  have hU : U = 2 ^ (0 - e).toNat := units_one e 0
  have hlt := leftPart_lt m e 0
  have hk : k = if _ then _ else _ := rfl
  rw [← hU] at hX hlt hne
  generalize wholePart m e 0 = n at *
  generalize leftPart m e 0 = r at *
  have h2 : 2 * k * U = 2 * (k * U) := Nat.mul_assoc 2 k U
  have h3 : (2 * k + 1) * U = 2 * (k * U) + U := by rw [Nat.succ_mul, h2]
  have h4 : (k + 1) * U = k * U + U := Nat.succ_mul k U
  rw [h2, h3, h4, ← hX]
  by_cases hup : r ≠ 0 ∧ roundUp mode neg n r (0 - e).toNat 0 = true
  · rw [if_pos hup] at hk
    have hkU : k * U = n * U + U := by rw [hk, Nat.succ_mul]
    rw [hkU]
    refine ⟨fun h => absurd hup (htz h), fun h hm => ⟨by omega, by omega⟩, fun hm => ?_, by omega⟩
    have := (hne hm).1 hup
    omega
  · rw [if_neg hup] at hk
    rw [hk]
    refine ⟨fun _ => ⟨by omega, by omega⟩, fun h hm => ?_, fun hm => ?_, by omega⟩
    · have := mt (haw h hm).2 hup
      omega
    · have := mt (hne hm).2 hup
      omega
theorem toInt_num {w : Nat} (mode : Rm) {a : W32} {n : Bool} {m : Nat} {e : Int} (h : f32 a = .num n m e) :
    let lo : Int := -(2 ^ (w - 1) : Nat)
    let hi : Int := (2 ^ (w - 1) : Nat) - 1
    let v := signed n (wholeBy mode n m e)
    toInt w mode a = if v < lo then (lo, 16) else if hi < v then (hi, 16) else (v, if leftPart m e 0 = 0 then 0 else 1) := by
  intro lo hi v
  have hv : v = sgn n (wholeBy mode n m e) := rfl
  have hfl : flIf (decide (leftPart m e 0 ≠ 0)) flNX = if leftPart m e 0 = 0 then 0 else 1 := by
    by_cases h0 : leftPart m e 0 = 0 <;> simp [h0, flIf, flNX]
  rw [← hfl, hv]
  unfold toInt wholeBy wholePart leftPart
  rw [h, Int.zero_sub, Int.sub_zero]
  rfl

/-! ### Widening is exact (R67) -/

namespace Fmt
/-- The exponent field of a number is not above that of the largest finite one. -/
theorem exponent_le {f : Fmt} (hf : f.Sound) {ef : Nat} (hlt : ef < 2 ^ f.ew) (hs : f.special = .ieee → ef ≠ 2 ^ f.ew - 1) :
    ef ≤ f.maxBits / 2 ^ f.mw := by
  obtain ⟨-, -, hieee, hone⟩ := maxBits_fields hf
  cases h : f.special with
  | ieee => rw [hieee h]; have := hs h; omega
  | oneNan => rw [(hone h).1]; omega
  | none =>
    have hmul : ef * 2 ^ f.mw + 2 ^ f.mw ≤ 2 ^ (f.ew + f.mw) := by
      rw [← Nat.succ_mul, Nat.pow_add]; exact Nat.mul_le_mul_right _ hlt
    have hp := Nat.two_pow_pos f.mw
    unfold maxBits
    rw [h, Nat.le_div_iff_mul_le hp]
    dsimp only
    omega
/-- The mantissa and the exponent of a number that a pattern encodes. -/
theorem decode_num {f : Fmt} (hf : f.Sound) {b : Nat} {n : Bool} {m : Nat} {e : Int} (h : f.decode b = .num n m e) :
    m < 2 ^ (f.mw + 1) ∧ f.qmin ≤ e ∧ e ≤ f.qmax := by
  have hlt : b / 2 ^ f.mw % 2 ^ f.ew < 2 ^ f.ew := Nat.mod_lt _ (Nat.two_pow_pos _)
  have hm : b % 2 ^ f.mw < 2 ^ f.mw := Nat.mod_lt _ (Nat.two_pow_pos _)
  have h2 : 2 ^ (f.mw + 1) = 2 ^ f.mw * 2 := Nat.pow_succ _ _
  have hq := qmin_le_qmax hf
  unfold decode at h
  dsimp only at h
  generalize (b / 2 ^ (f.ew + f.mw) % 2 == 1) = neg at *
  generalize b / 2 ^ f.mw % 2 ^ f.ew = ef at *
  generalize b % 2 ^ f.mw = x at *
  have finite (hle : ef ≤ f.maxBits / 2 ^ f.mw)
      (hx : (if ef = 0 then FVal.num neg x f.qmin else .num neg (2 ^ f.mw + x) (f.qOf ef)) = .num n m e) :
      m < 2 ^ (f.mw + 1) ∧ f.qmin ≤ e ∧ e ≤ f.qmax := by
    split at hx <;> obtain ⟨-, rfl, rfl⟩ := FVal.num.inj hx
    · exact ⟨by omega, le_refl _, hq⟩
    · refine ⟨by omega, ?_, ?_⟩
      · unfold qmin qOf; omega
      · unfold qmax qOf; omega
  have hle := exponent_le hf hlt
  cases hs : f.special <;> rw [hs] at h hle <;> dsimp only at h
  · split at h
    · split at h <;> cases h
    · rename_i hne
      exact finite (hle fun _ => hne) h
  · split at h
    · cases h
    · exact finite (hle nofun) h
  · exact finite (hle nofun) h
end Fmt
/-- A number of a narrow format is a number of FP32 of at most 24 bits. -/
theorem narrow_num {f : Fmt} (hf : f ∈ [fp16, bf16, e4m3, e5m2, e2m1]) {b : Nat} {n : Bool} {m : Nat} {e : Int} (h : f.decode b = .num n m e) :
    m < 2 ^ (f.mw + 1) ∧ f.mw ≤ 10 ∧ -149 ≤ e ∧ e + f.mw ≤ 127 := by
  obtain ⟨hm, hlo, hhi⟩ := Fmt.decode_num (Fmt.sound_of_mem (List.mem_cons_of_mem _ hf)) h
  have range : f.mw ≤ 10 ∧ -149 ≤ f.qmin ∧ f.qmax + f.mw ≤ 127 := by
    simp only [List.mem_cons, List.not_mem_nil, or_false] at hf
    obtain rfl | rfl | rfl | rfl | rfl := hf <;> decide
  omega
/-- Such a number is FP32's own: its rounding is exact. -/
theorem roundTo_fp32_exact (n : Bool) {m : Nat} {e : Int} (hm : m ≠ 0) (hlt : m < 2 ^ 24) (he : -149 ≤ e) (htop : e + log2 m ≤ 127) :
    let q := spacing fp32 m e
    q ≤ e ∧ fp32.InRange (m * 2 ^ (e - q).toNat) q ∧ roundTo fp32 .rne false n m e = (fp32.encode n (m * 2 ^ (e - q).toNat) q, 0) := by
  intro q
  have hlog : log2 m < 24 := (Nat.log2_lt hm).2 hlt
  have hq : q = max (e + log2 m - 23) (-149) := rfl
  have hqe : q ≤ e := by omega
  have hwhole : wholePart m e q = m * 2 ^ (e - q).toNat := if_pos hqe
  have hleft : leftPart m e q = 0 := if_pos hqe
  have hn := wholePart_lt fp32 hm (show e + log2 m - fp32.mw ≤ q from le_max_left _ _)
  have hnorm := (trunc_of_le fp32 hm (show fp32.qmin ≤ q from le_max_right _ _) ((max_choice _ _).symm.imp id le_of_eq)).norm
  have hr : fp32.InRange (wholePart m e q) q := by
    refine ⟨hn, le_max_right _ _, ?_, hnorm, fun _ => ?_⟩
    · rw [show fp32.qmax = 104 by decide]; omega
    · rw [show fp32.maxMant = 2 ^ 24 - 1 by decide]; exact Nat.le_pred_of_lt hn
  rw [← hwhole]
  refine ⟨hqe, hr, ?_⟩
  rw [roundTo_eq fp32 .rne false n hm, if_neg (by decide)]
  dsimp only
  rw [show spacing fp32 m e = q from rfl, hleft, if_neg (fun h => h.1 rfl)]
  obtain ⟨q1, n1, hc, -, -, hend⟩ | ⟨hb, -⟩ := endRound_cases fp32 .rne false n (decide ((0 : Nat) ≠ 0)) hr.lo hr.norm (.inl hn.le)
  · rw [hend]
    cases hc with
    | same => rw [fitFlags_eq]; rfl
    | carry h => exact absurd h hn.ne
  · rcases hb with hb | ⟨hb, hM⟩
    · exact absurd hr.hi (not_le.2 hb)
    · exact absurd (hr.max hb) (not_le.2 hM)
theorem widen_num {f : Fmt} (hf : f ∈ [fp16, bf16, e4m3, e5m2, e2m1]) {b : Nat} {n : Bool} {m : Nat} {e : Int} (h : f.decode b = .num n m e) :
    (widen f b).2 = 0 ∧ ∃ k p, fp32.decode (widen f b).1 = .num n k p ∧ units k p (min e p) = units m e (min e p) := by
  have hw : widen f b = ((roundTo fp32 .rne false n m e).1, 0) := by unfold widen; rw [h]
  rw [hw]
  refine ⟨rfl, ?_⟩
  by_cases hm : m = 0
  · rw [hm, roundTo_zero]
    exact ⟨0, fp32.qmin, (Fmt.decode_sign Fmt.sound_fp32 n).1, by unfold units; rw [Nat.zero_mul, Nat.zero_mul]⟩
  · obtain ⟨hlt, hmw, he, htop⟩ := narrow_num hf h
    have hlog : log2 m < f.mw + 1 := (Nat.log2_lt hm).2 hlt
    obtain ⟨hq, hr, hround⟩ := roundTo_fp32_exact n hm (hlt.trans_le (Nat.pow_le_pow_right (by decide) (by omega))) he (by omega)
    rw [hround]
    refine ⟨_, _, (Fmt.decode_encode Fmt.sound_fp32 n hr).1, ?_⟩
    rw [min_eq_right hq]
    unfold units
    rw [Int.sub_self]
    exact Nat.mul_one _

/-! ### Into a narrow format (R65, R66) -/

section
variable (f : Fmt) (mode : Rm) (sat : Bool) (draw : Nat)
theorem convert_nan (g : Bool) : convert f mode sat (.nan g) draw = (f.qnan, if g = true ∨ f.special = .none then 16 else 0) := by
  unfold convert flIf
  dsimp only
  simp only [Bool.or_eq_true, beq_iff_eq]
  rfl
theorem convert_inf (n : Bool) : convert f mode sat (.inf n) draw =
    if f.special = .none then (f.sign n + f.maxBits, 21)
    else if sat = true then (f.sign n + f.maxBits, 5)
    else if f.special = .ieee then (f.sign n + f.infBits, 0) else (f.qnan, 5) := by
  unfold convert
  cases f.special <;> cases sat <;> rfl
theorem convert_num (n : Bool) (m : Nat) (e : Int) :
    let r := roundTo f mode sat n m e draw
    convert f mode sat (.num n m e) draw = (r.1, if f.special = .none ∧ r.2 &&& 4 ≠ 0 then r.2 ||| 16 else r.2) := by
  intro r
  have hover : (f.special == .none && r.2 &&& flOF != 0) = true ↔ f.special = .none ∧ r.2 &&& 4 ≠ 0 := by simp [flOF]
  show (r.1, r.2 ||| (if (f.special == .none && r.2 &&& flOF != 0) = true then flNV else 0)) = _
  by_cases h : f.special = .none ∧ r.2 &&& 4 ≠ 0
  · rw [if_pos h, if_pos (hover.2 h)]; rfl
  · rw [if_neg h, if_neg (mt hover.1 h)]; exact congrArg _ BitVec.or_zero
end

theorem conversions : Spec.Conversions := by
  refine ⟨?_, fun env v hsr => rounded_w32 hsr _ _ _ _, ?_, ?_⟩
  · intro w mode a _ hsr lo hi
    refine ⟨fun h => ?_, fun n h => ?_, fun n m e h => ?_⟩
    · cases hx : f32 a with
      | nan => unfold toInt; rw [hx]; rfl
      | inf => rw [hx] at h; cases h
      | num => rw [hx] at h; cases h
    · unfold toInt; rw [h]; rfl
    · obtain ⟨htz, haw, hne, hex⟩ := wholeBy_spec hsr n m e
      refine ⟨wholeBy mode n m e, htz, haw, hne, ?_⟩
      rw [toInt_num mode h]
      simp only [hex]
      rfl
  · intro f b hf _
    refine ⟨fun h => ?_, fun n h => ?_, fun n m e h => widen_num hf h⟩
    · cases hx : f.decode b with
      | nan => unfold widen; rw [hx]; rfl
      | inf => rw [hx] at h; cases h
      | num => rw [hx] at h; cases h
    · unfold widen; rw [h]; cases n <;> rfl
  · intro f mode sat draw _ sign nan
    exact ⟨convert_nan f mode sat draw, convert_inf f mode sat draw, convert_num f mode sat draw⟩

/-- Settles O6: the forms by what they write, comparisons by the order of values, conversions by their one rounding. -/
theorem floatResults : Obligations.FloatResults := ⟨floatForms, floatMoves, comparisons, conversions⟩
end Sys2Proof.Machine
end

section
/-! PROOFS OF THE SCOPE. Borrowed register files (R32, R96 to R101). -/
namespace Sys2Proof.Machine
open State Sys2Proof.Spec

/-! ### The instruction's word in TVAL (R286) -/

theorem encode_word {i : Instr} (h : Laws.WordInRange.Statement i) : (encode i).setWidth 64 = w64 (encodeNat i) := by
  apply BitVec.eq_of_toNat_eq
  rw [BitVec.toNat_setWidth, encode_toNat i h]
  rfl
/-- An ILL decided in execution reports the instruction's word. -/
theorem exec_ill {s : State} {i : Instr} {v : Word} (hb : s.buffered = false) (h : Laws.WordInRange.Statement i)
    (hx : exec i s = s.finish (stop .ill v)) (hv : v = w64 (encodeNat i)) :
    exec i s = .next (trapped s .ill ((encode i).setWidth 64)) := by
  rw [hx, encode_word h, hv]
  exact finish_trap s .ill _ hb

/-! ### What a completion leaves of other berths, and of what its berth has borrowed -/

namespace State
theorem next_berthAt_of_ne {s : State} (hb : s.buffered = false) (lat : Nat) {r b : Nat} (h : r ≠ s.rank ∨ b % 16 ≠ s.berth % 16) :
    (s.next lat).berthAt r b = s.berthAt r b := by
  unfold next
  rw [hb, if_neg Bool.false_ne_true]
  exact (berthAt_modMe_of_ne s.retire _ h).trans (retire_berthAt s r b)
theorem stepBlock_borrowed (b : Berth) (k : Block) : (stepBlock b k).borrowed = b.borrowed := by
  unfold stepBlock
  dsimp only
  split
  · rfl
  · split <;> rfl
theorem next_me_borrowed {s : State} (hb : s.buffered = false) (lat : Nat) : (s.next lat).me.borrowed = s.me.borrowed := by
  unfold next
  rw [hb, if_neg Bool.false_ne_true, me_modMe, retire_me]
  cases s.me.rpt with
  | none => rfl
  | some k => exact stepBlock_borrowed s.me k
theorem berthAt_modBerth_of_ne (s : State) (f : Berth → Berth) {r b q c : Nat} (h : q ≠ r ∨ c % 16 ≠ b % 16) :
    (s.modBerth r b f).berthAt q c = s.berthAt q c := berthAt_setBerth_of_ne _ _ _ _ _ _ h
/-- What a berth gives back is lent no more, and it holds nothing any more. -/
theorem giveBack_borrowed {s : State} {r b c : Nat} (now : Nat) (h : (s.berthAt r b).borrowed = some c) :
    s.giveBack r b now = (s.modBerth r c fun k => { k with lent := none, was := 5, readyAt := now + 1 }).modBerth r b fun k => { k with borrowed := none } := by
  unfold giveBack
  rw [h]
theorem giveBack_place (s : State) (r b now : Nat) : SamePlace s (s.giveBack r b now) := by
  unfold giveBack
  split <;> exact ⟨rfl, rfl, rfl, rfl⟩
end State

/-! ### BORROW and GIVEB (R97, R99, R101) -/

theorem exec_borrow_asks {s : State} {d a : BitVec 5} (h : Ready s [a] d) (hn : s.me.borrowed = none) :
    exec (.borrow d a) s = .next (s.atWriteBack { srcs := [a], borrow := some (d.toNat, s.rx a) }) := by
  show execBorrow d a s = _
  unfold execBorrow
  rw [hn, checkPorts_ok h]
  rfl
theorem exec_borrow_holding {s : State} {d a : BitVec 5} {c : Nat} (h : s.me.borrowed = some c) :
    exec (.borrow d a) s = s.finish (stop .ill (wd 0xE2000000 [(d.toNat, 20), (a.toNat, 15)])) := by
  show execBorrow d a s = _
  unfold execBorrow
  rw [h]
  rfl
theorem exec_giveb {s : State} {c : Nat} (h : s.me.borrowed = some c) :
    exec .giveb s = .next (s.giveBack s.rank s.berth (s.cycle + s.leaveIn)).next := by
  show execGiveb s = _
  unfold execGiveb
  rw [h]
  rfl
theorem exec_giveb_none {s : State} (h : s.me.borrowed = none) : exec .giveb s = s.finish (stop .ill 0xE2000001) := by
  show execGiveb s = _
  unfold execGiveb
  rw [h]
  rfl
/-- BORROW's claim at its write-back, written into a register. -/
theorem takeReply_borrow {w : Wait} {d a : BitVec 5} {req : Word} (t : State) (hd : d.toNat < 24) (hacc : w.issued.acc = none) :
    takeReply w { srcs := [a], borrow := some (d.toNat, req), past := true } t = ((claimFile d req t).pops [a]).next := by
  have hp : pushPort { srcs := [a], borrow := some (d.toNat, req), past := true } = none := by
    simp only [pushPort, List.map_nil, List.nil_append, Option.map_some, Option.toList_some, Option.map_none, Option.toList_none,
      List.append_nil, Option.map_eq_none_iff, List.find?_eq_none, List.mem_singleton, forall_eq, decide_eq_true_eq]
    omega
  rw [takeReply_noPush rfl rfl rfl hp]
  unfold finishReply actLate
  rw [hacc]
  simp [put]

theorem borrowing : Spec.Borrowing := by
  intro s d a req
  refine ⟨exec_borrow_asks, fun c h => ?_, fun h => ?_, ?_, fun hb => ⟨fun c h => ?_, fun c h => ?_, fun h => ?_⟩⟩
  · unfold claimFile
    rw [h]
  · unfold claimFile
    rw [h]; rfl
  · intro r b w hb hd hw hd24 hq hacc t
    rw [exec_replyArrival_taken hb hw hq hd, takeReply_borrow _ hd24 hacc]
    rfl
  · exact exec_ill hb (Laws.WordInRange.borrow d a) (exec_borrow_holding h) rfl
  · refine ⟨_, exec_giveb h, rfl, fun hc => ?_, ?_⟩
    · have place := giveBack_place s s.rank s.berth (s.cycle + s.leaveIn)
      rw [next_berthAt_of_ne (place.buffered.trans hb) 8 (.inr (place.berth.symm ▸ hc)), giveBack_borrowed _ h,
        berthAt_modBerth_of_ne _ _ (.inr hc), berthAt_modBerth_self]
    · have place := giveBack_place s s.rank s.berth (s.cycle + s.leaveIn)
      have hme : (s.giveBack s.rank s.berth (s.cycle + s.leaveIn)).me = (s.giveBack s.rank s.berth (s.cycle + s.leaveIn)).berthAt s.rank s.berth := by
        rw [me, place.rank, place.berth]
      rw [next_me_borrowed (place.buffered.trans hb), hme, giveBack_borrowed _ h, berthAt_modBerth_self]
  · exact exec_ill hb Laws.WordInRange.giveb (exec_giveb_none h) rfl

/-! ### XMOVT and XMOVF (R32, R100) -/

section
variable {s : State} (out : Bool) (d a k : BitVec 5)
theorem xmov_none (h : s.me.borrowed = none) : xmov out d a k s =
    s.finish (stop .ill (wd (if out then 0xE4000000 else 0xE4000001) [(d.toNat, 20), (a.toNat, 15), (k.toNat, 10)])) := by
  unfold xmov
  rw [h]
variable {c : Nat} (h : s.me.borrowed = some c)
include h
theorem xmov_drowsy (hd : (s.berthAt s.rank c).drowsy = true) : xmov out d a k s =
    .next ((s.modBerth s.rank c fun b => { b with drowsy := false, lastIssue := s.cycle }).block (.wake (s.cycle + 3))) := by
  unfold xmov
  rw [h]
  dsimp only
  rw [hd]; rfl
theorem xmov_awake (hd : (s.berthAt s.rank c).drowsy = false) : xmov out d a k s =
    .next ((if out then s.modBerth s.rank c fun b => copyReg k.toNat d.toNat a.toNat s.me b
      else s.modMe fun b => copyReg k.toNat d.toNat a.toNat (s.berthAt s.rank c) b).next (if s.woke then 11 else 8)) := by
  unfold xmov
  rw [h]
  dsimp only
  rw [hd]; rfl
variable (hne : c % 16 ≠ s.berth % 16) (hb : s.buffered = false) (hd : (s.berthAt s.rank c).drowsy = false)
include hne hb hd
/-- XMOVT changes the borrowed file by the register it copies. -/
theorem exec_xmovt : ∃ t, exec (.xmovt d a k) s = .next t ∧
    t.berthAt s.rank c = copyReg k.toNat d.toNat a.toNat s.me (s.berthAt s.rank c) := by
  refine ⟨_, xmov_awake true d a k h hd, ?_⟩
  rw [if_pos rfl, next_berthAt_of_ne (s := s.modBerth s.rank c _) hb _ (.inr hne), berthAt_modBerth_self]
omit hne hb in
/-- XMOVF changes the berth's own registers by the one it copies. -/
theorem exec_xmovf : ∃ t, exec (.xmovf d a k) s = .next t ∧
    let own := copyReg k.toNat d.toNat a.toNat (s.berthAt s.rank c) s.me
    t.me.x = own.x ∧ t.me.f = own.f ∧ t.me.v = own.v ∧ t.me.p = own.p := by
  refine ⟨_, xmov_awake false d a k h hd, ?_⟩
  rw [if_neg Bool.false_ne_true]
  have regs := next_me_regs (s.modMe fun b => copyReg k.toNat d.toNat a.toNat (s.berthAt s.rank c) b) (if s.woke then 11 else 8)
  rwa [me_modMe] at regs
end

section
variable (d a : BitVec 5) (src dst : Berth)
theorem copyReg_x (hd : d ≠ 0) (h24 : d.toNat < 24) : vget (copyReg 0 d.toNat a.toNat src dst).x d.toNat 0 = if a = 0 then 0 else vget src.x a.toNat 0 := by
  have h0 : d.toNat ≠ 0 := bitVec5_toNat_ne hd
  have ha : a.toNat = 0 ↔ a = 0 := ⟨fun h => BitVec.eq_of_toNat_eq h, fun h => by rw [h]; rfl⟩
  unfold copyReg
  rw [if_pos rfl, if_neg h0, vget_vset_self _ _ _ _ h24]
  simp only [ha]
theorem copyReg_x_zero (hd : d = 0) : (copyReg 0 d.toNat a.toNat src dst).x = dst.x := by rw [hd]; rfl
theorem copyReg_f (h : d.toNat < 16) : vget (copyReg 1 d.toNat a.toNat src dst).f d.toNat 0 = vget src.f a.toNat 0 := vget_vset_self _ _ _ _ h
theorem copyReg_v (h : d.toNat < 16) : vget (copyReg 2 d.toNat a.toNat src dst).v d.toNat 0 = vget src.v a.toNat 0 := vget_vset_self _ _ _ _ h
end

theorem borrowedCopies : Spec.BorrowedCopies := by
  intro s c d a hc hne hb own far
  refine ⟨fun hd k i hi => ?_, fun hd => ⟨?_, fun h16 => ?_, fun h16 => ?_, ?_, ?_, fun h16 => ?_, fun h16 => ?_, ?_⟩⟩
  · simp only [List.mem_cons, List.not_mem_nil, or_false] at hi
    obtain rfl | rfl := hi
    · exact xmov_drowsy true d a k hc hd
    · exact xmov_drowsy false d a k hc hd
  · obtain ⟨t, ht, hfar⟩ := exec_xmovt d a 0 hc hne hb hd
    refine ⟨t, ht, fun h0 h24 => ?_, fun h0 => ?_⟩ <;> rw [hfar]
    · exact copyReg_x d a own far h0 h24
    · exact copyReg_x_zero d a own far h0
  · obtain ⟨t, ht, hfar⟩ := exec_xmovt d a 1 hc hne hb hd
    exact ⟨t, ht, by rw [hfar]; exact copyReg_f d a own far h16⟩
  · obtain ⟨t, ht, hfar⟩ := exec_xmovt d a 2 hc hne hb hd
    exact ⟨t, ht, by rw [hfar]; exact copyReg_v d a own far h16⟩
  · obtain ⟨t, ht, hfar⟩ := exec_xmovt 0 0 3 hc hne hb hd
    exact ⟨t, ht, by rw [hfar]; rfl⟩
  · obtain ⟨t, ht, hx, -, -, -⟩ := exec_xmovf d a 0 hc hd
    refine ⟨t, ht, fun h0 h24 => ?_, fun h0 => ?_⟩ <;> rw [hx]
    · exact copyReg_x d a far own h0 h24
    · exact copyReg_x_zero d a far own h0
  · obtain ⟨t, ht, -, hf, -, -⟩ := exec_xmovf d a 1 hc hd
    exact ⟨t, ht, by rw [hf]; exact copyReg_f d a far own h16⟩
  · obtain ⟨t, ht, -, -, hv, -⟩ := exec_xmovf d a 2 hc hd
    exact ⟨t, ht, by rw [hv]; exact copyReg_v d a far own h16⟩
  · obtain ⟨t, ht, -, -, -, hp⟩ := exec_xmovf 0 0 3 hc hd
    exact ⟨t, ht, by rw [hp]; rfl⟩

theorem noBorrowedFile : Spec.NoBorrowedFile := by
  intro s d a c hb h
  exact ⟨exec_ill hb (Laws.WordInRange.xmovt d a c) (xmov_none true d a c h) rfl,
    exec_ill hb (Laws.WordInRange.xmovf d a c) (xmov_none false d a c h) rfl⟩

/-- Settles O8: BORROW's claim and GIVEB by their one update each, the copies by `copyReg`. -/
theorem borrowedFiles : Obligations.BorrowedFiles := ⟨borrowing, borrowedCopies, noBorrowedFile⟩
end Sys2Proof.Machine
end

section
/-! PROOFS OF THE SCOPE. AWAIT and the resume of a parked barge (R95, R144, R158, R162). -/
namespace Sys2Proof.Machine
open State Sys2Proof.Spec

/-! ### AWAIT -/

/-- The park slot a barge takes is one of its core's 4,096 that no packet holds. -/
theorem parkSlot_free {l : Launch} {r j : Nat} (h : parkSlot l r = some j) : j < 4096 ∧ ∀ e ∈ l.parked, e.1 = r → e.2.1 ≠ j := by
  have hj := List.mem_of_find?_eq_some h
  have hfree := List.find?_some h
  refine ⟨(mem_upTo _ _).1 hj, fun e he hr hs => ?_⟩
  have hused : j ∈ (l.parked.filter fun e => e.1 == r).map fun e => e.2.1 :=
    List.mem_map.2 ⟨e, List.mem_filter.2 ⟨he, beq_iff_eq.2 hr⟩, hs⟩
  rw [List.contains_iff_mem.2 hused] at hfree
  cases hfree
/-- A request for a frame of the executing core is there at once. -/
theorem atHome_here {s : State} {h : Nat} (hr : frank h = s.rank) : s.atHome (frank h) = .ok () := by rw [hr]; exact atHome_own s

/-- What AWAIT does once its request is at the frame's home. -/
def awaitAtHome (s : State) : Run State :=
  let b := s.me
  let h := b.fr.toNat
  if s.fget h 0 4 = 0 then .ok (s.done (s.clmTime (frank h)) { acquire := true })
  else if b.pinned then waitFor .await
  else if s.inBuffer s.rank s.berth then waitFor .board
  else match s.launch b.lid with
    | none => waitFor .await
    | some l => match parkSlot l s.rank with
      | none => waitFor .await
      | some i =>
        let pk := { b.pack (b.pc + 4) with hdr := { b.header with kind := .continuation } }
        let s1 := s.modLaunch b.lid fun l => { l with parked := l.parked ++ [(s.rank, i, pk)] }
        let s2 := s1.imagePacket (clusterOf s.rank) pk b.arr (parkAt l s.rank + 288 * i)
        let s3 := (s2.fset h 16 8 (s.rank * 2 ^ 32 + i)).fmark h 2 true
        gone s3.retire.depart

section
variable {s : State} (hc : s.cancelled = false) (hw : ∀ w, s.me.wait = some w → w.why ≠ .await)
include hc hw
theorem exec_await_eq : exec .await s = s.finish (
    if s.me.fr.toNat = 0 then .ok s.next else do s.atHome (frank s.me.fr.toNat); awaitAtHome s) := by
  show execAwait s = _
  -- `parkSlot` looks through 4,096 slots, so the kernel must not compute it: behind `slot` it cannot
  obtain ⟨slot, hslot⟩ := exists_eq (a' := parkSlot)
  simp only [execAwait, awaitAtHome, ← hslot]
  rw [hc, if_neg]
  · rfl
  · rintro ⟨-, hx, -⟩
    split at hx
    next w h => exact hw w h (beq_iff_eq.1 hx)
    next => cases hx
theorem exec_await_frameless (h : s.me.fr.toNat = 0) : exec .await s = .next s.next := by
  rw [exec_await_eq hc hw, if_pos h]; rfl
theorem exec_await_atHome (h : s.me.fr.toNat ≠ 0) (ha : s.atHome (frank s.me.fr.toNat) = .ok ()) :
    exec .await s = s.finish (awaitAtHome s) := by
  have there {β : Type} (r : Run β) : (do s.atHome (frank s.me.fr.toNat); r) = r := by rw [ha]; rfl
  exact (exec_await_eq hc hw).trans (congrArg s.finish ((if_neg h).trans (there _)))
end
section
variable {s : State}
theorem awaitAtHome_finished (h0 : s.fget s.me.fr.toNat 0 4 = 0) :
    awaitAtHome s = .ok (s.done (s.clmTime (frank s.me.fr.toNat)) { acquire := true }) := if_pos h0
variable (h0 : s.fget s.me.fr.toNat 0 4 ≠ 0)
include h0
theorem awaitAtHome_pinned (hp : s.me.pinned = true) : awaitAtHome s = waitFor .await := (if_neg h0).trans (if_pos hp)
variable (hp : s.me.pinned = false)
include hp
theorem awaitAtHome_buffered (hi : s.inBuffer s.rank s.berth = true) : awaitAtHome s = waitFor .board :=
  (if_neg h0).trans ((if_neg (by simp [hp])).trans (if_pos hi))
variable (hi : s.inBuffer s.rank s.berth = false) {l : Launch} (hl : s.launch s.me.lid = some l)
include hi hl
theorem awaitAtHome_full (hs : parkSlot l s.rank = none) : awaitAtHome s = waitFor .await := by
  obtain ⟨slot, hslot⟩ := exists_eq (a' := parkSlot)
  rw [← hslot] at hs
  simp only [awaitAtHome, ← hslot]
  rw [if_neg h0, hp, hi, hl, if_neg Bool.false_ne_true, if_neg Bool.false_ne_true]
  dsimp only
  rw [hs]
theorem awaitAtHome_parks {i : Nat} (hs : parkSlot l s.rank = some i) :
    let pk : Packet := { s.me.pack (s.me.pc + 4) with hdr := { s.me.header with kind := .continuation } }
    awaitAtHome s = gone (((((s.modLaunch s.me.lid fun l => { l with parked := l.parked ++ [(s.rank, i, pk)] }).imagePacket
      (clusterOf s.rank) pk s.me.arr (parkAt l s.rank + 288 * i)).fset s.me.fr.toNat 16 8 (s.rank * 2 ^ 32 + i)).fmark s.me.fr.toNat 2 true).retire.depart) := by
  intro pk
  obtain ⟨slot, hslot⟩ := exists_eq (a' := parkSlot)
  rw [← hslot] at hs
  simp only [awaitAtHome, ← hslot]
  rw [if_neg h0, hp, hi, hl, if_neg Bool.false_ne_true, if_neg Bool.false_ne_true]
  dsimp only
  rw [hs]
end

theorem awaits : Spec.Awaits := by
  intro s l i hc hw h pk
  refine ⟨exec_await_frameless hc hw, fun _ hr => atHome_here hr, fun hne h0 hr => ?_, fun hne ha => ?_⟩
  · rw [exec_await_atHome hc hw hne (atHome_here hr), awaitAtHome_finished h0, show s.clmTime (frank h) = 8 from if_pos hr]
    exact congrArg Host.Outcome.next (done_short rfl (Nat.le_refl 8) rfl)
  · have home {r : Run State} (hr : awaitAtHome s = r) : exec .await s = s.finish r := by rw [exec_await_atHome hc hw hne ha, hr]
    exact ⟨fun h0 => home (awaitAtHome_finished h0), fun h0 hp hi => home (awaitAtHome_buffered h0 hp hi),
      fun h0 hp hi hl hs => home (awaitAtHome_parks h0 hp hi hl hs), fun h0 hp => home (awaitAtHome_pinned h0 hp),
      fun h0 hp hi hl hs => home (awaitAtHome_full h0 hp hi hl hs), fun j hj => parkSlot_free hj⟩

/-! ### The resume of a parked barge -/

/-- A resume whose packet is in its slot: the packet leaves it, and enters the queue or exits. -/
theorem exec_resume_parked {s : State} {r slot lid src : Nat} {l : Launch} {pk : Packet} (hl : s.launch lid = some l)
    (hp : l.parked.find? (fun e => e.1 == r && e.2.1 == slot) = some (r, slot, pk)) :
    let gone := (s.incRecv r lid).modLaunch lid fun l => { l with parked := l.parked.filter fun e => !(e.1 == r && e.2.1 == slot) }
    exec (.resumeMessage r slot ⟨lid, src⟩) s = if (pk.hdr.cl && pk.hdr.pfh != 0 && gone.canc pk.hdr.pfh.toNat) = true then
      .next (((gone.childExits r lid pk.hdr.pfh.toNat 0).ownerExits (pk.fr.toNat % 2 ^ 32)).decLive r lid) else .next (gone.enqueue r pk none) := by
  intro gone
  show execResumeMessage r slot ⟨lid, src⟩ s = _
  unfold execResumeMessage
  dsimp only
  rw [hl]
  dsimp only
  rw [hp]

theorem resumes : Spec.Resumes := by
  intro s r slot lid src l pk got gone
  refine ⟨fun hl => ?_, fun hl hp => ?_, fun hl hp => ⟨fun hc => ?_, fun hc => ?_⟩⟩
  · show execResumeMessage r slot ⟨lid, src⟩ s = _
    unfold execResumeMessage
    dsimp only
    rw [hl]
  · show execResumeMessage r slot ⟨lid, src⟩ s = _
    unfold execResumeMessage
    dsimp only
    rw [hl]
    dsimp only
    rw [hp]
  · exact (exec_resume_parked hl hp).trans (if_neg (Bool.eq_false_iff.1 hc))
  · exact (exec_resume_parked hl hp).trans (if_pos hc)

/-- Settles O21: AWAIT by what it finds at its frame's home, a resume by what it finds in the park slot. -/
theorem awaitsAndResumes : Obligations.AwaitsAndResumes := ⟨awaits, resumes⟩
end Sys2Proof.Machine
end

section
/-! PROOFS OF THE SCOPE. Vector moves, selections, conversions and codes (R61, R109, R114 to R116). -/
namespace Sys2Proof.Machine
open State Sys2Proof.Spec

/-! ### Tables of the issue (R61, R116) -/

/-- The tables that an instruction reads: those of the wait it is in, or the core's. -/
theorem issueTable_zero (s : State) : issueTable s 0 = match s.myWait with | some w => w.issued.t0 | none => s.myCore.dt0 := by
  unfold issueTable issued
  rw [if_pos rfl]
  cases s.myWait <;> rfl
theorem issueTable_one (s : State) : issueTable s 1 = match s.myWait with | some w => w.issued.t1 | none => s.myCore.dt1 := by
  unfold issueTable issued
  rw [if_neg Nat.one_ne_zero]
  cases s.myWait <;> rfl
/-- A VENC that has waited for a table's order goes on with that table. -/
theorem vencTable_waited {s : State} {w : Wait} {t : DTab} {till : Nat} (hw : s.myWait = some w) (hy : w.why = .table t till) (n : Nat) :
    vencTable s n = (t, till) := by
  unfold vencTable
  rw [hw]
  dsimp only
  rw [hy]
/-- One that has not takes its issue's table, whose order is built when the core's is, if it is still the core's. -/
theorem vencTable_fresh {s : State} (h : ∀ w, s.myWait = some w → ∀ t till, w.why ≠ .table t till) (n : Nat) :
    vencTable s n = (issueTable s n, if issueTable s n = (if n = 0 then s.myCore.dt0 else s.myCore.dt1)
      then (if n = 0 then s.myCore.sort0 else s.myCore.sort1) else 0) := by
  unfold vencTable
  cases hw : s.myWait with
  | none => rfl
  | some w =>
    dsimp only
    split
    · rename_i t till hy
      exact absurd hy (h w hw t till)
    · rfl
/-- The state after a VENC into bytes 32q + i through a table. -/
noncomputable def encoded (s : State) (t : DTab) (d a : BitVec 4) (q : BitVec 2) (m : BitVec 1) : State :=
  vectorDone s d (ofPieces 8 (fun j => if j / 32 = q.toNat ∧ active s.me.p m (j % 32) then (venc t (lane (s.rv a) (j % 32))).1
    else (vbyte (s.rv d) j).toNat) 128) (orFlags s.me.p m (fun i => (venc t (lane (s.rv a) i)).2) 32)
section
variable {s : State} {n : Nat} {t : DTab} {till : Nat} (ht : vencTable s n = (t, till)) (d a : BitVec 4) (q : BitVec 2) (m : BitVec 1)
include ht
theorem encodeTable_built (h : till ≤ s.cycle) : encodeTable s n d a q m = .next (encoded s t d a q m) := by
  unfold encodeTable
  rw [ht]
  exact if_neg (Nat.not_lt.2 h)
theorem encodeTable_waits (h : s.cycle < till) : encodeTable s n d a q m = .next (s.moor.block (.table t till)) := by
  unfold encodeTable
  rw [ht]
  exact if_pos h
end

/-! ### Moves and selections (R109, R114) -/

theorem execVbcast_eq {s : State} {a : BitVec 5} (d : BitVec 4) (h : Ready s [a] 0) :
    execVbcast d a s = .next (((s.moor.pops [a]).wv d (ofLanes fun _ => (s.rx a).setWidth 32)).next) := by
  unfold execVbcast
  rw [checkIns_ok h.1, BitVec.setWidth_eq_extractLsb' (by decide)]
  show Host.Outcome.next (s.moor.done 8 _) = _
  rw [done_short rfl (Nat.le_refl 8) rfl]
  simp [put]
theorem execVextr_eq {s : State} {d : BitVec 5} (a : BitVec 4) (n : BitVec 5) (h : Ready s [] d) :
    execVextr d a n s = .next (wrote s.moor [] d ((lane (s.rv a) n.toNat).signExtend 64)) := by
  unfold execVextr
  rw [checkOut_ok h.2]
  rfl

/-- Settles O9: moves and conversions are what `putV` and `mapLanes` leave; a code's table is that of its issue. -/
theorem vectorMoves : Obligations.VectorMoves := by
  intro s d a b m h q e3 r xd xa n e x on narrowed part fresh t0 t1 till0 till1
  have fresh0 (hf : fresh) : vencTable s 0 = (t0, till0) := by rw [vencTable_fresh hf, issueTable_zero]; rfl
  have fresh1 (hf : fresh) : vencTable s 1 = (t1, till1) := by rw [vencTable_fresh hf, issueTable_one]; rfl
  have dec0 : execVdecT0 d a q m s = decodeTable s t0 d a q m := congrArg (decodeTable s · d a q m) (issueTable_zero s)
  have dec1 : execVdecT1 d a q m s = decodeTable s t1 d a q m := congrArg (decodeTable s · d a q m) (issueTable_one s)
  refine ⟨execVbcast_eq d, execVextr_eq a n, rfl, rfl, rfl, rfl, rfl, rfl, rfl, fun hf => encodeTable_built (fresh0 hf) d a q m,
    fun hf => encodeTable_built (fresh1 hf) d a q m, fun hf => encodeTable_waits (fresh0 hf) d a q m,
    fun hf => encodeTable_waits (fresh1 hf) d a q m, fun w t till hw hy i hi => ?_, rfl, dec0, dec1, rfl⟩
  have waited := vencTable_waited hw hy
  rcases List.mem_pair.1 hi with rfl | rfl
  · exact ⟨encodeTable_built (waited 0) d a q m, encodeTable_waits (waited 0) d a q m⟩
  · exact ⟨encodeTable_built (waited 1) d a q m, encodeTable_waits (waited 1) d a q m⟩

end Sys2Proof.Machine
end

section
/-! PROOFS OF THE SCOPE. Reductions, scans and the block dot product (R72 to R74, R118 to R120). -/
namespace Sys2Proof.Machine
open State Sys2Proof.Spec

/-! ### The tree over an associative combine (R72) -/

section
variable {f : W32 → W32 → W32} (hf : ∀ x y z, f (f x y) z = f x (f y z))
include hf
/-- One level of the tree, over pairs, leaves the left-to-right combination as it is. -/
theorem pairUp_foldl (k : Nat) (l : List W32) (hl : l.length = 2 * k) (z : W32) :
    (pairUp (fun u v => (f u v, 0)) l).1.foldl f z = l.foldl f z ∧ (pairUp (fun u v => (f u v, 0)) l).1.length = k := by
  induction k generalizing l z with
  | zero => rw [List.length_eq_zero_iff.1 hl]; exact ⟨rfl, rfl⟩
  | succ k ih =>
    obtain _ | ⟨x, _ | ⟨y, l⟩⟩ := l
    · cases hl
    · rw [List.length_singleton] at hl; omega
    · obtain ⟨h1, h2⟩ := ih l (by rw [List.length_cons, List.length_cons] at hl; omega) (f (f z x) y)
      refine ⟨?_, congrArg (· + 1) h2⟩
      show (pairUp _ l).1.foldl f (f z (f x y)) = _
      rw [← hf, h1]
      rfl
/-- The tree over 2^n lanes is the left-to-right combination of them. -/
theorem treeRed_eq_foldl (n : Nat) (x : W32) (l : List W32) (hl : l.length + 1 = 2 ^ n) :
    (treeRed (fun u v => (f u v, 0)) n (x :: l)).1 = l.foldl f x := by
  induction n generalizing x l with
  | zero => rw [List.length_eq_zero_iff.1 (Nat.succ_injective hl)]; rfl
  | succ n ih =>
    rw [Nat.pow_succ] at hl
    obtain _ | ⟨y, l⟩ := l
    · rw [List.length_nil] at hl; omega
    · obtain ⟨h1, h2⟩ := pairUp_foldl hf (2 ^ n - 1) l (by rw [List.length_cons] at hl; omega) (f x y)
      exact (ih (f x y) _ (by have := Nat.two_pow_pos n; omega)).trans h1
end
theorem treeIsOrdered : Spec.TreeIsOrdered := fun _ hf x l hl => treeRed_eq_foldl hf 5 x l (congrArg (· + 1) hl)

/-! ### The forms (R118 to R120) -/

theorem ite_pair {α β : Type} (p : Prop) [Decidable p] (x u : α) (y v : β) : (if p then (x, y) else (u, v)) = (if p then x else u, if p then y else v) := by
  split <;> rfl
theorem reductions : Spec.Reductions := by
  intro s d a b c sc m k f q e inp op
  refine ⟨rfl, rfl, ?_, ?_⟩
  · rintro A B r y rfl rfl rfl rfl
    show execVscanl d a b c m f s = _
    unfold execVscanl
    simp only [ite_pair]
    rw [lanes32_eq]
    rfl
  · rintro scale rfl
    refine ⟨?_, rfl⟩
    show blockDot s d sc (lanes32.map fun i => (dtabVal (issueTable s 0) _, dtabVal (issueTable s 1) _)) = _
    rw [issueTable_zero, issueTable_one]
    rfl

/-- Settles O11: the forms by their tables and inputs, the tree by what one of its levels keeps. -/
theorem reductionsFollowTheTree : Obligations.ReductionsFollowTheTree := ⟨reductions, treeIsOrdered⟩
end Sys2Proof.Machine
end

section
/-! PROOFS OF THE SCOPE. Lane operations and lane compares (R102, R103, R110, R112 to R114). -/
namespace Sys2Proof.Machine
open State Sys2Proof.Spec

/-! ### The mask (R103) -/

theorem active_iff (p : W32) (m : BitVec 1) (i : Nat) : active p m i = true ↔ m = 0 ∨ i = 0 ∨ p.getLsbD i = true := by
  simp only [active, Bool.or_eq_true, beq_iff_eq, or_assoc]
/-- Lanes that are inactive or raise nothing raise nothing together. -/
theorem orFlags_eq_zero (p : W32) (m : BitVec 1) (g : Nat → Flags) (n : Nat) (h : ∀ k < n, active p m k = true → g k = 0) :
    orFlags p m g n = 0 := by
  induction n with
  | zero => rfl
  | succ n ih =>
    have hn : (if active p m n then g n else 0) = 0 := ite_eq_right_iff.2 (h n (Nat.lt_succ_self n))
    rw [orFlags, ih fun k hk => h k (Nat.lt_succ_of_lt hk), hn]
    rfl
theorem laneMask : Spec.LaneMask := fun p m old f g _ hi =>
  ⟨lane_masked p m old f hi, fun h => orFlags_eq_zero p m g 32 fun k hk ha => h k hk ((active_iff p m k).1 ha)⟩

/-! ### Lane operations (R110, R112, R114) -/

theorem fld_low5 (x : W32) : fld x 0 5 = x.toNat % 32 := by
  unfold fld; rw [Nat.pow_zero, Nat.div_one]; rfl
/-- What an operation on lanes leaves. -/
theorem mapLanes_eq {s : State} {d : BitVec 4} {m : BitVec 1} {r q : Nat → W32 × Flags} (h : ∀ i, r i = q i) :
    mapLanes s d m r = .next (lanesDone s d m q) := by
  rw [funext h]; rfl
theorem laneOperations : Spec.LaneResults := by
  intro s d a b c m n e x y z go int
  refine ⟨rfl, rfl, rfl, rfl, rfl, rfl, rfl, rfl, rfl, rfl, rfl, rfl, rfl, rfl, rfl, rfl, rfl, rfl, ?_, ?_, ?_, ?_, rfl, rfl⟩
  · exact mapLanes_eq fun i => congrArg (fun k => (x i <<< k, 0)) (fld_low5 (y i))
  · exact mapLanes_eq fun i => congrArg (fun k => (x i >>> k, 0)) (fld_low5 (y i))
  · exact mapLanes_eq fun i => congrArg (fun k => ((x i).sshiftRight k, 0)) (fld_low5 (y i))
  · exact mapLanes_eq fun i => congrArg (fun k => (x k, 0)) (fld_low5 (y i))

/-! ### Lane compares (R113) -/

/-- The predicate bits after a lane compare. -/
theorem cmpBits_getLsbD (p : W32) (m : BitVec 1) (f : Nat → Bool) (n k : Nat) (hk : k < 32) :
    (cmpBits p m f n).getLsbD k = if k < n ∧ k ≠ 0 ∧ active p m k = true then f k else p.getLsbD k := by
  induction n with
  | zero => rw [if_neg fun h => Nat.not_lt_zero k h.1]; rfl
  | succ n ih =>
    have other (e : k ≠ n) : (k < n + 1 ∧ k ≠ 0 ∧ active p m k = true) ↔ (k < n ∧ k ≠ 0 ∧ active p m k = true) := by
      rw [Nat.lt_succ_iff_lt_or_eq, or_iff_left e]
    rw [cmpBits]
    by_cases hn : n ≠ 0 ∧ active p m n = true
    · rw [if_pos hn, setBit_getLsbD, ih]
      by_cases e : k = n
      · subst e
        rw [if_pos ⟨rfl, hk⟩, if_pos ⟨Nat.lt_succ_self k, hn⟩]
      · rw [if_neg fun h => e h.1]
        simp only [other e]
    · rw [if_neg hn, ih]
      by_cases e : k = n
      · subst e
        rw [if_neg fun h => hn h.2, if_neg fun h => hn h.2]
      · simp only [other e]
/-- The part of the mask that is not lane 0. -/
theorem active_of_ne_zero {p : W32} {m : BitVec 1} {k : Nat} : k ≠ 0 ∧ active p m k = true ↔ k ≠ 0 ∧ (m = 0 ∨ p.getLsbD k = true) := by
  rw [active_iff]
  exact and_congr_right fun h => by rw [or_iff_right h]
namespace State
/-- A state in which an instruction has moored its barge is moored after the instruction's end, also at the end of a block (R93). -/
theorem moor_next_moored (s : State) (lat : Nat) : (s.moor.next lat).me.moored = true := by
  have hm : s.moor.me.moored = true := by rw [moor, me_modMe]
  have hb : s.moor.buffered = s.buffered := rfl
  cases hbuf : s.buffered with
  | true => rw [next_buffered_me (hb.trans hbuf)]; exact hm
  | false =>
    cases hr : s.me.rpt with
    | none =>
      have hp : Plain s.moor := ⟨by rw [moor, me_modMe, hr, hbuf]; rfl, hb.trans hbuf⟩
      rw [next_me hp]; exact hm
    | some k =>
      have hk : s.moor.me.rpt = some { k with keep := true } := by rw [moor, me_modMe, hr, hbuf]; rfl
      rw [(next_me_inBlock hk (hb.trans hbuf) lat).2.2]
      unfold stepBlock
      dsimp only
      split
      · exact hm
      · split
        · exact hm
        · rfl
end State
/-- A lane compare: its bits, its flags, and the mooring. -/
theorem vcompare_eq (s : State) (a b : BitVec 4) (m : BitVec 1) (f : W32 → W32 → Bool × Flags) {c : Nat → Bool} {fl : Nat → Flags}
    (hc : ∀ k, (f (lane (s.rv a) k) (lane (s.rv b) k)).1 = c k) (hfl : ∀ k, (f (lane (s.rv a) k) (lane (s.rv b) k)).2 = fl k) :
    ∃ P : W32, (∀ k, k < 32 → P.getLsbD k = if k ≠ 0 ∧ (m = 0 ∨ s.me.p.getLsbD k = true) then c k else s.me.p.getLsbD k) ∧
      vcompare s a b m f = .next (((s.modMe fun t => { t with p := P }).flag (orFlags s.me.p m fl 32)).moor.next) ∧
      ∃ t, vcompare s a b m f = .next t ∧ t.me.moored = true := by
  refine ⟨cmpBits s.me.p m c 32, fun k hk => ?_, ?_, _, rfl, moor_next_moored _ 8⟩
  · rw [cmpBits_getLsbD _ _ _ _ _ hk]
    simp only [hk, true_and, active_of_ne_zero]
  · rw [← funext hc, ← funext hfl]; rfl
theorem bne_lane (x y : W32) : (x != y) = decide (x ≠ y) := by rw [bne, decide_not]; rfl
theorem not_slt_lane (x y : W32) : (!x.slt y) = decide (y.toInt ≤ x.toInt) := by
  rw [BitVec.slt, ← decide_not]; exact decide_eq_decide.2 Int.not_lt
theorem not_ult_lane (x y : W32) : (!x.ult y) = decide (y.toNat ≤ x.toNat) := by
  rw [BitVec.ult, ← decide_not]; exact decide_eq_decide.2 Nat.not_lt
theorem laneCompares : Spec.LaneCompares := by
  intro s a b m x y does int fp
  have whole {i : Instr} {f : W32 → W32 → Bool} {c : Nat → Bool} (hx : exec i s = vcompare s a b m fun u v => (f u v, 0))
      (hc : ∀ k, f (x k) (y k) = c k) : int i c := by
    show does i c _
    simp only [does, hx]
    exact vcompare_eq s a b m _ hc fun _ => rfl
  have number {i : Instr} {f : W32 → W32 → Bool × Flags} (hx : exec i s = vcompare s a b m f) : fp i f := by
    show does i _ _
    simp only [does, hx]
    exact vcompare_eq s a b m f (fun _ => rfl) fun _ => rfl
  exact ⟨whole rfl fun _ => rfl, whole rfl fun k => bne_lane (x k) (y k), whole rfl fun _ => rfl, whole rfl fun _ => rfl,
    whole (f := fun u v => !u.slt v) rfl fun k => not_slt_lane (x k) (y k),
    whole (f := fun u v => !u.ult v) rfl fun k => not_ult_lane (x k) (y k), number rfl, number rfl, number rfl, number rfl⟩
end Sys2Proof.Machine
end

section
/-! PROOFS OF THE SCOPE. Square roots and their reciprocals: the rounding of an irrational magnitude (R64 to R66, R85, R111). -/
namespace Sys2Proof.Machine
open Spec

/-! ### Magnitudes that no format tells apart -/

/-- A rounding asks about a magnitude only at spacings that the format has, or the one below. -/
theorem roundedBy_of_agree {f : Fmt} (hf : f.Sound) {mode : Rm} {sat neg : Bool} {low high low' high' : Nat → Int → Prop} {r : Nat × Flags}
    (h : ∀ n q, f.qmin - 1 ≤ q → (low n q ↔ low' n q) ∧ (high n q ↔ high' n q)) (hr : RoundedBy f mode sat neg low high r) :
    RoundedBy f mode sat neg low' high' r := by
  obtain ⟨hfit, hover, hmax⟩ := hr
  refine ⟨fun h4 => ?_, hover, fun m q hd => ?_⟩
  · obtain ⟨n, q, hd, hw, hn⟩ := hfit h4
    have hq := (Fmt.decode_num hf hd).2.1
    refine ⟨n, q, hd, hw, ?_⟩
    have hk : f.qmin - 1 ≤ q - ((if n = 2 ^ f.mw ∧ f.qmin < q then 1 else 0 : Nat) : Int) - 1 := by split <;> omega
    dsimp only at hn ⊢
    generalize (if n = 2 ^ f.mw ∧ f.qmin < q then 1 else 0 : Nat) = k at *
    have low0 (a : Nat) : low a q ↔ low' a q := (h a q (by omega)).1
    have high0 (a : Nat) : high a q ↔ high' a q := (h a q (by omega)).2
    have low1 (a : Nat) : low a (q - 1) ↔ low' a (q - 1) := (h a _ (by omega)).1
    have high1 (a : Nat) : high a (q - 1) ↔ high' a (q - 1) := (h a _ (by omega)).2
    have highk (a : Nat) : high a (q - k) ↔ high' a (q - k) := (h a _ (by omega)).2
    have lowk (a : Nat) : low a (q - k - 1) ↔ low' a (q - k - 1) := (h a _ hk).1
    have highk1 (a : Nat) : high a (q - k - 1) ↔ high' a (q - k - 1) := (h a _ hk).2
    simpa only [low0, high0, low1, high1, highk, lowk, highk1] using hn
  · have hq := (Fmt.decode_num hf hd).2.1
    have hm := hmax m q hd
    rwa [(h m q (by omega)).2, (h _ (q - 1) (by omega)).1, (h _ (q - 1) (by omega)).2, (h (m + 1) q (by omega)).1] at hm
/-- The greatest whole number whose square is not above X. -/
theorem floor_sqrt {X : ℚ} (hX : 0 ≤ X) (a : Nat) : a ≤ Nat.sqrt ⌊X⌋₊ ↔ (a : ℚ) ^ 2 ≤ X := by
  rw [Nat.le_sqrt', Nat.le_floor_iff hX, Nat.cast_pow]
/-- A rational number that lies to the numbers of spacing 2^g or more as the square root of W does. -/
theorem exists_sqrt_proxy {W : ℚ} (hW : 0 ≤ W) (g : Int) :
    ∃ V : ℚ, ∀ (n : Nat) (q : Int), g ≤ q → (Lo V n q ↔ ((n : ℚ) * 2 ^ q) ^ 2 ≤ W) ∧ (Hi V n q ↔ W ≤ ((n : ℚ) * 2 ^ q) ^ 2) := by
  have hg := two_zpow_pos g
  have hg2 : (0 : ℚ) < (2 ^ g) ^ 2 := by positivity
  obtain ⟨X, rfl⟩ : ∃ X : ℚ, W = X * (2 ^ g) ^ 2 := ⟨W / (2 ^ g) ^ 2, by field_simp⟩
  have hX : 0 ≤ X := nonneg_of_mul_nonneg_left hW hg2
  -- the root of X lies δ above the whole number N
  obtain ⟨N, δ, hlow, h0, h1, hexact⟩ : ∃ (N : Nat) (δ : ℚ), (∀ a : Nat, (a : ℚ) ^ 2 ≤ X ↔ a ≤ N) ∧ 0 ≤ δ ∧ δ < 1 ∧ (δ = 0 ↔ X = (N : ℚ) ^ 2) := by
    by_cases h : X = (Nat.sqrt ⌊X⌋₊ : ℚ) ^ 2
    · exact ⟨_, 0, fun a => (floor_sqrt hX a).symm, le_refl _, by norm_num, iff_of_true rfl h⟩
    · exact ⟨_, 1 / 2, fun a => (floor_sqrt hX a).symm, by norm_num, by norm_num, iff_of_false (by norm_num) h⟩
  refine ⟨(N + δ) * 2 ^ g, fun n q hq => ?_⟩
  rw [Lo, Hi, ← units_mul n hq, mul_le_mul_iff_left₀ hg, mul_le_mul_iff_left₀ hg, mul_pow, mul_le_mul_iff_left₀ hg2, mul_le_mul_iff_left₀ hg2]
  generalize units n q g = a
  have hlowN := (hlow N).2 (le_refl N)
  refine ⟨⟨fun h => ?_, fun h => ?_⟩, ⟨fun h => ?_, fun h => ?_⟩⟩
  · have : (a : ℚ) < (N + 1 : Nat) := by push_cast; linarith
    exact (hlow a).2 (Nat.lt_succ_iff.1 (Nat.cast_lt.1 this))
  · have : (a : ℚ) ≤ N := Nat.cast_le.2 ((hlow a).1 h)
    linarith
  · by_cases ha : a ≤ N
    · have : (a : ℚ) ≤ N := Nat.cast_le.2 ha
      obtain rfl : a = N := le_antisymm ha (Nat.cast_le.1 (by linarith : (N : ℚ) ≤ a))
      exact (hexact.1 (by linarith)).le
    · exact (lt_of_not_ge (mt (hlow a).1 ha)).le
  · rcases Nat.lt_or_ge N a with ha | ha
    · have : ((N + 1 : Nat) : ℚ) ≤ a := Nat.cast_le.2 ha
      push_cast at this
      linarith
    · have hle : (a : ℚ) ≤ N := Nat.cast_le.2 ha
      have hsq : (a : ℚ) ^ 2 ≤ N ^ 2 := by gcongr
      have hXN : X = (N : ℚ) ^ 2 := le_antisymm (h.trans hsq) hlowN
      have : (N : ℚ) ≤ a := by
        have := hlowN.trans h
        exact (pow_le_pow_iff_left₀ (Nat.cast_nonneg _) (Nat.cast_nonneg _) two_ne_zero).1 this
      rw [hexact.2 hXN]
      linarith

/-! ### The model's root -/

theorem isqrtLoop_spec (n : Nat) (k r : Nat) (h1 : r * r ≤ n) (h2 : n < (r + 2 ^ k) * (r + 2 ^ k)) :
    isqrtLoop n k r * isqrtLoop n k r ≤ n ∧ n < (isqrtLoop n k r + 1) * (isqrtLoop n k r + 1) := by
  induction k generalizing r with
  | zero => exact ⟨h1, h2⟩
  | succ k ih =>
    rw [isqrtLoop]
    split
    · refine ih _ ‹_› ?_
      rwa [add_assoc, ← Nat.two_mul, ← Nat.pow_succ']
    · exact ih _ h1 (Nat.lt_of_not_le ‹_›)
theorem isqrt_spec (n : Nat) : isqrt n * isqrt n ≤ n ∧ n < (isqrt n + 1) * (isqrt n + 1) := by
  refine isqrtLoop_spec n _ 0 (Nat.zero_le _) ?_
  rw [Nat.zero_add, ← Nat.pow_add]
  exact (Nat.lt_log2_self (n := n)).trans_le (Nat.pow_le_pow_right (by decide) (by unfold log2; omega))
/-- The model's root of num / den * 2^e: R units of 2^(F + 1) and a sticky bit, against the square. -/
theorem roundSqrt_parts (env : FpEnv) {num den : Nat} (hn : num ≠ 0) (hd : den ≠ 0) (e : Int) :
    ∃ (R st : Nat) (F : Int), roundSqrt env num den e = w32 (roundTo fp32 env.mode env.sat false (2 * R + st) F) ∧ 2 ^ 63 ≤ R ∧
      ((R : ℚ) * 2 ^ (F + 1)) ^ 2 ≤ num / den * 2 ^ e ∧ (num / den * 2 ^ e : ℚ) < (((R + 1 : Nat) : ℚ) * 2 ^ (F + 1)) ^ 2 ∧
      (st = 0 ∧ (num / den * 2 ^ e : ℚ) = (R * 2 ^ (F + 1)) ^ 2 ∨ st = 1 ∧ (num / den * 2 ^ e : ℚ) ≠ (R * 2 ^ (F + 1)) ^ 2) := by
  have hd' : (0 : ℚ) < den := by exact_mod_cast Nat.pos_of_ne_zero hd
  -- an even exponent
  obtain ⟨n, h, hn0, hnh, hmodel⟩ : ∃ (n : Nat) (h : Int), n ≠ 0 ∧ (num * 2 ^ e : ℚ) = n * 2 ^ (2 * h) ∧
      roundSqrt env num den e =
        let k := 64 + log2 den
        let q := n * 2 ^ (2 * k) / den
        let st := if isqrt q * isqrt q = q ∧ n * 2 ^ (2 * k) % den = 0 then 0 else 1
        w32 (roundTo fp32 env.mode env.sat false (2 * isqrt q + st) (h - k - 1)) := by
    unfold roundSqrt
    by_cases he : e % 2 = 0
    · refine ⟨num, e / 2, hn, by rw [show 2 * (e / 2) = e by omega], ?_⟩
      simp only [if_pos he]
    · refine ⟨2 * num, (e - 1) / 2, by omega, ?_, ?_⟩
      · rw [show e = 2 * ((e - 1) / 2) + 1 by omega, zpow_add_one₀ (by norm_num), show 2 * ((2 * ((e - 1) / 2) + 1 - 1) / 2) = 2 * ((e - 1) / 2) by omega]
        push_cast
        ring
      · simp only [if_neg he]
  have hbig : 2 ^ 126 ≤ n * 2 ^ (2 * (64 + log2 den)) / den := by
    rw [Nat.le_div_iff_mul_le (Nat.pos_of_ne_zero hd)]
    have hlt : den < 2 ^ (log2 den + 1) := Nat.lt_log2_self
    calc 2 ^ 126 * den ≤ 2 ^ 126 * 2 ^ (log2 den + 1) := Nat.mul_le_mul_left _ hlt.le
      _ = 2 ^ (126 + (log2 den + 1)) := (Nat.pow_add _ _ _).symm
      _ ≤ 2 ^ (2 * (64 + log2 den)) := Nat.pow_le_pow_right (by decide) (by omega)
      _ ≤ n * 2 ^ (2 * (64 + log2 den)) := Nat.le_mul_of_pos_left _ (Nat.pos_of_ne_zero hn0)
  dsimp only at hmodel
  generalize 64 + log2 den = k at *
  have hdiv := Nat.div_add_mod (n * 2 ^ (2 * k)) den
  have hmod := Nat.mod_lt (n * 2 ^ (2 * k)) (Nat.pos_of_ne_zero hd)
  generalize n * 2 ^ (2 * k) / den = q at *
  obtain ⟨hr1, hr2⟩ := isqrt_spec q
  generalize isqrt q = R at *
  generalize n * 2 ^ (2 * k) % den = rem at *
  have hR : 2 ^ 63 ≤ R := by
    by_contra hlt
    have : (R + 1) * (R + 1) ≤ 2 ^ 63 * 2 ^ 63 := Nat.mul_le_mul (by omega) (by omega)
    omega
  -- the square, in units of 2^(2 * (h - k))
  have hP : (0 : ℚ) < (2 ^ (h - k - 1 + 1)) ^ 2 := by have := two_zpow_pos (h - k - 1 + 1); positivity
  have hW : (num / den * 2 ^ e : ℚ) = (q + rem / den) * (2 ^ (h - k - 1 + 1)) ^ 2 := by
    have hdivq : (den * q + rem : ℚ) = n * 2 ^ (2 * k) := by exact_mod_cast hdiv
    have hsq : ((2 : ℚ) ^ (h - k - 1 + 1)) ^ 2 * 2 ^ (2 * k) = 2 ^ (2 * h) := by
      rw [← zpow_natCast, ← zpow_mul, ← zpow_natCast, ← two_zpow_add]; congr 1; push_cast; ring
    have : (q + rem / den : ℚ) = n * 2 ^ (2 * k) / den := by rw [← hdivq]; field_simp
    rw [this, div_mul_eq_mul_div, hnh, ← hsq]
    ring
  have hrem : (rem / den : ℚ) < 1 := by rw [div_lt_one hd']; exact_mod_cast hmod
  have hrem0 : (0 : ℚ) ≤ rem / den := by positivity
  have h1 : (R : ℚ) ^ 2 ≤ q := by exact_mod_cast (by rw [Nat.pow_two]; exact hr1 : R ^ 2 ≤ q)
  have h2 : (q : ℚ) + 1 ≤ ((R + 1 : Nat) : ℚ) ^ 2 := by exact_mod_cast (by rw [Nat.pow_two]; exact hr2 : q + 1 ≤ (R + 1) ^ 2)
  refine ⟨R, _, h - k - 1, hmodel, hR, ?_, ?_, ?_⟩
  · rw [hW, mul_pow, mul_le_mul_iff_left₀ hP]; linarith
  · rw [hW, mul_pow, mul_lt_mul_iff_left₀ hP]; linarith
  · rw [hW, mul_pow, Ne, mul_eq_mul_right_iff, or_iff_left hP.ne']
    split
    · rename_i hx
      obtain ⟨hx1, rfl⟩ := hx
      exact .inl ⟨rfl, by rw [← hx1]; push_cast; ring⟩
    · rename_i hx
      refine .inr ⟨rfl, fun heq => hx ?_⟩
      have hrem1 : (rem / den : ℚ) = 0 := by linarith
      have hq : (q : ℚ) = (R ^ 2 : Nat) := by push_cast; linarith
      rw [div_eq_zero_iff, or_iff_left hd'.ne', Nat.cast_eq_zero] at hrem1
      exact ⟨by rw [← Nat.pow_two]; exact (Nat.cast_inj.1 hq).symm, hrem1⟩
/-- R55, R85: the root is rounded once. -/
theorem roundedBy_roundSqrt (env : FpEnv) (hsr : env.mode ≠ .sr) {num den : Nat} (hn : num ≠ 0) (hd : den ≠ 0) (e : Int) :
    RoundedBy fp32 env.mode env.sat false (fun n q => ((n : ℚ) * 2 ^ q) ^ 2 ≤ num / den * 2 ^ e)
      (fun n q => (num / den * 2 ^ e : ℚ) ≤ ((n : ℚ) * 2 ^ q) ^ 2) (bits (roundSqrt env num den e)) := by
  obtain ⟨R, st, F, hmodel, hR, hlow, hhigh, hst⟩ := roundSqrt_parts env hn hd e
  obtain ⟨V, hV⟩ := exists_sqrt_proxy (W := num / den * 2 ^ e) (by have := two_zpow_pos e; positivity) (min (F + 1) (fp32.qmin - 1))
  have hF := two_zpow_pos F
  have hF1 : (2 : ℚ) ^ (F + 1) = 2 * 2 ^ F := by rw [zpow_add_one₀ (by norm_num), mul_comm]
  obtain ⟨hVlow, hVhigh⟩ := hV R (F + 1) (min_le_left _ _)
  have h1 : (R : ℚ) * (2 * 2 ^ F) ≤ V := by rw [← hF1]; exact hVlow.2 hlow
  have h2 : V < (R + 1) * (2 * 2 ^ F) := by
    have := mt (hV (R + 1) (F + 1) (min_le_left _ _)).1.1 (not_le.2 hhigh)
    rw [Lo, not_le, hF1] at this
    exact_mod_cast this
  have key : RoundedBy fp32 env.mode env.sat false (Lo V) (Hi V) (roundTo fp32 env.mode env.sat false (2 * R + st) F) := by
    refine roundedBy_sticky Fmt.sound_fp32 hsr _ _ (by omega) (θ := V / 2 ^ F - (2 * R + st : Nat)) ?_ (by field_simp; ring) ?_ ?_ ?_
    · have hlog : 63 ≤ log2 (2 * R + st) := (Nat.le_log2 (by omega)).2 (by omega)
      have hsp : F + (log2 (2 * R + st) : Int) - fp32.mw ≤ spacing fp32 (2 * R + st) F := le_max_left _ _
      have hmw : fp32.mw = 23 := rfl
      omega
    · rcases hst with ⟨rfl, hx⟩ | ⟨rfl, -⟩
      · left
        have h3 : V ≤ R * (2 * 2 ^ F) := by rw [← hF1]; exact hVhigh.2 hx.le
        rw [le_antisymm h3 h1]
        push_cast
        field_simp
        ring
      · exact .inr (by omega)
    · rw [lt_sub_iff_add_lt, lt_div_iff₀ hF]
      rcases hst with ⟨rfl, -⟩ | ⟨rfl, hx⟩
      · push_cast; linarith
      · have h3 := mt hVhigh.1 (not_le.2 (lt_of_le_of_ne hlow (Ne.symm hx)))
        rw [Hi, not_le, hF1] at h3
        push_cast; linarith
    · rw [sub_lt_iff_lt_add, div_lt_iff₀ hF]
      have : (0 : ℚ) ≤ st * 2 ^ F := by positivity
      rcases hst with ⟨rfl, hx⟩ | ⟨rfl, -⟩
      · have h3 : V ≤ R * (2 * 2 ^ F) := by rw [← hF1]; exact hVhigh.2 hx.le
        push_cast; linarith
      · push_cast; linarith
  rw [hmodel, bits_w32 (roundedBy_fp32_lt key)]
  exact roundedBy_of_agree Fmt.sound_fp32 (fun n q hq => hV n q ((min_le_right _ _).trans hq)) key
end Sys2Proof.Machine
end

section
/-! PROOFS OF THE SCOPE. Where a rounding lies among the numbers of its format (R54, R64 to R66). -/
namespace Sys2Proof.Machine
open Spec
variable {f : Fmt} {mode : Rm}

/-! ### A rounding keeps to its side of each number of the format -/

/-- A number of the format at a finer spacing is below the whole spacings. -/
theorem Trunc.finer_lt {V : ℚ} {q : Int} {n : Nat} {ρ : ℚ} (h : Trunc f V q n ρ) {a : Nat} {s : Int} (ha : a < 2 ^ (f.mw + 1)) (hs : f.qmin ≤ s)
    (hsq : s < q) : (a : ℚ) * 2 ^ s < n * 2 ^ q := by
  have hn : 2 ^ f.mw ≤ n := h.norm.resolve_left (by omega)
  have hp := two_zpow_pos s
  have h2 : (2 : ℚ) ^ s * 2 ≤ 2 ^ q := by
    rw [← zpow_add_one₀ (by norm_num)]; exact two_zpow_le (by omega)
  have ha' : (a : ℚ) < ((2 * 2 ^ f.mw : Nat) : ℚ) := Nat.cast_lt.2 (by rwa [← Nat.pow_succ'])
  have hn' : ((2 ^ f.mw : Nat) : ℚ) ≤ n := Nat.cast_le.2 hn
  push_cast at ha' hn'
  calc (a : ℚ) * 2 ^ s < 2 * 2 ^ f.mw * 2 ^ s := mul_lt_mul_of_pos_right ha' hp
    _ = 2 ^ f.mw * (2 ^ s * 2) := by ring
    _ ≤ 2 ^ f.mw * 2 ^ q := by gcongr
    _ ≤ n * 2 ^ q := by gcongr
/-- A number of the format that is not above a truncated magnitude is not above its whole spacings. -/
theorem Trunc.number_le {V : ℚ} {q : Int} {n : Nat} {ρ : ℚ} (h : Trunc f V q n ρ) {a : Nat} {s : Int} (ha : a < 2 ^ (f.mw + 1)) (hs : f.qmin ≤ s)
    (hV : (a : ℚ) * 2 ^ s ≤ V) : (a : ℚ) * 2 ^ s ≤ n * 2 ^ q := by
  rcases lt_or_ge s q with hsq | hsq
  · exact (h.finer_lt ha hs hsq).le
  · rw [h.val, ← units_mul a hsq, mul_le_mul_iff_left₀ (two_zpow_pos q)] at hV
    have hlt := h.lt_one
    have : (units a s q : ℚ) < (n + 1 : Nat) := by push_cast; linarith
    rw [← units_mul a hsq, mul_le_mul_iff_left₀ (two_zpow_pos q)]
    exact Nat.cast_le.2 (Nat.lt_succ_iff.1 (Nat.cast_lt.1 this))
/-- One that is not below it is not below the next magnitude, if a part of a spacing is left. -/
theorem Trunc.le_number {V : ℚ} {q : Int} {n N : Nat} {ρ : ℚ} (h : Trunc f V q n ρ) (hN : N = n + 1 ∧ 0 < ρ ∨ N = n) {a : Nat} {s : Int}
    (ha : a < 2 ^ (f.mw + 1)) (hs : f.qmin ≤ s) (hV : V ≤ (a : ℚ) * 2 ^ s) : (N : ℚ) * 2 ^ q ≤ a * 2 ^ s := by
  have h0 := h.nonneg
  have hp := two_zpow_pos q
  have hVn : (n : ℚ) * 2 ^ q ≤ V := by rw [h.val, mul_le_mul_iff_left₀ hp]; linarith
  rcases hN with ⟨rfl, hpos⟩ | rfl
  · rcases lt_or_ge s q with hsq | hsq
    · exact absurd (h.finer_lt ha hs hsq) (not_lt.2 (hVn.trans hV))
    · rw [h.val, ← units_mul a hsq, mul_le_mul_iff_left₀ hp] at hV
      have : (n : ℚ) < units a s q := by linarith
      rw [← units_mul a hsq, mul_le_mul_iff_left₀ hp]
      exact Nat.cast_le.2 (Nat.cast_lt.1 this)
  · exact hVn.trans hV
/-- What is taken up, or not, of w spacings with l parts left. -/
theorem takenUp_cases (w l k : Nat) (up : Prop) [Decidable up] :
    (if l ≠ 0 ∧ up then w + 1 else w) = w + 1 ∧ (0 : ℚ) < l / 2 ^ k ∨ (if l ≠ 0 ∧ up then w + 1 else w) = w := by
  split
  · rename_i hup
    have : (0 : ℚ) < l := Nat.cast_pos.2 (Nat.pos_of_ne_zero hup.1)
    exact .inl ⟨rfl, by positivity⟩
  · exact .inr rfl
/-- A rounding that does not overflow: its value lies to each number of the format as the magnitude does, and its flags. -/
theorem roundTo_between (hf : f.Sound) (hsr : mode ≠ .sr) (sat neg : Bool) {m : Nat} (hm : m ≠ 0) (e : Int)
    (h4 : (roundTo f mode sat neg m e).2 &&& 4 = 0) :
    ∃ (k : Nat) (p : Int), f.decode (roundTo f mode sat neg m e).1 = .num neg k p ∧
      (∀ (a : Nat) (s : Int), a < 2 ^ (f.mw + 1) → f.qmin ≤ s →
        ((a : ℚ) * 2 ^ s ≤ m * 2 ^ e → (a : ℚ) * 2 ^ s ≤ k * 2 ^ p) ∧ ((m : ℚ) * 2 ^ e ≤ a * 2 ^ s → (k : ℚ) * 2 ^ p ≤ a * 2 ^ s)) ∧
      (roundTo f mode sat neg m e).2 = (if leftPart m e (spacing f m e) = 0 then 0 else if k ≠ 0 ∧ k < 2 ^ f.mw then 3 else 1) ∧
      (k < 2 ^ f.mw → p = f.qmin) := by
  have h := trunc_of_le f hm (q := spacing f m e) (le_max_right _ _) ((max_choice _ _).symm.imp id le_of_eq)
  have hmant := wholePart_lt f hm (q := spacing f m e) (le_max_left _ _)
  rw [roundTo_eq f mode sat neg hm, if_neg hsr] at h4 ⊢
  dsimp only at h4 ⊢
  generalize spacing f m e = q at *
  have hN := takenUp_cases (wholePart m e q) (leftPart m e q) (q - e).toNat
    (roundUp mode neg (wholePart m e q) (leftPart m e q) (q - e).toNat 0 = true)
  generalize (if leftPart m e q ≠ 0 ∧ roundUp mode neg (wholePart m e q) (leftPart m e q) (q - e).toNat 0 = true then
    wholePart m e q + 1 else wholePart m e q) = N at *
  rcases endRound_cases f mode sat neg (decide (leftPart m e q ≠ 0)) (n := N) h.lo (by have := h.norm; omega) (by omega) with
    ⟨q1, n1, hc, hr, -, hend⟩ | ⟨-, hend⟩
  · rw [hend]
    refine ⟨n1, q1, (Fmt.decode_encode hf neg hr).1, fun a s ha hs => ?_, ?_, fun hlt => hr.norm.resolve_right (Nat.not_le.2 hlt)⟩
    · rw [hc.value]
      refine ⟨fun hV => (h.number_le ha hs hV).trans ?_, fun hV => h.le_number hN ha hs hV⟩
      have : wholePart m e q ≤ N := by omega
      have := two_zpow_pos q
      gcongr
    · rw [fitFlags_eq]
      by_cases h0 : leftPart m e q = 0
      · rw [if_pos h0, if_neg (by rw [decide_eq_true_eq]; exact fun h => h h0)]
      · rw [if_neg h0, if_pos (decide_eq_true h0)]
  · rw [hend] at h4
    exact absurd h4 (by decide : (5 : Flags) &&& 4 ≠ 0)
/-- A magnitude up to the largest finite one does not overflow. -/
theorem roundTo_fits (hf : f.Sound) (hsr : mode ≠ .sr) (sat neg : Bool) {m : Nat} (hm : m ≠ 0) {e : Int}
    (h : (m : ℚ) * 2 ^ e ≤ f.maxMant * 2 ^ f.qmax) : (roundTo f mode sat neg m e).2 &&& 4 = 0 :=
  (roundedBy_roundTo hf hsr sat neg hm e).2.2 _ _ (Fmt.decode_maxBits hf) (.inl h)
/-- An odd number of units is inexact at any greater spacing. -/
theorem leftPart_ne_zero {m : Nat} (hodd : m % 2 = 1) {e q : Int} (h : e < q) : leftPart m e q ≠ 0 := by
  unfold leftPart
  rw [if_neg (not_le.2 h)]
  obtain ⟨j, hj⟩ : ∃ j, (q - e).toNat = j + 1 := ⟨(q - e).toNat - 1, by omega⟩
  rw [hj, Nat.pow_succ']
  intro h0
  have := Nat.mod_mod_of_dvd m (Nat.dvd_mul_right 2 (2 ^ j))
  rw [h0] at this
  omega

/-! ### Magnitudes beyond FP32's range -/

theorem maxMant_fp32 : fp32.maxMant = 2 ^ 24 - 1 := by decide
theorem qmax_fp32 : fp32.qmax = 104 := by decide
/-- From 2^128 on, every mode overflows. -/
theorem roundTo_huge (hsr : mode ≠ .sr) (sat : Bool) {m : Nat} (hm : m ≠ 0) {e : Int} (h : (2 : ℚ) ^ (128 : Int) ≤ m * 2 ^ e) :
    roundTo fp32 mode sat false m e = ((if sat || towardZero mode false then 0x7F7FFFFF else 0x7F800000), 5) := by
  have hlog : 128 < e + log2 m + 1 := (zpow_lt_zpow_iff_right₀ (by norm_num : (1 : ℚ) < 2)).1 (h.trans_lt (log2_bounds hm e).2)
  have hq : fp32.qmax < spacing fp32 m e := by
    have : e + log2 m - fp32.mw ≤ spacing fp32 m e := le_max_left _ _
    have hmw : fp32.mw = 23 := rfl
    rw [qmax_fp32]
    omega
  rw [roundTo_eq _ _ _ _ hm, if_neg hsr]
  unfold endRound
  dsimp only
  rw [if_pos (.inl (by split <;> omega)), (overflow_eq fp32 mode sat false).1 rfl]
  cases sat || towardZero mode false <;> rfl
/-- Below 2^-150, half the least magnitude, every mode but upward gives zero. -/
theorem roundTo_tiny (hsr : mode ≠ .sr) (sat : Bool) {m : Nat} (hm : m ≠ 0) {e : Int} (h : (m : ℚ) * 2 ^ e < 2 ^ (-150 : Int)) :
    roundTo fp32 mode sat false m e = if mode = .rup then (1, 3) else (0, 1) := by
  have hlog : e + log2 m < -150 := (zpow_lt_zpow_iff_right₀ (by norm_num : (1 : ℚ) < 2)).1 ((log2_bounds hm e).1.trans_lt h)
  have hq : spacing fp32 m e = -149 := max_eq_right (by have hmw : fp32.mw = 23 := rfl; have : fp32.qmin = -149 := rfl; omega)
  have hlt : 2 * m < 2 ^ (-149 - e).toNat := by
    have h2 : (2 : ℚ) ^ (-150 : Int) * 2 = 2 ^ (-149 - e).toNat * 2 ^ e := by
      rw [← zpow_add_one₀ (by norm_num), two_zpow_toNat (by omega), ← two_zpow_add]; congr 1; omega
    have hp := two_zpow_pos e
    have : ((2 * m : Nat) : ℚ) * 2 ^ e < (2 ^ (-149 - e).toNat : Nat) * 2 ^ e := by push_cast; linarith
    exact Nat.cast_lt.1 (lt_of_mul_lt_mul_right this hp.le)
  have hwhole : wholePart m e (-149) = 0 := by
    unfold wholePart; rw [if_neg (by omega), Nat.div_eq_of_lt (by omega)]
  have hleft : leftPart m e (-149) = m := by
    unfold leftPart; rw [if_neg (by omega), Nat.mod_eq_of_lt (by omega)]
  rw [roundTo_eq _ _ _ _ hm, if_neg hsr]
  dsimp only
  rw [hq, hwhole, hleft]
  have hup : roundUp mode false 0 m (-149 - e).toNat 0 = decide (mode = .rup) := by
    cases mode with
    | rne =>
      show (decide (_ < 2 * m) || (2 * m == _ && false)) = false
      rw [Bool.and_false, Bool.or_false]
      exact decide_eq_false (by omega)
    | rtz => rfl
    | rdn => rfl
    | rup => exact bne_iff_ne.2 hm
    | sr => exact absurd rfl hsr
  rw [hup, decide_eq_true hm]
  by_cases hmode : mode = .rup
  · subst hmode
    rw [if_pos ⟨hm, rfl⟩]
    rfl
  · rw [if_neg fun h => hmode (of_decide_eq_true h.2), if_neg hmode]
    rfl
end Sys2Proof.Machine
end

section
/-! PROOFS OF THE SCOPE. Powers and logarithms of base 2: the series in fixed point and their bounds (R110, R111). -/
namespace Sys2Proof.Machine
open Spec

/-! ### The series -/

theorem le_expLoop (y n k t acc : Nat) : acc ≤ expLoop y n k t acc := by
  induction n generalizing k t acc with
  | zero => exact le_refl _
  | succ n ih => exact (Nat.le_add_right _ _).trans (ih _ _ _)
theorem expLoop_mono {y y' : Nat} (hy : y ≤ y') (n k : Nat) {t t' acc acc' : Nat} (ht : t ≤ t') (ha : acc ≤ acc') :
    expLoop y n k t acc ≤ expLoop y' n k t' acc' := by
  induction n generalizing k t t' acc acc' with
  | zero => exact ha
  | succ n ih =>
    have h : t * y / 2 ^ serP / k ≤ t' * y' / 2 ^ serP / k := by gcongr
    exact ih _ h (Nat.add_le_add ha h)
/-- The exponential of a number up to ln 2, in fixed point, is from 1 to below 2. -/
theorem expFix_bounds {y : Nat} (h : y ≤ ln2Fix) : 2 ^ serP ≤ expFix y ∧ expFix y < 2 ^ (serP + 1) := by
  have htop : expFix ln2Fix < 2 ^ (serP + 1) := by decide +kernel
  exact ⟨le_expLoop _ _ _ _ _, (expLoop_mono h _ _ (le_refl _) (le_refl _)).trans_lt htop⟩
theorem le_athLoop (z2 n k t acc : Nat) : acc ≤ athLoop z2 n k t acc := by
  induction n generalizing k t acc with
  | zero => exact le_refl _
  | succ n ih => exact (Nat.le_add_right _ _).trans (ih _ _ _)
theorem first_le_athLoop (z2 n k t acc : Nat) : acc + t / k ≤ athLoop z2 (n + 1) k t acc := le_athLoop _ _ _ _ _
theorem athLoop_mono {z z' : Nat} (hz : z ≤ z') (n k : Nat) {t t' acc acc' : Nat} (ht : t ≤ t') (ha : acc ≤ acc') :
    athLoop z n k t acc ≤ athLoop z' n k t' acc' := by
  induction n generalizing k t t' acc acc' with
  | zero => exact ha
  | succ n ih => exact ih _ (by gcongr) (by gcongr)
/-- Quotients of one numerator's multiples compare as their cross products do. -/
theorem mul_div_le_mul_div {a b c d : Nat} (P : Nat) (hb : 0 < b) (hd : 0 < d) (h : a * d ≤ c * b) : a * P / b ≤ c * P / d := by
  rw [Nat.le_div_iff_mul_le hd]
  refine Nat.le_of_mul_le_mul_right ?_ hb
  calc a * P / b * d * b = a * P / b * b * d := by ring
    _ ≤ a * P * d := Nat.mul_le_mul_right _ (Nat.div_mul_le_self _ _)
    _ = a * d * P := by ring
    _ ≤ c * b * P := Nat.mul_le_mul_right _ h
    _ = c * P * b := by ring
/-- The logarithm of a number of 24 bits or fewer above a power of two, over that power. -/
theorem lnFix_bounds {m L : Nat} (hL : L ≤ 23) (hlo : 2 ^ L < m) (hhi : m < 2 ^ (L + 1)) :
    2 ^ 200 ≤ lnFix m (2 ^ L) ∧ lnFix m (2 ^ L) ≤ lnFix (2 ^ 24 - 1) (2 ^ 23) := by
  have hD : 2 ^ L ≤ 2 ^ 23 := Nat.pow_le_pow_right (by decide) hL
  rw [Nat.pow_succ] at hhi
  unfold lnFix
  dsimp only
  generalize 2 ^ L = D at *
  have hlow : 1 * 2 ^ serP / 2 ^ 25 ≤ (m - D) * 2 ^ serP / (m + D) := mul_div_le_mul_div _ (by decide) (by omega) (by omega)
  have hhigh : (m - D) * 2 ^ serP / (m + D) ≤ (2 ^ 24 - 1 - 2 ^ 23) * 2 ^ serP / (2 ^ 24 - 1 + 2 ^ 23) := by
    refine mul_div_le_mul_div _ (by omega) (by decide) ?_
    obtain ⟨x, rfl⟩ : ∃ x, m = D + x := ⟨m - D, by omega⟩
    rw [Nat.add_sub_cancel_left]
    have : x + 1 ≤ D := by omega
    omega
  generalize (m - D) * 2 ^ serP / (m + D) = z at *
  constructor
  · have hfirst : z ≤ athLoop (z * z / 2 ^ serP) 110 1 z 0 := by
      have h := first_le_athLoop (z * z / 2 ^ serP) 109 1 z 0
      rwa [Nat.zero_add, Nat.div_one] at h
    have hleast : 2 ^ 200 ≤ 2 * (1 * 2 ^ serP / 2 ^ 25) := by decide +kernel
    exact hleast.trans (Nat.mul_le_mul_left 2 (hlow.trans hfirst))
  · exact Nat.mul_le_mul_left _ (athLoop_mono (by gcongr) _ _ hhigh (le_refl _))
/-- The fraction of its base-2 logarithm, in fixed point, stays clear of 0 and of 1. -/
theorem log2Fix_bounds {m L : Nat} (hL : L ≤ 23) (hlo : 2 ^ L < m) (hhi : m < 2 ^ (L + 1)) :
    2 ^ 200 ≤ lnFix m (2 ^ L) * 2 ^ serP / ln2Fix ∧ lnFix m (2 ^ L) * 2 ^ serP / ln2Fix + 2 ^ 200 ≤ 2 ^ serP := by
  obtain ⟨h1, h2⟩ := lnFix_bounds hL hlo hhi
  have hlow : 2 ^ 200 ≤ 2 ^ 200 * 2 ^ serP / ln2Fix := by decide +kernel
  have hhigh : lnFix (2 ^ 24 - 1) (2 ^ 23) * 2 ^ serP / ln2Fix + 2 ^ 200 ≤ 2 ^ serP := by decide +kernel
  refine ⟨hlow.trans (by gcongr), le_trans ?_ hhigh⟩
  gcongr

/-! ### Signed values -/

/-- A magnitude with its sign. -/
def signedValue (n : Bool) (x : ℚ) : ℚ := if n then -x else x
theorem signed_units_mul (n : Bool) (m : Nat) {e c : Int} (h : c ≤ e) : (signed n (units m e c) : ℚ) * 2 ^ c = signedValue n (m * 2 ^ e) := by
  unfold signed signedValue
  cases n
  · exact units_mul m h
  · show ((-(units m e c : Int) : Int) : ℚ) * 2 ^ c = -(m * 2 ^ e)
    rw [← units_mul m h]; push_cast; ring
theorem whole_units_mul (t : Int) {c : Int} (h : c ≤ 0) : ((t * (units 1 0 c : Nat) : Int) : ℚ) * 2 ^ c = t := by
  have := units_mul 1 h
  push_cast at this ⊢
  rw [mul_assoc, this]; simp
section
variable (n : Bool) (m : Nat) (t : Int) {e c : Int} (he : c ≤ e) (h0 : c ≤ 0)
include he h0
/-- A whole number against a signed magnitude, in units of a finer exponent. -/
theorem whole_le_signed : t * (units 1 0 c : Nat) ≤ signed n (units m e c) ↔ (t : ℚ) ≤ signedValue n (m * 2 ^ e) := by
  rw [← signed_units_mul n m he, ← whole_units_mul t h0, mul_le_mul_iff_left₀ (two_zpow_pos c), Int.cast_le]
theorem signed_le_whole : signed n (units m e c) ≤ t * (units 1 0 c : Nat) ↔ signedValue n (m * 2 ^ e) ≤ (t : ℚ) := by
  rw [← signed_units_mul n m he, ← whole_units_mul t h0, mul_le_mul_iff_left₀ (two_zpow_pos c), Int.cast_le]
end
end Sys2Proof.Machine
end

section
/-! PROOFS OF THE SCOPE. Powers of 2 and base-2 logarithms: what they round (R110, R111). -/
namespace Sys2Proof.Machine
open Spec
variable (env : FpEnv)

/-! ### FP32 numbers from a rounding -/

theorem f32_w32 {r : Nat × Flags} (h : r.1 < 2 ^ 32) : f32 (w32 r).1 = fp32.decode r.1 := by
  unfold f32 w32
  rw [BitVec.toNat_ofNat, Nat.mod_eq_of_lt h]
theorem roundTo_fp32_lt {mode : Rm} (hsr : mode ≠ .sr) (sat neg : Bool) (m : Nat) (e : Int) : (roundTo fp32 mode sat neg m e).1 < 2 ^ 32 :=
  roundedBy_fp32_lt (rounded_roundTo Fmt.sound_fp32 hsr sat neg m e)
theorem two_pow_number (t : Int) : ((1 : Nat) : ℚ) * 2 ^ t = 2 ^ t := by rw [Nat.cast_one, one_mul]

/-! ### The rounding of VEXP2 (R111) -/

/-- What VEXP2 rounds for an operand from t to below t + 1: a magnitude as far out of range as 2^t, or 2^t itself, or an odd number
of units strictly between it and 2^(t + 1). -/
def Exp2Rounds (x : ℚ) (t : Int) (M : Nat) (E : Int) : Prop :=
  (128 ≤ t ∧ (2 : ℚ) ^ (128 : Int) ≤ M * 2 ^ E) ∨ (t < -150 ∧ (M : ℚ) * 2 ^ E < 2 ^ (-150 : Int)) ∨ (x = t ∧ M = 1 ∧ E = t) ∨
    (x ≠ t ∧ M % 2 = 1 ∧ E = t - serP - 1 ∧ (2 : ℚ) ^ t < M * 2 ^ E ∧ (M : ℚ) * 2 ^ E < 2 ^ (t + 1))
/-- A number and its integer part: the operand is whole, or it has a fraction. -/
theorem floor_cases (neg : Bool) {m : Nat} {e t : Int} (h1 : (t : ℚ) ≤ signedValue neg (m * 2 ^ e)) (h2 : signedValue neg (m * 2 ^ e) < t + 1) :
    let n := sgn neg (if 0 ≤ e then m * 2 ^ e.toNat else m / 2 ^ (-e).toNat)
    ((0 ≤ e ∨ m % 2 ^ (-e).toNat = 0) ∧ signedValue neg (m * 2 ^ e) = t ∧ n = t) ∨
      (¬ (0 ≤ e ∨ m % 2 ^ (-e).toNat = 0) ∧ signedValue neg (m * 2 ^ e) ≠ t ∧ (if neg then n - 1 else n) = t) := by
  intro n
  have hval : (m : ℚ) * 2 ^ e = ((wholePart m e 0 : Nat) : ℚ) + leftPart m e 0 / 2 ^ (0 - e).toNat := by
    rw [value_wholePart m e 0, zpow_zero, mul_one]
  have hn : n = sgn neg (wholePart m e 0) := by
    show sgn neg (if 0 ≤ e then _ else _) = _
    unfold wholePart
    rw [Int.sub_zero, Int.zero_sub]
  have hwhole : (0 ≤ e ∨ m % 2 ^ (-e).toNat = 0) ↔ leftPart m e 0 = 0 := by
    unfold leftPart
    rw [Int.zero_sub]
    split
    · exact iff_of_true (.inl ‹_›) rfl
    · exact or_iff_right ‹_›
  have hpart : (leftPart m e 0 : ℚ) / 2 ^ (0 - e).toNat < 1 := by
    rw [div_lt_one (by positivity)]; exact_mod_cast leftPart_lt m e 0
  have hpos : 0 < leftPart m e 0 → (0 : ℚ) < leftPart m e 0 / 2 ^ (0 - e).toNat := fun h => by
    have : (0 : ℚ) < leftPart m e 0 := Nat.cast_pos.2 h
    positivity
  rw [hwhole, hn]
  rw [hval] at h1 h2 ⊢
  generalize wholePart m e 0 = w at *
  by_cases h0 : leftPart m e 0 = 0
  · -- a whole number
    rw [h0, Nat.cast_zero, zero_div, add_zero] at h1 h2 ⊢
    have hs : signedValue neg (w : ℚ) = (sgn neg w : Int) := by cases neg <;> simp [signedValue, sgn]
    rw [hs] at h1 h2 ⊢
    have ht : sgn neg w = t := le_antisymm (Int.lt_add_one_iff.1 (by exact_mod_cast h2)) (by exact_mod_cast h1)
    exact .inl ⟨rfl, by rw [ht], ht⟩
  · -- one with a fraction ρ
    have hρ := hpos (Nat.pos_of_ne_zero h0)
    generalize (leftPart m e 0 : ℚ) / 2 ^ (0 - e).toNat = ρ at *
    refine .inr ⟨h0, ?_⟩
    cases neg
    · have h3 : (t : ℚ) < ((w + 1 : Int) : ℚ) := by push_cast; exact h1.trans_lt (by show (w : ℚ) + ρ < _; linarith)
      have h4 : ((w : Int) : ℚ) < ((t + 1 : Int) : ℚ) := by push_cast; exact lt_trans (by show (w : ℚ) < w + ρ; linarith) h2
      have ht : (w : Int) = t := by have := Int.cast_lt.1 h3; have := Int.cast_lt.1 h4; omega
      refine ⟨?_, ht⟩
      rw [← ht]
      show (w : ℚ) + ρ ≠ ((w : Int) : ℚ)
      push_cast
      linarith
    · have h3 : (t : ℚ) < ((-w : Int) : ℚ) := by push_cast; exact h1.trans_lt (by show -((w : ℚ) + ρ) < _; linarith)
      have h4 : ((-w - 1 : Int) : ℚ) < ((t + 1 : Int) : ℚ) := by push_cast; exact lt_trans (by show (-w - 1 : ℚ) < -(w + ρ); linarith) h2
      have ht : -(w : Int) - 1 = t := by have := Int.cast_lt.1 h3; have := Int.cast_lt.1 h4; omega
      refine ⟨?_, ht⟩
      rw [← ht]
      show -((w : ℚ) + ρ) ≠ ((-(w : Int) - 1 : Int) : ℚ)
      push_cast
      intro h
      linarith
theorem fExp2_rounds {a : W32} {neg : Bool} {m : Nat} {e t : Int} (h : f32 a = .num neg m e) (h1 : (t : ℚ) ≤ signedValue neg (m * 2 ^ e))
    (h2 : signedValue neg (m * 2 ^ e) < t + 1) :
    ∃ M E, M ≠ 0 ∧ fExp2 env a = w32 (roundTo fp32 env.mode env.sat false M E) ∧ Exp2Rounds (signedValue neg (m * 2 ^ e)) t M E := by
  have hcase := floor_cases neg h1 h2
  unfold fExp2
  rw [h]
  dsimp only at hcase ⊢
  generalize signedValue neg (m * 2 ^ e) = x at *
  generalize sgn neg (if 0 ≤ e then m * 2 ^ e.toNat else m / 2 ^ (-e).toNat) = n at *
  have hn : n = t ∨ n = t + 1 := by
    rcases hcase with ⟨-, -, hn⟩ | ⟨-, -, hn⟩
    · exact .inl hn
    · split at hn <;> omega
  by_cases hbig : n > 400
  · rw [if_pos hbig]
    refine ⟨1, 400, one_ne_zero, rfl, .inl ⟨by omega, ?_⟩⟩
    rw [two_pow_number]
    exact two_zpow_le (by norm_num)
  rw [if_neg hbig]
  by_cases hsmall : n < -400
  · rw [if_pos hsmall]
    refine ⟨3, -402, by decide, rfl, .inr (.inl ⟨by omega, ?_⟩)⟩
    calc ((3 : Nat) : ℚ) * 2 ^ (-402 : Int) < 2 ^ (2 : Int) * 2 ^ (-402 : Int) := mul_lt_mul_of_pos_right (by norm_num) (two_zpow_pos _)
      _ = 2 ^ (-400 : Int) := (two_zpow_add _ _).symm
      _ ≤ 2 ^ (-150 : Int) := two_zpow_le (by norm_num)
  rw [if_neg hsmall]
  rcases hcase with ⟨hw, hx, hn⟩ | ⟨hw, hx, hn⟩
  · rw [if_pos hw]
    exact ⟨1, n, one_ne_zero, rfl, .inr (.inr (.inl ⟨hx, rfl, hn⟩))⟩
  · rw [if_neg hw, hn]
    -- the fraction times ln 2 is at most ln 2
    obtain ⟨r, hr, hrk⟩ : ∃ r, (if neg then 2 ^ (-e).toNat - m % 2 ^ (-e).toNat else m % 2 ^ (-e).toNat) = r ∧ r ≤ 2 ^ (-e).toNat := by
      refine ⟨_, rfl, ?_⟩
      split
      · exact Nat.sub_le _ _
      · exact (Nat.mod_lt _ (Nat.two_pow_pos _)).le
    rw [hr]
    obtain ⟨hy1, hy2⟩ := expFix_bounds (y := r * ln2Fix / 2 ^ (-e).toNat) (Nat.div_le_of_le_mul (Nat.mul_le_mul_right _ hrk))
    generalize expFix (r * ln2Fix / 2 ^ (-e).toNat) = y at *
    refine ⟨2 * y + 1, t - serP - 1, by omega, rfl, .inr (.inr (.inr ⟨hx, by omega, rfl, ?_, ?_⟩))⟩
    · have : (2 : ℚ) ^ t = 2 * 2 ^ serP * 2 ^ (t - serP - 1) := by
        rw [← zpow_natCast, mul_comm (2 : ℚ), ← zpow_add_one₀ (by norm_num), ← two_zpow_add]; congr 1; omega
      rw [this, mul_lt_mul_iff_left₀ (two_zpow_pos _)]
      exact_mod_cast (by omega : 2 * 2 ^ serP < 2 * y + 1)
    · have : (2 : ℚ) ^ (t + 1) = 2 * 2 ^ (serP + 1) * 2 ^ (t - serP - 1) := by
        rw [← zpow_natCast, mul_comm (2 : ℚ), ← zpow_add_one₀ (by norm_num), ← two_zpow_add]; congr 1; push_cast; omega
      rw [this, mul_lt_mul_iff_left₀ (two_zpow_pos _)]
      exact_mod_cast (by omega : 2 * y + 1 < 2 * 2 ^ (serP + 1))

/-! ### VEXP2's clauses -/

theorem overflow_bit : ∀ fl : Flags, fl &&& 4 = 0 ↔ fl.getLsbD 2 = false := by decide
section
variable {env} (hsr : env.mode ≠ .sr) {x : ℚ} {t E : Int} {M : Nat} (hM : M ≠ 0) (h : Exp2Rounds x t M E)
include hsr hM h
theorem Exp2Rounds.exact (hx : x = t) :
    Rounded fp32 env.mode env.sat false 1 1 t (bits (w32 (roundTo fp32 env.mode env.sat false M E))) := by
  have same : roundTo fp32 env.mode env.sat false M E = roundTo fp32 env.mode env.sat false 1 t := by
    rcases h with ⟨ht, hV⟩ | ⟨ht, hV⟩ | ⟨-, rfl, rfl⟩ | ⟨hne, -⟩
    · rw [roundTo_huge hsr _ hM hV, roundTo_huge hsr _ one_ne_zero (by rw [two_pow_number]; exact two_zpow_le ht)]
    · rw [roundTo_tiny hsr _ hM hV, roundTo_tiny hsr _ one_ne_zero
        (by rw [two_pow_number]; exact (zpow_lt_zpow_iff_right₀ (by norm_num)).2 ht)]
    · rfl
    · exact absurd hx hne
  rw [same]
  exact rounded_w32 hsr _ _ _ _
theorem Exp2Rounds.huge (hx : x ≠ t) (ht : 128 ≤ t) :
    w32 (roundTo fp32 env.mode env.sat false M E) = (if env.sat || towardZero env.mode false then 0x7F7FFFFF else 0x7F800000, 5) := by
  have hV : (2 : ℚ) ^ (128 : Int) ≤ M * 2 ^ E := by
    rcases h with ⟨-, hV⟩ | ⟨hlt, -⟩ | ⟨heq, -⟩ | ⟨-, -, -, hV, -⟩
    · exact hV
    · omega
    · exact absurd heq hx
    · exact (two_zpow_le ht).trans hV.le
  rw [roundTo_huge hsr _ hM hV]
  cases env.sat || towardZero env.mode false <;> rfl
theorem Exp2Rounds.tiny (hx : x ≠ t) (ht : t < -150) :
    w32 (roundTo fp32 env.mode env.sat false M E) = if env.mode = .rup then (1, 3) else (0, 1) := by
  have hV : (M : ℚ) * 2 ^ E < 2 ^ (-150 : Int) := by
    rcases h with ⟨hge, -⟩ | ⟨-, hV⟩ | ⟨heq, -⟩ | ⟨-, -, -, -, hV⟩
    · omega
    · exact hV
    · exact absurd heq hx
    · exact hV.trans_le (two_zpow_le (by omega))
  rw [roundTo_tiny hsr _ hM hV]
  split <;> rfl
theorem Exp2Rounds.between (hx : x ≠ t) (hlo : -149 ≤ t) (hhi : t < 128) :
    let r := w32 (roundTo fp32 env.mode env.sat false M E)
    r.2.getLsbD 0 = true ∧ (t < 127 → r.2.getLsbD 2 = false) ∧
      (r.2.getLsbD 2 = false → ∃ k p, f32 r.1 = .num false k p ∧ units 1 t (min p t) ≤ units k p (min p t) ∧
        units k p (min p t) ≤ 2 * units 1 t (min p t)) := by
  intro r
  obtain ⟨-, hodd, hE, h1, h2⟩ : x ≠ t ∧ M % 2 = 1 ∧ E = t - serP - 1 ∧ (2 : ℚ) ^ t < M * 2 ^ E ∧ (M : ℚ) * 2 ^ E < 2 ^ (t + 1) := by
    rcases h with ⟨hge, -⟩ | ⟨hlt, -⟩ | ⟨heq, -⟩ | h
    · omega
    · omega
    · exact absurd heq hx
    · exact h
  have hr : r = w32 (roundTo fp32 env.mode env.sat false M E) := rfl
  have hr2 : r.2 = (roundTo fp32 env.mode env.sat false M E).2 := rfl
  have hleft : leftPart M E (spacing fp32 M E) ≠ 0 := by
    refine leftPart_ne_zero hodd (lt_of_lt_of_le ?_ (le_max_right _ _))
    have hs : serP = 320 := rfl
    have hq : fp32.qmin = -149 := rfl
    omega
  have number := roundTo_between Fmt.sound_fp32 hsr env.sat false hM E
  have hover := (roundedBy_roundTo Fmt.sound_fp32 hsr env.sat false hM E).2.1
  have hr1 : f32 r.1 = fp32.decode (roundTo fp32 env.mode env.sat false M E).1 := f32_w32 (roundTo_fp32_lt hsr _ _ _ _)
  have fits (ht : t < 127) := roundTo_fits Fmt.sound_fp32 hsr env.sat false hM (e := E) (by
    refine h2.le.trans ((two_zpow_le (by omega : t + 1 ≤ 127)).trans ?_)
    rw [maxMant_fp32, qmax_fp32]
    norm_num)
  rw [hr1, hr2]
  generalize roundTo fp32 env.mode env.sat false M E = u at *
  refine ⟨?_, fun ht => (overflow_bit _).1 (fits ht), fun hfit => ?_⟩
  · by_cases h4 : u.2 &&& 4 = 0
    · obtain ⟨k, p, -, -, hfl, -⟩ := number h4
      rw [hfl, if_neg hleft]
      split <;> rfl
    · rw [(hover h4).1]; rfl
  · obtain ⟨k, p, hdec, hside, -⟩ := number ((overflow_bit _).2 hfit)
    refine ⟨k, p, hdec, ?_, ?_⟩
    · rw [units_le_units 1 k (min_le_right _ _) (min_le_left _ _)]
      exact (hside 1 t (by decide) hlo).1 (by rw [two_pow_number]; exact h1.le)
    · rw [mul_units, units_le_units k (2 * 1) (min_le_left _ _) (min_le_right _ _)]
      have h3 := (hside 1 (t + 1) (by decide) (by have hq : fp32.qmin = -149 := rfl; omega)).2 (by rw [two_pow_number]; exact h2.le)
      rw [two_pow_number, zpow_add_one₀ (by norm_num)] at h3
      push_cast
      linarith
end

/-! ### VLOG2 (R111) -/

/-- The logarithm of a number that is no power of 2, as the model rounds it: an odd number of units of 2^-321 strictly between t and
t + 1, and clear of both. -/
theorem fLog2_parts {a : W32} {m : Nat} {e : Int} (h : f32 a = .num false m e) (hm : m ≠ 2 ^ log2 m) (hm0 : m ≠ 0) :
    ∃ v : Int, fLog2 env a = w32 (roundTo fp32 env.mode env.sat (decide (v < 0)) v.natAbs (-serP - 1)) ∧ v % 2 = 1 ∧
      (e + log2 m) * 2 ^ (serP + 1) + 2 ^ 200 ≤ v ∧ v + 2 ^ 200 ≤ (e + log2 m + 1) * 2 ^ (serP + 1) := by
  have hlo : 2 ^ log2 m < m := lt_of_le_of_ne (Nat.log2_self_le hm0) (Ne.symm hm)
  have hhi : m < 2 ^ (log2 m + 1) := Nat.lt_log2_self
  have h24 : m < 2 ^ 24 := by
    have hn : fp32.decode a.toNat = .num false m e := h
    exact (Fmt.decode_num Fmt.sound_fp32 hn).1
  have hL : log2 m ≤ 23 := Nat.lt_succ_iff.1 ((Nat.log2_lt hm0).2 h24)
  obtain ⟨h1, h2⟩ := log2Fix_bounds hL hlo hhi
  unfold fLog2 fLog
  rw [h]
  dsimp only
  rw [if_neg hm0, if_neg Bool.false_ne_true, if_neg fun hp => hm hp.1, if_neg fun hp => hm hp.1]
  unfold logFix
  rw [if_pos rfl]
  generalize lnFix m (2 ^ log2 m) * 2 ^ serP / ln2Fix = F at *
  refine ⟨_, rfl, by omega, ?_, ?_⟩
  · have h1' : (2 : Int) ^ 200 ≤ F := by exact_mod_cast h1
    rw [pow_succ _ serP]
    linarith
  · have h2' : (F : Int) + 2 ^ 200 ≤ 2 ^ serP := by exact_mod_cast h2
    have hone : (1 : Int) ≤ 2 ^ 200 := by norm_num
    rw [pow_succ _ serP]
    linarith
/-- It is then rounded to a number from t to t + 1, inexactly. -/
theorem fLog2_between (hsr : env.mode ≠ .sr) {a : W32} {m : Nat} {e : Int} (h : f32 a = .num false m e) (hm : m ≠ 2 ^ log2 m) (hm0 : m ≠ 0) :
    (fLog2 env a).2 = 1 ∧ ∃ n k p, f32 (fLog2 env a).1 = .num n k p ∧
      ((e + log2 m : Int) : ℚ) ≤ signedValue n (k * 2 ^ p) ∧ signedValue n (k * 2 ^ p) ≤ ((e + log2 m + 1 : Int) : ℚ) := by
  obtain ⟨v, hv, hodd, h1, h2⟩ := fLog2_parts env h hm hm0
  have hrange : -149 ≤ e + log2 m ∧ e + log2 m ≤ 127 := by
    have hn : fp32.decode a.toNat = .num false m e := h
    obtain ⟨h24, hlo, hhi⟩ := Fmt.decode_num Fmt.sound_fp32 hn
    have hL : log2 m < 24 := (Nat.log2_lt hm0).2 h24
    have hq : fp32.qmin = -149 := rfl
    rw [qmax_fp32] at hhi
    omega
  generalize e + (log2 m : Int) = t at *
  -- the magnitude lies between T and T + 1, clear of zero
  obtain ⟨T, hT, hTs, hV1, hV2⟩ : ∃ T : Nat, T ≤ 148 ∧ (if v < 0 then t = -(T : Int) - 1 else t = T) ∧
      T * 2 ^ (serP + 1) + 2 ^ 200 ≤ v.natAbs ∧ v.natAbs ≤ (T + 1) * 2 ^ (serP + 1) := by
    have hP : (0 : Int) < 2 ^ (serP + 1) := by positivity
    have hc : (0 : Int) < 2 ^ 200 := by norm_num
    by_cases hv0 : v < 0
    · have ht : t < 0 := by
        by_contra hge
        have := mul_nonneg (not_lt.1 hge) hP.le
        linarith
      refine ⟨(-t - 1).toNat, by omega, by rw [if_pos hv0]; omega, ?_, ?_⟩ <;> zify <;>
        rw [abs_of_neg hv0, Int.toNat_of_nonneg (by omega)] <;> linarith
    · have ht : 0 ≤ t := by
        by_contra hlt
        have := mul_nonneg (by omega : 0 ≤ -(t + 1)) hP.le
        linarith
      refine ⟨t.toNat, by omega, by rw [if_neg hv0]; omega, ?_, ?_⟩ <;> zify <;>
        rw [abs_of_nonneg (not_lt.1 hv0), Int.toNat_of_nonneg ht] <;> linarith
  have hm' : v.natAbs ≠ 0 := by omega
  have hunit : (2 : ℚ) ^ (serP + 1) * 2 ^ (-serP - 1 : Int) = 1 := by
    rw [← zpow_natCast, ← two_zpow_add, ← zpow_zero (2 : ℚ)]; congr 1
  have hu := two_zpow_pos (-serP - 1 : Int)
  have hV1' : (T : ℚ) + 2 ^ 200 * 2 ^ (-serP - 1 : Int) ≤ v.natAbs * 2 ^ (-serP - 1 : Int) := by
    have : ((T * 2 ^ (serP + 1) + 2 ^ 200 : Nat) : ℚ) ≤ v.natAbs := Nat.cast_le.2 hV1
    push_cast at this
    calc (T : ℚ) + 2 ^ 200 * 2 ^ (-serP - 1 : Int) = (T * 2 ^ (serP + 1) + 2 ^ 200) * 2 ^ (-serP - 1 : Int) := by rw [add_mul, mul_assoc, hunit, mul_one]
      _ ≤ _ := mul_le_mul_of_nonneg_right this hu.le
  have hV2' : (v.natAbs : ℚ) * 2 ^ (-serP - 1 : Int) ≤ T + 1 := by
    have : (v.natAbs : ℚ) ≤ ((T + 1) * 2 ^ (serP + 1) : Nat) := Nat.cast_le.2 hV2
    push_cast at this
    calc (v.natAbs : ℚ) * 2 ^ (-serP - 1 : Int) ≤ (T + 1) * 2 ^ (serP + 1) * 2 ^ (-serP - 1 : Int) := mul_le_mul_of_nonneg_right this hu.le
      _ = T + 1 := by rw [mul_assoc, hunit, mul_one]
  have hleft : leftPart v.natAbs (-serP - 1) (spacing fp32 v.natAbs (-serP - 1)) ≠ 0 :=
    leftPart_ne_zero (by omega) (lt_of_lt_of_le (by decide : (-serP - 1 : Int) < fp32.qmin) (le_max_right _ _))
  have hT' : (T : ℚ) ≤ 148 := by exact_mod_cast hT
  have fits := roundTo_fits Fmt.sound_fp32 hsr env.sat (decide (v < 0)) hm' (e := -serP - 1) (by
    refine hV2'.trans ?_
    rw [maxMant_fp32, qmax_fp32]
    norm_num
    linarith)
  obtain ⟨k, p, hdec, hside, hfl, hnorm⟩ := roundTo_between Fmt.sound_fp32 hsr env.sat (decide (v < 0)) hm' (-serP - 1) fits
  rw [hv, f32_w32 (roundTo_fp32_lt hsr _ _ _ _), hdec]
  have hq : fp32.qmin = -149 := rfl
  have hk1 := (hside T 0 (by have : fp32.mw = 23 := rfl; rw [this]; omega) (by omega)).1
  have hk2 := (hside (T + 1) 0 (by have : fp32.mw = 23 := rfl; rw [this]; omega) (by omega)).2
  have hk3 := (hside (2 ^ 23) (-149) (by decide) (by omega)).1
  rw [zpow_zero, mul_one] at hk1 hk2
  have hlow : (T : ℚ) ≤ k * 2 ^ p := hk1 (by have : (0 : ℚ) < 2 ^ 200 * 2 ^ (-serP - 1 : Int) := by positivity
                                             linarith)
  have hhigh : (k : ℚ) * 2 ^ p ≤ T + 1 := by exact_mod_cast hk2 (by push_cast; exact hV2')
  refine ⟨?_, _, k, p, rfl, ?_⟩
  · show (roundTo fp32 _ _ _ _ _).2 = 1
    rw [hfl, if_neg hleft]
    refine if_neg fun hsub => ?_
    have hnum : ((2 ^ 23 : Nat) : ℚ) * 2 ^ (-149 : Int) ≤ k * 2 ^ p := by
      refine hk3 (le_trans ?_ hV1')
      have hc : ((2 ^ 23 : Nat) : ℚ) * 2 ^ (-149 : Int) ≤ 2 ^ 200 * 2 ^ (-serP - 1 : Int) := by
        rw [Nat.cast_pow, Nat.cast_two, ← zpow_natCast, ← zpow_natCast, ← two_zpow_add, ← two_zpow_add]
        exact two_zpow_le (by decide)
      have : (0 : ℚ) ≤ T := Nat.cast_nonneg T
      linarith
    rw [hnorm hsub.2, hq, mul_le_mul_iff_left₀ (two_zpow_pos _), Nat.cast_le] at hnum
    exact absurd hsub.2 (Nat.not_lt.2 hnum)
  · by_cases hv0 : v < 0
    · rw [if_pos hv0] at hTs
      rw [hTs, decide_eq_true hv0]
      show _ ≤ -((k : ℚ) * 2 ^ p) ∧ -((k : ℚ) * 2 ^ p) ≤ _
      push_cast
      constructor <;> linarith
    · rw [if_neg hv0] at hTs
      rw [hTs, decide_eq_false hv0]
      show _ ≤ (k : ℚ) * 2 ^ p ∧ (k : ℚ) * 2 ^ p ≤ _
      push_cast
      exact ⟨hlow, hhigh⟩
end Sys2Proof.Machine
end

section
/-! PROOFS OF THE SCOPE. Roots, reciprocals, powers and logarithms by value (R55, R66, R85, R110, R111). -/
namespace Sys2Proof.Machine
open Spec
variable (env : FpEnv) {a : W32}

/-! ### Special operands (R85, R111) -/

theorem unary_nan {g : Bool} (h : f32 a = .nan g) :
    ∀ r ∈ [fSqrt env a, fRcp env a, fRsq env a, fExp2 env a, fLog2 env a, fAbs a], r = (0x7FC00000, if g = true then 16 else 0) := by
  simp only [List.mem_cons, List.not_mem_nil, or_false]
  rintro r (rfl | rfl | rfl | rfl | rfl | rfl)
  · unfold fSqrt; rw [h]; rfl
  · unfold fRcp; rw [h]; rfl
  · unfold fRsq; rw [h]; rfl
  · unfold fExp2; rw [h]; rfl
  · unfold fLog2 fLog; rw [h]; rfl
  · unfold fAbs; rw [h]; rfl
theorem fAbs_number (h : (f32 a).isNan = false) : fAbs a = (a &&& 0x7FFFFFFF, 0) := by
  unfold fAbs
  dsimp only
  rw [h]
  rfl
theorem unary_inf {n : Bool} (h : f32 a = .inf n) :
    fSqrt env a = (if n then (qnan32, 16) else (inf32 false, 0)) ∧ fRcp env a = (zero32 n, 0) ∧
      fRsq env a = (if n then (qnan32, 16) else (0, 0)) ∧ fExp2 env a = (if n then (0, 0) else (inf32 false, 0)) ∧
      fLog2 env a = (if n then (qnan32, 16) else (inf32 false, 0)) := by
  unfold fSqrt fRcp fRsq fExp2 fLog2 fLog
  rw [h]
  cases n <;> exact ⟨rfl, rfl, rfl, rfl, rfl⟩
/-- One is its own rounding. -/
theorem roundTo_one {mode : Rm} (sat : Bool) : w32 (roundTo fp32 mode sat false 1 0) = (0x3F800000, 0) := by
  cases mode <;> rfl
theorem unary_zero {n : Bool} {e : Int} (h : f32 a = .num n 0 e) :
    fSqrt env a = (zero32 n, 0) ∧ fRcp env a = (inf32 n, 8) ∧ fRsq env a = (inf32 n, 8) ∧ fExp2 env a = (0x3F800000, 0) ∧
      fLog2 env a = (0xFF800000, 8) := by
  refine ⟨?_, ?_, ?_, ?_, ?_⟩
  · unfold fSqrt; rw [h]; rfl
  · unfold fRcp; rw [h]; cases n <;> rfl
  · unfold fRsq; rw [h]; rfl
  · have hzero : sgn n (if 0 ≤ e then 0 * 2 ^ e.toNat else 0 / 2 ^ (-e).toNat) = 0 := by
      rw [Nat.zero_mul, Nat.zero_div, ite_self]; cases n <;> rfl
    unfold fExp2
    rw [h]
    dsimp only
    rw [hzero, if_neg (by decide), if_neg (by decide), if_pos (.inr (Nat.zero_mod _)), roundTo_one]
  · unfold fLog2 fLog; rw [h]; rfl
theorem unary_negative {m : Nat} {e : Int} (h : f32 a = .num true m e) (hm : m ≠ 0) :
    fSqrt env a = (qnan32, 16) ∧ fRsq env a = (qnan32, 16) ∧ fLog2 env a = (qnan32, 16) := by
  unfold fSqrt fRsq fLog2 fLog
  rw [h]
  dsimp only
  rw [if_neg hm, if_neg hm, if_neg hm]
  exact ⟨rfl, rfl, rfl⟩

/-! ### Numbers -/

section
variable (hsr : env.mode ≠ .sr) {m : Nat} {e : Int} (hm : m ≠ 0)
include hsr hm
theorem rounded_fRcp {n : Bool} (h : f32 a = .num n m e) : Rounded fp32 env.mode env.sat n 1 m (-e) (bits (fRcp env a)) := by
  have hq := fDivV_num env hsr false n 1 hm 0 e
  rw [← h, Bool.false_bne, Int.zero_sub] at hq
  exact hq
theorem rounded_fSqrt (h : f32 a = .num false m e) :
    RoundedBy fp32 env.mode env.sat false (fun n q => units (n * n) (2 * q) (min e (2 * q)) ≤ units m e (min e (2 * q)))
      (fun n q => units m e (min e (2 * q)) ≤ units (n * n) (2 * q) (min e (2 * q))) (bits (fSqrt env a)) := by
  have hmodel : fSqrt env a = roundSqrt env m 1 e := by
    unfold fSqrt
    rw [h]
    dsimp only
    rw [if_neg hm, if_neg Bool.false_ne_true]
  rw [hmodel]
  refine roundedBy_of_agree Fmt.sound_fp32 (fun n q _ => ?_) (roundedBy_roundSqrt env hsr hm one_ne_zero e)
  have hsquare : ((n * n : Nat) : ℚ) * 2 ^ (2 * q) = (n * 2 ^ q) ^ 2 := by
    rw [Int.two_mul, two_zpow_add]; push_cast; ring
  rw [units_le_units _ m (min_le_right _ _) (min_le_left _ _), units_le_units m _ (min_le_left _ _) (min_le_right _ _), hsquare,
    Nat.cast_one, div_one]
  exact ⟨Iff.rfl, Iff.rfl⟩
theorem rounded_fRsq (h : f32 a = .num false m e) :
    RoundedBy fp32 env.mode env.sat false (fun n q => units (n * n * m) (2 * q + e) (min (2 * q + e) 0) ≤ units 1 0 (min (2 * q + e) 0))
      (fun n q => units 1 0 (min (2 * q + e) 0) ≤ units (n * n * m) (2 * q + e) (min (2 * q + e) 0)) (bits (fRsq env a)) := by
  have hmodel : fRsq env a = roundSqrt env 1 m (-e) := by
    unfold fRsq
    rw [h]
    dsimp only
    rw [if_neg hm, if_neg Bool.false_ne_true]
  rw [hmodel]
  refine roundedBy_of_agree Fmt.sound_fp32 (fun n q _ => ?_) (roundedBy_roundSqrt env hsr one_ne_zero hm (-e))
  have hm' : (0 : ℚ) < m := Nat.cast_pos.2 (Nat.pos_of_ne_zero hm)
  have hsquare : ((n * n * m : Nat) : ℚ) * 2 ^ (2 * q + e) = (n * 2 ^ q) ^ 2 * (m * 2 ^ e) := by
    rw [two_zpow_add, Int.two_mul, two_zpow_add]; push_cast; ring
  have hinv : ((1 : Nat) : ℚ) / m * 2 ^ (-e) = 1 / (m * 2 ^ e) := by
    rw [zpow_neg, Nat.cast_one]; field_simp
  have hpos : (0 : ℚ) < m * 2 ^ e := mul_pos hm' (two_zpow_pos e)
  rw [units_le_units _ 1 (min_le_left _ _) (min_le_right _ _), units_le_units 1 _ (min_le_right _ _) (min_le_left _ _), hsquare, hinv,
    le_div_iff₀ hpos, div_le_iff₀ hpos, zpow_zero, mul_one, Nat.cast_one]
  exact ⟨Iff.rfl, Iff.rfl⟩
/-- The base-2 logarithm of a number from 2^t to below 2^(t + 1). -/
theorem fLog2_spec (h : f32 a = .num false m e) (t : Int) (h1 : units 1 t (min e t) ≤ units m e (min e t))
    (h2 : units m e (min e t) < 2 * units 1 t (min e t)) :
    (units m e (min e t) = units 1 t (min e t) → Rounded fp32 env.mode env.sat (decide (t < 0)) t.natAbs 1 0 (bits (fLog2 env a))) ∧
    (units m e (min e t) ≠ units 1 t (min e t) → (fLog2 env a).2 = 1 ∧ ∃ n k p, f32 (fLog2 env a).1 = .num n k p ∧
      t * units 1 0 (min p 0) ≤ signed n (units k p (min p 0)) ∧ signed n (units k p (min p 0)) ≤ (t + 1) * units 1 0 (min p 0)) := by
  obtain ⟨hl1, hl2⟩ := log2_bounds hm e
  rw [mul_units, units_lt_units m _ (min_le_left _ _) (min_le_right _ _)] at h2
  rw [units_le_units 1 m (min_le_right _ _) (min_le_left _ _)] at h1
  have hone : (1 : ℚ) < 2 := by norm_num
  have ht : t = e + log2 m := by
    have hlt : (2 : ℚ) ^ t < 2 ^ (e + log2 m + 1) := lt_of_le_of_lt (by rwa [Nat.cast_one, one_mul] at h1) hl2
    have hgt : (2 : ℚ) ^ (e + log2 m) < 2 ^ (t + 1) := lt_of_le_of_lt hl1 (by rw [zpow_add_one₀ (by norm_num)]; push_cast at h2; linarith)
    have := (zpow_lt_zpow_iff_right₀ hone).1 hlt
    have := (zpow_lt_zpow_iff_right₀ hone).1 hgt
    omega
  have hpow : units m e (min e t) = units 1 t (min e t) ↔ m = 2 ^ log2 m := by
    rw [units_eq_units m 1 (min_le_left _ _) (min_le_right _ _), ht, add_comm, two_zpow_add, ← mul_assoc, mul_eq_mul_right_iff,
      or_iff_left (two_zpow_pos e).ne', Nat.cast_one, one_mul, zpow_natCast]
    exact_mod_cast Iff.rfl
  rw [Ne, hpow]
  refine ⟨fun hp => ?_, fun hp => ?_⟩
  · have hmodel : fLog2 env a = w32 (roundTo fp32 env.mode env.sat (decide (t < 0)) t.natAbs 0) := by
      unfold fLog2 fLog
      rw [h]
      dsimp only
      rw [if_neg hm, if_neg Bool.false_ne_true, if_pos ⟨hp, rfl⟩, ← ht]
    rw [hmodel]
    exact rounded_w32 hsr _ _ _ _
  · obtain ⟨hfl, n, k, p, hk, hlow, hhigh⟩ := fLog2_between env hsr h hp hm
    rw [← ht] at hlow hhigh
    exact ⟨hfl, n, k, p, hk, (whole_le_signed n k t (min_le_left _ _) (min_le_right _ _)).2 hlow,
      (signed_le_whole n k (t + 1) (min_le_left _ _) (min_le_right _ _)).2 hhigh⟩
end
theorem rootsAndPowers : Spec.RootsAndPowers := by
  intro env a hsr x nan inf zero
  have hx : x = f32 a := rfl
  refine ⟨fun h => ?_, fAbs_number, fun h => unary_inf env h, fun h => ?_, fun n e h => ?_, fun m e h hm => unary_negative env h hm,
    fun n m e h hm => rounded_fRcp env hsr hm h, fun m e h hm => ⟨rounded_fSqrt env hsr hm h, rounded_fRsq env hsr hm h,
      fLog2_spec env hsr hm h⟩, ?_⟩
  · cases hv : f32 a with
    | nan g => rw [hx, hv]; exact unary_nan env hv
    | inf => rw [hx, hv] at h; cases h
    | num => rw [hx, hv] at h; cases h
  · exact unary_inf env h
  · exact unary_zero env h
  · intro n m e t h hm X U r h1 h2
    have hlow : (t : ℚ) ≤ signedValue n (m * 2 ^ e) := (whole_le_signed n m t (min_le_left _ _) (min_le_right _ _)).1 h1
    have hhigh : signedValue n (m * 2 ^ e) < t + 1 := by
      have := mt (whole_le_signed n m (t + 1) (min_le_left _ _) (min_le_right _ _)).2 (not_le.2 h2)
      push_cast at this
      exact not_le.1 this
    have hexact : X = t * U ↔ signedValue n (m * 2 ^ e) = t := by
      rw [le_antisymm_iff, le_antisymm_iff]
      exact and_congr (signed_le_whole n m t (min_le_left _ _) (min_le_right _ _)) (whole_le_signed n m t (min_le_left _ _) (min_le_right _ _))
    obtain ⟨M, E, hM, hr, hround⟩ := fExp2_rounds env h hlow hhigh
    have hr : r = w32 (roundTo fp32 env.mode env.sat false M E) := hr
    rw [hr, Ne, hexact]
    exact ⟨fun hx => hround.exact hsr hM hx, fun hx => hround.between hsr hM hx, fun hx => hround.huge hsr hM hx, fun hx => hround.tiny hsr hM hx⟩

/-- Settles O10: lane operations and compares by their mask, roots by the square that they round, powers and logarithms by the
bounds of their series. -/
theorem laneResults : Obligations.LaneResults := ⟨laneMask, laneOperations, laneCompares, rootsAndPowers⟩
end Sys2Proof.Machine
end

section
/-! PROOFS OF THE SCOPE. Vector loads and stores of the core's own CLM (R104 to R107, R117). -/
namespace Sys2Proof.Machine
open State Sys2Proof.Spec

/-! ### Accesses of the core's own CLM -/

/-- A clean load of the core's own CLM, named through window 14, is performed where it is. -/
theorem load_here {s : State} {va : Word} {off n : Nat} (h : AtClm va off n) (hc : Clean s off n) (hn : 0 < n) (hal : 14 * 2 ^ 48 % n = 0)
    (whole there : Bool) : s.load va n n whole there = .ok (s, s.readN (here s off) n, false, 8) := by
  obtain ⟨hva, hlo, hhi, hoff⟩ := h
  have haln : va.toNat % n = 0 := by rw [hva, Nat.add_mod, hal, hoff, Nat.zero_add, Nat.zero_mod]
  have hc : s.anyPoison (.clm s.who.rank off) n = false := hc
  unfold State.load
  simp only [decodeAddr_localAlias s s.who .read hva (by omega) haln, clmBad_open _ _ n hlo, bind, Except.bind, hc]
  cases there
  · rw [if_neg Bool.false_ne_true, show s.who.rank = s.rank from rfl, atHome_own]
    simp [clmTime, here]
  · rw [if_pos rfl]
    simp [clmTime, here, show s.who.rank = s.rank from rfl]
/-- A store there, which no matrix instruction still reads. -/
theorem store_here {s : State} {va : Word} {off n : Nat} (h : AtClm va off n) (hc : Settled s off n) (hn : 0 < n) (hal : 14 * 2 ^ 48 % n = 0)
    (v : Nat) (whole : Bool) : s.store va n n v whole = .ok (s.storeClm s.rank off n v, 8) := by
  obtain ⟨hva, hlo, hhi, hoff⟩ := h
  have haln : va.toNat % n = 0 := by rw [hva, Nat.add_mod, hal, hoff, Nat.zero_add, Nat.zero_mod]
  have hc : s.matrixReads off n = false := hc
  unfold State.store
  simp only [decodeAddr_localAlias s s.who .write hva (by omega) haln, clmBad_open _ _ n hlo, bind, Except.bind, hc]
  simp [clmTime, show s.who.rank = s.rank from rfl]

theorem exec_vld {s : State} {vd : BitVec 4} {a : BitVec 5} {im : BitVec 15} {off : Nat} (hr : Ready s [a] 0)
    (h : AtClm (addr s a im) off 128) (hc : Clean s off 128) :
    exec (.vld vd a im) s = .next (((s.moor.pops [a]).wv vd (BitVec.ofNat 1024 (s.readN (here s off) 128))).next) := by
  show execVld vd a im s = _
  unfold execVld
  dsimp only
  rw [checkIns_ok hr.1, show s.rx a + immS im = addr s a im from rfl, load_here h hc (by decide) rfl]
  simp only [bind, Except.bind, Bool.false_eq_true, if_false, finishMoored_ok]
  rw [done_short rfl (le_refl 8) rfl]
  simp [put]
theorem exec_vst {s : State} {vd : BitVec 4} {a : BitVec 5} {im : BitVec 15} {off : Nat} (hr : Ready s [a] 0)
    (h : AtClm (addr s a im) off 128) (hc : Settled s off 128) :
    exec (.vst vd a im) s = .next (((s.storeClm s.rank off 128 (s.rv vd).toNat).moor.pops [a]).next) := by
  show execVst vd a im s = _
  unfold execVst
  rw [checkIns_ok hr.1, show s.rx a + immS im = addr s a im from rfl, store_here h hc (by decide) rfl]
  simp only [bind, Except.bind, finishMoored_ok]
  rw [done_short rfl (le_refl 8) rfl]
  simp [put]

/-! ### The lanes of a gather -/

/-- Lanes that load clean words without changing the state give the packed words. -/
theorem eachLane_clean {f : LaneOp} {s : State} {act : Nat → Bool} {x : Nat → Nat} (n : Nat)
    (h : ∀ i < n, act i = true → f s i = .ok (s, x i, false, 8)) (hx : ∀ i, x i < 2 ^ 32) :
    eachLane f s act n = .ok (s, piecesNat 32 (fun i => if act i then x i else 0) n, 0, 8) := by
  induction n with
  | zero => rfl
  | succ n ih =>
    have hprev := ih fun i hi => h i (Nat.lt_succ_of_lt hi)
    unfold eachLane piecesNat
    rw [hprev]
    cases ha : act n
    · simp [bind, Except.bind]
    · simp only [bind, Except.bind, h n (Nat.lt_succ_self n) ha, if_true, Nat.mod_eq_of_lt (hx n), if_neg Bool.false_ne_true, Nat.add_zero,
        max_self]
/-- Only the choice of the lanes below n counts. -/
theorem eachLane_congr {f : LaneOp} {s : State} {act now : Nat → Bool} (n : Nat) (h : ∀ i < n, now i = act i) :
    eachLane f s now n = eachLane f s act n := by
  induction n with
  | zero => rfl
  | succ n ih =>
    unfold eachLane
    rw [ih fun i hi => h i (Nat.lt_succ_of_lt hi), h n (Nat.lt_succ_self n)]
/-- An address of window 14 names the executing core's own. -/
theorem laneHome_here {s : State} {va : Word} {off : Nat} (h : AtClm va off 4) : laneHome s va = s.rank := by
  obtain ⟨hva, -, hhi, -⟩ := h
  have h1 : fld va 48 16 ≠ 15 := by unfold fld; omega
  simp [laneHome, h1]
/-- A first issue has no lane behind it. -/
theorem issued_lanes_first {s : State} (h : s.myWait = none) : s.issued.lanes = none := by simp [issued, h, issueNow]

/-- At the first issue of a gather whose active lanes are all of the core's own CLM, all are performed together. -/
theorem lanesRun_own {f : LaneOp} {s : State} {addr : Nat → Word} {act : Nat → Bool} {n : Nat} {leave : State → State}
    {r : State × Nat × Nat × Nat} (hw : s.myWait = none) (hhome : ∀ i < n, act i = true → laneHome s (addr i) = s.rank)
    (hrun : eachLane f s act n = .ok r) : lanesRun f s addr act n leave = .ok r := by
  obtain ⟨t, v, p, lat⟩ := r
  have hnow : ∀ i < n, ((act i && (0 / 2 ^ i % 2 == 0)) && decide (laneDue s s.cycle (addr i) ≤ s.cycle)
      && ((laneHome s (addr i) == s.rank) || !s.rankHeld (laneHome s (addr i)))) = act i := by
    intro i hi
    cases ha : act i
    · simp
    · simp [hhome i hi ha, laneDue]
  unfold lanesRun
  dsimp only
  rw [issued_lanes_first hw, Option.getD_none, eachLane_congr n hnow, hrun]
  have hrest : (upTo n).filter (fun i => (act i && (0 / 2 ^ i % 2 == 0)) && !((act i && (0 / 2 ^ i % 2 == 0))
      && decide (laneDue s s.cycle (addr i) ≤ s.cycle) && ((laneHome s (addr i) == s.rank) || !s.rankHeld (laneHome s (addr i))))) = [] := by
    refine List.filter_eq_nil_iff.2 fun i hi => ?_
    rw [hnow i ((mem_upTo n i).1 hi)]
    simp
  rw [hrest]
  simp [bind, Except.bind]

theorem masked_congr {p : W32} {m : BitVec 1} {old : VReg} {f g : Nat → W32} (h : ∀ i < 32, active p m i = true → f i = g i) :
    masked p m old f = masked p m old g := by
  have hl : ∀ n ≤ 32, lanesNat (fun i => if active p m i then f i else lane old i) n
      = lanesNat (fun i => if active p m i then g i else lane old i) n := by
    intro n hn
    induction n with
    | zero => rfl
    | succ n ih =>
      unfold lanesNat
      rw [ih (by omega)]
      cases ha : active p m n
      · rfl
      · rw [if_pos rfl, if_pos rfl, h n (by omega) ha]
  unfold masked ofLanes
  rw [hl 32 (le_refl _)]
/-- Words that no poison touches settle as they are. -/
theorem settleLanes_clean (s : State) (addr : Nat → Word) (v : Nat) (dflt : W32) :
    settleLanes s addr v 0 dflt = .ok (s, fun i => BitVec.ofNat 32 (v / 2 ^ (32 * i))) := by
  unfold settleLanes
  rw [if_pos rfl]
/-- Lane i of packed words. -/
theorem word_piecesNat (f : Nat → Nat) {n i : Nat} (h : i < n) : BitVec.ofNat 32 (piecesNat 32 f n / 2 ^ (32 * i)) = BitVec.ofNat 32 (f i) := by
  apply BitVec.eq_of_toNat_eq
  rw [BitVec.toNat_ofNat, BitVec.toNat_ofNat]
  exact piece_piecesNat 32 f h

theorem gather_of_run {s u : State} {d : BitVec 4} {srcs : List (BitVec 5)} {m : BitVec 1} {addr : Nat → Word} {base v lat : Nat}
    (hr : ∀ r ∈ srcs, InReady s r) (h : lanesRun (loadLane addr) s addr (active s.me.p m) 32 State.moor = .ok (u, v, 0, lat)) :
    gather s d srcs m addr base = .next (u.moor.done (max base lat) { srcs := srcs, vw := some (d.toNat,
      masked s.me.p m (s.rv d) fun i => BitVec.ofNat 32 (v / 2 ^ (32 * i))) }) := by
  unfold gather
  rw [checkIns_ok hr, h]
  simp only [bind, Except.bind, settleLanes_clean, finishMoored_ok]
theorem scatter_of_run {s u : State} {d : BitVec 4} {srcs : List (BitVec 5)} {m : BitVec 1} {addr : Nat → Word} {base v lat : Nat}
    (hr : ∀ r ∈ srcs, InReady s r) (h : lanesRun (storeLane addr (s.rv d)) s addr (active s.me.p m) 32 State.moor = .ok (u, v, 0, lat)) :
    scatter s d srcs m addr base = .next (u.moor.done (max base lat) { srcs := srcs }) := by
  unfold scatter
  rw [checkIns_ok hr, h]
  simp only [bind, Except.bind, finishMoored_ok]
/-- A gather of clean words of the core's own CLM gives each active lane its own. -/
theorem gather_own {s : State} {d : BitVec 4} {srcs : List (BitVec 5)} {m : BitVec 1} {addr : Nat → Word} {base : Nat} {offs : Nat → Nat}
    (hr : ∀ r ∈ srcs, InReady s r) (hw : s.myWait = none) (hbase : 8 ≤ base)
    (h : ∀ i < 32, active s.me.p m i = true → LaneHere s (addr i) (offs i)) :
    gather s d srcs m addr base = .next (s.moor.done base { srcs := srcs, vw := some (d.toNat,
      masked s.me.p m (s.rv d) fun i => BitVec.ofNat 32 (s.readN (here s (offs i)) 4)) }) := by
  have hrun := eachLane_clean (f := loadLane addr) (x := fun i => s.readN (here s (offs i)) 4) 32
    (fun i hi ha => load_here (h i hi ha).1 (h i hi ha).2 (by decide) rfl false true) (fun i => readN_lt s _ 4)
  rw [gather_of_run hr (lanesRun_own hw (fun i hi ha => laneHome_here (h i hi ha).1) hrun), Nat.max_eq_left hbase,
    masked_congr fun i hi ha => (word_piecesNat _ hi).trans (by rw [if_pos ha])]

theorem vectorMemoryOperations : Spec.VectorMemory := by
  intro s vd vb a b im m t off strides indexes row act words
  refine ⟨fun hr h hc => exec_vld hr h hc, fun hr h hc => exec_vst hr h hc,
    fun offs hw => ⟨fun hr h => gather_own hr.1 hw (le_refl 8) h, fun hr h => gather_own hr.1 hw (by decide) h⟩,
    fun u v lat hr h => gather_of_run hr.1 h, fun u v lat hr h => gather_of_run hr.1 h,
    fun u v lat hr h => scatter_of_run hr.1 h, fun u v lat hr h => scatter_of_run hr.1 h, fun u v lat hr hal h => ?_⟩
  show execDtabLd t a im s = _
  unfold execDtabLd
  dsimp only
  have h : lanesRun (loadLane fun i => s.rx a + immS im + w64 (4 * i)) s (fun i => s.rx a + immS im + w64 (4 * i)) (fun _ => true) 256 id
      = .ok (u, v, 0, lat) := h
  rw [checkIns_ok hr.1, h]
  simp only [bind, Except.bind, settleLanes_clean]
  have hal : ¬ (s.rx a + immS im).toNat % 128 ≠ 0 := not_not.2 hal
  rw [if_neg hal]
  rfl
end Sys2Proof.Machine
end

section
/-! PROOFS OF THE SCOPE. Prefetches and cache operations: what they leave of the executing berth, and their times (R180, R193, R197). -/
namespace Sys2Proof.Machine
open State Sys2Proof.Spec

/-! ### Effects on memory and caches leave the berths alone -/

/-- `t` executes at the place of `s`, with the berths and the INSTRET of every core that `s` has. -/
structure SameBerths (s t : State) : Prop where
  place : SamePlace s t
  berths : ∀ q b, t.berthAt q b = s.berthAt q b
  instret : ∀ q, (t.core q).instret = (s.core q).instret

namespace SameBerths
variable {s t u : State}
theorem refl (s : State) : SameBerths s s := ⟨SamePlace.refl s, fun _ _ => rfl, fun _ => rfl⟩
theorem trans (h : SameBerths s t) (k : SameBerths t u) : SameBerths s u :=
  ⟨h.place.trans k.place, fun q b => (k.berths q b).trans (h.berths q b), fun q => (k.instret q).trans (h.instret q)⟩
theorem me (h : SameBerths s t) : t.me = s.me := by
  unfold State.me
  rw [h.berths, h.place.rank, h.place.berth]
theorem sameInstret (h : SameBerths s t) : SameInstret s t :=
  ⟨h.place.rank, by unfold State.myCore; rw [h.place.rank]; exact h.instret _⟩
/-- What touches no core. -/
theorem of_cores (h : SamePlace s t) (hc : t.cores = s.cores) : SameBerths s t :=
  ⟨h, fun q b => berthAt_of_cores hc q b, fun q => by rw [core_of_cores hc]⟩
theorem modCore (s : State) (r : Nat) (f : Core → Core) (hb : ∀ c, (f c).berths = c.berths) (hi : ∀ c, (f c).instret = c.instret) :
    SameBerths s (s.modCore r f) := by
  refine ⟨⟨rfl, rfl, rfl, rfl⟩, fun q b => berthAt_modCore s r q b f hb, fun q => ?_⟩
  by_cases e : q = r
  · rw [e, core_modCore_self, hi]
  · rw [core_modCore_of_ne _ _ _ _ e]
theorem modCluster (s : State) (cl : Nat) (f : Cluster → Cluster) : SameBerths s (s.modCluster cl f) :=
  of_cores ⟨rfl, rfl, rfl, rfl⟩ rfl
theorem fresh (s : State) : SameBerths s s.fresh := of_cores ⟨rfl, rfl, rfl, rfl⟩ rfl
theorem setPoison (s : State) (l : Loc) (p : Bool) : SameBerths s (s.setPoison l p) := by
  refine of_cores ?_ (setPoison_cores s l p)
  unfold State.setPoison
  split
  · exact ⟨rfl, rfl, rfl, rfl⟩
  · split <;> exact ⟨rfl, rfl, rfl, rfl⟩
theorem writeHbm (s : State) (a : Nat) (v : Byte) : SameBerths s (s.writeByte (.hbm a) v) := of_cores ⟨rfl, rfl, rfl, rfl⟩ rfl
theorem writeHbmN (s : State) (a n v : Nat) : SameBerths s (s.writeN (.hbm a) n v) := by
  induction n with
  | zero => exact refl s
  | succ n ih => exact ih.trans (writeHbm _ _ _)
theorem cleanByte (l : Line) (i : Nat) (s : State) : SameBerths s (State.cleanByte l i s) := by
  unfold State.cleanByte
  split
  · exact writeHbm s _ _
  · exact refl s
theorem cleanUnit (l : Line) (i : Nat) (s : State) : SameBerths s (State.cleanUnit l i s) := by
  unfold State.cleanUnit
  dsimp only
  split
  · exact refl s
  · split
    · exact setPoison s _ _
    · split
      · exact setPoison s _ _
      · exact refl s
theorem iter {f : Nat → State → State} (h : ∀ i t, SameBerths t (f i t)) (n : Nat) (s : State) : SameBerths s (Machine.iter f n s) :=
  iter_keeps (SameBerths s) f n s (refl s) fun i t _ k => k.trans (h i t)
theorem foldl {α : Type} {f : State → α → State} (h : ∀ t a, SameBerths t (f t a)) (l : List α) (s : State) : SameBerths s (l.foldl f s) :=
  foldl_keeps (SameBerths s) f l s (refl s) fun t a _ k => k.trans (h t a)
theorem cleanSector (s : State) (l : Line) (k : Nat) : SameBerths s (s.cleanSector l k) := by
  unfold State.cleanSector
  split
  · exact refl s
  · exact (iter (fun i t => cleanByte l _ t) _ _).trans (iter (fun i t => cleanUnit l _ t) _ _)
theorem cleanLine (s : State) (l : Line) : SameBerths s (s.cleanLine l) := by
  unfold State.cleanLine
  split
  · exact refl s
  · exact iter (fun k t => cleanSector t l k) _ _
theorem dropLine (s : State) (r asid va : Nat) : SameBerths s (s.dropLine r asid va) := modCore s r _ (fun _ => rfl) (fun _ => rfl)
theorem putLine (s : State) (r : Nat) (l : Line) : SameBerths s (s.putLine r l) := by
  unfold State.putLine
  extract_lets s0 set s1
  have h0 : SameBerths s s0 := dropLine s r _ _
  have h1 : SameBerths s s1 := by
    unfold s1
    split
    · exact h0
    · split
      · exact h0
      · exact ((h0.trans (cleanLine _ _)).trans (dropLine _ _ _ _)).trans (fresh _)
  exact h1.trans (modCore _ r _ (fun _ => rfl) (fun _ => rfl))
theorem bline (s : State) (cl pa : Nat) : SameBerths s (s.bline cl pa).1 := by
  unfold State.bline
  split
  · exact refl s
  · dsimp only
    split
    · exact refl s
    · exact (modCluster _ _ _).trans (fresh _)
theorem fetchSector (s : State) (cl : Nat) (steady : Bool) (pa : Nat) : SameBerths s (s.fetchSector cl steady pa).1 := by
  unfold State.fetchSector
  dsimp only
  split
  · exact bline s cl pa
  · exact refl s
theorem fillTlb (s : State) (cl asid va : Nat) (store : Bool) (w : Word × Bool × Nat) : SameBerths s (s.fillTlb cl asid va store w) := by
  unfold State.fillTlb
  extract_lets e new s1 l mates out
  have h1 : SameBerths s s1 := writeHbmN s _ _ _
  split
  · exact h1.trans (modCluster _ _ _)
  · exact h1.trans ((modCluster _ _ _).trans (fresh _))
theorem xlate (s : State) (cl : Nat) (w : Who) (k : Kind) (va : Nat) : SameBerths s (s.xlate cl w k va).1 := by
  obtain h | ⟨st, f, h⟩ := xlate_state s cl w k va <;> rw [h]
  · exact refl s
  · exact fillTlb s _ _ _ _ _
theorem mapped (s : State) (cl : Nat) (w : Who) (va : Nat) : SameBerths s (s.mapped cl w va).1 := by
  unfold State.mapped
  dsimp only
  split
  · exact refl s
  · split
    · exact fillTlb s _ _ _ _ _
    · exact refl s
theorem dropped (s : State) : SameBerths s s.dropped := by
  unfold State.dropped State.modMyCore
  refine modCore s s.rank _ (fun c => ?_) (fun c => ?_)
  · split <;> rfl
  · split <;> rfl
theorem fillSector (s : State) (r asid va : Nat) (p : Word) (pa : Nat) : SameBerths s (s.fillSector r asid va p pa) := by
  unfold State.fillSector
  dsimp only
  split
  · split
    · exact refl s
    · exact ((cleanSector s _ _).trans (fetchSector _ _ _ _)).trans (putLine _ _ _)
  · exact (fetchSector _ _ _ _).trans (putLine _ _ _)
theorem fillIcache (s : State) (r asid va : Nat) (p : Word) (pa : Nat) : SameBerths s (s.fillIcache r asid va p pa) := by
  unfold State.fillIcache
  exact (fetchSector s _ _ _).trans (modCore _ r _ (fun _ => rfl) (fun _ => rfl))
theorem cmoLine (clean : Bool) (asid lo hi : Nat) (s : State) (l : Line) : SameBerths s (State.cmoLine clean asid lo hi s l) := by
  unfold State.cmoLine
  split
  · refine iter (fun k t => ?_) _ _
    split
    · exact cleanSector t l k
    · exact refl t
  · exact refl s
theorem cmoL1 (s : State) (r asid lo hi : Nat) (clean inv : Bool) : SameBerths s (s.cmoL1 r asid lo hi clean inv) :=
  (foldl (cmoLine clean asid lo hi) _ s).trans (modCore _ r _ (fun _ => rfl) (fun _ => rfl))
theorem cmoBasin (s : State) (cl lo hi va pa : Nat) : SameBerths s (s.cmoBasin cl lo hi va pa) := modCluster s cl _
theorem cmoPages {f : State → Nat → Nat → State} (h : ∀ t va pa, SameBerths t (f t va pa)) (cl : Nat) (w : Who) (n : Nat) (s : State)
    (g : Nat) : SameBerths s (s.cmoPages cl w f g n) := by
  induction n generalizing s g with
  | zero => exact refl s
  | succ n ih =>
    unfold State.cmoPages
    dsimp only
    refine SameBerths.trans ?_ (ih _ _)
    split
    · exact (mapped s _ _ _).trans (h _ _ _)
    · exact mapped s _ _ _
end SameBerths

/-! ### Reading ports leaves the berth's program counter and block -/

/-- The berth of `t` stands at the word at which that of `s` stands, in no block if that one is in none. -/
structure SameWord (s t : State) : Prop where
  pc : t.me.pc = s.me.pc
  rpt : s.me.rpt = none → t.me.rpt = none

namespace SameWord
variable {s t u : State}
theorem refl (s : State) : SameWord s s := ⟨rfl, id⟩
theorem trans (h : SameWord s t) (k : SameWord t u) : SameWord s u := ⟨k.pc.trans h.pc, fun r => k.rpt (h.rpt r)⟩
theorem of_me (h : t.me = s.me) : SameWord s t := ⟨by rw [h], fun r => by rw [h]; exact r⟩
theorem modMe (s : State) (f : Berth → Berth) (hp : ∀ b, (f b).pc = b.pc) (hr : ∀ b, b.rpt = none → (f b).rpt = none) :
    SameWord s (s.modMe f) := by
  constructor
  · rw [me_modMe, hp]
  · rw [me_modMe]; exact hr s.me
theorem modMyCore (s : State) (f : Core → Core) (h : ∀ c, (f c).berths = c.berths) : SameWord s (s.modMyCore f) :=
  of_me (berthAt_modCore s s.rank s.rank s.berth f h)
theorem gain (s : State) : SameWord s s.gain := by
  have acq : SameWord s (s.acquire s.rank) := modMyCore s _ fun _ => rfl
  unfold State.gain
  dsimp only
  split
  · exact acq
  · have up := acq.trans (modMe (s.acquire s.rank) (fun b => { b with readyAt := Nat.max b.readyAt (s.cycle + 33) }) (fun _ => rfl) fun _ h => h)
    split
    · exact up.trans (modMyCore _ _ fun _ => rfl)
    · exact up
theorem moor (s : State) : SameWord s s.moor :=
  modMe s _ (fun _ => rfl) fun b h => by simp [h]
theorem pop (s : State) (r : BitVec 5) : SameWord s (s.pop r) := by
  unfold State.pop
  dsimp only
  split
  · exact refl s
  · exact ((modMe s (fun t => { t with ports := vset t.ports _ _ }) (fun _ => rfl) fun _ h => h).trans (gain _)).trans (moor _)
theorem pops (s : State) (l : List (BitVec 5)) : SameWord s (s.pops l) :=
  pops_keeps (SameWord s) (refl s) (fun _ r h => h.trans (pop _ r)) l
end SameWord

/-- After sources are read and caches filled, the instruction completes as any other. -/
theorem next_after_pops {s t : State} (hp : Plain s) (srcs : List (BitVec 5)) (h : SameBerths (s.pops srcs) t) :
    t.next.me.pc = s.me.pc + 4 ∧ t.next.myCore.instret = s.myCore.instret + 1 := by
  have hw := (SameWord.pops s srcs).trans (SameWord.of_me h.me)
  have hplain : Plain t := ⟨hw.rpt hp.1, h.place.buffered.trans ((SamePlace.pops s srcs).buffered.trans hp.2)⟩
  refine ⟨?_, next_instret ((SameInstret.pops s srcs).trans h.sameInstret) _⟩
  rw [next_me hplain]
  exact congrArg (· + 4) hw.pc

/-! ### Prefetches (R193) -/

section
variable {s : State} {a : BitVec 5} {k : Kind} {fill : State → Who → Nat → Word → Nat → State}
/-- A prefetch completes, whether it fills or is dropped. -/
theorem prefetch_completes (hr : InReady s a) (hp : Plain s) (hfill : ∀ t w va p pa, SameBerths t (fill t w va p pa)) :
    ∃ t, prefetch a k fill s = .next t ∧ t.me.pc = s.me.pc + 4 ∧ t.myCore.instret = s.myCore.instret + 1 := by
  unfold prefetch
  dsimp only
  rw [putS_ready _ (by simpa using hr)]
  refine ⟨_, rfl, next_after_pops hp [a] ?_⟩
  split
  · exact SameBerths.dropped _
  · split
    · exact (SameBerths.xlate _ _ _ _ _).trans (SameBerths.dropped _)
    · exact (SameBerths.xlate _ _ _ _ _).trans (hfill _ _ _ _ _)
/-- One outside the global windows is dropped. -/
theorem prefetch_outside (hr : InReady s a) (h : 13 * 2 ^ 48 ≤ (s.rx a).toNat) : prefetch a k fill s = .next (s.pops [a]).dropped.next := by
  unfold prefetch
  dsimp only
  rw [putS_ready _ (by simpa using hr), if_pos h]
end

theorem exec_icpf (a : BitVec 5) (s : State) :
    exec (.icpf a) s = prefetch a .exec (fun u w va p pa => u.fillIcache w.rank w.asid va p pa) s := rfl
theorem exec_pfd_open {s : State} (a : BitVec 5) (h : s.myCore.l1Busy ≤ s.cycle) : exec (.pfd a) s
    = prefetch a .read (fun u w va p pa => if pteDev p ∨ isFarClm pa then u else u.fillSector w.rank w.asid va p pa) s :=
  if_neg (Nat.not_lt.2 h)
theorem exec_pfd_clearing {s : State} (a : BitVec 5) (h : s.cycle < s.myCore.l1Busy) : exec (.pfd a) s = .next (s.block .slow) := if_pos h

/-! ### Cache operations: their times -/

section
variable {s : State} {a b : BitVec 5} {lev : BitVec 2} {clean inv : Bool}
/-- Over an empty range a cache operation reads its sources and moves on. -/
theorem cmo_empty (hr : ∀ r ∈ [a, b], InReady s r) (h : s.rx b = 0) : cmo a b lev clean inv s = .next (s.pops [a, b]).next := by
  unfold cmo
  simp only [checkIns_ok hr, bind, Except.bind]
  rw [if_pos (.inr (by rw [h]; rfl)), finish_ok, done_short rfl (le_refl 8) rfl]
  simp [put]
end


/-- `f` on the mapped pages of [lo, hi), one after another. -/
def overPages (s : State) (f : State → Nat → Nat → State) (lo hi : Nat) : State :=
  s.cmoPages (clusterOf s.rank) s.who f (lo / 65536) ((hi + 65535) / 65536 - lo / 65536)
theorem overPages_sameBerths {f : State → Nat → Nat → State} (h : ∀ t va pa, SameBerths t (f t va pa)) (s : State) (lo hi : Nat) :
    SameBerths s (overPages s f lo hi) := SameBerths.cmoPages h _ _ _ _ _
/-- What a cache operation does on one page at L1, and at the cluster cache. -/
def l1Page (s : State) (lo hi : Nat) (clean inv : Bool) (t : State) (va _pa : Nat) : State :=
  t.cmoL1 s.rank s.who.asid (Nat.max lo va) (Nat.min hi (va + 65536)) clean inv
def basinPage (s : State) (lo hi : Nat) (inv : Bool) (t : State) (va pa : Nat) : State :=
  if inv then t.cmoBasin (clusterOf s.rank) lo hi va pa else t

section
variable {s : State} {a b : BitVec 5} {lo hi : Nat} (clean inv : Bool) (hr : ∀ r ∈ [a, b], InReady s r) (hlo : (s.rx a).toNat = lo)
  (hhi : min (lo + (s.rx b).toNat) (13 * 2 ^ 48) = hi) (hlt : lo < hi)
include hr hlo hhi hlt
/-- Over a range that is not empty a cache operation goes by its level. -/
theorem cmo_of_range (lev : BitVec 2) : cmo a b lev clean inv s = s.finish
    (if lev = 0 then
      if s.cycle < s.myCore.l1Busy then waitFor .slow
      else .ok ((overPages s (l1Page s lo hi clean inv) lo hi).done
        (32 + if (if clean then s.cmoDirty s.rank s.who.asid lo hi else 0) = 0 then 0
          else 4 * (if clean then s.cmoDirty s.rank s.who.asid lo hi else 0) + 110) { srcs := [a, b] })
    else if lev = 1 then .ok ((overPages s (basinPage s lo hi inv) lo hi).done ((hi + 1023) / 1024 - lo / 1024 + 36) { srcs := [a, b] })
    else .ok ((overPages s (fun t _ _ => t) lo hi).done (llcCmoTime s lo ((hi + 1023) / 1024 - lo / 1024)) { srcs := [a, b] })) := by
  have hrange : ¬ (hi ≤ lo ∨ (s.rx b).toNat = 0) := by omega
  unfold cmo
  dsimp only
  rw [hlo, show Nat.min (lo + (s.rx b).toNat) (13 * 2 ^ 48) = hi from hhi, checkIns_ok hr]
  simp only [bind, Except.bind]
  rw [if_neg hrange]
  rfl
theorem cmo_l1 (hopen : s.myCore.l1Busy ≤ s.cycle) : cmo a b 0 clean inv s = .next ((overPages s (l1Page s lo hi clean inv) lo hi).done
    (if clean = false ∨ s.cmoDirty s.rank s.who.asid lo hi = 0 then 32 else 32 + (4 * s.cmoDirty s.rank s.who.asid lo hi + 110))
    { srcs := [a, b] }) := by
  rw [cmo_of_range clean inv hr hlo hhi hlt, if_pos rfl, if_neg (Nat.not_lt.2 hopen), finish_ok]
  generalize s.cmoDirty s.rank s.who.asid lo hi = k
  cases clean
  · rfl
  · by_cases hk : k = 0 <;> simp [hk]
theorem cmo_l1_clearing (hbusy : s.cycle < s.myCore.l1Busy) : cmo a b 0 clean inv s = .next (s.block .slow) := by
  rw [cmo_of_range clean inv hr hlo hhi hlt, if_pos rfl, if_pos hbusy]
  rfl
theorem cmo_basin : cmo a b 1 clean inv s = .next
    ((overPages s (basinPage s lo hi inv) lo hi).done ((hi + 1023) / 1024 - lo / 1024 + 36) { srcs := [a, b] }) := by
  rw [cmo_of_range clean inv hr hlo hhi hlt, if_neg (by decide), if_pos rfl, finish_ok]
theorem cmo_llc : cmo a b 2 clean inv s = .next
    ((overPages s (fun t _ _ => t) lo hi).done (llcCmoTime s lo ((hi + 1023) / 1024 - lo / 1024)) { srcs := [a, b] }) := by
  rw [cmo_of_range clean inv hr hlo hhi hlt, if_neg (by decide), if_neg (by decide), finish_ok]
end

/-- The work of a cache operation on one page leaves the berths alone. -/
theorem l1Page_sameBerths (s : State) (lo hi : Nat) (clean inv : Bool) (t : State) (va pa : Nat) :
    SameBerths t (l1Page s lo hi clean inv t va pa) := SameBerths.cmoL1 t _ _ _ _ _ _
theorem basinPage_sameBerths (s : State) (lo hi : Nat) (inv : Bool) (t : State) (va pa : Nat) :
    SameBerths t (basinPage s lo hi inv t va pa) := by
  unfold basinPage
  split
  · exact SameBerths.cmoBasin t _ _ _ _ _
  · exact SameBerths.refl t

theorem cacheOperations : Spec.CacheOperations := by
  intro s a b l hr hp does lo hi lines
  have ha : InReady s a := hr.1 a (by simp)
  refine ⟨?_, fun hopen => ?_,
    exec_pfd_clearing a, fun hlt i hmem => ?_, fun hopen hout => ?_, fun hb => ⟨cmo_empty hr.1 hb, cmo_empty hr.1 hb, cmo_empty hr.1 hb⟩⟩
  · show ∃ t, exec (.icpf a) s = _ ∧ _
    rw [exec_icpf]
    exact prefetch_completes ha hp fun t w va p pa => SameBerths.fillIcache t _ _ _ _ _
  · show ∃ t, exec (.pfd a) s = _ ∧ _
    rw [exec_pfd_open a hopen]
    refine prefetch_completes ha hp fun t w va p pa => ?_
    split
    · exact SameBerths.refl t
    · exact SameBerths.fillSector t _ _ _ _ _
  · obtain ⟨clean, inv, hexec, hinv⟩ : ∃ clean inv, exec i s = cmo a b l clean inv s ∧ (i = .cmoInv a b l ↔ clean = false) := by
      simp only [List.mem_cons, List.not_mem_nil, or_false] at hmem
      obtain rfl | rfl | rfl := hmem
      · exact ⟨true, false, rfl, by simp⟩
      · exact ⟨false, true, rfl, by simp⟩
      · exact ⟨true, true, rfl, by simp⟩
    rw [hexec]
    simp only [hinv]
    refine ⟨?_, ?_, ?_, ?_⟩
    · rintro rfl hopen
      have h := overPages_sameBerths (l1Page_sameBerths s lo hi clean inv) s lo hi
      exact ⟨_, h.me, h.place.cycle, cmo_l1 clean inv hr.1 rfl rfl hlt hopen⟩
    · rintro rfl hbusy
      exact cmo_l1_clearing clean inv hr.1 rfl rfl hlt hbusy
    · rintro rfl
      have h := overPages_sameBerths (basinPage_sameBerths s lo hi inv) s lo hi
      exact ⟨_, cmo_basin clean inv hr.1 rfl rfl hlt, h.me, h.place.cycle⟩
    · rintro rfl
      have h := overPages_sameBerths (f := fun t _ _ => t) (fun t _ _ => SameBerths.refl t) s lo hi
      exact ⟨_, Nat.min lines (Config.llcDirty s.cycle (lo / 1024)), Nat.min_le_left _ _, cmo_llc clean inv hr.1 rfl rfl hlt, h.me,
        h.place.cycle⟩
  · rw [exec_pfd_open a hopen, exec_icpf]
    exact ⟨prefetch_outside ha hout, prefetch_outside ha hout⟩
end Sys2Proof.Machine
end

section
/-! PROOFS OF THE SCOPE. What a cache operation does to the lines of its range (R184, R197). -/
namespace Sys2Proof.Machine
open State Sys2Proof.Spec

/-! ### The sectors of a line -/

/-- The bytes of a sector, as a mask of the line. -/
theorem getLsbD_secMask (k : Nat) {i : Nat} (hi : i < 1024) : (secMask k).getLsbD i = decide (i / 128 = k) := by
  unfold secMask
  rw [BitVec.getLsbD_ofNat, decide_eq_true hi, Bool.true_and, Nat.testBit_mul_two_pow]
  by_cases h : 128 * k ≤ i
  · rw [decide_eq_true h, Bool.true_and, Nat.testBit_two_pow_sub_one]
    exact decide_eq_decide.2 (by omega)
  · rw [decide_eq_false h, Bool.false_and]
    exact (decide_eq_false (by omega)).symm
/-- The mask of a range holds each sector that meets it. -/
theorem secMask_le_cmoMask {l : Line} {asid lo hi k : Nat} (hk : sectorIn l asid lo hi k = true) {n : Nat} (hn : k < n) {i : Nat}
    (hbit : (secMask k).getLsbD i = true) : (cmoMask l asid lo hi n).getLsbD i = true := by
  induction n with
  | zero => omega
  | succ n ih =>
    unfold cmoMask
    rw [BitVec.getLsbD_or]
    obtain h | rfl : k < n ∨ k = n := by omega
    · rw [ih h, Bool.true_or]
    · rw [if_pos hk, hbit, Bool.or_true]
/-- It is empty where none does. -/
theorem cmoMask_eq_zero {l : Line} {asid lo hi : Nat} (n : Nat) (h : ∀ k < n, sectorIn l asid lo hi k = false) : cmoMask l asid lo hi n = 0 := by
  induction n with
  | zero => rfl
  | succ n ih =>
    unfold cmoMask
    rw [ih fun k hk => h k (Nat.lt_succ_of_lt hk), h n (Nat.lt_succ_self n), if_neg Bool.false_ne_true]
    exact BitVec.or_zero
/-- A mask without the range's bytes has none of a sector that meets it. -/
theorem outside_cmoMask {l : Line} {asid lo hi k : Nat} (hk : sectorIn l asid lo hi k = true) (hk8 : k < 8) (x : BitVec 1024) :
    x &&& ~~~cmoMask l asid lo hi 8 &&& secMask k = 0 := by
  apply BitVec.eq_of_getLsbD_eq
  intro i hi
  rw [BitVec.getLsbD_and, BitVec.getLsbD_and, BitVec.getLsbD_not]
  cases hs : (secMask k).getLsbD i
  · rw [Bool.and_false, BitVec.ofNat_eq_ofNat, BitVec.getLsbD_zero]
  · rw [secMask_le_cmoMask hk hk8 hs, Bool.not_true, Bool.and_false, Bool.and_false, Bool.false_and, BitVec.ofNat_eq_ofNat,
      BitVec.getLsbD_zero]

/-! ### The lines of L1 after a cache operation -/

/-- What one leaves of a line. -/
def afterCmo (asid lo hi : Nat) (inv : Bool) (l : Line) : Line :=
  if cmoMask l asid lo hi 8 = 0 then l
  else l.only (if inv then l.valid &&& ~~~cmoMask l asid lo hi 8 else l.valid) (l.dirty &&& ~~~cmoMask l asid lo hi 8)
theorem cmoLine_cores (clean : Bool) (asid lo hi : Nat) (s : State) (l : Line) : (cmoLine clean asid lo hi s l).cores = s.cores := by
  unfold cmoLine
  split
  · refine iter_keeps (fun t : State => t.cores = s.cores) _ _ _ rfl fun k t _ h => ?_
    split
    · rw [cleanSector_cores, h]
    · exact h
  · rfl
theorem cmoL1_l1 (u : State) (r asid lo hi : Nat) (clean inv : Bool) :
    ((u.cmoL1 r asid lo hi clean inv).core r).l1 = (u.core r).l1.map (afterCmo asid lo hi inv) := by
  have hcores : ((u.core r).l1.foldl (cmoLine clean asid lo hi) u).cores = u.cores :=
    foldl_keeps (fun t : State => t.cores = u.cores) _ _ u rfl fun t l _ h => (cmoLine_cores clean asid lo hi t l).trans h
  unfold cmoL1
  rw [core_modCore_self, core_of_cores hcores]
  rfl
theorem sectorIn_afterCmo (asid lo hi : Nat) (inv : Bool) (l : Line) (k : Nat) :
    sectorIn (afterCmo asid lo hi inv l) asid lo hi k = sectorIn l asid lo hi k := by
  unfold afterCmo
  split <;> rfl
/-- Of a sector that meets the range no byte stays dirty, nor valid where it is invalidated. -/
theorem afterCmo_inside {asid lo hi k : Nat} {l : Line} (inv : Bool) (hk : sectorIn l asid lo hi k = true) (hk8 : k < 8) :
    (afterCmo asid lo hi inv l).dirty &&& secMask k = 0 ∧ (inv = true → (afterCmo asid lo hi inv l).valid &&& secMask k = 0) := by
  have hout := outside_cmoMask hk hk8
  unfold afterCmo
  split
  next h0 =>
    have hall (x : BitVec 1024) : x &&& secMask k = 0 := by
      have hx := hout x
      rwa [h0, BitVec.ofNat_eq_ofNat, BitVec.not_zero, BitVec.and_allOnes] at hx
    exact ⟨hall _, fun _ => hall _⟩
  next => exact ⟨hout _, fun hinv => by simpa [hinv, Line.only] using hout l.valid⟩
theorem afterCmo_outside {asid lo hi : Nat} {l : Line} (inv : Bool) (h : ∀ k < 8, sectorIn l asid lo hi k = false) :
    afterCmo asid lo hi inv l = l := if_pos (cmoMask_eq_zero 8 h)
/-- A clean leaves the line's bytes and which are valid. -/
theorem afterCmo_cleaned (asid lo hi : Nat) (l : Line) :
    (afterCmo asid lo hi false l).valid = l.valid ∧ (afterCmo asid lo hi false l).data = l.data := by
  unfold afterCmo
  split <;> exact ⟨rfl, rfl⟩

/-! ### The bytes of memory that a clean reaches -/

/-- A step that brings about P, among steps that keep it and keep Q, which it needs. -/
theorem iter_reaches {σ : Type} (Q P : σ → Prop) (f : Nat → σ → σ) {n j : Nat} {s : σ} (hs : Q s) (hj : j < n)
    (keepQ : ∀ i t, Q t → Q (f i t)) (reach : ∀ t, Q t → P (f j t)) (keepP : ∀ i t, Q t → P t → P (f i t)) : P (iter f n s) := by
  have hQ (m : Nat) : Q (iter f m s) := iter_keeps Q f m s hs fun i t _ h => keepQ i t h
  induction n with
  | zero => omega
  | succ n ih =>
    obtain h | rfl : j < n ∨ j = n := by omega
    · exact keepP n _ (hQ n) (ih h)
    · exact reach _ (hQ j)

/-- Memory holds byte i of the line at its home. -/
def HasByte (l : Line) (i : Nat) (s : State) : Prop := s.readByte (.hbm (l.pa * 1024 + i)) = l.byte i
theorem hasByte_of_mem {l : Line} {i : Nat} {s t : State} (h : t.mem = s.mem) (hs : HasByte l i s) : HasByte l i t := by
  unfold HasByte readByte at *
  rw [h]
  exact hs
theorem cleanUnit_mem (l : Line) (u : Nat) (s : State) : (cleanUnit l u s).mem = s.mem := by
  unfold cleanUnit
  dsimp only
  split
  · rfl
  · split
    · exact setPoison_mem s _ _
    · split
      · exact setPoison_mem s _ _
      · rfl
theorem cleanByte_reaches {l : Line} {i : Nat} (hd : l.dirty.getLsbD i = true) {s : State} (hs : s.memOk) : HasByte l i (cleanByte l i s) := by
  unfold HasByte cleanByte
  rw [if_pos hd, readByte_writeByte_hbm s _ _ _ hs, if_pos rfl]
theorem cleanByte_hasByte {l : Line} {i : Nat} (j : Nat) {s : State} (hs : s.memOk) (h : HasByte l i s) : HasByte l i (cleanByte l j s) := by
  unfold cleanByte
  split
  · unfold HasByte
    rw [readByte_writeByte_hbm s _ _ _ hs]
    split
    next e => rw [show j = i by omega]
    next => exact h
  · exact h
theorem cleanSector_hasByte {l : Line} {i : Nat} (k : Nat) {s : State} (hs : s.memOk) (h : HasByte l i s) : HasByte l i (s.cleanSector l k) := by
  unfold cleanSector
  split
  · exact h
  · refine iter_keeps (HasByte l i) _ _ _ ?_ fun u t _ ht => hasByte_of_mem (cleanUnit_mem l _ t) ht
    exact (iter_keeps (fun t => t.memOk ∧ HasByte l i t) _ _ _ ⟨hs, h⟩
      fun j t _ ht => ⟨memOk_cleanByte l _ ht.1, cleanByte_hasByte _ ht.1 ht.2⟩).2
/-- A sector's clean brings its dirty bytes to memory. -/
theorem cleanSector_reaches {l : Line} {i : Nat} (hi : i < 1024) (hd : l.dirty.getLsbD i = true) {s : State} (hs : s.memOk) :
    HasByte l i (s.cleanSector l (i / 128)) := by
  have hdirty : l.dirty &&& secMask (i / 128) ≠ 0 := by
    intro h
    have hbit := congrArg (fun x : BitVec 1024 => x.getLsbD i) h
    simp [BitVec.getLsbD_and, hd, getLsbD_secMask _ hi] at hbit
  have hmine : 128 * (i / 128) + i % 128 = i := by omega
  unfold cleanSector
  rw [if_neg hdirty]
  refine iter_keeps (HasByte l i) _ _ _ ?_ fun u t _ ht => hasByte_of_mem (cleanUnit_mem l _ t) ht
  refine iter_reaches memOk (HasByte l i) _ hs (Nat.mod_lt i (by decide)) (fun j t ht => memOk_cleanByte l _ ht) (fun t ht => ?_)
    fun j t ht h => cleanByte_hasByte _ ht h
  rw [hmine]
  exact cleanByte_reaches hd ht
/-- So does the clean of the sectors of a range. -/
theorem cmoLine_reaches {l : Line} {asid lo hi i : Nat} (hi' : i < 1024) (hd : l.dirty.getLsbD i = true)
    (hk : sectorIn l asid lo hi (i / 128) = true) {s : State} (hs : s.memOk) : HasByte l i (cmoLine true asid lo hi s l) := by
  unfold cmoLine
  rw [if_pos rfl]
  refine iter_reaches memOk (HasByte l i) _ hs (j := i / 128) (by omega) (fun k t ht => ?_) (fun t ht => ?_) fun k t ht h => ?_
  · split
    · exact memOk_cleanSector l k ht
    · exact ht
  · rw [if_pos hk]
    exact cleanSector_reaches hi' hd ht
  · split
    · exact cleanSector_hasByte k ht h
    · exact h
/-- One that does not clean writes no byte. -/
theorem cmoL1_mem_of_invalidate (u : State) (r asid lo hi : Nat) (inv : Bool) : (u.cmoL1 r asid lo hi false inv).mem = u.mem := by
  have hfold : (u.core r).l1.foldl (cmoLine false asid lo hi) u = u :=
    foldl_keeps (· = u) _ _ u rfl fun t l _ h => h
  unfold cmoL1
  rw [hfold]
  rfl
theorem cmoL1_lines (u : State) (r asid lo hi : Nat) (clean inv : Bool) :
    let t := u.cmoL1 r asid lo hi clean inv
    (∀ l ∈ (t.core r).l1, ∀ k < 8, sectorIn l asid lo hi k = true →
      l.dirty &&& secMask k = 0 ∧ (inv = true → l.valid &&& secMask k = 0)) ∧
    (∀ l ∈ (u.core r).l1, (∀ k < 8, sectorIn l asid lo hi k = false) → l ∈ (t.core r).l1) ∧
    (clean = false → t.mem = u.mem) ∧
    (∀ l, (u.core r).l1 = [l] → u.memOk →
      (clean = true → ∀ i < 1024, sectorIn l asid lo hi (i / 128) = true → l.dirty.getLsbD i = true →
        t.readByte (.hbm (l.pa * 1024 + i)) = l.byte i) ∧
      (inv = false → ∃ k ∈ (t.core r).l1, k.valid = l.valid ∧ k.data = l.data)) := by
  intro t
  have hl1 : (t.core r).l1 = _ := cmoL1_l1 u r asid lo hi clean inv
  rw [hl1]
  refine ⟨fun l hl k hk hin => ?_, fun l hl hout => ?_, ?_, fun l hl hm => ⟨?_, ?_⟩⟩
  · obtain ⟨l0, -, rfl⟩ := List.mem_map.1 hl
    rw [sectorIn_afterCmo] at hin
    exact afterCmo_inside inv hin hk
  · exact List.mem_map.2 ⟨l, hl, afterCmo_outside inv hout⟩
  · rintro rfl
    exact cmoL1_mem_of_invalidate u r asid lo hi inv
  · rintro rfl i hi' hin hd
    have h := cmoLine_reaches hi' hd hin hm
    have ht : t.mem = (cmoLine true asid lo hi u l).mem := by
      unfold t cmoL1
      rw [hl]
      rfl
    exact hasByte_of_mem ht h
  · rintro rfl
    rw [hl]
    exact ⟨_, List.mem_singleton.2 rfl, afterCmo_cleaned asid lo hi l⟩
/-- The lines of the range on a page leave the cluster cache. -/
theorem cmoBasin_lines (u : State) (cl lo hi va pa : Nat) : ∀ l ∈ ((u.cmoBasin cl lo hi va pa).cluster cl).bcache,
    pa ≤ l.pa * 1024 → l.pa * 1024 < pa + 65536 → ¬ (l.pa * 1024 - pa + va < hi ∧ lo < l.pa * 1024 - pa + va + 1024) := by
  intro l hl h1 h2 h3
  unfold cmoBasin at hl
  rw [cluster_modCluster_self] at hl
  have hkept := (List.mem_filter.1 hl).2
  simp only [Bool.not_eq_true', decide_eq_false_iff_not] at hkept
  exact hkept ⟨h1, h2, h3⟩

/-! ### A range in one mapped page -/

theorem overPages_one {s u : State} {lo hi pa : Nat} (f : State → Nat → Nat → State) (hlt : lo < hi) (hpage : lo / 65536 = (hi - 1) / 65536)
    (hmap : s.mapped (clusterOf s.rank) s.who (lo / 65536 * 65536) = (u, some pa)) :
    overPages s f lo hi = f u (lo / 65536 * 65536) pa := by
  have hone : (hi + 65535) / 65536 - lo / 65536 = 1 := by omega
  unfold overPages
  rw [hone]
  unfold cmoPages
  rw [hmap]
  rfl
theorem l1Page_one {s : State} {lo hi : Nat} (clean inv : Bool) (u : State) (pa : Nat) (hpage : lo / 65536 = (hi - 1) / 65536) :
    l1Page s lo hi clean inv u (lo / 65536 * 65536) pa = u.cmoL1 s.rank s.who.asid lo hi clean inv := by
  have hlo : Nat.max lo (lo / 65536 * 65536) = lo := Nat.max_eq_left (Nat.div_mul_le_self lo _)
  have hhi : Nat.min hi (lo / 65536 * 65536 + 65536) = hi := Nat.min_eq_left (by omega)
  unfold l1Page
  rw [hlo, hhi]

theorem cacheLines : Spec.CacheLines := by
  intro s u a b pa hr lo hi as did hlt htop hpage hmap
  have hhi : min (lo + (s.rx b).toNat) (13 * 2 ^ 48) = hi := Nat.min_eq_left htop
  have l1 (clean inv : Bool) (hopen : s.myCore.l1Busy ≤ s.cycle) : ∃ (t : State) (n : Nat),
      cmo a b 0 clean inv s = .next (t.done n { srcs := [a, b] }) ∧ t = u.cmoL1 s.rank as lo hi clean inv :=
    ⟨_, _, cmo_l1 clean inv hr.1 rfl hhi hlt hopen, (overPages_one _ hlt hpage hmap).trans (l1Page_one clean inv u pa hpage)⟩
  have basin (clean inv : Bool) : ∃ (t : State) (n : Nat), cmo a b 1 clean inv s = .next (t.done n { srcs := [a, b] }) ∧
      t = basinPage s lo hi inv u (lo / 65536 * 65536) pa :=
    ⟨_, _, cmo_basin clean inv hr.1 rfl hhi hlt, overPages_one _ hlt hpage hmap⟩
  have llc (clean inv : Bool) : ∃ (t : State) (n : Nat), cmo a b 2 clean inv s = .next (t.done n { srcs := [a, b] }) ∧ t = u :=
    ⟨_, _, cmo_llc clean inv hr.1 rfl hhi hlt, overPages_one _ hlt hpage hmap⟩
  have invalidated (clean : Bool) : ∃ (t : State) (n : Nat), cmo a b 1 clean true s = .next (t.done n { srcs := [a, b] }) ∧
      (t = u.cmoBasin (clusterOf s.rank) lo hi (lo / 65536 * 65536) pa ∧ ∀ l ∈ (t.cluster (clusterOf s.rank)).bcache,
        pa ≤ l.pa * 1024 → l.pa * 1024 < pa + 65536 →
          ¬ (l.pa * 1024 - pa + lo / 65536 * 65536 < hi ∧ lo < l.pa * 1024 - pa + lo / 65536 * 65536 + 1024)) := by
    obtain ⟨t, n, hexec, rfl⟩ := basin clean true
    exact ⟨_, n, hexec, rfl, cmoBasin_lines u (clusterOf s.rank) lo hi (lo / 65536 * 65536) pa⟩
  refine ⟨fun hopen => ⟨l1 true false hopen, l1 false true hopen, l1 true true hopen⟩, basin true false, llc true false, llc false true,
    llc true true, fun i hi => ?_, fun clean inv => cmoL1_lines u s.rank as lo hi clean inv⟩
  simp only [List.mem_cons, List.not_mem_nil, or_false] at hi
  obtain rfl | rfl := hi
  · exact invalidated false
  · exact invalidated true

/-- Settles O17: the accesses of the core's own CLM by the lanes that each performs, cache operations by the work on each page of
their range. -/
theorem vectorMemory : Obligations.VectorMemory := ⟨vectorMemoryOperations, cacheOperations, cacheLines⟩
end Sys2Proof.Machine
end
